-- ==== Sys2Proof/Word.lean ====
section
/-! DEFINITION. The word types of the block and the sparse map its memories and registers are held in. -/

namespace Sys2Proof

/-- One 32-bit register word (R5: all software-visible registers are 32 bits wide). -/
abbrev Word := BitVec 32

/-- One byte of a frame or of a memory. -/
abbrev Byte := BitVec 8

/-- A sparse store: (key, value) pairs in strictly rising key order, with no entry equal to what an
unlisted key reads as. `Machine/Maps.lean` holds its operations, `Laws/Maps.lean` the proof that they
keep this form. -/
abbrev Map (α : Type) := List (Nat × α)


/-- What the check bits say of a word that is read (R2, R393): clean, one bit corrected, or uncorrectable. -/
inductive Ecc where
  | clean | corrected | bad
  deriving DecidableEq, Repr

/-- The numbered reads of a command that are not clean, each with what its check bits say. -/
abbrev Reads (n : Nat) := List (Fin n × Ecc)

end Sys2Proof
end

