-- ==== Sys2Proof/Syntax.lean ====
section
/-! DEFINITION. The commands of the block: one constructor per row of the opcode table, with the row's operands.
Numbers of ports, pages, clusters, threads, slots and windows are bounded by their types; what the outside
brings (frame bytes, cell bytes, sensor readings, the ECC outcome of a memory read) arrives as an operand. -/

namespace Sys2Proof

/-- A command of the block. -/
inductive Instr where
  /-- REG_WRITE (R7): A host write to a register or field with no step of its own is judged field by field and takes effect under its access codes. -/
  | regWrite (bar : Fin 3) (addr : Nat) (data : Word) (be : BitVec 4) (req : BitVec 16)
  /-- PAIR_LOW_READ (R6): Reading the low word of a 64-bit pair latches its high word. -/
  | pairLowRead (page : Fin 256) (dw : Fin 16384) (req : BitVec 16)
  /-- PAIR_HIGH_READ (R6): Reading the high word returns the latched value, or the live value with ORDER recorded when no latch is held. -/
  | pairHighRead (page : Fin 256) (dw : Fin 16384) (req : BitVec 16)
  /-- PAIR_LOW_WRITE (R6): Writing the low word of a 64-bit pair holds it without effect. -/
  | pairLowWrite (page : Fin 256) (dw : Fin 16384) (data : Word) (be : BitVec 4) (req : BitVec 16)
  /-- PAIR_HIGH_WRITE (R6): Writing the high word commits both halves of a 64-bit pair in one update. -/
  | pairHighWrite (page : Fin 256) (dw : Fin 16384) (data : Word) (be : BitVec 4) (req : BitVec 16)
  /-- RC_READ (R7): A read of an RC field returns its value and clears it, keeping a same-cycle hardware update. -/
  | rcRead (bar : Fin 3) (addr : Nat) (req : BitVec 16)
  /-- INT_SET (R21): A write of 1 to INT_SET sets the same INT_STAT bit with all the effects of the event. -/
  | intSet (page : Fin 256) (data : Word) (req : BitVec 16)
  /-- CAPTURE_REARM (R22): Writing 1 to ERR_CAP0.VALID clears VALID and OVF and re-arms capture. -/
  | captureRearm (page : Fin 256) (data : Word) (req : BitVec 16)
  /-- SHADOW_DISCARD (R70): A write of SHADOW_CTL.DISCARD returns every shadowed register of the page to its applied value. -/
  | shadowDiscard (page : Fin 256) (req : BitVec 16)
  /-- FN_START (R65): A START written to FN_CTRL is checked under R66 and moves the function towards STARTING or sets or clears PENDING. -/
  | fnStart (page : Fin 256) (req : BitVec 16)
  /-- FN_STOP (R65): A STOP written to FN_CTRL is checked under R66 and moves the function towards STOPPING or sets or clears PENDING. -/
  | fnStop (page : Fin 256) (req : BitVec 16)
  /-- FN_START_DONE (R67): A function finishes STARTING and goes to RUNNING, or fails and returns to STOPPED. -/
  | fnStartDone (page : Fin 256)
  /-- FN_STOP_DONE (R68): A function has completed or flushed its work and returned its resources, and reaches STOPPED. -/
  | fnStopDone (page : Fin 256)
  /-- MSIX_UNMASK (R36): Unmasking an MSI-X vector sends a message whose pending bit is set. -/
  | msixUnmask (vector : Fin 2048)
  /-- CS_WORD_WRITE (R29): A write to words 0-4 of a control-store microword is held. -/
  | csWordWrite (c : Fin 64) (a : Fin 16384) (k : Fin 5) (data : Word) (be : BitVec 4) (req : BitVec 16)
  /-- CS_COMMIT (R29): A write to word 5 commits the whole microword, subject to the domain and function-state conditions of R146. -/
  | csCommit (c : Fin 64) (a : Fin 16384) (data : Word) (be : BitVec 4) (req : BitVec 16)
  /-- CS_WORD0_READ (R29): Reading word 0 of a microword latches the whole microword for reads of words 1-5. -/
  | csWord0Read (c : Fin 64) (a : Fin 16384) (req : BitVec 16)
  /-- APERTURE_READ (R31): A BAR2 aperture read is judged against its target and served from the target byte. -/
  | apertureRead (n : Fin 16) (dw : Fin 4194304) (ecc : Ecc) (req : BitVec 16)
  /-- APERTURE_WRITE (R31): A BAR2 aperture write is judged against its target and applied atomically per 32-bit word. -/
  | apertureWrite (n : Fin 16) (dw : Fin 4194304) (data : Word) (be : BitVec 4) (req : BitVec 16)
  /-- EW_READ (R33): EW_CMD OP 1 sets BUSY and starts a copy of the whole entry into EW_DATA. -/
  | ewRead (w : Fin 256) (req : BitVec 16)
  /-- EW_WRITE (R33): EW_CMD OP 2 sets BUSY and starts applying EW_DATA to the entry in one update. -/
  | ewWrite (w : Fin 256) (req : BitVec 16)
  /-- EW_DONE (R33): An entry-window operation completes, clearing BUSY and setting DONE, or ERROR with CODE. -/
  | ewDone (w : Fin 256) (ecc : Ecc)
  /-- EW_TIMEOUT (R33): No response has come from the target within 1 ms, and the operation ends with CODE 0x5. -/
  | ewTimeout (w : Fin 256)
  /-- EW_LATE (R33): A response that arrives after CODE 0x5 has been reported is discarded and counted. -/
  | ewLate (w : Fin 256)
  /-- STANDBY_IN_RANGE (R38): The standby input enters 3.3 V ± 5%, which starts the service island's 10 ms reset. -/
  | standbyInRange
  /-- ISLAND_START (R38): The service island leaves reset 10 ms after the standby input is in range and SYS_RST_N is released. -/
  | islandStart (id : Fin 4)
  /-- MAIN_INPUT_VALID (R39): The main input has stayed in range for 10 ms and, with the island running, the start-up sequence begins. -/
  | mainInputValid
  /-- BUS_IN_REGULATION (R39): The 6 V intermediate bus reaches regulation during start-up. -/
  | busInRegulation
  /-- ROOT_PLL_LOCK (R54): The root PLL reports lock, defining tick 0, and the core clocks start. -/
  | rootPllLock
  /-- INPUT_LOSS (R40): An undervoltage, overvoltage or overcurrent has lasted its qualifying time, and every domain loses power. -/
  | inputLoss (cause : Fin 3)
  /-- WATCHDOG_TRIP (R43): The control island has received no valid frame for 1 ms and switches every domain off, then the first stage. -/
  | watchdogTrip
  /-- POWER_LINK_RETRY (R42): A power-link attempt fails and the command is retried, up to three times. -/
  | powerLinkRetry
  /-- LINK_TIMEOUT (R42): A power-link command fails all attempts or reaches its 40 µs timeout, and is reported failed. -/
  | linkTimeout (dom : Option (Fin 30))
  /-- POWER_LINK_LATE (R42): A power-link response that arrives after the timeout is discarded and counted in PWR_LINK.LATE. -/
  | powerLinkLate
  /-- TELEMETRY_UPDATE (R44): Every 100 µs each telemetry register takes the mean of the last 100 µs. -/
  | telemetryUpdate (supply : List Word) (rails : List Word) (temps : List (BitVec 12))
  /-- THERMAL_TRIP (R45): A junction sensor reaches 115 °C, and every domain except PD29 is switched off. -/
  | thermalTrip (sensor : Fin 16)
  /-- THERMAL_TRIP_END (R45): Every sensor reads below PWR_TEMP_WARN, and domains may be requested again. -/
  | thermalTripEnd
  /-- DOMAIN_REQUEST (R49): A write to PWR_DOM_REQ is checked against mode and prerequisites, and accepted changes are queued for the sequencer. -/
  | domainRequest (data : Word) (be : BitVec 4) (req : BitVec 16)
  /-- DOMAIN_RAMP_START (R47): The sequencer begins the next pending ramp of a domain, in sequence order. -/
  | domainRampStart
  /-- DOMAIN_RAMP_DONE (R48): A domain's regulator has risen, and the domain enters INIT. -/
  | domainRampDone
  /-- DOMAIN_INIT_DONE (R48): A domain's memories are zeroed and its registers reset, and it enters ON. -/
  | domainInitDone
  /-- DOMAIN_SWITCH_OFF (R47): The sequencer switches the next pending domain off, in reverse sequence order. -/
  | domainSwitchOff
  /-- DOMAIN_DISCHARGE_DONE (R48): A domain's output has discharged below 50 mV, and it enters OFF. -/
  | domainDischargeDone
  /-- RAIL_FAULT (R51): A rail fault switches a domain to FAULT and its ON dependents off, and clears their REQ bits. -/
  | railFault (dom : Fin 30) (rail : Fin 7)
  /-- FAULT_CLEAR (R51): Writing 1 to a PWR_DOM_FAULT bit returns the domain to OFF. -/
  | faultClear (data : Word) (be : BitVec 4) (req : BitVec 16)
  /-- PD29_REPOWER (R51): 100 ms after a PD29 fault, the island clears its fault bit and ramps PD29 again. -/
  | pd29Repower
  /-- REF_LOSS (R57): The reference is declared lost, and the root PLL enters holdover while the SerDes PLLs lose lock. -/
  | refLoss
  /-- REF_RETURN (R57): The reference has been valid for 10 ms, and the root PLL starts slewing to it. -/
  | refReturn
  /-- REF_SLEW_COMPLETE (R57): The root PLL's slew to the returned reference completes, and HOLDOVER clears. -/
  | refSlewComplete
  /-- ALIGN_MISMATCH (R54): The distribution checker sees clock edges that do not coincide; ALIGN_OK clears and ALIGN is recorded. -/
  | alignMismatch
  /-- MODE_REQUEST (R73): A write to SVC_MODE_REQ is accepted, latched or refused, and an accepted request starts its transition. -/
  | modeRequest (data : Word) (be : BitVec 4) (req : BitVec 16)
  /-- MODE_TRANSITION_DONE (R73): A mode transition's device action completes; BUSY clears and any latched request runs. -/
  | modeTransitionDone
  /-- DRAIN_EMPTY (R74): No packet remains in DRAIN, and the device stops the traffic set to enter HOLD. -/
  | drainEmpty
  /-- DRAIN_TIMEOUT (R75): SVC_DRAIN_LIMIT expires with packets remaining, and the traffic set is stopped with flushing. -/
  | drainTimeout
  /-- FRAME_RECEIVE (R82): A frame arrives at a receive MAC and is discarded, consumed, or written to cells and handed to the parser. -/
  | frameReceive (port : Fin 128) (frame : List Byte)
  /-- FRAME_END (R14): A frame ends and its FCS result becomes known, with a bad FCS handled according to the packet's stage. -/
  | frameEnd (port : Fin 128) (ecc : Ecc)
  /-- FEC_UNCORRECTABLE (R81): An uncorrectable codeword is counted, and the frames that overlap it are marked bad. -/
  | fecUncorrectable (port : Fin 128)
  /-- PORT_LINK_UP (R226): A port's link comes up, and its port state moves under R226. -/
  | portLinkUp (port : Fin 128)
  /-- PORT_LINK_DOWN (R226): A port's link goes down; the frame in transmission ends and the port goes to HOLD or FLUSHING. -/
  | portLinkDown (port : Fin 128)
  /-- PARSE_DONE (R93): The parser completes the parse record, and the port applies its default action of forward, punt or drop. -/
  | parseDone (pg : Fin 16)
  /-- HEAD_DISPATCH (R98): A head leaves the intake queue for the RUNNING home cluster with the shortest queue. -/
  | headDispatch (pg : Fin 16) (ecc : Ecc)
  /-- HEAD_TO_THREAD (R98): A head in a cluster's local queue goes to a FREE thread once one is available. -/
  | headToThread (c : Fin 64)
  /-- THREAD_LOAD_DONE (R99): The head and parse record are loaded, and the thread becomes READY. -/
  | threadLoadDone (th : Fin 8192)
  /-- NEAR_STEAL (R102): A thief takes a batch of heads from the tail of a victim's queue on its own die. -/
  | nearSteal (c : Fin 64)
  /-- FAR_STEAL (R103): A thief takes heads from a victim on the other die, within the ORD's far-steal allowance. -/
  | farSteal (c : Fin 64)
  /-- FAR_ALLOWANCE_RESET (R103): A new 1 µs interval renews the far-steal allowance of each ORD. -/
  | farAllowanceReset (die : Fin 2)
  /-- CONT (R118): A microword with SEQ CONT issues and continues at the next address. -/
  | cont (th : Fin 8192) (chk : Fin 8)
  /-- BRANCH (R119): A microword with SEQ BRANCH issues and continues at the formed address. -/
  | branch (th : Fin 8192) (chk : Fin 8)
  /-- CALL (R118): A microword with SEQ CALL pushes the return address and continues at the formed address. -/
  | call (th : Fin 8192) (chk : Fin 8)
  /-- RET (R118): A microword with SEQ RET pops the call stack. -/
  | ret (th : Fin 8192) (chk : Fin 8)
  /-- TRET (R136): A microword with SEQ TRET restores the trap frame's flags and latch and continues at UPC. -/
  | tret (th : Fin 8192) (chk : Fin 8)
  /-- YIELD (R118): A microword with SEQ YIELD branches and keeps the thread from issuing for 8 ECLK cycles. -/
  | yield (th : Fin 8192) (chk : Fin 8)
  /-- WAIT (R118): A microword with SEQ WAIT puts the thread in WAIT_LOOKUP until its lookups return. -/
  | wait (th : Fin 8192) (chk : Fin 8)
  /-- END_FWD (R151): A microword with SEQ END_FWD ends the pass with outcome FORWARD to the unicast queue named in word 15. -/
  | endFwd (th : Fin 8192) (chk : Fin 8)
  /-- END_MC (R151): A microword with SEQ END_MC ends the pass with outcome FORWARD to the multicast group named in word 15. -/
  | endMc (th : Fin 8192) (chk : Fin 8)
  /-- END_DROP (R104): A microword with SEQ END_DROP ends the pass with outcome DROP and frees the cells. -/
  | endDrop (th : Fin 8192) (chk : Fin 8)
  /-- END_PUNT (R151): A microword with SEQ END_PUNT ends the pass with outcome PUNT to the channel named in word 15. -/
  | endPunt (th : Fin 8192) (chk : Fin 8)
  /-- RECIRC (R110): A microword with SEQ RECIRC ends the first pass and sends the head to the named PG's recirculation queue. -/
  | recirc (th : Fin 8192) (chk : Fin 8)
  /-- ABORT (R138): A microword with SEQ ABORT ends the pass as a trap that cannot resume. -/
  | abort (th : Fin 8192) (chk : Fin 8)
  /-- MOV (R123): An ALU executes MOV and writes B'. -/
  | mov (th : Fin 8192) (side : Bool) (dst : BitVec 6) (srcA : BitVec 6) (srcB : BitVec 6) (shm : BitVec 16) (imm : Word)
  /-- ADD (R123): An ALU executes ADD, A + B' modulo 2^64. -/
  | add (th : Fin 8192) (side : Bool) (dst : BitVec 6) (srcA : BitVec 6) (srcB : BitVec 6) (shm : BitVec 16) (imm : Word)
  /-- SUB (R123): An ALU executes SUB, A − B'. -/
  | sub (th : Fin 8192) (side : Bool) (dst : BitVec 6) (srcA : BitVec 6) (srcB : BitVec 6) (shm : BitVec 16) (imm : Word)
  /-- AND (R123): An ALU executes AND. -/
  | and (th : Fin 8192) (side : Bool) (dst : BitVec 6) (srcA : BitVec 6) (srcB : BitVec 6) (shm : BitVec 16) (imm : Word)
  /-- OR (R123): An ALU executes OR. -/
  | or (th : Fin 8192) (side : Bool) (dst : BitVec 6) (srcA : BitVec 6) (srcB : BitVec 6) (shm : BitVec 16) (imm : Word)
  /-- XOR (R123): An ALU executes XOR. -/
  | xor (th : Fin 8192) (side : Bool) (dst : BitVec 6) (srcA : BitVec 6) (srcB : BitVec 6) (shm : BitVec 16) (imm : Word)
  /-- ANDN (R123): An ALU executes ANDN, A AND NOT B'. -/
  | andn (th : Fin 8192) (side : Bool) (dst : BitVec 6) (srcA : BitVec 6) (srcB : BitVec 6) (shm : BitVec 16) (imm : Word)
  /-- INS (R123): An ALU inserts the low MW bits of B into A at position SH. -/
  | ins (th : Fin 8192) (side : Bool) (dst : BitVec 6) (srcA : BitVec 6) (srcB : BitVec 6) (shm : BitVec 16) (imm : Word)
  /-- EXT (R123): An ALU extracts MW bits of A from position SH. -/
  | ext (th : Fin 8192) (side : Bool) (dst : BitVec 6) (srcA : BitVec 6) (srcB : BitVec 6) (shm : BitVec 16) (imm : Word)
  /-- CMP (R124): An ALU writes the flags of A − B'. -/
  | cmp (th : Fin 8192) (side : Bool) (dst : BitVec 6) (srcA : BitVec 6) (srcB : BitVec 6) (shm : BitVec 16) (imm : Word)
  /-- TST (R124): An ALU writes the flags of A AND B'. -/
  | tst (th : Fin 8192) (side : Bool) (dst : BitVec 6) (srcA : BitVec 6) (srcB : BitVec 6) (shm : BitVec 16) (imm : Word)
  /-- MINU (R123): An ALU takes the unsigned minimum of A and B'. -/
  | minu (th : Fin 8192) (side : Bool) (dst : BitVec 6) (srcA : BitVec 6) (srcB : BitVec 6) (shm : BitVec 16) (imm : Word)
  /-- MAXU (R123): An ALU takes the unsigned maximum of A and B'. -/
  | maxu (th : Fin 8192) (side : Bool) (dst : BitVec 6) (srcA : BitVec 6) (srcB : BitVec 6) (shm : BitVec 16) (imm : Word)
  /-- CLZ (R123): An ALU counts the leading zeros of B'. -/
  | clz (th : Fin 8192) (side : Bool) (dst : BitVec 6) (srcA : BitVec 6) (srcB : BitVec 6) (shm : BitVec 16) (imm : Word)
  /-- POPC (R123): An ALU counts the ones in B'. -/
  | popc (th : Fin 8192) (side : Bool) (dst : BitVec 6) (srcA : BitVec 6) (srcB : BitVec 6) (shm : BitVec 16) (imm : Word)
  /-- ADD1C (R123): An ALU forms the ones' complement sum of A[15:0] and B'[15:0]. -/
  | add1c (th : Fin 8192) (side : Bool) (dst : BitVec 6) (srcA : BitVec 6) (srcB : BitVec 6) (shm : BitVec 16) (imm : Word)
  /-- FOLD16 (R123): An ALU folds the four 16-bit lanes of B' into a ones' complement sum. -/
  | fold16 (th : Fin 8192) (side : Bool) (dst : BitVec 6) (srcA : BitVec 6) (srcB : BitVec 6) (shm : BitVec 16) (imm : Word)
  /-- SUBSAT (R123): An ALU executes the saturating subtract of B' from A. -/
  | subsat (th : Fin 8192) (side : Bool) (dst : BitVec 6) (srcA : BitVec 6) (srcB : BitVec 6) (shm : BitVec 16) (imm : Word)
  /-- HEAD_TO_REGISTER (R125): The head port reads head-buffer bytes into a register. -/
  | headToRegister (th : Fin 8192) (off : BitVec 8) (len : BitVec 4) (reg : BitVec 6) (flg : BitVec 4) (imm : Word)
  /-- REGISTER_TO_HEAD (R125): The head port writes register bytes into the head buffer. -/
  | registerToHead (th : Fin 8192) (off : BitVec 8) (len : BitVec 4) (reg : BitVec 6) (flg : BitVec 4) (imm : Word)
  /-- METADATA_TO_REGISTER (R125): The head port reads metadata bytes into a register. -/
  | metadataToRegister (th : Fin 8192) (off : BitVec 8) (len : BitVec 4) (reg : BitVec 6) (flg : BitVec 4) (imm : Word)
  /-- REGISTER_TO_METADATA (R125): The head port writes register bytes into the metadata. -/
  | registerToMetadata (th : Fin 8192) (off : BitVec 8) (len : BitVec 4) (reg : BitVec 6) (flg : BitVec 4) (imm : Word)
  /-- PLAIN_LOOKUP (R126): A microword launches a lookup with LK_FLG 0b00 in the table of LK_TABLE. -/
  | plainLookup (th : Fin 8192) (table : BitVec 10) (ksel : BitVec 6) (rreg : BitVec 6) (te : Bool)
  /-- LOOKUP_WITH_LEARN (R173): A microword launches a lookup with LK_FLG 0b01, carrying a learn value. -/
  | lookupWithLearn (th : Fin 8192) (table : BitVec 10) (ksel : BitVec 6) (rreg : BitVec 6) (te : Bool)
  /-- LOOKUP_NO_REFRESH (R177): A microword launches a lookup with LK_FLG 0b10, leaving the activity bit alone. -/
  | lookupNoRefresh (th : Fin 8192) (table : BitVec 10) (ksel : BitVec 6) (rreg : BitVec 6) (te : Bool)
  /-- COUNTER_BUMP (R128): A microword posts one packet and FRAME_LEN bytes to a counter pair. -/
  | counterBump (th : Fin 8192) (sel : BitVec 2) (imm : Word)
  /-- LOOKUP_RESULT (R131): A lookup returns, writing its result registers and slot status, and wakes a waiting thread. -/
  | lookupResult (th : Fin 8192) (slot : Fin 8) (ecc : Ecc)
  /-- TRAP_ENTER (R135): A held resumable trap is entered in the thread's issue slot and vectors to its handler. -/
  | trapEnter (th : Fin 8192)
  /-- BUDGET (R97): An issue with the count at or above ENG_BUDGET ends the pass with the BUDGET trap. -/
  | budget (th : Fin 8192)
  /-- CS_UE (R117): An uncorrectable fetched microword ends the pass with cause ILLEGAL and records CS_UE. -/
  | csUe (th : Fin 8192)
  /-- DEBUG_BREAK (R140): A microword with BRK set, while BRK_EN is 1, halts the thread in DEBUG instead of issuing. -/
  | debugBreak (at_ : Fin 8192 × Fin 7)
  /-- HALT (R140): ENG_DBG_CTL.HALT requests a halt of the selected thread. -/
  | halt (th : Fin 8192) (req : BitVec 16)
  /-- HALT_ALL (R140): ENG_DBG_CTL.HALT_ALL requests a halt of every thread holding a packet. -/
  | haltAll (c : Fin 64) (req : BitVec 16)
  /-- THREAD_HALTED (R140): A pending halt is taken at the thread's next issue, which saves the trap frame and puts the thread in DEBUG. -/
  | threadHalted (th : Fin 8192)
  /-- RESUME_CONTINUE (R140): RESUME 1 acts as TRET and continues at UPC without honouring its BRK bit. -/
  | resumeContinue (th : Fin 8192) (req : BitVec 16)
  /-- RESUME_VECTOR (R140): RESUME 2 enters the handler at trap base + 64 with the frame kept. -/
  | resumeVector (th : Fin 8192) (req : BitVec 16)
  /-- RESUME_ABORT (R140): RESUME 3 aborts the pass under R138. -/
  | resumeAbort (th : Fin 8192) (req : BitVec 16)
  /-- DBG_DATA_WRITE (R140): A write of ENG_DBG_DATA changes the selected item of a thread in DEBUG. -/
  | dbgDataWrite (c : Fin 64) (lo : Word) (hi : Word) (req : BitVec 16)
  /-- COMPLETION_REPORT (R106): A pass's completion report reaches the issuing ORD, and the slot becomes DONE, VOID or stays PENDING. -/
  | completionReport (die : Fin 2) (slot : Fin 32768)
  /-- TICKET_RETIRE (R106): An ORD retires a domain's oldest DONE or VOID ticket and hands its packet on. -/
  | ticketRetire (die : Fin 2)
  /-- TICKET_AGED (R109): A domain's NEXT_RETIRE slot stays PENDING beyond ORD_AGE_LIMIT and is made VOID. -/
  | ticketAged (die : Fin 2) (slot : Fin 32768)
  /-- SLOT_UE (R109): An uncorrectable ticket slot is made VOID at once and recorded. -/
  | slotUe (die : Fin 2) (slot : Fin 32768)
  /-- RECIRC_ENQUEUE (R110): A place frees in the recirculation queue, and a thread in HOLD_RECIRC hands its head over. -/
  | recircEnqueue (th : Fin 8192)
  /-- EPOCH_FLIP (R156): ORD_EPOCH.FLIP makes the other epoch current if its in-flight count is zero. -/
  | epochFlip (die : Fin 2) (req : BitVec 16)
  /-- VERIFY (R147): ENG_IMG_CTL.VERIFY starts verification of the cluster's image. -/
  | verify (c : Fin 64) (req : BitVec 16)
  /-- VERIFY_DONE (R147): Verification ends, filling uncovered addresses and setting VALID, or recording IMG_FAIL. -/
  | verifyDone (c : Fin 64) (ecc : Ecc)
  /-- IMAGE_POLICY_LOCK (R149): Writing SVC_IMG_POLICY.LOCK makes the trust anchors read-only until the standby input is lost. -/
  | imagePolicyLock (req : BitVec 16)
  /-- DESCRIPTOR_COMMIT (R162): A write to descriptor word 7 checks and commits all eight words in one update. -/
  | descriptorCommit (q : Fin 4) (t : Fin 1024) (data : Word) (be : BitVec 4) (req : BitVec 16)
  /-- INSERT (R170): LKP_CMD_GO with OP INSERT places a new entry, moving others if needed. -/
  | insert (q : Fin 4) (req : BitVec 16)
  /-- UPDATE (R169): LKP_CMD_GO with OP UPDATE rewrites a present entry's result and S bit. -/
  | update (q : Fin 4) (req : BitVec 16)
  /-- DELETE (R169): LKP_CMD_GO with OP DELETE clears a present entry's V bit. -/
  | delete (q : Fin 4) (req : BitVec 16)
  /-- FIND (R169): LKP_CMD_GO with OP FIND returns an entry's result, position and control bits. -/
  | find (q : Fin 4) (req : BitVec 16)
  /-- LKP_COMMAND_DONE (R169): A lookup command ends and sets DONE and CODE. -/
  | lkpCommandDone (q : Fin 4) (ecc : Ecc)
  /-- LEARN_NEW (R175): The update engine executes a NEW request, placing the learned entry. -/
  | learnNew (q : Fin 4 × Ecc)
  /-- LEARN_MOVE (R175): The update engine executes a MOVE request, overwriting the data unless the entry is static or frozen. -/
  | learnMove (q : Fin 4 × Ecc)
  /-- AGEING_VISIT (R176): The ager visits an entry, clearing MOVES, decreasing FRZ and updating A and AGE. -/
  | ageingVisit (q : Fin 4) (table : Fin 1024) (pos : Nat)
  /-- LRN_EVT_POP (R179): A write of LRN_EVT_POP removes the oldest learn event record. -/
  | lrnEvtPop (q : Fin 4) (req : BitVec 16)
  /-- ADMISSION (R215): An SWC decides whether a packet offered to a queue is admitted or dropped, and places it. -/
  | admission (die : Fin 2) (src : Fin 3) (ecc : Ecc)
  /-- OPEN_PAGE_TIMEOUT (R209): BPM_FLUSH.NS passes since the open page's first packet, and the page is written to HBM. -/
  | openPageTimeout (queue : Fin 131072)
  /-- RECALL (R209): A queue's on-chip segment falls below RECALL, and the BPM recalls the first page of its HBM segment. -/
  | recall (queue : Fin 131072)
  /-- RECALL_READ_DONE (R210): A recall read returns; its packets are rebuilt on chip and the page is freed, or packets touched by an uncorrectable word are dropped. -/
  | recallReadDone (queue : Fin 131072) (words : Reads 1024)
  /-- PAGE_RING_READY (R208): A stack's page ring is built, and READY sets. -/
  | pageRingReady (stack : Fin 4)
  /-- CELL_TRANSFER (R222): Endpoints request, the buffer halves grant and the endpoints accept, and cells move into staging. -/
  | cellTransfer
  /-- FRAME_TRANSMIT_START (R82): The transmit MAC starts a frame with preamble, applying the CE mark and any PTP timestamp. -/
  | frameTransmitStart (port : Fin 128) (ecc : Ecc)
  /-- FRAME_TRANSMIT_END (R82): A frame's transmission ends with its FCS, and its holder release or free is issued. -/
  | frameTransmitEnd (port : Fin 128)
  /-- PFC_REFRESH (R220): The refresh interval passes while the count stays at or above XON, and the PFC frame is sent again. -/
  | pfcRefresh (port : Fin 128) (prio : Fin 8)
  /-- PFC_FRAME_RECEIVE (R221): A received PFC frame sets the pause time of each priority it names. -/
  | pfcFrameReceive (port : Fin 128) (en : BitVec 8) (times : List Nat)
  /-- PFC_PAUSE_EXPIRE (R221): A priority's pause time runs out, and its queues may be served again. -/
  | pfcPauseExpire (port : Fin 128) (prio : Fin 8)
  /-- HOLD_TIMER_EXPIRE (R226): A port's link-down hold time expires, and the port enters FLUSHING. -/
  | holdTimerExpire (port : Fin 128)
  /-- FLUSH_DONE (R227): Every queue, HBM segment and the staging of a flushing port is empty, and the port goes to UP or DOWN. -/
  | flushDone (port : Fin 128)
  /-- SELECTION (R231): A scheduler selects the head packet of a ready port through node, class and queue, and charges tags and shapers. -/
  | selection (pg : Fin 16 × Ecc)
  /-- SHAPER_WAKE (R237): A fine wheel slot falls due; its entities are refilled and made eligible or placed again. -/
  | shaperWake (die : Fin 2)
  /-- COARSE_SLOT (R237): A coarse wheel slot falls due, and its entities are placed again. -/
  | coarseSlot (die : Fin 2)
  /-- GATE_BOUNDARY (R240): A gate-list entry's duration ends, and the next entry's gates apply. -/
  | gateBoundary (port : Fin 128)
  /-- RS_ARM (R243): TM_RS_CTL.ARM commits a rate-schedule entry with its application time A. -/
  | rsArm (port : Fin 128) (req : BitVec 16)
  /-- RS_CANCEL (R243): TM_RS_CTL.CANCEL returns an ARMED entry to IDLE. -/
  | rsCancel (port : Fin 128) (req : BitVec 16)
  /-- RS_APPLY (R244): At time A the new rate is written to TM_PORT_RATE, and member weights follow. -/
  | rsApply (port : Fin 128)
  /-- REPLICATION_WALK (R253): The Peal engine takes a multicast packet and walks its group's list, offering each replica to admission. -/
  | replicationWalk (die : Fin 2) (entries : Reads 8193)
  /-- EDIT_CELL_GRANTED (R252): A refused edit cell is granted, and the held walk continues. -/
  | editCellGranted (die : Fin 2)
  /-- FENCE (R257): PEAL_FENCE.FENCE starts a wait for walks started before it. -/
  | fence (die : Fin 2) (req : BitVec 16)
  /-- FENCE_DONE (R257): Every walk started before the fence has ended, and DONE sets. -/
  | fenceDone (die : Fin 2)
  /-- PEAL_MEM_READ (R259): PEAL_MEM_CMD.READ copies a list or edit entry into PEAL_MEM_DATA. -/
  | pealMemRead (die : Fin 2) (req : BitVec 16)
  /-- PEAL_MEM_WRITE (R257): PEAL_MEM_CMD.WRITE applies PEAL_MEM_DATA to a list or edit entry in one update. -/
  | pealMemWrite (die : Fin 2) (req : BitVec 16)
  /-- MARKER_SEND (R270): Every MARKER_US a marker is placed in each UP member queue that holds none. -/
  | markerSend (trunk : Fin 16)
  /-- MARKER (R271): A received marker sets its member's FLOOR. -/
  | marker (port : Fin 128) (frame : List Byte)
  /-- RESEQUENCER_CHECK (R272): Every 100 ns the resequencer skips a gap on timeout or when floors have passed it. -/
  | resequencerCheck (trunk : Fin 16)
  /-- LEARN_END (R273): SKEW_US after the first arrival in LEARN, NEXT becomes the lowest held SEQ and the hold drains. -/
  | learnEnd (trunk : Fin 16)
  /-- RESTORED_HEAD_INTAKE (R275): A released restored head enters INTAKE_PG's intake queue once it has room. -/
  | restoredHeadIntake (die : Fin 2)
  /-- INSTALL (R281): A received INSTALL sets the receive context VALID and is answered with ACK or NACK. -/
  | install (port : Fin 128) (frame : List Byte)
  /-- ACK (R280): A received ACK makes an INSTALLING context ACTIVE. -/
  | ack (port : Fin 128) (frame : List Byte)
  /-- NACK (R280): A received NACK returns an INSTALLING context to FREE. -/
  | nack (port : Fin 128) (frame : List Byte)
  /-- WITHDRAW (R281): A received WITHDRAW clears the matching receive context and is answered with WDACK. -/
  | withdraw (port : Fin 128) (frame : List Byte)
  /-- WDACK (R280): A received WDACK returns a WITHDRAWING context to FREE. -/
  | wdack (port : Fin 128) (frame : List Byte)
  /-- STALE (R280): A received STALE notice makes an ACTIVE context reinstall under a new epoch. -/
  | stale (port : Fin 128) (frame : List Byte)
  /-- MESSAGE_RETRY (R280): RETRY_US passes without a reply, and the message is resent or the context gives up. -/
  | messageRetry (trunk : Fin 16) (ctx : Fin 4096)
  /-- CTX_INSTALL (R287): Transmit-context CMD 1 installs LEN, NXT and TEMPLATE and sends INSTALL. -/
  | ctxInstall (die : Fin 2) (trunk : Fin 16) (ctx : Fin 4096) (len : BitVec 8) (nxt : BitVec 2) (template : List Byte)
  /-- CTX_WITHDRAW (R287): Transmit-context CMD 2 stops use of the context and sends WITHDRAW. -/
  | ctxWithdraw (die : Fin 2) (trunk : Fin 16) (ctx : Fin 4096)
  /-- CTX_INSTALL_CANDIDATE (R287): Transmit-context CMD 3 installs miner candidate CAND. -/
  | ctxInstallCandidate (die : Fin 2) (trunk : Fin 16) (ctx : Fin 4096) (cand : Fin 1024)
  /-- MINER_INTERVAL (R283): Every ELI_MINE.MS the miner proposes or installs candidates and halves their counts. -/
  | minerInterval (die : Fin 2)
  /-- ELI_PROP_POP (R289): A write of ELI_PROP_POP removes the oldest proposal. -/
  | eliPropPop (die : Fin 2) (req : BitVec 16)
  /-- TRAINING_DONE (R299): HBM training completes, substituting spares for failed ranks, or fails the start. -/
  | trainingDone (h : Fin 4) (fault : Option (Fin 3)) (failed : List (Fin 32))
  /-- READ_RETRAIN (R299): Every HBM_RETRAIN.MS the read timing of each rank is retrained. -/
  | readRetrain (h : Fin 4)
  /-- REFRESH (R297): The per-bank refresh interval passes, and refresh is issued or postponed. -/
  | refresh (h : Fin 4) (rank : Fin 32) (bank : Fin 32) (how : Fin 3)
  /-- HBM_TEMP_READ (R298): Every 1 ms the stack temperature is read and warning, throttle or trip applied. -/
  | hbmTempRead (h : Fin 4) (temp : Fin 256)
  /-- HBM_STOP_LIMIT (R302): HBM_STOP_LIMIT.MS passes in STOPPING, and packets still in the stack's pages are dropped. -/
  | hbmStopLimit (h : Fin 4)
  /-- PATROL_SCRUB (R303): The HBM patrol scrub reads a word, writes back a correction or reports an uncorrectable word. -/
  | patrolScrub (h : Fin 4) (addr : Nat) (ecc : Ecc)
  /-- PAGE_COPY_DONE (R308): A rank page's copy completes and PROGRESS advances; at the end the remap switches. -/
  | pageCopyDone (h : Fin 4) (words : Reads 1024)
  /-- CE_WINDOW_END (R307): The CE window of HBM_CE_RET.WINDOW_S ends, and CE counts clear. -/
  | ceWindowEnd (h : Fin 4)
  /-- COUNTER_UPDATE (R305): A posted counter update reaches its stack's controller and is applied or discarded. -/
  | counterUpdate (h : Fin 4) (ecc : Ecc)
  /-- COUNTER_READ (R306): HBM_CNTR_CMD.READ reads counter pair c. -/
  | counterRead (h : Fin 4) (req : BitVec 16)
  /-- COUNTER_READ_CLEAR (R306): HBM_CNTR_CMD.READ with CLEAR reads counter pair c and zeroes it. -/
  | counterReadClear (h : Fin 4) (req : BitVec 16)
  /-- COUNTER_READ_DONE (R306): The counter read completes and DONE sets with the pair. -/
  | counterReadDone (h : Fin 4) (ecc : Ecc)
  /-- SET (R315): TIME_CTL.SET loads the counter from TIME_SET. -/
  | set (req : BitVec 16)
  /-- STEP (R315): TIME_CTL.STEP adds TIME_ADJ to the counter. -/
  | step (req : BitVec 16)
  /-- SLEW (R315): TIME_CTL.SLEW starts adding TIME_ADJ gradually. -/
  | slew (req : BitVec 16)
  /-- TIME_ABORT (R315): TIME_CTL.ABORT ends a slew in progress and discards its remainder. -/
  | timeAbort (req : BitVec 16)
  /-- SLEW_COMPLETE (R315): The whole slew amount has been added; SLEWING clears and bit 5 sets. -/
  | slewComplete
  /-- SLAVE_ALIGNED (R313): The slave counter becomes aligned with the master after PD27 is ON. -/
  | slaveAligned
  /-- TIME_NOW_LATCH (R330): Reading TIME_NOW word 0 latches words 1-3. -/
  | timeNowLatch (page : Fin 2) (req : BitVec 16)
  /-- CAPTURE (R324): A selected edge on a capture input is timestamped into the capture FIFO. -/
  | capture (input : Fin 8) (rising : Bool)
  /-- TIME_CAP_POP (R324): A write of TIME_CAP_POP removes the oldest capture record. -/
  | timeCapPop (req : BitVec 16)
  /-- TIME_TX_POP (R322): A write of TIME_TX_POP removes the oldest transmit timestamp record. -/
  | timeTxPop (page : Fin 2) (req : BitVec 16)
  /-- CHIME_ARM (R325): TIME_CHIME.ARM commits a chime's start and period. -/
  | chimeArm (c : Fin 8) (req : BitVec 16)
  /-- CHIME_CANCEL (R325): TIME_CHIME.CANCEL returns the output inactive and the chime to IDLE. -/
  | chimeCancel (c : Fin 8) (req : BitVec 16)
  /-- CHIME_PULSE (R325): A chime's due time is reached and it begins a pulse. -/
  | chimePulse (c : Fin 8)
  /-- CHIME_PULSE_END (R325): WIDTH_NS cycles pass, and the chime output returns inactive. -/
  | chimePulseEnd (c : Fin 8)
  /-- PPS (R327): The counter reaches a second boundary, and the PPS output begins a pulse. -/
  | pps
  /-- PPS_END (R327): The PPS pulse's width expires. -/
  | ppsEnd
  /-- MESH_EXCHANGE (R382): Every 125 µs the leader sends a SYNC time cell to each follower. -/
  | meshExchange
  /-- SYNC (R382): A follower receives SYNC, records t2 and replies with DREQ at t3. -/
  | sync (port : Fin 16) (cell : List Byte)
  /-- DREQ (R382): The leader receives DREQ, records t4 and returns it in RESP. -/
  | dreq (port : Fin 16) (cell : List Byte)
  /-- RESP (R328): A follower receives RESP and applies the mesh update to its counter. -/
  | resp (port : Fin 16) (cell : List Byte)
  /-- TIME_EXCHANGE_ABANDON (R382): No RESP arrives 10 µs after SYNC, and the exchange is abandoned. -/
  | timeExchangeAbandon
  /-- MESH_LOST (R328): No exchange has completed for 4 ms; LOST sets and LOCK clears. -/
  | meshLost
  /-- MODULE_INSERT (R336): PRS_N is asserted and debounced for 10 ms, and the cage enters RESET. -/
  | moduleInsert (p : Fin 128)
  /-- MODULE_REMOVE (R336): PRS_N is released, and the cage goes to EMPTY, ending its commands and timed writes. -/
  | moduleRemove (p : Fin 128)
  /-- RST_REQ (R336): MOD_CAGE_CTL.RST_REQ puts the cage in RESET. -/
  | rstReq (p : Fin 128) (req : BitVec 16)
  /-- RESET_RELEASE (R336): After 10 µs RST_N is released, and the cage enters INIT. -/
  | resetRelease (p : Fin 128)
  /-- INIT_POLL (R336): Every 10 ms in INIT the module state is polled, leading to READY or FAULT. -/
  | initPoll (p : Fin 128) (mstate : BitVec 3) (ident : List Byte)
  /-- INIT_TIMEOUT (R336): INIT_MS passes without a ready module state, and the cage goes to FAULT. -/
  | initTimeout (p : Fin 128)
  /-- SCAN_VISIT (R337): The scanner visits a cage, raising flag events, updating the ledger and evaluating the rate advisory. -/
  | scanVisit (p : Fin 128) (lower : List Byte) (lanes : List Byte) (disable : Byte) (watch : Word) (intLow : Bool)
  /-- MOD_CMD_READ (R335): A master command with OP READ reads module bytes. -/
  | modCmdRead (m : Fin 16) (req : BitVec 16)
  /-- MOD_CMD_WRITE (R335): A master command with OP WRITE writes module bytes. -/
  | modCmdWrite (m : Fin 16) (req : BitVec 16)
  /-- MOD_CMD_DONE (R335): A master command ends with DONE, or with ERROR after NACK retries. -/
  | modCmdDone (m : Fin 16) (nack : Bool) (bytes : List Byte)
  /-- MOD_CMD_TIMEOUT (R334): TMO_MS passes, and the master abandons the command with CODE 2. -/
  | modCmdTimeout (m : Fin 16)
  /-- TW_ARM (R342): MOD_TW.ARM commits a timed write for time T. -/
  | twArm (k : Fin 16) (req : BitVec 16)
  /-- TW_CANCEL (R342): MOD_TW.CANCEL returns an ARMED timed write to IDLE. -/
  | twCancel (k : Fin 16) (req : BitVec 16)
  /-- TW_RESERVE (R342): At T − 1 ms the timed write becomes RESERVED and its master is held. -/
  | twReserve (k : Fin 16)
  /-- TW_ACK (R342): The timed write's last acknowledge arrives, and the entry becomes DONE or LATE. -/
  | twAck (k : Fin 16) (ack : Bool)
  /-- MOD_EVT_POP (R339): A write of MOD_EVT_POP removes the oldest module event. -/
  | modEvtPop (req : BitVec 16)
  /-- MOD_ADV_POP (R340): A write of MOD_ADV_POP removes the oldest advisory. -/
  | modAdvPop (req : BitVec 16)
  /-- LEDGER_READ (R338): MOD_LED_CMD.READ copies a ledger entry into MOD_LED_DATA. -/
  | ledgerRead (req : BitVec 16)
  /-- LEDGER_WRITE (R338): MOD_LED_CMD.WRITE applies LASER_S, RATED_H and INSERTS of CUR. -/
  | ledgerWrite (req : BitVec 16)
  /-- PERST_RELEASE (R346): PCIE_PERST_N is released with PD29 ON, and link training begins. -/
  | perstRelease
  /-- CTO_VALUE_WRITE (R348): A write of the Device Control 2 completion timeout field loads HIF_CPL_TMO. -/
  | ctoValueWrite (code : BitVec 4)
  /-- COMPLETION_TIMEOUT (R348): A device read times out, ends with TIMEOUT and quarantines its tag. -/
  | completionTimeout (tag : Fin 1024)
  /-- COMPLETION (R349): A PCIe completion arrives and ends its read, or is discarded as late or unexpected. -/
  | completion (tag : Fin 1024) (ok : Bool) (data : List Byte)
  /-- QUARANTINE_END (R349): A quarantined tag's period ends, and it is free again. -/
  | quarantineEnd (tag : Fin 1024)
  /-- PCIE_DOWN (R350): The link stays out of L0 and L0p for HIF_RECOV.MS and is declared down, ending all reads. -/
  | pcieDown
  /-- L0P_CHANGE (R352): Outbound use stays low, or rises, and the link narrows or widens in L0p. -/
  | l0pChange (up : Bool)
  /-- L1_ENTRY (R352): No TLP has been pending for HIF_PM.L1_US, and the link enters L1. -/
  | l1Entry
  /-- POWER_STATE_CHANGE (R352): The host moves the function between D0 and D3hot. -/
  | powerStateChange (d3 : Bool)
  /-- FUNCTION_LEVEL_RESET (R353): FLR stops every channel and returns the HIF and DMA pages to reset. -/
  | functionLevelReset
  /-- HOT_RESET (R353): Hot reset or PCIE_PERST_N assertion acts as FLR and takes the link down. -/
  | hotReset (perst : Bool)
  /-- CHANNEL_START (R354): DMA_CH_CTL.START moves a STOPPED channel to STARTING. -/
  | channelStart (ch : Fin 1024) (req : BitVec 16)
  /-- CHANNEL_STOP (R354): DMA_CH_CTL.STOP moves a RUNNING or ERROR channel to STOPPING. -/
  | channelStop (ch : Fin 1024) (req : BitVec 16)
  /-- CHANNEL_START_DONE (R354): The context is read and checked, and the channel goes to RUNNING or back to STOPPED. -/
  | channelStartDone (ch : Fin 1024)
  /-- CHANNEL_STOP_DONE (R354): The descriptor in hand is finished and written back, and the channel goes to STOPPED. -/
  | channelStopDone (ch : Fin 1024)
  /-- DMA_CTX_INVAL (R356): DMA_CTX_INVAL.GO writes back and drops cached contexts. -/
  | dmaCtxInval (data : Word) (be : BitVec 4) (req : BitVec 16)
  /-- DB_TAIL (R357): A DB_TAIL write makes descriptors up to TAIL − 1 ready. -/
  | dbTail (ch : Fin 1024) (data : Word) (be : BitVec 4) (req : BitVec 16)
  /-- DB_ARM (R364): A DB_ARM write re-arms the channel interrupt, sending it at once if completions wait. -/
  | dbArm (ch : Fin 1024) (data : Word) (be : BitVec 4) (req : BitVec 16)
  /-- DESCRIPTOR_FETCH (R358): The device reads a batch of up to 8 descriptors from the ring. -/
  | descriptorFetch (ch : Fin 1024)
  /-- PUNT_DELIVERY (R360): A punt or host-port packet is written into a TO_HOST channel's buffers, or dropped. -/
  | puntDelivery (ch : Fin 1024)
  /-- INJECT (R361): A FROM_HOST packet is written into cells and its head placed in the PG's intake queue. -/
  | inject (ch : Fin 1024)
  /-- WRITE_LIST (R362): A WRITE_LIST descriptor's records are performed in order as host writes. -/
  | writeList (ch : Fin 1024)
  /-- COAL_TIMEOUT (R364): COAL_US passes since the first unsignalled completion, and the channel's message is sent. -/
  | coalTimeout (ch : Fin 1024)
  /-- ULX_ALIGNED (R371): A Ulux port's PCS aligns and FEC locks, and it enters HELLO. -/
  | ulxAligned (port : Fin 16)
  /-- HELLO_SEND (R371): Every 1 µs in HELLO a port sends a HELLO cell. -/
  | helloSend (port : Fin 16)
  /-- HELLO (R371): A received HELLO moves the port to UP if it matches, or to MISWIRED. -/
  | hello (port : Fin 16) (cell : List Byte)
  /-- DATA (R372): A DATA cell is received in LSEQ order and buffered, forwarded or resequenced, or discarded with a NAK. -/
  | data (port : Fin 16) (cell : List Byte)
  /-- NULL (R370): A NULL cell is received, returning its ACK, credits and reach. -/
  | null (port : Fin 16) (cell : List Byte)
  /-- NAK (R372): A received NAK makes the sender replay from ACK + 1. -/
  | nak (port : Fin 16) (cell : List Byte)
  /-- ACK_TIMEOUT (R372): The oldest unacknowledged cell waits ACK_TMO_NS and is replayed, or the port retrains. -/
  | ackTimeout (port : Fin 16)
  /-- ULX_CELL_SEND (R377): A packet cell takes its path slot and is sent on an UP port holding a credit. -/
  | ulxCellSend (port : Fin 16)
  /-- ULX_PORT_LEAVE_UP (R379): A Ulux port leaves UP, and its unacknowledged packet cells are resent elsewhere. -/
  | ulxPortLeaveUp (port : Fin 16)
  /-- RSQ_TIMEOUT (R378): The oldest held Ulux cell waits ULX_RSQ.NS, and NEXT skips the gap. -/
  | rsqTimeout (die : Fin 2) (dev : Fin 4) (sdie : Fin 2) (vc : Fin 2)
  /-- PEER_HOLD_EXPIRE (R379): An unreachable device's hold expires, and its packets are freed. -/
  | peerHoldExpire (dev : Fin 4)
  /-- PORT_RETRAIN (R371): ULX_PORT_RETRAIN sends a MISWIRED port to TRAIN. -/
  | portRetrain (die : Fin 2) (data : Word) (be : BitVec 4) (req : BitVec 16)
  /-- TXN_READ (R380): ULX_TXN GO with OP READ sends a read request to a peer device. -/
  | txnRead (die : Fin 2) (slot : Fin 4) (req : BitVec 16)
  /-- TXN_WRITE (R380): ULX_TXN GO with OP WRITE sends a write request to a peer device. -/
  | txnWrite (die : Fin 2) (slot : Fin 4) (req : BitVec 16)
  /-- REQUEST (R381): A received REQ cell is translated through the windows and performed or denied, and answered. -/
  | request (port : Fin 16) (cell : List Byte)
  /-- RESPONSE (R380): A received response ends its transaction slot with DONE. -/
  | response (port : Fin 16) (cell : List Byte)
  /-- TXN_TIMEOUT (R380): No response within ULX_TXN_TMO, and the slot ends with TIMEOUT and is quarantined. -/
  | txnTimeout (die : Fin 2) (slot : Fin 4)
  /-- TXN_QUARANTINE_END (R380): Twice the timeout passes, and QUAR clears. -/
  | txnQuarantineEnd (die : Fin 2) (slot : Fin 4)
  /-- WIN_COMMIT (R381): ULX_WIN_COMMIT.GO applies every window at once. -/
  | winCommit (die : Fin 2) (req : BitVec 16)
  /-- WIN_COMMIT_DONE (R381): Every request translated under the old mapping has been performed, and DONE sets. -/
  | winCommitDone (die : Fin 2)
  /-- ERR_LOG_POP (R390): A write of ERR_LOG_POP removes the oldest log record. -/
  | errLogPop (req : BitVec 16)
  /-- LOG_RECORD_LATCH (R390): Reading ERR_LOG_REC[0] latches words 1-7 of the oldest record. -/
  | logRecordLatch (req : BitVec 16)
  /-- SCRUB_VISIT (R392): The patrol scrubber reads an on-chip word and writes back a correction or contains an uncorrectable word. -/
  | scrubVisit (m : Fin 8) (d : Fin 2) (addr : Nat) (ecc : Ecc)
  /-- SYSTEM_RESET (R411): SYS_RST_N low stops the service island, and the domains go off 1 ms later. -/
  | systemReset
  /-- STANDBY_LOSS (R411): VSTBY leaves its range for 100 µs, and the service island stops, losing its memory. -/
  | standbyLoss
  /-- PCIE_LINK_UP (R346): PCIe link training completes, the link reaches L0 at its negotiated speed and width (DEGRADED if below 16 GT/s or x8), and within 20 ms the function becomes ready for configuration requests. -/
  | pcieLinkUp (speed : Fin 16) (width : Fin 16) (flit : Bool)
  /-- SYS_RST_N_RELEASE (R411): The SYS_RST_N input goes high, starting the 10 ms count after which the service island runs again. -/
  | sysRstNRelease
  /-- CELL_GRANTED_AFTER_WAIT (R203): A BPM requester that waits after a refusal (engine rewrite, HBM recall, host inject, Ulux receive or elision restore) is granted a cell in a later cycle and resumes, releasing a held completion report, recall, channel, credit or restore. -/
  | cellGrantedAfterWait (die : Fin 2) (requester : Fin 16)
  /-- OPEN_ROW_IDLE (R296): An open HBM row has had no access for HBM_PAGE.IDLE_NS and its bank closes it. -/
  | openRowIdle (h : Fin 4) (rank : Fin 32) (bank : Fin 32)
  /-- BUS_ATTEMPT_RETRY (R334): A module bus attempt ends with a NACK or after ATTEMPT_MS of clock stretching, and the master retries the transaction, counting it in MOD_CNT[1]. -/
  | busAttemptRetry (m : Fin 16)
  /-- TIMED_WRITE_T_PASSED (R342): The time T of an armed or reserved timed write passes while MOD is stopped, and the entry becomes FAILED, setting INT_STAT.BLK bit 4. -/
  | timedWriteTPassed (k : Fin 16)
  deriving DecidableEq, Repr

end Sys2Proof
end

