-- ==== Sys2Proof/Config.lean ====
section
/-! DEFINITION. What one module's build fixes and the values the spec leaves open: constants without a body, so that
nothing can evaluate them. -/

namespace Sys2Proof

/-- DIR_GRADE: 0 for a TYT-2560-C, 1 for a TYT-2560-T (R1, R25). -/
opaque Config.grade : Fin 2

/-- DIR_SERIAL, the module's serial number (R25). -/
opaque Config.serial : BitVec 64

/-- The form of the ECN generator, Fibonacci or Galois, and its direction: the spec names the polynomial alone (R217). -/
opaque Config.ecnForm : Fin 4

/-- The places of an HBM controller's write queue for a rank, less one: the spec gives no figure (R295). -/
opaque Config.hbmWriteQueue : Nat

/-- The pipeline latency that a frame's projected start adds to the present time, in ns: the spec gives no figure (R241). -/
opaque Config.pipelineNs : Nat

/-- A free value taken at count `n` (the MODEL's counter `Dev.fresh`). -/
opaque Config.freeWord : Nat → Word

end Sys2Proof
end

