-- ==== Sys2Proof/Machine/Bits.lean ====
section
/-! DEFINITION. Bit fields of words, saturating counts, two's complement readings and byte order (R4, R5). -/

namespace Sys2Proof.Machine

/-- Bits [lsb + wd - 1 : lsb] of a number. -/
def bits (v lsb wd : Nat) : Nat := v / 2 ^ lsb % 2 ^ wd

/-- `v` with bits [lsb + wd - 1 : lsb] replaced by `x`. -/
def putBits (v lsb wd x : Nat) : Nat :=
  v % 2 ^ lsb + (x % 2 ^ wd) * 2 ^ lsb + v / 2 ^ (lsb + wd) * 2 ^ (lsb + wd)

/-- Bit `i` of a number. -/
def bit (v i : Nat) : Bool := v / 2 ^ i % 2 == 1

/-- A number with bit `i` set. -/
def setBit (v i : Nat) : Nat := if bit v i then v else v + 2 ^ i

/-- A number with bit `i` cleared. -/
def clrBit (v i : Nat) : Nat := if bit v i then v - 2 ^ i else v

/-- The numbers of the reads that are uncorrectable, and of those that are corrected. -/
def badReads {n : Nat} (l : Reads n) : List (Fin n) := (l.filter fun x => x.2 = .bad).map (·.1)
def correctedReads {n : Nat} (l : Reads n) : List (Fin n) := (l.filter fun x => x.2 = .corrected).map (·.1)

/-- 1 for true, 0 for false. -/
def b2n (b : Bool) : Nat := if b then 1 else 0

/-- A count of width `wd` that stops at its greatest value. -/
def satAdd (wd v n : Nat) : Nat := min (v + n) (2 ^ wd - 1)

/-- The two's complement reading of the low `wd` bits. -/
def toSigned (wd v : Nat) : Int :=
  if v % 2 ^ wd < 2 ^ (wd - 1) then (v % 2 ^ wd : Nat) else (v % 2 ^ wd : Nat) - (2 ^ wd : Nat)

/-- The low `wd` bits of a two's complement number. -/
def ofSigned (wd : Nat) (v : Int) : Nat := (v % (2 ^ wd : Nat)).toNat

/-- Bytes, most significant first, as a number (R5). -/
def beNat : List Byte → Nat := List.foldl (fun a b => a * 256 + b.toNat) 0

/-- The low `n` bytes of a number, most significant first. -/
def beBytes : Nat → Nat → List Byte
  | 0, _ => []
  | n + 1, v => BitVec.ofNat 8 (v / 256 ^ n) :: beBytes n v

/-- Bytes, least significant first, as a number (R5: host memory and BAR space). -/
def leNat : List Byte → Nat
  | [] => 0
  | b :: r => b.toNat + 256 * leNat r

/-- The low `n` bytes of a number, least significant first. -/
def leBytes : Nat → Nat → List Byte
  | 0, _ => []
  | n + 1, v => BitVec.ofNat 8 v :: leBytes n (v / 256)

/-- `n` bytes from offset `o`, zero beyond the end. -/
def slice (l : List Byte) (o n : Nat) : List Byte :=
  let s := (l.drop o).take n
  s ++ List.replicate (n - s.length) 0

/-- The big-endian field of `n` bytes at offset `o`, zero beyond the end. -/
def beAt (l : List Byte) (o n : Nat) : Nat := beNat (slice l o n)

/-- The bytes with `r` written at offset `o` (the list is extended with zeros where it is shorter). -/
def splice (l : List Byte) (o : Nat) (r : List Byte) : List Byte :=
  slice l 0 o ++ r ++ l.drop (o + r.length)

/-- The set bits below `n`, lowest first. -/
def setBits (n v : Nat) : List Nat := (List.range n).filter (bit v)

/-- The number whose set bits are those listed. -/
def ofBits (l : List Nat) : Nat := l.foldl setBit 0

/-- The least index with the highest value of `f` among `l`. -/
def argMax (f : Nat → Int) : List Nat → Option Nat
  | [] => none
  | a :: r => match argMax f r with
    | none => some a
    | some b => if f b > f a then some b else some a

/-- The first index with the lowest value of `f` among `l`. -/
def argMin (f : Nat → Int) (l : List Nat) : Option Nat := argMax (fun i => - f i) l

/-- The ceiling of a / b. -/
def cdiv (a b : Nat) : Nat := (a + b - 1) / b

end Sys2Proof.Machine
end

