-- ==== Sys2Proof/Machine/RegTypes.lean ====
section
/-! DEFINITION. The shape of a register table: access codes (R7), fields, registers, and the kinds of CSR page (R23). -/

namespace Sys2Proof.Machine

/-- The access codes of R7. `ro1` is the RO field of ERR_CAP0–7, whose wrong write is not recorded (R7, R22 item 6). -/
inductive Acc where
  | rw | ro | wo | w1c | w1s | rc | rwl | ro1
  deriving DecidableEq, Repr

/-- The block types of R23's page index; `none` is an unassigned page. -/
inductive PageKind where
  | dir | svc | pwr | clk | err | hif | dma | mod | time | pg | lkp | lrn | ord | bpm | swc | tm
  | hbm | peal | car | eli | ulx | eng | none
  deriving DecidableEq, Repr

/-- One field of a register: its place, width, access code, reset value and whether it is shadowed (R70). -/
structure FieldDesc where
  lsb : Nat
  wd : Nat
  acc : Acc
  rst : Nat
  shadow : Bool
  deriving DecidableEq, Repr

/-- Which half of a 64-bit pair (R6) a register is. -/
inductive Half where
  | single | low | high
  deriving DecidableEq, Repr

/-- One register or register array: element (i, j), i < n1 and j < n2, stands at off + s1 * i + s2 * j. -/
structure RegDesc where
  off : Nat
  n1 : Nat
  s1 : Nat
  n2 : Nat
  s2 : Nat
  half : Half
  fields : List FieldDesc
  deriving DecidableEq, Repr

/-- The place of one field: byte offset in its page, least significant bit, width. -/
structure Fld where
  off : Nat
  lsb : Nat
  wd : Nat
  deriving DecidableEq, Repr

end Sys2Proof.Machine
end

