-- ==== Sys2Proof/Machine/Fields.lean ====
section
/-! DEFINITION. The places of the registers (R.<register>) and fields (F.<register>_<field>) under the names of the
chapters' field tables; an array's element 0 is named. -/

namespace Sys2Proof.Machine

/-- PWR_DOM_REQ (R58). -/
abbrev R.PWR_DOM_REQ : Nat := 0x0100
/-- PWR_DOM_REQ.REQ, bits [28:0], access RW (R58). -/
abbrev F.PWR_DOM_REQ_REQ : Fld := ⟨0x0100, 0, 29⟩
/-- PWR_DOM_REQ.REQ29, bits [29:29], access RO (R58). -/
abbrev F.PWR_DOM_REQ_REQ29 : Fld := ⟨0x0100, 29, 1⟩
/-- PWR_DOM_FAULT (R58). -/
abbrev R.PWR_DOM_FAULT : Nat := 0x0104
/-- PWR_DOM_FAULT.FAULT, bits [29:0], access W1C (R58). -/
abbrev F.PWR_DOM_FAULT_FAULT : Fld := ⟨0x0104, 0, 30⟩
/-- PWR_INPUT (R58). -/
abbrev R.PWR_INPUT : Nat := 0x0108
/-- PWR_INPUT.LOST, bits [0:0], access W1C (R58). -/
abbrev F.PWR_INPUT_LOST : Fld := ⟨0x0108, 0, 1⟩
/-- PWR_INPUT.CAUSE, bits [3:1], access RO (R58). -/
abbrev F.PWR_INPUT_CAUSE : Fld := ⟨0x0108, 1, 3⟩
/-- PWR_IN_TEL (R58). -/
abbrev R.PWR_IN_TEL : Nat := 0x010C
/-- PWR_IN_TEL.VOLT, bits [15:0], access RO (R58). -/
abbrev F.PWR_IN_TEL_VOLT : Fld := ⟨0x010C, 0, 16⟩
/-- PWR_IN_TEL.CURR, bits [31:16], access RO (R58). -/
abbrev F.PWR_IN_TEL_CURR : Fld := ⟨0x010C, 16, 16⟩
/-- PWR_BUS_TEL (R58). -/
abbrev R.PWR_BUS_TEL : Nat := 0x0110
/-- PWR_BUS_TEL.VOLT, bits [15:0], access RO (R58). -/
abbrev F.PWR_BUS_TEL_VOLT : Fld := ⟨0x0110, 0, 16⟩
/-- PWR_BUS_TEL.CURR, bits [31:16], access RO (R58). -/
abbrev F.PWR_BUS_TEL_CURR : Fld := ⟨0x0110, 16, 16⟩
/-- PWR_STBY_TEL (R58). -/
abbrev R.PWR_STBY_TEL : Nat := 0x0114
/-- PWR_STBY_TEL.VOLT, bits [15:0], access RO (R58). -/
abbrev F.PWR_STBY_TEL_VOLT : Fld := ⟨0x0114, 0, 16⟩
/-- PWR_STBY_TEL.CURR, bits [31:16], access RO (R58). -/
abbrev F.PWR_STBY_TEL_CURR : Fld := ⟨0x0114, 16, 16⟩
/-- PWR_TEMP_WARN (R58). -/
abbrev R.PWR_TEMP_WARN : Nat := 0x0118
/-- PWR_TEMP_WARN.TEMP, bits [7:0], access RW (R58). -/
abbrev F.PWR_TEMP_WARN_TEMP : Fld := ⟨0x0118, 0, 8⟩
/-- PWR_LINK (R58). -/
abbrev R.PWR_LINK : Nat := 0x011C
/-- PWR_LINK.RETRY, bits [15:0], access RC (R58). -/
abbrev F.PWR_LINK_RETRY : Fld := ⟨0x011C, 0, 16⟩
/-- PWR_LINK.LATE, bits [31:16], access RC (R58). -/
abbrev F.PWR_LINK_LATE : Fld := ⟨0x011C, 16, 16⟩
/-- PWR_DOM_STATE[n] (R58). -/
abbrev R.PWR_DOM_STATE : Nat := 0x0200
/-- PWR_DOM_STATE[n].STATE, bits [2:0], access RO (R58). -/
abbrev F.PWR_DOM_STATE_STATE : Fld := ⟨0x0200, 0, 3⟩
/-- PWR_DOM_STATE[n].PENDING, bits [3:3], access RO (R58). -/
abbrev F.PWR_DOM_STATE_PENDING : Fld := ⟨0x0200, 3, 1⟩
/-- PWR_DOM_TEL[n] (R58). -/
abbrev R.PWR_DOM_TEL : Nat := 0x0280
/-- PWR_DOM_TEL[n].VOLT, bits [15:0], access RO (R58). -/
abbrev F.PWR_DOM_TEL_VOLT : Fld := ⟨0x0280, 0, 16⟩
/-- PWR_DOM_TEL[n].CURR, bits [31:16], access RO (R58). -/
abbrev F.PWR_DOM_TEL_CURR : Fld := ⟨0x0280, 16, 16⟩
/-- PWR_TEMP[s] (R58). -/
abbrev R.PWR_TEMP : Nat := 0x0300
/-- PWR_TEMP[s].TEMP, bits [11:0], access RO (R58). -/
abbrev F.PWR_TEMP_TEMP : Fld := ⟨0x0300, 0, 12⟩
/-- CLK_STAT (R59). -/
abbrev R.CLK_STAT : Nat := 0x0100
/-- CLK_STAT.REF_OK, bits [0:0], access RO (R59). -/
abbrev F.CLK_STAT_REF_OK : Fld := ⟨0x0100, 0, 1⟩
/-- CLK_STAT.ROOT_LOCK, bits [1:1], access RO (R59). -/
abbrev F.CLK_STAT_ROOT_LOCK : Fld := ⟨0x0100, 1, 1⟩
/-- CLK_STAT.HOLDOVER, bits [2:2], access RO (R59). -/
abbrev F.CLK_STAT_HOLDOVER : Fld := ⟨0x0100, 2, 1⟩
/-- CLK_STAT.ALIGN_OK, bits [3:3], access RO (R59). -/
abbrev F.CLK_STAT_ALIGN_OK : Fld := ⟨0x0100, 3, 1⟩
/-- CLK_STAT.ISLAND_OSC, bits [4:4], access RO (R59). -/
abbrev F.CLK_STAT_ISLAND_OSC : Fld := ⟨0x0100, 4, 1⟩
/-- CLK_REF_LOSS (R59). -/
abbrev R.CLK_REF_LOSS : Nat := 0x0104
/-- CLK_REF_LOSS.COUNT, bits [15:0], access RC (R59). -/
abbrev F.CLK_REF_LOSS_COUNT : Fld := ⟨0x0104, 0, 16⟩
/-- CLK_HOLD_TIME (R59). -/
abbrev R.CLK_HOLD_TIME : Nat := 0x0108
/-- CLK_HOLD_TIME.US, bits [31:0], access RO (R59). -/
abbrev F.CLK_HOLD_TIME_US : Fld := ⟨0x0108, 0, 32⟩
/-- SVC_MODE_REQ (R78). -/
abbrev R.SVC_MODE_REQ : Nat := 0x0100
/-- SVC_MODE_REQ.MODE, bits [2:0], access WO (R78). -/
abbrev F.SVC_MODE_REQ_MODE : Fld := ⟨0x0100, 0, 3⟩
/-- SVC_MODE (R78). -/
abbrev R.SVC_MODE : Nat := 0x0104
/-- SVC_MODE.MODE, bits [2:0], access RO (R78). -/
abbrev F.SVC_MODE_MODE : Fld := ⟨0x0104, 0, 3⟩
/-- SVC_MODE.BUSY, bits [3:3], access RO (R78). -/
abbrev F.SVC_MODE_BUSY : Fld := ⟨0x0104, 3, 1⟩
/-- SVC_MODE.TARGET, bits [6:4], access RO (R78). -/
abbrev F.SVC_MODE_TARGET : Fld := ⟨0x0104, 4, 3⟩
/-- SVC_MODE.PENDING, bits [7:7], access RO (R78). -/
abbrev F.SVC_MODE_PENDING : Fld := ⟨0x0104, 7, 1⟩
/-- SVC_MODE.NEXT, bits [10:8], access RO (R78). -/
abbrev F.SVC_MODE_NEXT : Fld := ⟨0x0104, 8, 3⟩
/-- SVC_MODE.DRAIN_TO, bits [11:11], access W1C (R78). -/
abbrev F.SVC_MODE_DRAIN_TO : Fld := ⟨0x0104, 11, 1⟩
/-- SVC_CFG (R78). -/
abbrev R.SVC_CFG : Nat := 0x0108
/-- SVC_CFG.FLAM_WEST, bits [0:0], access RW (R78). -/
abbrev F.SVC_CFG_FLAM_WEST : Fld := ⟨0x0108, 0, 1⟩
/-- SVC_CFG.FLAM_EAST, bits [1:1], access RW (R78). -/
abbrev F.SVC_CFG_FLAM_EAST : Fld := ⟨0x0108, 1, 1⟩
/-- SVC_DRAIN_LIMIT (R78). -/
abbrev R.SVC_DRAIN_LIMIT : Nat := 0x010C
/-- SVC_DRAIN_LIMIT.LIMIT, bits [15:0], access RW (R78). -/
abbrev F.SVC_DRAIN_LIMIT_LIMIT : Fld := ⟨0x010C, 0, 16⟩
/-- SVC_DRAIN_LEFT (R78). -/
abbrev R.SVC_DRAIN_LEFT : Nat := 0x0110
/-- SVC_DRAIN_LEFT.PACKETS, bits [31:0], access RO (R78). -/
abbrev F.SVC_DRAIN_LEFT_PACKETS : Fld := ⟨0x0110, 0, 32⟩
/-- SVC_DRAIN_FLUSH (R78). -/
abbrev R.SVC_DRAIN_FLUSH : Nat := 0x0114
/-- SVC_DRAIN_FLUSH.PACKETS, bits [31:0], access RC (R78). -/
abbrev F.SVC_DRAIN_FLUSH_PACKETS : Fld := ⟨0x0114, 0, 32⟩
/-- PG_CFG (R94). -/
abbrev R.PG_CFG : Nat := 0x0100
/-- PG_CFG.MODE, bits [1:0], access RW (R94). -/
abbrev F.PG_CFG_MODE : Fld := ⟨0x0100, 0, 2⟩
/-- PG_PORT_EN (R94). -/
abbrev R.PG_PORT_EN : Nat := 0x0104
/-- PG_PORT_EN.EN, bits [7:0], access RW (R94). -/
abbrev F.PG_PORT_EN_EN : Fld := ⟨0x0104, 0, 8⟩
/-- PG_STAT (R94). -/
abbrev R.PG_STAT : Nat := 0x0108
/-- PG_STAT.LINK, bits [7:0], access RO (R94). -/
abbrev F.PG_STAT_LINK : Fld := ⟨0x0108, 0, 8⟩
/-- PG_STAT.LOCK, bits [15:8], access RO (R94). -/
abbrev F.PG_STAT_LOCK : Fld := ⟨0x0108, 8, 8⟩
/-- PG_UDP_PORT (R94). -/
abbrev R.PG_UDP_PORT : Nat := 0x010C
/-- PG_UDP_PORT.VXLAN, bits [15:0], access RW (R94). -/
abbrev F.PG_UDP_PORT_VXLAN : Fld := ⟨0x010C, 0, 16⟩
/-- PG_UDP_PORT.GENEVE, bits [31:16], access RW (R94). -/
abbrev F.PG_UDP_PORT_GENEVE : Fld := ⟨0x010C, 16, 16⟩
/-- PG_HASH_CFG (R94). -/
abbrev R.PG_HASH_CFG : Nat := 0x0110
/-- PG_HASH_CFG.L4, bits [0:0], access RW (R94). -/
abbrev F.PG_HASH_CFG_L4 : Fld := ⟨0x0110, 0, 1⟩
/-- PG_HASH_CFG.FLOWLBL, bits [1:1], access RW (R94). -/
abbrev F.PG_HASH_CFG_FLOWLBL : Fld := ⟨0x0110, 1, 1⟩
/-- PG_HASH_CFG.EL, bits [2:2], access RW (R94). -/
abbrev F.PG_HASH_CFG_EL : Fld := ⟨0x0110, 2, 1⟩
/-- PG_HASH_CFG.SEED, bits [31:16], access RW (R94). -/
abbrev F.PG_HASH_CFG_SEED : Fld := ⟨0x0110, 16, 16⟩
/-- PG_PUNT_CH (R94). -/
abbrev R.PG_PUNT_CH : Nat := 0x0114
/-- PG_PUNT_CH.CHAN, bits [9:0], access RW (R94). -/
abbrev F.PG_PUNT_CH_CHAN : Fld := ⟨0x0114, 0, 10⟩
/-- PG_PUNT_CH.EN, bits [15:15], access RW (R94). -/
abbrev F.PG_PUNT_CH_EN : Fld := ⟨0x0114, 15, 1⟩
/-- PG_INTAKE (R94). -/
abbrev R.PG_INTAKE : Nat := 0x0118
/-- PG_INTAKE.DEPTH, bits [10:0], access RO (R94). -/
abbrev F.PG_INTAKE_DEPTH : Fld := ⟨0x0118, 0, 11⟩
/-- PG_INTAKE.PEAK, bits [26:16], access RC (R94). -/
abbrev F.PG_INTAKE_PEAK : Fld := ⟨0x0118, 16, 11⟩
/-- PG_PORT_CFG[n] (R94). -/
abbrev R.PG_PORT_CFG : Nat := 0x0200
/-- PG_PORT_CFG[n].MTU, bits [13:0], access RW (R94). -/
abbrev F.PG_PORT_CFG_MTU : Fld := ⟨0x0200, 0, 14⟩
/-- PG_PORT_CFG[n].MEDIUM, bits [15:14], access RW (R94). -/
abbrev F.PG_PORT_CFG_MEDIUM : Fld := ⟨0x0200, 14, 2⟩
/-- PG_PORT_CFG[n].SHIM, bits [16:16], access RW (R94). -/
abbrev F.PG_PORT_CFG_SHIM : Fld := ⟨0x0200, 16, 1⟩
/-- PG_PORT_CFG[n].OVH, bits [22:17], access RW (R94). -/
abbrev F.PG_PORT_CFG_OVH : Fld := ⟨0x0200, 17, 6⟩
/-- PG_PORT_CFG[n].PW_ETH, bits [23:23], access RW (R94). -/
abbrev F.PG_PORT_CFG_PW_ETH : Fld := ⟨0x0200, 23, 1⟩
/-- PG_PORT_CFG[n].LOOP, bits [24:24], access RW (R94). -/
abbrev F.PG_PORT_CFG_LOOP : Fld := ⟨0x0200, 24, 1⟩
/-- PG_PORT_HOLD[n] (R94). -/
abbrev R.PG_PORT_HOLD : Nat := 0x0220
/-- PG_PORT_HOLD[n].US, bits [13:0], access RW (R94). -/
abbrev F.PG_PORT_HOLD_US : Fld := ⟨0x0220, 0, 14⟩
/-- PG_PORT_ACT[n] (R94). -/
abbrev R.PG_PORT_ACT : Nat := 0x0240
/-- PG_PORT_ACT[n].ACT, bits [9:0], access RW (R94). -/
abbrev F.PG_PORT_ACT_ACT : Fld := ⟨0x0240, 0, 10⟩
/-- PG_LANE_CFG[l] (R94). -/
abbrev R.PG_LANE_CFG : Nat := 0x0260
/-- PG_LANE_CFG[l].TX_INV, bits [0:0], access RW (R94). -/
abbrev F.PG_LANE_CFG_TX_INV : Fld := ⟨0x0260, 0, 1⟩
/-- PG_LANE_CFG[l].RX_INV, bits [1:1], access RW (R94). -/
abbrev F.PG_LANE_CFG_RX_INV : Fld := ⟨0x0260, 1, 1⟩
/-- PG_LANE_CFG[l].TX_PRESET, bits [7:4], access RW (R94). -/
abbrev F.PG_LANE_CFG_TX_PRESET : Fld := ⟨0x0260, 4, 4⟩
/-- PG_FEC_CORR[n] (R94). -/
abbrev R.PG_FEC_CORR : Nat := 0x0300
/-- PG_FEC_CORR[n].COUNT, bits [31:0], access RC (R94). -/
abbrev F.PG_FEC_CORR_COUNT : Fld := ⟨0x0300, 0, 32⟩
/-- PG_FEC_UNCORR[n] (R94). -/
abbrev R.PG_FEC_UNCORR : Nat := 0x0304
/-- PG_FEC_UNCORR[n].COUNT, bits [31:0], access RC (R94). -/
abbrev F.PG_FEC_UNCORR_COUNT : Fld := ⟨0x0304, 0, 32⟩
/-- PG_CNT[n][k] (R94). -/
abbrev R.PG_CNT : Nat := 0x0400
/-- PG_CNT[n][k].COUNT, bits [31:0], access RC (R94). -/
abbrev F.PG_CNT_COUNT : Fld := ⟨0x0400, 0, 32⟩
/-- ENG_CFG (R112). -/
abbrev R.ENG_CFG : Nat := 0x0100
/-- ENG_CFG.STEAL_EN, bits [0:0], access RW (R112). -/
abbrev F.ENG_CFG_STEAL_EN : Fld := ⟨0x0100, 0, 1⟩
/-- ENG_CFG.FAR_EN, bits [1:1], access RW (R112). -/
abbrev F.ENG_CFG_FAR_EN : Fld := ⟨0x0100, 1, 1⟩
/-- ENG_CFG.BATCH, bits [4:2], access RW (R112). -/
abbrev F.ENG_CFG_BATCH : Fld := ⟨0x0100, 2, 3⟩
/-- ENG_CFG.MIN_FREE, bits [11:8], access RW (R112). -/
abbrev F.ENG_CFG_MIN_FREE : Fld := ⟨0x0100, 8, 4⟩
/-- ENG_STEAL_THR (R112). -/
abbrev R.ENG_STEAL_THR : Nat := 0x0104
/-- ENG_STEAL_THR.NEAR, bits [5:0], access RW (R112). -/
abbrev F.ENG_STEAL_THR_NEAR : Fld := ⟨0x0104, 0, 6⟩
/-- ENG_STEAL_THR.FAR, bits [13:8], access RW (R112). -/
abbrev F.ENG_STEAL_THR_FAR : Fld := ⟨0x0104, 8, 6⟩
/-- ENG_BUDGET (R112). -/
abbrev R.ENG_BUDGET : Nat := 0x0108
/-- ENG_BUDGET.ISSUES, bits [15:0], access RW (R112). -/
abbrev F.ENG_BUDGET_ISSUES : Fld := ⟨0x0108, 0, 16⟩
/-- ENG_QUEUE (R112). -/
abbrev R.ENG_QUEUE : Nat := 0x010C
/-- ENG_QUEUE.DEPTH, bits [5:0], access RO (R112). -/
abbrev F.ENG_QUEUE_DEPTH : Fld := ⟨0x010C, 0, 6⟩
/-- ENG_QUEUE.PEAK, bits [21:16], access RC (R112). -/
abbrev F.ENG_QUEUE_PEAK : Fld := ⟨0x010C, 16, 6⟩
/-- ENG_THREADS (R112). -/
abbrev R.ENG_THREADS : Nat := 0x0110
/-- ENG_THREADS.FREE, bits [7:0], access RO (R112). -/
abbrev F.ENG_THREADS_FREE : Fld := ⟨0x0110, 0, 8⟩
/-- ENG_THREADS.READY, bits [15:8], access RO (R112). -/
abbrev F.ENG_THREADS_READY : Fld := ⟨0x0110, 8, 8⟩
/-- ENG_THREADS.WAIT, bits [23:16], access RO (R112). -/
abbrev F.ENG_THREADS_WAIT : Fld := ⟨0x0110, 16, 8⟩
/-- ENG_THREADS.HOLD, bits [31:24], access RO (R112). -/
abbrev F.ENG_THREADS_HOLD : Fld := ⟨0x0110, 24, 8⟩
/-- ENG_ISSUE (R112). -/
abbrev R.ENG_ISSUE : Nat := 0x0120
/-- ENG_ISSUE.COUNT, bits [63:0], access RO (R112). -/
abbrev F.ENG_ISSUE_COUNT : Fld := ⟨0x0120, 0, 32⟩
/-- ENG_CNT[k] (R112). -/
abbrev R.ENG_CNT : Nat := 0x0130
/-- ENG_CNT[k].COUNT, bits [31:0], access RC (R112). -/
abbrev F.ENG_CNT_COUNT : Fld := ⟨0x0130, 0, 32⟩
/-- ENG_THR_STATE[e] (R112). -/
abbrev R.ENG_THR_STATE : Nat := 0x0200
/-- ENG_THR_STATE[e].STATE, bits [23:0], access RO (R112). -/
abbrev F.ENG_THR_STATE_STATE : Fld := ⟨0x0200, 0, 24⟩
/-- ORD_CFG (R113). -/
abbrev R.ORD_CFG : Nat := 0x0100
/-- ORD_CFG.PUNT_ORDER, bits [0:0], access RW (R113). -/
abbrev F.ORD_CFG_PUNT_ORDER : Fld := ⟨0x0100, 0, 1⟩
/-- ORD_SLOTS (R113). -/
abbrev R.ORD_SLOTS : Nat := 0x0104
/-- ORD_SLOTS.USED, bits [15:0], access RO (R113). -/
abbrev F.ORD_SLOTS_USED : Fld := ⟨0x0104, 0, 16⟩
/-- ORD_SLOTS.PEAK, bits [31:16], access RC (R113). -/
abbrev F.ORD_SLOTS_PEAK : Fld := ⟨0x0104, 16, 16⟩
/-- ORD_FAR_CAP (R113). -/
abbrev R.ORD_FAR_CAP : Nat := 0x0108
/-- ORD_FAR_CAP.HEADS, bits [9:0], access RW (R113). -/
abbrev F.ORD_FAR_CAP_HEADS : Fld := ⟨0x0108, 0, 10⟩
/-- ORD_AGE_LIMIT (R113). -/
abbrev R.ORD_AGE_LIMIT : Nat := 0x010C
/-- ORD_AGE_LIMIT.LIMIT, bits [13:0], access RW (R113). -/
abbrev F.ORD_AGE_LIMIT_LIMIT : Fld := ⟨0x010C, 0, 14⟩
/-- ORD_READY (R113). -/
abbrev R.ORD_READY : Nat := 0x0110
/-- ORD_READY.DEPTH, bits [19:0], access RO (R113). -/
abbrev F.ORD_READY_DEPTH : Fld := ⟨0x0110, 0, 20⟩
/-- ORD_CNT[k] (R113). -/
abbrev R.ORD_CNT : Nat := 0x0200
/-- ORD_CNT[k].COUNT, bits [31:0], access RC (R113). -/
abbrev F.ORD_CNT_COUNT : Fld := ⟨0x0200, 0, 32⟩
/-- ENG_DBG_CTL (R140). -/
abbrev R.ENG_DBG_CTL : Nat := 0x0300
/-- ENG_DBG_CTL.BRK_EN, bits [0:0], access RW (R140). -/
abbrev F.ENG_DBG_CTL_BRK_EN : Fld := ⟨0x0300, 0, 1⟩
/-- ENG_DBG_CTL.HALT_ALL, bits [1:1], access WO (R140). -/
abbrev F.ENG_DBG_CTL_HALT_ALL : Fld := ⟨0x0300, 1, 1⟩
/-- ENG_DBG_CTL.ENGINE, bits [11:8], access RW (R140). -/
abbrev F.ENG_DBG_CTL_ENGINE : Fld := ⟨0x0300, 8, 4⟩
/-- ENG_DBG_CTL.THREAD, bits [14:12], access RW (R140). -/
abbrev F.ENG_DBG_CTL_THREAD : Fld := ⟨0x0300, 12, 3⟩
/-- ENG_DBG_CTL.HALT, bits [16:16], access WO (R140). -/
abbrev F.ENG_DBG_CTL_HALT : Fld := ⟨0x0300, 16, 1⟩
/-- ENG_DBG_CTL.RESUME, bits [18:17], access WO (R140). -/
abbrev F.ENG_DBG_CTL_RESUME : Fld := ⟨0x0300, 17, 2⟩
/-- ENG_DBG_STAT (R140). -/
abbrev R.ENG_DBG_STAT : Nat := 0x0304
/-- ENG_DBG_STAT.HALTED, bits [0:0], access RO (R140). -/
abbrev F.ENG_DBG_STAT_HALTED : Fld := ⟨0x0304, 0, 1⟩
/-- ENG_DBG_STAT.COUNT, bits [23:16], access RO (R140). -/
abbrev F.ENG_DBG_STAT_COUNT : Fld := ⟨0x0304, 16, 8⟩
/-- ENG_DBG_ADDR (R140). -/
abbrev R.ENG_DBG_ADDR : Nat := 0x0308
/-- ENG_DBG_ADDR.SPACE, bits [1:0], access RW (R140). -/
abbrev F.ENG_DBG_ADDR_SPACE : Fld := ⟨0x0308, 0, 2⟩
/-- ENG_DBG_ADDR.INDEX, bits [12:8], access RW (R140). -/
abbrev F.ENG_DBG_ADDR_INDEX : Fld := ⟨0x0308, 8, 5⟩
/-- ENG_DBG_DATA (R140). -/
abbrev R.ENG_DBG_DATA : Nat := 0x0310
/-- ENG_DBG_DATA.DATA, bits [63:0], access RW (R140). -/
abbrev F.ENG_DBG_DATA_DATA : Fld := ⟨0x0310, 0, 32⟩
/-- ENG_CS_CNT (R140). -/
abbrev R.ENG_CS_CNT : Nat := 0x0318
/-- ENG_CS_CNT.CORR, bits [15:0], access RC (R140). -/
abbrev F.ENG_CS_CNT_CORR : Fld := ⟨0x0318, 0, 16⟩
/-- ENG_CS_CNT.UNCORR, bits [31:16], access RC (R140). -/
abbrev F.ENG_CS_CNT_UNCORR : Fld := ⟨0x0318, 16, 16⟩
/-- SVC_IMG_POLICY (R149). -/
abbrev R.SVC_IMG_POLICY : Nat := 0x0200
/-- SVC_IMG_POLICY.SIG_REQ, bits [0:0], access RW (R149). -/
abbrev F.SVC_IMG_POLICY_SIG_REQ : Fld := ⟨0x0200, 0, 1⟩
/-- SVC_IMG_POLICY.LOCK, bits [1:1], access W1S (R149). -/
abbrev F.SVC_IMG_POLICY_LOCK : Fld := ⟨0x0200, 1, 1⟩
/-- SVC_KEY_EN (R149). -/
abbrev R.SVC_KEY_EN : Nat := 0x0204
/-- SVC_KEY_EN.EN, bits [3:0], access RW (R149). -/
abbrev F.SVC_KEY_EN_EN : Fld := ⟨0x0204, 0, 4⟩
/-- SVC_KEY_HASH[s][k] (R149). -/
abbrev R.SVC_KEY_HASH : Nat := 0x0210
/-- SVC_KEY_HASH[s][k].HASH, bits [31:0], access RW (R149). -/
abbrev F.SVC_KEY_HASH_HASH : Fld := ⟨0x0210, 0, 32⟩
/-- ORD_EPOCH (R157). -/
abbrev R.ORD_EPOCH : Nat := 0x0300
/-- ORD_EPOCH.CUR, bits [0:0], access RO (R157). -/
abbrev F.ORD_EPOCH_CUR : Fld := ⟨0x0300, 0, 1⟩
/-- ORD_EPOCH.FLIP, bits [1:1], access WO (R157). -/
abbrev F.ORD_EPOCH_FLIP : Fld := ⟨0x0300, 1, 1⟩
/-- ORD_EPOCH_INFL[e] (R157). -/
abbrev R.ORD_EPOCH_INFL : Nat := 0x0304
/-- ORD_EPOCH_INFL[e].COUNT, bits [15:0], access RO (R157). -/
abbrev F.ORD_EPOCH_INFL_COUNT : Fld := ⟨0x0304, 0, 16⟩
/-- ENG_IMG_CTL (R158). -/
abbrev R.ENG_IMG_CTL : Nat := 0x0400
/-- ENG_IMG_CTL.VERIFY, bits [0:0], access WO (R158). -/
abbrev F.ENG_IMG_CTL_VERIFY : Fld := ⟨0x0400, 0, 1⟩
/-- ENG_IMG_STAT (R158). -/
abbrev R.ENG_IMG_STAT : Nat := 0x0404
/-- ENG_IMG_STAT.VALID, bits [0:0], access RO (R158). -/
abbrev F.ENG_IMG_STAT_VALID : Fld := ⟨0x0404, 0, 1⟩
/-- ENG_IMG_STAT.BUSY, bits [1:1], access RO (R158). -/
abbrev F.ENG_IMG_STAT_BUSY : Fld := ⟨0x0404, 1, 1⟩
/-- ENG_IMG_STAT.CODE, bits [11:4], access RO (R158). -/
abbrev F.ENG_IMG_STAT_CODE : Fld := ⟨0x0404, 4, 8⟩
/-- ENG_IMG_TAG (R158). -/
abbrev R.ENG_IMG_TAG : Nat := 0x0408
/-- ENG_IMG_TAG.TAG, bits [63:0], access RO (R158). -/
abbrev F.ENG_IMG_TAG_TAG : Fld := ⟨0x0408, 0, 32⟩
/-- ENG_IMG_ENTRY (R158). -/
abbrev R.ENG_IMG_ENTRY : Nat := 0x0410
/-- ENG_IMG_ENTRY.ENTRY1, bits [13:0], access RO (R158). -/
abbrev F.ENG_IMG_ENTRY_ENTRY1 : Fld := ⟨0x0410, 0, 14⟩
/-- ENG_IMG_ENTRY.ENTRY2, bits [29:16], access RO (R158). -/
abbrev F.ENG_IMG_ENTRY_ENTRY2 : Fld := ⟨0x0410, 16, 14⟩
/-- ENG_IMG_TRAP (R158). -/
abbrev R.ENG_IMG_TRAP : Nat := 0x0414
/-- ENG_IMG_TRAP.BASE, bits [13:0], access RO (R158). -/
abbrev F.ENG_IMG_TRAP_BASE : Fld := ⟨0x0414, 0, 14⟩
/-- ENG_IMG_HDR[k] (R158). -/
abbrev R.ENG_IMG_HDR : Nat := 0x0500
/-- ENG_IMG_HDR[k].BYTES, bits [31:0], access RW (R158). -/
abbrev F.ENG_IMG_HDR_BYTES : Fld := ⟨0x0500, 0, 32⟩
/-- ENG_IMG_SIG[k] (R158). -/
abbrev R.ENG_IMG_SIG : Nat := 0x0700
/-- ENG_IMG_SIG[k].BYTES, bits [31:0], access RW (R158). -/
abbrev F.ENG_IMG_SIG_BYTES : Fld := ⟨0x0700, 0, 32⟩
/-- LKP_CMD_CTL (R181). -/
abbrev R.LKP_CMD_CTL : Nat := 0x0100
/-- LKP_CMD_CTL.OP, bits [2:0], access RW (R181). -/
abbrev F.LKP_CMD_CTL_OP : Fld := ⟨0x0100, 0, 3⟩
/-- LKP_CMD_CTL.STATIC, bits [3:3], access RW (R181). -/
abbrev F.LKP_CMD_CTL_STATIC : Fld := ⟨0x0100, 3, 1⟩
/-- LKP_CMD_CTL.LEARNED, bits [4:4], access RW (R181). -/
abbrev F.LKP_CMD_CTL_LEARNED : Fld := ⟨0x0100, 4, 1⟩
/-- LKP_CMD_CTL.TABLE, bits [14:5], access RW (R181). -/
abbrev F.LKP_CMD_CTL_TABLE : Fld := ⟨0x0100, 5, 10⟩
/-- LKP_CMD_STAT (R181). -/
abbrev R.LKP_CMD_STAT : Nat := 0x0104
/-- LKP_CMD_STAT.BUSY, bits [0:0], access RO (R181). -/
abbrev F.LKP_CMD_STAT_BUSY : Fld := ⟨0x0104, 0, 1⟩
/-- LKP_CMD_STAT.DONE, bits [1:1], access RO (R181). -/
abbrev F.LKP_CMD_STAT_DONE : Fld := ⟨0x0104, 1, 1⟩
/-- LKP_CMD_STAT.CODE, bits [5:2], access RO (R181). -/
abbrev F.LKP_CMD_STAT_CODE : Fld := ⟨0x0104, 2, 4⟩
/-- LKP_CMD_STAT.MOVES, bits [9:6], access RO (R181). -/
abbrev F.LKP_CMD_STAT_MOVES : Fld := ⟨0x0104, 6, 4⟩
/-- LKP_CMD_STAT.CTL, bits [13:10], access RO (R181). -/
abbrev F.LKP_CMD_STAT_CTL : Fld := ⟨0x0104, 10, 4⟩
/-- LKP_CMD_POS (R181). -/
abbrev R.LKP_CMD_POS : Nat := 0x0108
/-- LKP_CMD_POS.POS, bits [25:0], access RO (R181). -/
abbrev F.LKP_CMD_POS_POS : Fld := ⟨0x0108, 0, 26⟩
/-- LKP_CMD_GO (R181). -/
abbrev R.LKP_CMD_GO : Nat := 0x010C
/-- LKP_CMD_GO.GO, bits [0:0], access WO (R181). -/
abbrev F.LKP_CMD_GO_GO : Fld := ⟨0x010C, 0, 1⟩
/-- LKP_CMD_KEY[k] (R181). -/
abbrev R.LKP_CMD_KEY : Nat := 0x0110
/-- LKP_CMD_KEY[k].KEY, bits [31:0], access RW (R181). -/
abbrev F.LKP_CMD_KEY_KEY : Fld := ⟨0x0110, 0, 32⟩
/-- LKP_CMD_RES[k] (R181). -/
abbrev R.LKP_CMD_RES : Nat := 0x0130
/-- LKP_CMD_RES[k].RES, bits [31:0], access RW (R181). -/
abbrev F.LKP_CMD_RES_RES : Fld := ⟨0x0130, 0, 32⟩
/-- LKP_CNT[k] (R181). -/
abbrev R.LKP_CNT : Nat := 0x0200
/-- LKP_CNT[k].COUNT, bits [31:0], access RC (R181). -/
abbrev F.LKP_CNT_COUNT : Fld := ⟨0x0200, 0, 32⟩
/-- LRN_CFG (R182). -/
abbrev R.LRN_CFG : Nat := 0x0100
/-- LRN_CFG.HOLD, bits [0:0], access RW (R182). -/
abbrev F.LRN_CFG_HOLD : Fld := ⟨0x0100, 0, 1⟩
/-- LRN_CFG.FLAP_MOVES, bits [7:4], access RW (R182). -/
abbrev F.LRN_CFG_FLAP_MOVES : Fld := ⟨0x0100, 4, 4⟩
/-- LRN_CFG.FREEZE, bits [11:8], access RW (R182). -/
abbrev F.LRN_CFG_FREEZE : Fld := ⟨0x0100, 8, 4⟩
/-- LRN_SWEEP (R182). -/
abbrev R.LRN_SWEEP : Nat := 0x0104
/-- LRN_SWEEP.MS, bits [15:0], access RW (R182). -/
abbrev F.LRN_SWEEP_MS : Fld := ⟨0x0104, 0, 16⟩
/-- LRN_SWEEP.AGE_LIMIT, bits [23:16], access RW (R182). -/
abbrev F.LRN_SWEEP_AGE_LIMIT : Fld := ⟨0x0104, 16, 8⟩
/-- LRN_SWEEP.AGE_EN, bits [24:24], access RW (R182). -/
abbrev F.LRN_SWEEP_AGE_EN : Fld := ⟨0x0104, 24, 1⟩
/-- LRN_QUEUE (R182). -/
abbrev R.LRN_QUEUE : Nat := 0x0108
/-- LRN_QUEUE.DEPTH, bits [10:0], access RO (R182). -/
abbrev F.LRN_QUEUE_DEPTH : Fld := ⟨0x0108, 0, 11⟩
/-- LRN_QUEUE.PEAK, bits [26:16], access RC (R182). -/
abbrev F.LRN_QUEUE_PEAK : Fld := ⟨0x0108, 16, 11⟩
/-- LRN_EW_TABLE (R182). -/
abbrev R.LRN_EW_TABLE : Nat := 0x010C
/-- LRN_EW_TABLE.TABLE, bits [9:0], access RW (R182). -/
abbrev F.LRN_EW_TABLE_TABLE : Fld := ⟨0x010C, 0, 10⟩
/-- LRN_EVT_EN (R182). -/
abbrev R.LRN_EVT_EN : Nat := 0x0110
/-- LRN_EVT_EN.EN, bits [4:0], access RW (R182). -/
abbrev F.LRN_EVT_EN_EN : Fld := ⟨0x0110, 0, 5⟩
/-- LRN_EVT_DEPTH (R182). -/
abbrev R.LRN_EVT_DEPTH : Nat := 0x0114
/-- LRN_EVT_DEPTH.COUNT, bits [9:0], access RO (R182). -/
abbrev F.LRN_EVT_DEPTH_COUNT : Fld := ⟨0x0114, 0, 10⟩
/-- LRN_EVT_DEPTH.LOST, bits [31:16], access RC (R182). -/
abbrev F.LRN_EVT_DEPTH_LOST : Fld := ⟨0x0114, 16, 16⟩
/-- LRN_EVT[k] (R182). -/
abbrev R.LRN_EVT : Nat := 0x0120
/-- LRN_EVT[k].WORD, bits [31:0], access RO (R182). -/
abbrev F.LRN_EVT_WORD : Fld := ⟨0x0120, 0, 32⟩
/-- LRN_EVT_POP (R182). -/
abbrev R.LRN_EVT_POP : Nat := 0x0130
/-- LRN_EVT_POP.POP, bits [0:0], access WO (R182). -/
abbrev F.LRN_EVT_POP_POP : Fld := ⟨0x0130, 0, 1⟩
/-- LRN_CNT[k] (R182). -/
abbrev R.LRN_CNT : Nat := 0x0200
/-- LRN_CNT[k].COUNT, bits [31:0], access RC (R182). -/
abbrev F.LRN_CNT_COUNT : Fld := ⟨0x0200, 0, 32⟩
/-- LKP_RT_CNT[k] (R195). -/
abbrev R.LKP_RT_CNT : Nat := 0x0240
/-- LKP_RT_CNT[k].COUNT, bits [31:0], access RC (R195). -/
abbrev F.LKP_RT_CNT_COUNT : Fld := ⟨0x0240, 0, 32⟩
/-- BPM_CELLS (R211). -/
abbrev R.BPM_CELLS : Nat := 0x0100
/-- BPM_CELLS.FREE, bits [18:0], access RO (R211). -/
abbrev F.BPM_CELLS_FREE : Fld := ⟨0x0100, 0, 19⟩
/-- BPM_LOST (R211). -/
abbrev R.BPM_LOST : Nat := 0x0104
/-- BPM_LOST.COUNT, bits [31:0], access RC (R211). -/
abbrev F.BPM_LOST_COUNT : Fld := ⟨0x0104, 0, 32⟩
/-- BPM_FLUSH (R211). -/
abbrev R.BPM_FLUSH : Nat := 0x0108
/-- BPM_FLUSH.NS, bits [15:0], access RW (R211). -/
abbrev F.BPM_FLUSH_NS : Fld := ⟨0x0108, 0, 16⟩
/-- BPM_QUOTA[r] (R211). -/
abbrev R.BPM_QUOTA : Nat := 0x0200
/-- BPM_QUOTA[r].MIN, bits [18:0], access RW (R211). -/
abbrev F.BPM_QUOTA_MIN : Fld := ⟨0x0200, 0, 19⟩
/-- BPM_QUOTA[r].MAX, bits [18:0], access RW (R211). -/
abbrev F.BPM_QUOTA_MAX : Fld := ⟨0x0204, 0, 19⟩
/-- BPM_USED[r] (R211). -/
abbrev R.BPM_USED : Nat := 0x0300
/-- BPM_USED[r].USED, bits [18:0], access RO (R211). -/
abbrev F.BPM_USED_USED : Fld := ⟨0x0300, 0, 19⟩
/-- BPM_REFUSE[r] (R211). -/
abbrev R.BPM_REFUSE : Nat := 0x0340
/-- BPM_REFUSE[r].COUNT, bits [31:0], access RC (R211). -/
abbrev F.BPM_REFUSE_COUNT : Fld := ⟨0x0340, 0, 32⟩
/-- BPM_SPILL_PROF[p] (R211). -/
abbrev R.BPM_SPILL_PROF : Nat := 0x0400
/-- BPM_SPILL_PROF[p].SPILL, bits [13:0], access RW (R211). -/
abbrev F.BPM_SPILL_PROF_SPILL : Fld := ⟨0x0400, 0, 14⟩
/-- BPM_SPILL_PROF[p].RECALL, bits [27:14], access RW (R211). -/
abbrev F.BPM_SPILL_PROF_RECALL : Fld := ⟨0x0400, 14, 14⟩
/-- BPM_SPILL_PROF[p].EN, bits [31:31], access RW (R211). -/
abbrev F.BPM_SPILL_PROF_EN : Fld := ⟨0x0400, 31, 1⟩
/-- BPM_PG_BASE[h] (R211). -/
abbrev R.BPM_PG_BASE : Nat := 0x0500
/-- BPM_PG_BASE[h].BASE, bits [22:0], access RW (R211). -/
abbrev F.BPM_PG_BASE_BASE : Fld := ⟨0x0500, 0, 23⟩
/-- BPM_PG_LIMIT[h] (R211). -/
abbrev R.BPM_PG_LIMIT : Nat := 0x0504
/-- BPM_PG_LIMIT[h].LIMIT, bits [22:0], access RW (R211). -/
abbrev F.BPM_PG_LIMIT_LIMIT : Fld := ⟨0x0504, 0, 23⟩
/-- BPM_PG_RING[h] (R211). -/
abbrev R.BPM_PG_RING : Nat := 0x0508
/-- BPM_PG_RING[h].RING_BASE, bits [22:0], access RW (R211). -/
abbrev F.BPM_PG_RING_RING_BASE : Fld := ⟨0x0508, 0, 23⟩
/-- BPM_PG_STAT[h] (R211). -/
abbrev R.BPM_PG_STAT : Nat := 0x050C
/-- BPM_PG_STAT[h].FREE, bits [22:0], access RO (R211). -/
abbrev F.BPM_PG_STAT_FREE : Fld := ⟨0x050C, 0, 23⟩
/-- BPM_PG_STAT[h].READY, bits [31:31], access RO (R211). -/
abbrev F.BPM_PG_STAT_READY : Fld := ⟨0x050C, 31, 1⟩
/-- BPM_RX_DROP[n] (R211). -/
abbrev R.BPM_RX_DROP : Nat := 0x0600
/-- BPM_RX_DROP[n].COUNT, bits [31:0], access RC (R211). -/
abbrev F.BPM_RX_DROP_COUNT : Fld := ⟨0x0600, 0, 32⟩
/-- BPM_CNT[k] (R211). -/
abbrev R.BPM_CNT : Nat := 0x0700
/-- BPM_CNT[k].COUNT, bits [31:0], access RC (R211). -/
abbrev F.BPM_CNT_COUNT : Fld := ⟨0x0700, 0, 32⟩
/-- SWC_POOL (R229). -/
abbrev R.SWC_POOL : Nat := 0x0100
/-- SWC_POOL.SHARED, bits [18:0], access RW (R229). -/
abbrev F.SWC_POOL_SHARED : Fld := ⟨0x0100, 0, 19⟩
/-- SWC_POOL_USED (R229). -/
abbrev R.SWC_POOL_USED : Nat := 0x0104
/-- SWC_POOL_USED.USED, bits [18:0], access RO (R229). -/
abbrev F.SWC_POOL_USED_USED : Fld := ⟨0x0104, 0, 19⟩
/-- SWC_ECN_SEED (R229). -/
abbrev R.SWC_ECN_SEED : Nat := 0x0108
/-- SWC_ECN_SEED.SEED, bits [15:0], access RW (R229). -/
abbrev F.SWC_ECN_SEED_SEED : Fld := ⟨0x0108, 0, 16⟩
/-- SWC_PFC_THR (R229). -/
abbrev R.SWC_PFC_THR : Nat := 0x010C
/-- SWC_PFC_THR.XOFF, bits [15:0], access RW (R229). -/
abbrev F.SWC_PFC_THR_XOFF : Fld := ⟨0x010C, 0, 16⟩
/-- SWC_PFC_THR.XON, bits [31:16], access RW (R229). -/
abbrev F.SWC_PFC_THR_XON : Fld := ⟨0x010C, 16, 16⟩
/-- SWC_PFC_REFRESH (R229). -/
abbrev R.SWC_PFC_REFRESH : Nat := 0x0110
/-- SWC_PFC_REFRESH.REFRESH, bits [15:0], access RW (R229). -/
abbrev F.SWC_PFC_REFRESH_REFRESH : Fld := ⟨0x0110, 0, 16⟩
/-- SWC_CT_EN[k] (R229). -/
abbrev R.SWC_CT_EN : Nat := 0x0120
/-- SWC_CT_EN[k].EN, bits [31:0], access RW (R229). -/
abbrev F.SWC_CT_EN_EN : Fld := ⟨0x0120, 0, 32⟩
/-- SWC_BR_CELLS (R229). -/
abbrev R.SWC_BR_CELLS : Nat := 0x0130
/-- SWC_BR_CELLS.COUNT, bits [63:0], access RO (R229). -/
abbrev F.SWC_BR_CELLS_COUNT : Fld := ⟨0x0130, 0, 32⟩
/-- SWC_CNT[k] (R229). -/
abbrev R.SWC_CNT : Nat := 0x0200
/-- SWC_CNT[k].COUNT, bits [31:0], access RC (R229). -/
abbrev F.SWC_CNT_COUNT : Fld := ⟨0x0200, 0, 32⟩
/-- SWC_ADM_PROF[a] (R229). -/
abbrev R.SWC_ADM_PROF : Nat := 0x0400
/-- SWC_ADM_PROF[a].MIN, bits [15:0], access RW (R229). -/
abbrev F.SWC_ADM_PROF_MIN : Fld := ⟨0x0400, 0, 16⟩
/-- SWC_ADM_PROF[a].ALPHA_G, bits [19:16], access RW (R229). -/
abbrev F.SWC_ADM_PROF_ALPHA_G : Fld := ⟨0x0400, 16, 4⟩
/-- SWC_ADM_PROF[a].ALPHA_Y, bits [23:20], access RW (R229). -/
abbrev F.SWC_ADM_PROF_ALPHA_Y : Fld := ⟨0x0400, 20, 4⟩
/-- SWC_ADM_PROF[a].ALPHA_R, bits [27:24], access RW (R229). -/
abbrev F.SWC_ADM_PROF_ALPHA_R : Fld := ⟨0x0400, 24, 4⟩
/-- SWC_ADM_PROF[a].ECN_MIN, bits [15:0], access RW (R229). -/
abbrev F.SWC_ADM_PROF_ECN_MIN : Fld := ⟨0x0404, 0, 16⟩
/-- SWC_ADM_PROF[a].ECN_MAX, bits [31:16], access RW (R229). -/
abbrev F.SWC_ADM_PROF_ECN_MAX : Fld := ⟨0x0404, 16, 16⟩
/-- SWC_ADM_PROF[a].ECN_EN, bits [0:0], access RW (R229). -/
abbrev F.SWC_ADM_PROF_ECN_EN : Fld := ⟨0x0408, 0, 1⟩
/-- SWC_ADM_PROF[a].ECN_SPILL, bits [1:1], access RW (R229). -/
abbrev F.SWC_ADM_PROF_ECN_SPILL : Fld := ⟨0x0408, 1, 1⟩
/-- SWC_ADM_PROF[a].PMAX, bits [5:2], access RW (R229). -/
abbrev F.SWC_ADM_PROF_PMAX : Fld := ⟨0x0408, 2, 4⟩
/-- SWC_ADM_PROF[a].PAGE_CAP, bits [31:16], access RW (R229). -/
abbrev F.SWC_ADM_PROF_PAGE_CAP : Fld := ⟨0x0408, 16, 16⟩
/-- SWC_PORT_STATE[n] (R229). -/
abbrev R.SWC_PORT_STATE : Nat := 0x0800
/-- SWC_PORT_STATE[n].STATE, bits [2:0], access RO (R229). -/
abbrev F.SWC_PORT_STATE_STATE : Fld := ⟨0x0800, 0, 3⟩
/-- SWC_PORT_STATE[n].UP_PENDING, bits [3:3], access RO (R229). -/
abbrev F.SWC_PORT_STATE_UP_PENDING : Fld := ⟨0x0800, 3, 1⟩
/-- SWC_PORT_STATE[n].HOLD_LEFT, bits [31:16], access RO (R229). -/
abbrev F.SWC_PORT_STATE_HOLD_LEFT : Fld := ⟨0x0800, 16, 16⟩
/-- SWC_PFC_CFG[n] (R229). -/
abbrev R.SWC_PFC_CFG : Nat := 0x0900
/-- SWC_PFC_CFG[n].TX_EN, bits [0:0], access RW (R229). -/
abbrev F.SWC_PFC_CFG_TX_EN : Fld := ⟨0x0900, 0, 1⟩
/-- SWC_PFC_CFG[n].RX_EN, bits [1:1], access RW (R229). -/
abbrev F.SWC_PFC_CFG_RX_EN : Fld := ⟨0x0900, 1, 1⟩
/-- SWC_PFC_CFG[n].DEF_PRIO, bits [4:2], access RW (R229). -/
abbrev F.SWC_PFC_CFG_DEF_PRIO : Fld := ⟨0x0900, 2, 3⟩
/-- SWC_PFC_CFG[n].PRIO_EN, bits [15:8], access RW (R229). -/
abbrev F.SWC_PFC_CFG_PRIO_EN : Fld := ⟨0x0900, 8, 8⟩
/-- SWC_PFC_CFG[n].QUANTA, bits [31:16], access RW (R229). -/
abbrev F.SWC_PFC_CFG_QUANTA : Fld := ⟨0x0900, 16, 16⟩
/-- SWC_PFC_STAT[n] (R229). -/
abbrev R.SWC_PFC_STAT : Nat := 0x0A00
/-- SWC_PFC_STAT[n].XOFF, bits [7:0], access RO (R229). -/
abbrev F.SWC_PFC_STAT_XOFF : Fld := ⟨0x0A00, 0, 8⟩
/-- SWC_PFC_STAT[n].PAUSED, bits [15:8], access RO (R229). -/
abbrev F.SWC_PFC_STAT_PAUSED : Fld := ⟨0x0A00, 8, 8⟩
/-- SWC_DROP[n][k] (R229). -/
abbrev R.SWC_DROP : Nat := 0x1000
/-- SWC_DROP[n][k].COUNT, bits [31:0], access RC (R229). -/
abbrev F.SWC_DROP_COUNT : Fld := ⟨0x1000, 0, 32⟩
/-- SWC_DROP_AUX[j][k] (R229). -/
abbrev R.SWC_DROP_AUX : Nat := 0x1400
/-- SWC_DROP_AUX[j][k].COUNT, bits [31:0], access RC (R229). -/
abbrev F.SWC_DROP_AUX_COUNT : Fld := ⟨0x1400, 0, 32⟩
/-- TM_PORT_RATE[i] (R247). -/
abbrev R.TM_PORT_RATE : Nat := 0x0400
/-- TM_PORT_RATE[i].KBPS, bits [31:0], access RWL (R247). -/
abbrev F.TM_PORT_RATE_KBPS : Fld := ⟨0x0400, 0, 32⟩
/-- TM_PORT_CFG[i] (R247). -/
abbrev R.TM_PORT_CFG : Nat := 0x0700
/-- TM_PORT_CFG[i].BURST, bits [15:0], access RW (R247). -/
abbrev F.TM_PORT_CFG_BURST : Fld := ⟨0x0700, 0, 16⟩
/-- TM_PORT_CFG[i].GUARD, bits [22:16], access RW (R247). -/
abbrev F.TM_PORT_CFG_GUARD : Fld := ⟨0x0700, 16, 7⟩
/-- TM_PORT_CFG[i].GAP_FILL, bits [23:23], access RW (R247). -/
abbrev F.TM_PORT_CFG_GAP_FILL : Fld := ⟨0x0700, 23, 1⟩
/-- TM_PORT_CFG[i].GATE_EN, bits [24:24], access RW (R247). -/
abbrev F.TM_PORT_CFG_GATE_EN : Fld := ⟨0x0700, 24, 1⟩
/-- TM_PORT_CFG[i].GATE_BANK, bits [25:25], access RW (R247). -/
abbrev F.TM_PORT_CFG_GATE_BANK : Fld := ⟨0x0700, 25, 1⟩
/-- TM_PORT_CFG[i].SCHED, bits [29:26], access RW (R247). -/
abbrev F.TM_PORT_CFG_SCHED : Fld := ⟨0x0700, 26, 4⟩
/-- TM_GATE[n] (R247). -/
abbrev R.TM_GATE : Nat := 0x0A00
/-- TM_GATE[n].LIST_BASE, bits [8:0], access RW (R247). -/
abbrev F.TM_GATE_LIST_BASE : Fld := ⟨0x0A00, 0, 9⟩
/-- TM_GATE[n].LIST_LEN, bits [25:16], access RW (R247). -/
abbrev F.TM_GATE_LIST_LEN : Fld := ⟨0x0A00, 16, 10⟩
/-- TM_GATE[n].CYCLE_NS, bits [31:0], access RW (R247). -/
abbrev F.TM_GATE_CYCLE_NS : Fld := ⟨0x0A04, 0, 32⟩
/-- TM_GATE[n].BASE_NS, bits [29:0], access RW (R247). -/
abbrev F.TM_GATE_BASE_NS : Fld := ⟨0x0A08, 0, 30⟩
/-- TM_GATE[n].BASE_SEC, bits [31:0], access RW (R247). -/
abbrev F.TM_GATE_BASE_SEC : Fld := ⟨0x0A0C, 0, 32⟩
/-- TM_RS[n] (R247). -/
abbrev R.TM_RS : Nat := 0x1000
/-- TM_RS[n].RATE, bits [31:0], access RW (R247). -/
abbrev F.TM_RS_RATE : Fld := ⟨0x1000, 0, 32⟩
/-- TM_RS[n].T_NS, bits [29:0], access RW (R247). -/
abbrev F.TM_RS_T_NS : Fld := ⟨0x1004, 0, 30⟩
/-- TM_RS[n].T_SEC, bits [31:0], access RW (R247). -/
abbrev F.TM_RS_T_SEC : Fld := ⟨0x1008, 0, 32⟩
/-- TM_RS_CTL[n] (R247). -/
abbrev R.TM_RS_CTL : Nat := 0x100C
/-- TM_RS_CTL[n].ARM, bits [0:0], access WO (R247). -/
abbrev F.TM_RS_CTL_ARM : Fld := ⟨0x100C, 0, 1⟩
/-- TM_RS_CTL[n].CANCEL, bits [1:1], access WO (R247). -/
abbrev F.TM_RS_CTL_CANCEL : Fld := ⟨0x100C, 1, 1⟩
/-- TM_RS_CTL[n].STATE, bits [3:2], access RO (R247). -/
abbrev F.TM_RS_CTL_STATE : Fld := ⟨0x100C, 2, 2⟩
/-- TM_RS_CTL[n].DIR, bits [5:4], access RO (R247). -/
abbrev F.TM_RS_CTL_DIR : Fld := ⟨0x100C, 4, 2⟩
/-- TM_PORT_CNT[n][k] (R247). -/
abbrev R.TM_PORT_CNT : Nat := 0x1800
/-- TM_PORT_CNT[n][k].COUNT, bits [31:0], access RC (R247). -/
abbrev F.TM_PORT_CNT_COUNT : Fld := ⟨0x1800, 0, 32⟩
/-- TM_CNT[k] (R247). -/
abbrev R.TM_CNT : Nat := 0x1C00
/-- TM_CNT[k].COUNT, bits [31:0], access RC (R247). -/
abbrev F.TM_CNT_COUNT : Fld := ⟨0x1C00, 0, 32⟩
/-- TM_GCE[b][e] (R247). -/
abbrev R.TM_GCE : Nat := 0x4000
/-- TM_GCE[b][e].GATES, bits [7:0], access RW (R247). -/
abbrev F.TM_GCE_GATES : Fld := ⟨0x4000, 0, 8⟩
/-- TM_GCE[b][e].DUR_NS, bits [31:8], access RW (R247). -/
abbrev F.TM_GCE_DUR_NS : Fld := ⟨0x4000, 8, 24⟩
/-- PEAL_QUEUE (R259). -/
abbrev R.PEAL_QUEUE : Nat := 0x0100
/-- PEAL_QUEUE.DEPTH, bits [8:0], access RO (R259). -/
abbrev F.PEAL_QUEUE_DEPTH : Fld := ⟨0x0100, 0, 9⟩
/-- PEAL_QUEUE.PEAK, bits [24:16], access RC (R259). -/
abbrev F.PEAL_QUEUE_PEAK : Fld := ⟨0x0100, 16, 9⟩
/-- PEAL_FENCE (R259). -/
abbrev R.PEAL_FENCE : Nat := 0x0104
/-- PEAL_FENCE.FENCE, bits [0:0], access WO (R259). -/
abbrev F.PEAL_FENCE_FENCE : Fld := ⟨0x0104, 0, 1⟩
/-- PEAL_FENCE.DONE, bits [1:1], access RO (R259). -/
abbrev F.PEAL_FENCE_DONE : Fld := ⟨0x0104, 1, 1⟩
/-- PEAL_MEM_IDX (R259). -/
abbrev R.PEAL_MEM_IDX : Nat := 0x0110
/-- PEAL_MEM_IDX.INDEX, bits [18:0], access RW (R259). -/
abbrev F.PEAL_MEM_IDX_INDEX : Fld := ⟨0x0110, 0, 19⟩
/-- PEAL_MEM_IDX.SPACE, bits [20:20], access RW (R259). -/
abbrev F.PEAL_MEM_IDX_SPACE : Fld := ⟨0x0110, 20, 1⟩
/-- PEAL_MEM_DATA[k] (R259). -/
abbrev R.PEAL_MEM_DATA : Nat := 0x0120
/-- PEAL_MEM_DATA[k].DATA, bits [31:0], access RW (R259). -/
abbrev F.PEAL_MEM_DATA_DATA : Fld := ⟨0x0120, 0, 32⟩
/-- PEAL_MEM_CMD (R259). -/
abbrev R.PEAL_MEM_CMD : Nat := 0x0148
/-- PEAL_MEM_CMD.READ, bits [0:0], access WO (R259). -/
abbrev F.PEAL_MEM_CMD_READ : Fld := ⟨0x0148, 0, 1⟩
/-- PEAL_MEM_CMD.WRITE, bits [1:1], access WO (R259). -/
abbrev F.PEAL_MEM_CMD_WRITE : Fld := ⟨0x0148, 1, 1⟩
/-- PEAL_CNT[k] (R259). -/
abbrev R.PEAL_CNT : Nat := 0x0200
/-- PEAL_CNT[k].COUNT, bits [31:0], access RC (R259). -/
abbrev F.PEAL_CNT_COUNT : Fld := ⟨0x0200, 0, 32⟩
/-- CAR_CFG (R288). -/
abbrev R.CAR_CFG : Nat := 0x0100
/-- CAR_CFG.LATE_RESYNC, bits [7:0], access RW (R288). -/
abbrev F.CAR_CFG_LATE_RESYNC : Fld := ⟨0x0100, 0, 8⟩
/-- CAR_HELD (R288). -/
abbrev R.CAR_HELD : Nat := 0x0104
/-- CAR_HELD.CELLS, bits [18:0], access RO (R288). -/
abbrev F.CAR_HELD_CELLS : Fld := ⟨0x0104, 0, 19⟩
/-- CAR_GLB_CNT[k] (R288). -/
abbrev R.CAR_GLB_CNT : Nat := 0x0200
/-- CAR_GLB_CNT[k].COUNT, bits [31:0], access RC (R288). -/
abbrev F.CAR_GLB_CNT_COUNT : Fld := ⟨0x0200, 0, 32⟩
/-- CAR_CNT[t][k] (R288). -/
abbrev R.CAR_CNT : Nat := 0x1000
/-- CAR_CNT[t][k].COUNT, bits [31:0], access RC (R288). -/
abbrev F.CAR_CNT_COUNT : Fld := ⟨0x1000, 0, 32⟩
/-- ELI_MINE (R289). -/
abbrev R.ELI_MINE : Nat := 0x0100
/-- ELI_MINE.EN, bits [0:0], access RW (R289). -/
abbrev F.ELI_MINE_EN : Fld := ⟨0x0100, 0, 1⟩
/-- ELI_MINE.SAMPLE, bits [3:1], access RW (R289). -/
abbrev F.ELI_MINE_SAMPLE : Fld := ⟨0x0100, 1, 3⟩
/-- ELI_MINE.MS, bits [31:16], access RW (R289). -/
abbrev F.ELI_MINE_MS : Fld := ⟨0x0100, 16, 16⟩
/-- ELI_MINE_THR (R289). -/
abbrev R.ELI_MINE_THR : Nat := 0x0104
/-- ELI_MINE_THR.MIN_SAVE, bits [31:0], access RW (R289). -/
abbrev F.ELI_MINE_THR_MIN_SAVE : Fld := ⟨0x0104, 0, 32⟩
/-- ELI_PROP_DEPTH (R289). -/
abbrev R.ELI_PROP_DEPTH : Nat := 0x0108
/-- ELI_PROP_DEPTH.COUNT, bits [6:0], access RO (R289). -/
abbrev F.ELI_PROP_DEPTH_COUNT : Fld := ⟨0x0108, 0, 7⟩
/-- ELI_PROP_DEPTH.LOST, bits [31:16], access RC (R289). -/
abbrev F.ELI_PROP_DEPTH_LOST : Fld := ⟨0x0108, 16, 16⟩
/-- ELI_PROP[k] (R289). -/
abbrev R.ELI_PROP : Nat := 0x0110
/-- ELI_PROP[k].WORD, bits [31:0], access RO (R289). -/
abbrev F.ELI_PROP_WORD : Fld := ⟨0x0110, 0, 32⟩
/-- ELI_PROP_POP (R289). -/
abbrev R.ELI_PROP_POP : Nat := 0x0120
/-- ELI_PROP_POP.POP, bits [0:0], access WO (R289). -/
abbrev F.ELI_PROP_POP_POP : Fld := ⟨0x0120, 0, 1⟩
/-- ELI_GLB_CNT[k] (R289). -/
abbrev R.ELI_GLB_CNT : Nat := 0x0200
/-- ELI_GLB_CNT[k].COUNT, bits [31:0], access RC (R289). -/
abbrev F.ELI_GLB_CNT_COUNT : Fld := ⟨0x0200, 0, 32⟩
/-- ELI_FORBID[k] (R289). -/
abbrev R.ELI_FORBID : Nat := 0x0400
/-- ELI_FORBID[k].V, bits [0:0], access RW (R289). -/
abbrev F.ELI_FORBID_V : Fld := ⟨0x0400, 0, 1⟩
/-- ELI_FORBID[k].TRK, bits [4:1], access RW (R289). -/
abbrev F.ELI_FORBID_TRK : Fld := ⟨0x0400, 1, 4⟩
/-- ELI_FORBID[k].HASH, bits [31:0], access RW (R289). -/
abbrev F.ELI_FORBID_HASH : Fld := ⟨0x0404, 0, 32⟩
/-- ELI_CNT[t][k] (R289). -/
abbrev R.ELI_CNT : Nat := 0x1000
/-- ELI_CNT[t][k].COUNT, bits [31:0], access RC (R289). -/
abbrev F.ELI_CNT_COUNT : Fld := ⟨0x1000, 0, 32⟩
/-- HBM_CFG (R311). -/
abbrev R.HBM_CFG : Nat := 0x0100
/-- HBM_CFG.RATE, bits [1:0], access RWL (R311). -/
abbrev F.HBM_CFG_RATE : Fld := ⟨0x0100, 0, 2⟩
/-- HBM_CFG.GRAIN, bits [6:4], access RWL (R311). -/
abbrev F.HBM_CFG_GRAIN : Fld := ⟨0x0100, 4, 3⟩
/-- HBM_CFG.AUTO_RET, bits [8:8], access RW (R311). -/
abbrev F.HBM_CFG_AUTO_RET : Fld := ⟨0x0100, 8, 1⟩
/-- HBM_CFG.CE_RET, bits [9:9], access RW (R311). -/
abbrev F.HBM_CFG_CE_RET : Fld := ⟨0x0100, 9, 1⟩
/-- HBM_CFG.BIST, bits [10:10], access RW (R311). -/
abbrev F.HBM_CFG_BIST : Fld := ⟨0x0100, 10, 1⟩
/-- HBM_STAT (R311). -/
abbrev R.HBM_STAT : Nat := 0x0104
/-- HBM_STAT.TRAINED, bits [0:0], access RO (R311). -/
abbrev F.HBM_STAT_TRAINED : Fld := ⟨0x0104, 0, 1⟩
/-- HBM_STAT.THROTTLE, bits [1:1], access RO (R311). -/
abbrev F.HBM_STAT_THROTTLE : Fld := ⟨0x0104, 1, 1⟩
/-- HBM_STAT.SPARES, bits [3:2], access RO (R311). -/
abbrev F.HBM_STAT_SPARES : Fld := ⟨0x0104, 2, 2⟩
/-- HBM_STAT.MIG, bits [4:4], access RO (R311). -/
abbrev F.HBM_STAT_MIG : Fld := ⟨0x0104, 4, 1⟩
/-- HBM_STAT.QUEUED, bits [5:5], access RO (R311). -/
abbrev F.HBM_STAT_QUEUED : Fld := ⟨0x0104, 5, 1⟩
/-- HBM_TEMP (R311). -/
abbrev R.HBM_TEMP : Nat := 0x0108
/-- HBM_TEMP.TEMP, bits [7:0], access RO (R311). -/
abbrev F.HBM_TEMP_TEMP : Fld := ⟨0x0108, 0, 8⟩
/-- HBM_TEMP.WARN, bits [15:8], access RW (R311). -/
abbrev F.HBM_TEMP_WARN : Fld := ⟨0x0108, 8, 8⟩
/-- HBM_TEMP.HOT, bits [23:16], access RW (R311). -/
abbrev F.HBM_TEMP_HOT : Fld := ⟨0x0108, 16, 8⟩
/-- HBM_PAGE (R311). -/
abbrev R.HBM_PAGE : Nat := 0x010C
/-- HBM_PAGE.IDLE_NS, bits [7:0], access RW (R311). -/
abbrev F.HBM_PAGE_IDLE_NS : Fld := ⟨0x010C, 0, 8⟩
/-- HBM_PAGE.HIT_CAP, bits [15:8], access RW (R311). -/
abbrev F.HBM_PAGE_HIT_CAP : Fld := ⟨0x010C, 8, 8⟩
/-- HBM_MIG (R311). -/
abbrev R.HBM_MIG : Nat := 0x0110
/-- HBM_MIG.GBPS, bits [7:0], access RW (R311). -/
abbrev F.HBM_MIG_GBPS : Fld := ⟨0x0110, 0, 8⟩
/-- HBM_CE_RET (R311). -/
abbrev R.HBM_CE_RET : Nat := 0x0114
/-- HBM_CE_RET.LIMIT, bits [15:0], access RW (R311). -/
abbrev F.HBM_CE_RET_LIMIT : Fld := ⟨0x0114, 0, 16⟩
/-- HBM_CE_RET.WINDOW_S, bits [31:16], access RW (R311). -/
abbrev F.HBM_CE_RET_WINDOW_S : Fld := ⟨0x0114, 16, 16⟩
/-- HBM_SCRUB (R311). -/
abbrev R.HBM_SCRUB : Nat := 0x0118
/-- HBM_SCRUB.HOURS, bits [7:0], access RW (R311). -/
abbrev F.HBM_SCRUB_HOURS : Fld := ⟨0x0118, 0, 8⟩
/-- HBM_RETRAIN (R311). -/
abbrev R.HBM_RETRAIN : Nat := 0x011C
/-- HBM_RETRAIN.MS, bits [15:0], access RW (R311). -/
abbrev F.HBM_RETRAIN_MS : Fld := ⟨0x011C, 0, 16⟩
/-- HBM_STOP_LIMIT (R311). -/
abbrev R.HBM_STOP_LIMIT : Nat := 0x0120
/-- HBM_STOP_LIMIT.MS, bits [15:0], access RW (R311). -/
abbrev F.HBM_STOP_LIMIT_MS : Fld := ⟨0x0120, 0, 16⟩
/-- HBM_CNT_BASE (R311). -/
abbrev R.HBM_CNT_BASE : Nat := 0x0124
/-- HBM_CNT_BASE.BASE, bits [18:0], access RW (R311). -/
abbrev F.HBM_CNT_BASE_BASE : Fld := ⟨0x0124, 0, 19⟩
/-- HBM_CNT_BASE.EN, bits [31:31], access RW (R311). -/
abbrev F.HBM_CNT_BASE_EN : Fld := ⟨0x0124, 31, 1⟩
/-- HBM_CNTR_IDX (R311). -/
abbrev R.HBM_CNTR_IDX : Nat := 0x0128
/-- HBM_CNTR_IDX.INDEX, bits [23:0], access RW (R311). -/
abbrev F.HBM_CNTR_IDX_INDEX : Fld := ⟨0x0128, 0, 24⟩
/-- HBM_CNTR_CMD (R311). -/
abbrev R.HBM_CNTR_CMD : Nat := 0x012C
/-- HBM_CNTR_CMD.READ, bits [0:0], access WO (R311). -/
abbrev F.HBM_CNTR_CMD_READ : Fld := ⟨0x012C, 0, 1⟩
/-- HBM_CNTR_CMD.CLEAR, bits [1:1], access WO (R311). -/
abbrev F.HBM_CNTR_CMD_CLEAR : Fld := ⟨0x012C, 1, 1⟩
/-- HBM_CNTR_STAT (R311). -/
abbrev R.HBM_CNTR_STAT : Nat := 0x0130
/-- HBM_CNTR_STAT.BUSY, bits [0:0], access RO (R311). -/
abbrev F.HBM_CNTR_STAT_BUSY : Fld := ⟨0x0130, 0, 1⟩
/-- HBM_CNTR_STAT.DONE, bits [1:1], access RO (R311). -/
abbrev F.HBM_CNTR_STAT_DONE : Fld := ⟨0x0130, 1, 1⟩
/-- HBM_CNTR_STAT.ERROR, bits [2:2], access RO (R311). -/
abbrev F.HBM_CNTR_STAT_ERROR : Fld := ⟨0x0130, 2, 1⟩
/-- HBM_CNTR_STAT.CODE, bits [5:3], access RO (R311). -/
abbrev F.HBM_CNTR_STAT_CODE : Fld := ⟨0x0130, 3, 3⟩
/-- HBM_CNTR_PKTS (R311). -/
abbrev R.HBM_CNTR_PKTS : Nat := 0x0138
/-- HBM_CNTR_PKTS.PKTS, bits [63:0], access RO (R311). -/
abbrev F.HBM_CNTR_PKTS_PKTS : Fld := ⟨0x0138, 0, 32⟩
/-- HBM_CNTR_BYTES (R311). -/
abbrev R.HBM_CNTR_BYTES : Nat := 0x0140
/-- HBM_CNTR_BYTES.BYTES, bits [63:0], access RO (R311). -/
abbrev F.HBM_CNTR_BYTES_BYTES : Fld := ⟨0x0140, 0, 32⟩
/-- HBM_RMAP_CFG[p] (R311). -/
abbrev R.HBM_RMAP_CFG : Nat := 0x0200
/-- HBM_RMAP_CFG[p].LRANK, bits [4:0], access RW (R311). -/
abbrev F.HBM_RMAP_CFG_LRANK : Fld := ⟨0x0200, 0, 5⟩
/-- HBM_RMAP_CFG[p].ROLE, bits [6:5], access RW (R311). -/
abbrev F.HBM_RMAP_CFG_ROLE : Fld := ⟨0x0200, 5, 2⟩
/-- HBM_QOS[k] (R311). -/
abbrev R.HBM_QOS : Nat := 0x0300
/-- HBM_QOS[k].TARGET_NS, bits [23:0], access RW (R311). -/
abbrev F.HBM_QOS_TARGET_NS : Fld := ⟨0x0300, 0, 24⟩
/-- HBM_QOS_LATE[k] (R311). -/
abbrev R.HBM_QOS_LATE : Nat := 0x0340
/-- HBM_QOS_LATE[k].COUNT, bits [31:0], access RC (R311). -/
abbrev F.HBM_QOS_LATE_COUNT : Fld := ⟨0x0340, 0, 32⟩
/-- HBM_CNT[k] (R311). -/
abbrev R.HBM_CNT : Nat := 0x0400
/-- HBM_CNT[k].COUNT, bits [31:0], access RC (R311). -/
abbrev F.HBM_CNT_COUNT : Fld := ⟨0x0400, 0, 32⟩
/-- TIME_STAT (R330). -/
abbrev R.TIME_STAT : Nat := 0x0100
/-- TIME_STAT.HOLDOVER, bits [0:0], access RO (R330). -/
abbrev F.TIME_STAT_HOLDOVER : Fld := ⟨0x0100, 0, 1⟩
/-- TIME_STAT.ALIGNED, bits [1:1], access RO (R330). -/
abbrev F.TIME_STAT_ALIGNED : Fld := ⟨0x0100, 1, 1⟩
/-- TIME_STAT.SLEWING, bits [2:2], access RO (R330). -/
abbrev F.TIME_STAT_SLEWING : Fld := ⟨0x0100, 2, 1⟩
/-- TIME_STAT.LOCK, bits [3:3], access RO (R330). -/
abbrev F.TIME_STAT_LOCK : Fld := ⟨0x0100, 3, 1⟩
/-- TIME_STAT.LOST, bits [4:4], access RO (R330). -/
abbrev F.TIME_STAT_LOST : Fld := ⟨0x0100, 4, 1⟩
/-- TIME_CTL (R330). -/
abbrev R.TIME_CTL : Nat := 0x0104
/-- TIME_CTL.SET, bits [0:0], access WO (R330). -/
abbrev F.TIME_CTL_SET : Fld := ⟨0x0104, 0, 1⟩
/-- TIME_CTL.STEP, bits [1:1], access WO (R330). -/
abbrev F.TIME_CTL_STEP : Fld := ⟨0x0104, 1, 1⟩
/-- TIME_CTL.SLEW, bits [2:2], access WO (R330). -/
abbrev F.TIME_CTL_SLEW : Fld := ⟨0x0104, 2, 1⟩
/-- TIME_CTL.ABORT, bits [3:3], access WO (R330). -/
abbrev F.TIME_CTL_ABORT : Fld := ⟨0x0104, 3, 1⟩
/-- TIME_FREQ (R330). -/
abbrev R.TIME_FREQ : Nat := 0x0108
/-- TIME_FREQ.FREQ, bits [31:0], access RW (R330). -/
abbrev F.TIME_FREQ_FREQ : Fld := ⟨0x0108, 0, 32⟩
/-- TIME_ADJ (R330). -/
abbrev R.TIME_ADJ : Nat := 0x010C
/-- TIME_ADJ.NS, bits [31:0], access RW (R330). -/
abbrev F.TIME_ADJ_NS : Fld := ⟨0x010C, 0, 32⟩
/-- TIME_ADJ_LEFT (R330). -/
abbrev R.TIME_ADJ_LEFT : Nat := 0x0110
/-- TIME_ADJ_LEFT.NS, bits [31:0], access RO (R330). -/
abbrev F.TIME_ADJ_LEFT_NS : Fld := ⟨0x0110, 0, 32⟩
/-- TIME_SLEW (R330). -/
abbrev R.TIME_SLEW : Nat := 0x0114
/-- TIME_SLEW.PPM, bits [15:0], access RW (R330). -/
abbrev F.TIME_SLEW_PPM : Fld := ⟨0x0114, 0, 16⟩
/-- TIME_SET[k] (R330). -/
abbrev R.TIME_SET : Nat := 0x0118
/-- TIME_SET[k].VALUE, bits [31:0], access RW (R330). -/
abbrev F.TIME_SET_VALUE : Fld := ⟨0x0118, 0, 32⟩
/-- TIME_NOW[k] (R330). -/
abbrev R.TIME_NOW : Nat := 0x0130
/-- TIME_NOW[k].VALUE, bits [31:0], access RO (R330). -/
abbrev F.TIME_NOW_VALUE : Fld := ⟨0x0130, 0, 32⟩
/-- TIME_PPS (R330). -/
abbrev R.TIME_PPS : Nat := 0x0140
/-- TIME_PPS.WIDTH_NS, bits [29:0], access RW (R330). -/
abbrev F.TIME_PPS_WIDTH_NS : Fld := ⟨0x0140, 0, 30⟩
/-- TIME_PPS.EN, bits [30:30], access RW (R330). -/
abbrev F.TIME_PPS_EN : Fld := ⟨0x0140, 30, 1⟩
/-- TIME_PPS.POL, bits [31:31], access RW (R330). -/
abbrev F.TIME_PPS_POL : Fld := ⟨0x0140, 31, 1⟩
/-- TIME_CHIME[c] (R330). -/
abbrev R.TIME_CHIME : Nat := 0x0200
/-- TIME_CHIME[c].ARM, bits [0:0], access WO (R330). -/
abbrev F.TIME_CHIME_ARM : Fld := ⟨0x0200, 0, 1⟩
/-- TIME_CHIME[c].CANCEL, bits [1:1], access WO (R330). -/
abbrev F.TIME_CHIME_CANCEL : Fld := ⟨0x0200, 1, 1⟩
/-- TIME_CHIME[c].PERIODIC, bits [2:2], access RW (R330). -/
abbrev F.TIME_CHIME_PERIODIC : Fld := ⟨0x0200, 2, 1⟩
/-- TIME_CHIME[c].POL, bits [3:3], access RW (R330). -/
abbrev F.TIME_CHIME_POL : Fld := ⟨0x0200, 3, 1⟩
/-- TIME_CHIME[c].STATE, bits [5:4], access RO (R330). -/
abbrev F.TIME_CHIME_STATE : Fld := ⟨0x0200, 4, 2⟩
/-- TIME_CHIME[c].START_NS, bits [29:0], access RW (R330). -/
abbrev F.TIME_CHIME_START_NS : Fld := ⟨0x0204, 0, 30⟩
/-- TIME_CHIME[c].START_S, bits [31:0], access RW (R330). -/
abbrev F.TIME_CHIME_START_S : Fld := ⟨0x0208, 0, 32⟩
/-- TIME_CHIME[c].PERIOD_NS, bits [31:0], access RW (R330). -/
abbrev F.TIME_CHIME_PERIOD_NS : Fld := ⟨0x020C, 0, 32⟩
/-- TIME_CHIME[c].WIDTH_NS, bits [31:0], access RW (R330). -/
abbrev F.TIME_CHIME_WIDTH_NS : Fld := ⟨0x0210, 0, 32⟩
/-- TIME_CHIME[c].SKIP, bits [15:0], access RC (R330). -/
abbrev F.TIME_CHIME_SKIP : Fld := ⟨0x0214, 0, 16⟩
/-- TIME_CAP_CFG[i] (R330). -/
abbrev R.TIME_CAP_CFG : Nat := 0x0300
/-- TIME_CAP_CFG[i].EDGE, bits [1:0], access RW (R330). -/
abbrev F.TIME_CAP_CFG_EDGE : Fld := ⟨0x0300, 0, 2⟩
/-- TIME_CAP_DEPTH (R330). -/
abbrev R.TIME_CAP_DEPTH : Nat := 0x0320
/-- TIME_CAP_DEPTH.COUNT, bits [6:0], access RO (R330). -/
abbrev F.TIME_CAP_DEPTH_COUNT : Fld := ⟨0x0320, 0, 7⟩
/-- TIME_CAP_DEPTH.LOST, bits [31:16], access RC (R330). -/
abbrev F.TIME_CAP_DEPTH_LOST : Fld := ⟨0x0320, 16, 16⟩
/-- TIME_CAP_REC[k] (R330). -/
abbrev R.TIME_CAP_REC : Nat := 0x0330
/-- TIME_CAP_REC[k].WORD, bits [31:0], access RO (R330). -/
abbrev F.TIME_CAP_REC_WORD : Fld := ⟨0x0330, 0, 32⟩
/-- TIME_CAP_POP (R330). -/
abbrev R.TIME_CAP_POP : Nat := 0x0340
/-- TIME_CAP_POP.POP, bits [0:0], access WO (R330). -/
abbrev F.TIME_CAP_POP_POP : Fld := ⟨0x0340, 0, 1⟩
/-- TIME_PORT_TS[n] (R330). -/
abbrev R.TIME_PORT_TS : Nat := 0x0400
/-- TIME_PORT_TS[n].TX_MODE, bits [1:0], access RW (R330). -/
abbrev F.TIME_PORT_TS_TX_MODE : Fld := ⟨0x0400, 0, 2⟩
/-- TIME_PORT_TS[n].UDP4, bits [2:2], access RW (R330). -/
abbrev F.TIME_PORT_TS_UDP4 : Fld := ⟨0x0400, 2, 1⟩
/-- TIME_PORT_TS[n].UDP6, bits [3:3], access RW (R330). -/
abbrev F.TIME_PORT_TS_UDP6 : Fld := ⟨0x0400, 3, 1⟩
/-- TIME_PORT_TS[n].L2, bits [4:4], access RW (R330). -/
abbrev F.TIME_PORT_TS_L2 : Fld := ⟨0x0400, 4, 1⟩
/-- TIME_PORT_TS[n].RX_DLY, bits [15:0], access RW (R330). -/
abbrev F.TIME_PORT_TS_RX_DLY : Fld := ⟨0x0404, 0, 16⟩
/-- TIME_PORT_TS[n].TX_DLY, bits [31:16], access RW (R330). -/
abbrev F.TIME_PORT_TS_TX_DLY : Fld := ⟨0x0404, 16, 16⟩
/-- TIME_TX_DEPTH (R330). -/
abbrev R.TIME_TX_DEPTH : Nat := 0x0600
/-- TIME_TX_DEPTH.COUNT, bits [8:0], access RO (R330). -/
abbrev F.TIME_TX_DEPTH_COUNT : Fld := ⟨0x0600, 0, 9⟩
/-- TIME_TX_DEPTH.LOST, bits [31:16], access RC (R330). -/
abbrev F.TIME_TX_DEPTH_LOST : Fld := ⟨0x0600, 16, 16⟩
/-- TIME_TX_REC[k] (R330). -/
abbrev R.TIME_TX_REC : Nat := 0x0610
/-- TIME_TX_REC[k].WORD, bits [31:0], access RO (R330). -/
abbrev F.TIME_TX_REC_WORD : Fld := ⟨0x0610, 0, 32⟩
/-- TIME_TX_POP (R330). -/
abbrev R.TIME_TX_POP : Nat := 0x0620
/-- TIME_TX_POP.POP, bits [0:0], access WO (R330). -/
abbrev F.TIME_TX_POP_POP : Fld := ⟨0x0620, 0, 1⟩
/-- TIME_MESH_CFG (R330). -/
abbrev R.TIME_MESH_CFG : Nat := 0x0700
/-- TIME_MESH_CFG.ROLE, bits [1:0], access RW (R330). -/
abbrev F.TIME_MESH_CFG_ROLE : Fld := ⟨0x0700, 0, 2⟩
/-- TIME_MESH_CFG.LEADER, bits [3:2], access RW (R330). -/
abbrev F.TIME_MESH_CFG_LEADER : Fld := ⟨0x0700, 2, 2⟩
/-- TIME_MESH_CFG.STEP_NS, bits [31:16], access RW (R330). -/
abbrev F.TIME_MESH_CFG_STEP_NS : Fld := ⟨0x0700, 16, 16⟩
/-- TIME_MESH_OFF (R330). -/
abbrev R.TIME_MESH_OFF : Nat := 0x0704
/-- TIME_MESH_OFF.NS, bits [31:0], access RO (R330). -/
abbrev F.TIME_MESH_OFF_NS : Fld := ⟨0x0704, 0, 32⟩
/-- MOD_SCAN (R344). -/
abbrev R.MOD_SCAN : Nat := 0x0100
/-- MOD_SCAN.MS, bits [15:0], access RW (R344). -/
abbrev F.MOD_SCAN_MS : Fld := ⟨0x0100, 0, 16⟩
/-- MOD_INS (R344). -/
abbrev R.MOD_INS : Nat := 0x0104
/-- MOD_INS.INIT_MS, bits [15:0], access RW (R344). -/
abbrev F.MOD_INS_INIT_MS : Fld := ⟨0x0104, 0, 16⟩
/-- MOD_LIFE (R344). -/
abbrev R.MOD_LIFE : Nat := 0x0108
/-- MOD_LIFE.WARN_PCT, bits [7:0], access RW (R344). -/
abbrev F.MOD_LIFE_WARN_PCT : Fld := ⟨0x0108, 0, 8⟩
/-- MOD_ADV (R344). -/
abbrev R.MOD_ADV : Nat := 0x0110
/-- MOD_ADV.HYST, bits [15:0], access RW (R344). -/
abbrev F.MOD_ADV_HYST : Fld := ⟨0x0110, 0, 16⟩
/-- MOD_ADV.HOLD, bits [19:16], access RW (R344). -/
abbrev F.MOD_ADV_HOLD : Fld := ⟨0x0110, 16, 4⟩
/-- MOD_ADV_LEAD (R344). -/
abbrev R.MOD_ADV_LEAD : Nat := 0x0114
/-- MOD_ADV_LEAD.MS, bits [15:0], access RW (R344). -/
abbrev F.MOD_ADV_LEAD_MS : Fld := ⟨0x0114, 0, 16⟩
/-- MOD_EVT_DEPTH (R344). -/
abbrev R.MOD_EVT_DEPTH : Nat := 0x0120
/-- MOD_EVT_DEPTH.COUNT, bits [8:0], access RO (R344). -/
abbrev F.MOD_EVT_DEPTH_COUNT : Fld := ⟨0x0120, 0, 9⟩
/-- MOD_EVT_DEPTH.LOST, bits [31:16], access RC (R344). -/
abbrev F.MOD_EVT_DEPTH_LOST : Fld := ⟨0x0120, 16, 16⟩
/-- MOD_EVT[i] (R344). -/
abbrev R.MOD_EVT : Nat := 0x0130
/-- MOD_EVT[i].WORD, bits [31:0], access RO (R344). -/
abbrev F.MOD_EVT_WORD : Fld := ⟨0x0130, 0, 32⟩
/-- MOD_EVT_POP (R344). -/
abbrev R.MOD_EVT_POP : Nat := 0x0140
/-- MOD_EVT_POP.POP, bits [0:0], access WO (R344). -/
abbrev F.MOD_EVT_POP_POP : Fld := ⟨0x0140, 0, 1⟩
/-- MOD_ADV_DEPTH (R344). -/
abbrev R.MOD_ADV_DEPTH : Nat := 0x0150
/-- MOD_ADV_DEPTH.COUNT, bits [5:0], access RO (R344). -/
abbrev F.MOD_ADV_DEPTH_COUNT : Fld := ⟨0x0150, 0, 6⟩
/-- MOD_ADV_REC[i] (R344). -/
abbrev R.MOD_ADV_REC : Nat := 0x0160
/-- MOD_ADV_REC[i].WORD, bits [31:0], access RO (R344). -/
abbrev F.MOD_ADV_REC_WORD : Fld := ⟨0x0160, 0, 32⟩
/-- MOD_ADV_POP (R344). -/
abbrev R.MOD_ADV_POP : Nat := 0x0178
/-- MOD_ADV_POP.POP, bits [0:0], access WO (R344). -/
abbrev F.MOD_ADV_POP_POP : Fld := ⟨0x0178, 0, 1⟩
/-- MOD_LED_IDX (R344). -/
abbrev R.MOD_LED_IDX : Nat := 0x0190
/-- MOD_LED_IDX.CAGE, bits [6:0], access RW (R344). -/
abbrev F.MOD_LED_IDX_CAGE : Fld := ⟨0x0190, 0, 7⟩
/-- MOD_LED_IDX.PREV, bits [7:7], access RW (R344). -/
abbrev F.MOD_LED_IDX_PREV : Fld := ⟨0x0190, 7, 1⟩
/-- MOD_LED_CMD (R344). -/
abbrev R.MOD_LED_CMD : Nat := 0x0194
/-- MOD_LED_CMD.READ, bits [0:0], access WO (R344). -/
abbrev F.MOD_LED_CMD_READ : Fld := ⟨0x0194, 0, 1⟩
/-- MOD_LED_CMD.WRITE, bits [1:1], access WO (R344). -/
abbrev F.MOD_LED_CMD_WRITE : Fld := ⟨0x0194, 1, 1⟩
/-- MOD_CNT[i] (R344). -/
abbrev R.MOD_CNT : Nat := 0x01C0
/-- MOD_CNT[i].COUNT, bits [31:0], access RC (R344). -/
abbrev F.MOD_CNT_COUNT : Fld := ⟨0x01C0, 0, 32⟩
/-- MOD_BUS[m] (R344). -/
abbrev R.MOD_BUS : Nat := 0x0300
/-- MOD_BUS[m].SPEED, bits [1:0], access RW (R344). -/
abbrev F.MOD_BUS_SPEED : Fld := ⟨0x0300, 0, 2⟩
/-- MOD_BUS[m].RETRIES, bits [3:2], access RW (R344). -/
abbrev F.MOD_BUS_RETRIES : Fld := ⟨0x0300, 2, 2⟩
/-- MOD_BUS[m].ATTEMPT_MS, bits [11:4], access RW (R344). -/
abbrev F.MOD_BUS_ATTEMPT_MS : Fld := ⟨0x0300, 4, 8⟩
/-- MOD_BUS[m].TMO_MS, bits [31:16], access RW (R344). -/
abbrev F.MOD_BUS_TMO_MS : Fld := ⟨0x0300, 16, 16⟩
/-- MOD_CMD_CTL[m] (R344). -/
abbrev R.MOD_CMD_CTL : Nat := 0x0400
/-- MOD_CMD_CTL[m].CAGE, bits [2:0], access RW (R344). -/
abbrev F.MOD_CMD_CTL_CAGE : Fld := ⟨0x0400, 0, 3⟩
/-- MOD_CMD_CTL[m].OP, bits [4:3], access RW (R344). -/
abbrev F.MOD_CMD_CTL_OP : Fld := ⟨0x0400, 3, 2⟩
/-- MOD_CMD_CTL[m].LEN, bits [10:5], access RW (R344). -/
abbrev F.MOD_CMD_CTL_LEN : Fld := ⟨0x0400, 5, 6⟩
/-- MOD_CMD_CTL[m].PAGE, bits [18:11], access RW (R344). -/
abbrev F.MOD_CMD_CTL_PAGE : Fld := ⟨0x0400, 11, 8⟩
/-- MOD_CMD_CTL[m].BANK, bits [26:19], access RW (R344). -/
abbrev F.MOD_CMD_CTL_BANK : Fld := ⟨0x0400, 19, 8⟩
/-- MOD_CMD_ADDR[m] (R344). -/
abbrev R.MOD_CMD_ADDR : Nat := 0x0404
/-- MOD_CMD_ADDR[m].ADDR, bits [7:0], access RW (R344). -/
abbrev F.MOD_CMD_ADDR_ADDR : Fld := ⟨0x0404, 0, 8⟩
/-- MOD_CMD_ADDR[m].GO, bits [8:8], access WO (R344). -/
abbrev F.MOD_CMD_ADDR_GO : Fld := ⟨0x0404, 8, 1⟩
/-- MOD_CMD_STAT[m] (R344). -/
abbrev R.MOD_CMD_STAT : Nat := 0x0408
/-- MOD_CMD_STAT[m].BUSY, bits [0:0], access RO (R344). -/
abbrev F.MOD_CMD_STAT_BUSY : Fld := ⟨0x0408, 0, 1⟩
/-- MOD_CMD_STAT[m].DONE, bits [1:1], access RO (R344). -/
abbrev F.MOD_CMD_STAT_DONE : Fld := ⟨0x0408, 1, 1⟩
/-- MOD_CMD_STAT[m].ERROR, bits [2:2], access RO (R344). -/
abbrev F.MOD_CMD_STAT_ERROR : Fld := ⟨0x0408, 2, 1⟩
/-- MOD_CMD_STAT[m].CODE, bits [5:3], access RO (R344). -/
abbrev F.MOD_CMD_STAT_CODE : Fld := ⟨0x0408, 3, 3⟩
/-- MOD_CMD_DATA[m][i] (R344). -/
abbrev R.MOD_CMD_DATA : Nat := 0x0420
/-- MOD_CMD_DATA[m][i].DATA, bits [31:0], access RW (R344). -/
abbrev F.MOD_CMD_DATA_DATA : Fld := ⟨0x0420, 0, 32⟩
/-- MOD_LED_DATA[i] (R344). -/
abbrev R.MOD_LED_DATA : Nat := 0x0800
/-- MOD_LED_DATA[i].DATA, bits [31:0], access RW (R344). -/
abbrev F.MOD_LED_DATA_DATA : Fld := ⟨0x0800, 0, 32⟩
/-- MOD_TW[k] (R344). -/
abbrev R.MOD_TW : Nat := 0x0C00
/-- MOD_TW[k].CAGE, bits [6:0], access RW (R344). -/
abbrev F.MOD_TW_CAGE : Fld := ⟨0x0C00, 0, 7⟩
/-- MOD_TW[k].PAGE, bits [14:7], access RW (R344). -/
abbrev F.MOD_TW_PAGE : Fld := ⟨0x0C00, 7, 8⟩
/-- MOD_TW[k].BANK, bits [22:15], access RW (R344). -/
abbrev F.MOD_TW_BANK : Fld := ⟨0x0C00, 15, 8⟩
/-- MOD_TW[k].ADDR, bits [30:23], access RW (R344). -/
abbrev F.MOD_TW_ADDR : Fld := ⟨0x0C00, 23, 8⟩
/-- MOD_TW[k].LEN, bits [3:0], access RW (R344). -/
abbrev F.MOD_TW_LEN : Fld := ⟨0x0C04, 0, 4⟩
/-- MOD_TW[k].ARM, bits [4:4], access WO (R344). -/
abbrev F.MOD_TW_ARM : Fld := ⟨0x0C04, 4, 1⟩
/-- MOD_TW[k].CANCEL, bits [5:5], access WO (R344). -/
abbrev F.MOD_TW_CANCEL : Fld := ⟨0x0C04, 5, 1⟩
/-- MOD_TW[k].STATE, bits [8:6], access RO (R344). -/
abbrev F.MOD_TW_STATE : Fld := ⟨0x0C04, 6, 3⟩
/-- MOD_TW[k].T_NS, bits [29:0], access RW (R344). -/
abbrev F.MOD_TW_T_NS : Fld := ⟨0x0C08, 0, 30⟩
/-- MOD_TW[k].T_S, bits [31:0], access RW (R344). -/
abbrev F.MOD_TW_T_S : Fld := ⟨0x0C0C, 0, 32⟩
/-- MOD_TW[k].DATA, bits [31:0], access RW (R344). -/
abbrev F.MOD_TW_DATA : Fld := ⟨0x0C10, 0, 32⟩
/-- MOD_TW[k].ACT_NS, bits [29:0], access RO (R344). -/
abbrev F.MOD_TW_ACT_NS : Fld := ⟨0x0C18, 0, 30⟩
/-- MOD_TW[k].ERR_NS, bits [31:0], access RO (R344). -/
abbrev F.MOD_TW_ERR_NS : Fld := ⟨0x0C1C, 0, 32⟩
/-- MOD_CAGE_CTL[p] (R344). -/
abbrev R.MOD_CAGE_CTL : Nat := 0x1000
/-- MOD_CAGE_CTL[p].HP, bits [0:0], access RW (R344). -/
abbrev F.MOD_CAGE_CTL_HP : Fld := ⟨0x1000, 0, 1⟩
/-- MOD_CAGE_CTL[p].RST_REQ, bits [1:1], access WO (R344). -/
abbrev F.MOD_CAGE_CTL_RST_REQ : Fld := ⟨0x1000, 1, 1⟩
/-- MOD_CAGE_CTL[p].ADV_EN, bits [2:2], access RW (R344). -/
abbrev F.MOD_CAGE_CTL_ADV_EN : Fld := ⟨0x1000, 2, 1⟩
/-- MOD_CAGE_CTL[p].BAND_PROF, bits [6:3], access RW (R344). -/
abbrev F.MOD_CAGE_CTL_BAND_PROF : Fld := ⟨0x1000, 3, 4⟩
/-- MOD_CAGE_STAT[p] (R344). -/
abbrev R.MOD_CAGE_STAT : Nat := 0x1200
/-- MOD_CAGE_STAT[p].STATE, bits [2:0], access RO (R344). -/
abbrev F.MOD_CAGE_STAT_STATE : Fld := ⟨0x1200, 0, 3⟩
/-- MOD_CAGE_STAT[p].PRS, bits [3:3], access RO (R344). -/
abbrev F.MOD_CAGE_STAT_PRS : Fld := ⟨0x1200, 3, 1⟩
/-- MOD_CAGE_STAT[p].INT, bits [4:4], access RO (R344). -/
abbrev F.MOD_CAGE_STAT_INT : Fld := ⟨0x1200, 4, 1⟩
/-- MOD_CAGE_STAT[p].BAND, bits [7:5], access RO (R344). -/
abbrev F.MOD_CAGE_STAT_BAND : Fld := ⟨0x1200, 5, 3⟩
/-- MOD_CAGE_STAT[p].MSTATE, bits [10:8], access RO (R344). -/
abbrev F.MOD_CAGE_STAT_MSTATE : Fld := ⟨0x1200, 8, 3⟩
/-- MOD_WATCH[p] (R344). -/
abbrev R.MOD_WATCH : Nat := 0x1400
/-- MOD_WATCH[p].PAGE, bits [7:0], access RW (R344). -/
abbrev F.MOD_WATCH_PAGE : Fld := ⟨0x1400, 0, 8⟩
/-- MOD_WATCH[p].BANK, bits [15:8], access RW (R344). -/
abbrev F.MOD_WATCH_BANK : Fld := ⟨0x1400, 8, 8⟩
/-- MOD_WATCH[p].OFFSET, bits [23:16], access RW (R344). -/
abbrev F.MOD_WATCH_OFFSET : Fld := ⟨0x1400, 16, 8⟩
/-- MOD_WATCH[p].WIDTH, bits [25:24], access RW (R344). -/
abbrev F.MOD_WATCH_WIDTH : Fld := ⟨0x1400, 24, 2⟩
/-- MOD_WATCH[p].SIGNED, bits [26:26], access RW (R344). -/
abbrev F.MOD_WATCH_SIGNED : Fld := ⟨0x1400, 26, 1⟩
/-- MOD_BAND[b][j] (R344). -/
abbrev R.MOD_BAND : Nat := 0x1800
/-- MOD_BAND[b][j].LOW, bits [31:0], access RW (R344). -/
abbrev F.MOD_BAND_LOW : Fld := ⟨0x1800, 0, 32⟩
/-- MOD_BAND[b][j].RATE, bits [31:0], access RW (R344). -/
abbrev F.MOD_BAND_RATE : Fld := ⟨0x1804, 0, 32⟩
/-- HIF_LINK_STAT (R365). -/
abbrev R.HIF_LINK_STAT : Nat := 0x0100
/-- HIF_LINK_STAT.SPEED, bits [3:0], access RO (R365). -/
abbrev F.HIF_LINK_STAT_SPEED : Fld := ⟨0x0100, 0, 4⟩
/-- HIF_LINK_STAT.WIDTH, bits [7:4], access RO (R365). -/
abbrev F.HIF_LINK_STAT_WIDTH : Fld := ⟨0x0100, 4, 4⟩
/-- HIF_LINK_STAT.FLIT, bits [8:8], access RO (R365). -/
abbrev F.HIF_LINK_STAT_FLIT : Fld := ⟨0x0100, 8, 1⟩
/-- HIF_LINK_STAT.DEGRADED, bits [9:9], access RO (R365). -/
abbrev F.HIF_LINK_STAT_DEGRADED : Fld := ⟨0x0100, 9, 1⟩
/-- HIF_LINK_STAT.LSTATE, bits [12:10], access RO (R365). -/
abbrev F.HIF_LINK_STAT_LSTATE : Fld := ⟨0x0100, 10, 3⟩
/-- HIF_LINK_STAT.DSTATE, bits [14:13], access RO (R365). -/
abbrev F.HIF_LINK_STAT_DSTATE : Fld := ⟨0x0100, 13, 2⟩
/-- HIF_CPL_TMO (R365). -/
abbrev R.HIF_CPL_TMO : Nat := 0x0104
/-- HIF_CPL_TMO.MS, bits [11:0], access RW (R365). -/
abbrev F.HIF_CPL_TMO_MS : Fld := ⟨0x0104, 0, 12⟩
/-- HIF_RECOV (R365). -/
abbrev R.HIF_RECOV : Nat := 0x0108
/-- HIF_RECOV.MS, bits [9:0], access RW (R365). -/
abbrev F.HIF_RECOV_MS : Fld := ⟨0x0108, 0, 10⟩
/-- HIF_ORD (R365). -/
abbrev R.HIF_ORD : Nat := 0x010C
/-- HIF_ORD.RO_DATA, bits [0:0], access RW (R365). -/
abbrev F.HIF_ORD_RO_DATA : Fld := ⟨0x010C, 0, 1⟩
/-- HIF_ORD.IDO, bits [1:1], access RW (R365). -/
abbrev F.HIF_ORD_IDO : Fld := ⟨0x010C, 1, 1⟩
/-- HIF_PM (R365). -/
abbrev R.HIF_PM : Nat := 0x0110
/-- HIF_PM.L1_US, bits [15:0], access RW (R365). -/
abbrev F.HIF_PM_L1_US : Fld := ⟨0x0110, 0, 16⟩
/-- HIF_PM.L0P_US, bits [31:16], access RW (R365). -/
abbrev F.HIF_PM_L0P_US : Fld := ⟨0x0110, 16, 16⟩
/-- HIF_LTR (R365). -/
abbrev R.HIF_LTR : Nat := 0x0114
/-- HIF_LTR.US, bits [15:0], access RW (R365). -/
abbrev F.HIF_LTR_US : Fld := ⟨0x0114, 0, 16⟩
/-- HIF_TAGS (R365). -/
abbrev R.HIF_TAGS : Nat := 0x0118
/-- HIF_TAGS.USED, bits [9:0], access RO (R365). -/
abbrev F.HIF_TAGS_USED : Fld := ⟨0x0118, 0, 10⟩
/-- HIF_TAGS.QUAR, bits [25:16], access RO (R365). -/
abbrev F.HIF_TAGS_QUAR : Fld := ⟨0x0118, 16, 10⟩
/-- HIF_CNT[k] (R365). -/
abbrev R.HIF_CNT : Nat := 0x0200
/-- HIF_CNT[k].COUNT, bits [31:0], access RC (R365). -/
abbrev F.HIF_CNT_COUNT : Fld := ⟨0x0200, 0, 32⟩
/-- HIF_HPORT[i] (R365). -/
abbrev R.HIF_HPORT : Nat := 0x0300
/-- HIF_HPORT[i].CHAN, bits [9:0], access RW (R365). -/
abbrev F.HIF_HPORT_CHAN : Fld := ⟨0x0300, 0, 10⟩
/-- HIF_HPORT[i].EN, bits [15:15], access RW (R365). -/
abbrev F.HIF_HPORT_EN : Fld := ⟨0x0300, 15, 1⟩
/-- HIF_HPORT[i].MIN_BUF, bits [31:16], access RW (R365). -/
abbrev F.HIF_HPORT_MIN_BUF : Fld := ⟨0x0300, 16, 16⟩
/-- DMA_CTX_BASE (R366). -/
abbrev R.DMA_CTX_BASE : Nat := 0x0100
/-- DMA_CTX_BASE.BASE, bits [63:0], access RW (R366). -/
abbrev F.DMA_CTX_BASE_BASE : Fld := ⟨0x0100, 0, 32⟩
/-- DMA_CTX_INVAL (R366). -/
abbrev R.DMA_CTX_INVAL : Nat := 0x0108
/-- DMA_CTX_INVAL.CHAN, bits [9:0], access RW (R366). -/
abbrev F.DMA_CTX_INVAL_CHAN : Fld := ⟨0x0108, 0, 10⟩
/-- DMA_CTX_INVAL.ALL, bits [14:14], access RW (R366). -/
abbrev F.DMA_CTX_INVAL_ALL : Fld := ⟨0x0108, 14, 1⟩
/-- DMA_CTX_INVAL.GO, bits [15:15], access WO (R366). -/
abbrev F.DMA_CTX_INVAL_GO : Fld := ⟨0x0108, 15, 1⟩
/-- DMA_CTX_INVAL.BUSY, bits [16:16], access RO (R366). -/
abbrev F.DMA_CTX_INVAL_BUSY : Fld := ⟨0x0108, 16, 1⟩
/-- DMA_CH_ACTIVE (R366). -/
abbrev R.DMA_CH_ACTIVE : Nat := 0x010C
/-- DMA_CH_ACTIVE.COUNT, bits [10:0], access RO (R366). -/
abbrev F.DMA_CH_ACTIVE_COUNT : Fld := ⟨0x010C, 0, 11⟩
/-- DMA_CNT[k] (R366). -/
abbrev R.DMA_CNT : Nat := 0x0200
/-- DMA_CNT[k].COUNT, bits [31:0], access RC (R366). -/
abbrev F.DMA_CNT_COUNT : Fld := ⟨0x0200, 0, 32⟩
/-- DMA_CH_CTL[c] (R366). -/
abbrev R.DMA_CH_CTL : Nat := 0x4000
/-- DMA_CH_CTL[c].START, bits [0:0], access WO (R366). -/
abbrev F.DMA_CH_CTL_START : Fld := ⟨0x4000, 0, 1⟩
/-- DMA_CH_CTL[c].STOP, bits [1:1], access WO (R366). -/
abbrev F.DMA_CH_CTL_STOP : Fld := ⟨0x4000, 1, 1⟩
/-- DMA_CH_CTL[c].STATE, bits [4:2], access RO (R366). -/
abbrev F.DMA_CH_CTL_STATE : Fld := ⟨0x4000, 2, 3⟩
/-- DMA_CH_CTL[c].PENDING, bits [5:5], access RO (R366). -/
abbrev F.DMA_CH_CTL_PENDING : Fld := ⟨0x4000, 5, 1⟩
/-- DMA_CH_IDX[c] (R366). -/
abbrev R.DMA_CH_IDX : Nat := 0x4004
/-- DMA_CH_IDX[c].HEAD, bits [15:0], access RO (R366). -/
abbrev F.DMA_CH_IDX_HEAD : Fld := ⟨0x4004, 0, 16⟩
/-- DMA_CH_IDX[c].TAIL, bits [31:16], access RO (R366). -/
abbrev F.DMA_CH_IDX_TAIL : Fld := ⟨0x4004, 16, 16⟩
/-- DMA_CH_ERR[c] (R366). -/
abbrev R.DMA_CH_ERR : Nat := 0x4008
/-- DMA_CH_ERR[c].CODE, bits [7:0], access RO (R366). -/
abbrev F.DMA_CH_ERR_CODE : Fld := ⟨0x4008, 0, 8⟩
/-- DMA_CH_ERR[c].IDX, bits [23:8], access RO (R366). -/
abbrev F.DMA_CH_ERR_IDX : Fld := ⟨0x4008, 8, 16⟩
/-- DMA_CH_DROP[c] (R366). -/
abbrev R.DMA_CH_DROP : Nat := 0x400C
/-- DMA_CH_DROP[c].COUNT, bits [31:0], access RC (R366). -/
abbrev F.DMA_CH_DROP_COUNT : Fld := ⟨0x400C, 0, 32⟩
/-- ULX_STRAP (R386). -/
abbrev R.ULX_STRAP : Nat := 0x0100
/-- ULX_STRAP.ID, bits [1:0], access RO (R386). -/
abbrev F.ULX_STRAP_ID : Fld := ⟨0x0100, 0, 2⟩
/-- ULX_CFG (R386). -/
abbrev R.ULX_CFG : Nat := 0x0104
/-- ULX_CFG.MEMBERS, bits [3:0], access RW (R386). -/
abbrev F.ULX_CFG_MEMBERS : Fld := ⟨0x0104, 0, 4⟩
/-- ULX_CFG.PEER, bits [9:4], access RW (R386). -/
abbrev F.ULX_CFG_PEER : Fld := ⟨0x0104, 4, 6⟩
/-- ULX_LINK (R386). -/
abbrev R.ULX_LINK : Nat := 0x0108
/-- ULX_LINK.ACK_TMO_NS, bits [15:0], access RW (R386). -/
abbrev F.ULX_LINK_ACK_TMO_NS : Fld := ⟨0x0108, 0, 16⟩
/-- ULX_LINK.REPLAY_MAX, bits [19:16], access RW (R386). -/
abbrev F.ULX_LINK_REPLAY_MAX : Fld := ⟨0x0108, 16, 4⟩
/-- ULX_TXN_TMO (R386). -/
abbrev R.ULX_TXN_TMO : Nat := 0x010C
/-- ULX_TXN_TMO.US, bits [15:0], access RW (R386). -/
abbrev F.ULX_TXN_TMO_US : Fld := ⟨0x010C, 0, 16⟩
/-- ULX_RSQ (R386). -/
abbrev R.ULX_RSQ : Nat := 0x0110
/-- ULX_RSQ.NS, bits [15:0], access RW (R386). -/
abbrev F.ULX_RSQ_NS : Fld := ⟨0x0110, 0, 16⟩
/-- ULX_PEER_HOLD (R386). -/
abbrev R.ULX_PEER_HOLD : Nat := 0x0114
/-- ULX_PEER_HOLD.US, bits [13:0], access RW (R386). -/
abbrev F.ULX_PEER_HOLD_US : Fld := ⟨0x0114, 0, 14⟩
/-- ULX_CRED (R386). -/
abbrev R.ULX_CRED : Nat := 0x0118
/-- ULX_CRED.VC, bits [31:0], access RW (R386). -/
abbrev F.ULX_CRED_VC : Fld := ⟨0x0118, 0, 32⟩
/-- ULX_REACH (R386). -/
abbrev R.ULX_REACH : Nat := 0x011C
/-- ULX_REACH.DIRECT, bits [3:0], access RO (R386). -/
abbrev F.ULX_REACH_DIRECT : Fld := ⟨0x011C, 0, 4⟩
/-- ULX_REACH.ANY, bits [7:4], access RO (R386). -/
abbrev F.ULX_REACH_ANY : Fld := ⟨0x011C, 4, 4⟩
/-- ULX_WIN_COMMIT (R386). -/
abbrev R.ULX_WIN_COMMIT : Nat := 0x0120
/-- ULX_WIN_COMMIT.GO, bits [0:0], access WO (R386). -/
abbrev F.ULX_WIN_COMMIT_GO : Fld := ⟨0x0120, 0, 1⟩
/-- ULX_WIN_COMMIT.BUSY, bits [1:1], access RO (R386). -/
abbrev F.ULX_WIN_COMMIT_BUSY : Fld := ⟨0x0120, 1, 1⟩
/-- ULX_WIN_COMMIT.DONE, bits [2:2], access RO (R386). -/
abbrev F.ULX_WIN_COMMIT_DONE : Fld := ⟨0x0120, 2, 1⟩
/-- ULX_PORT_RETRAIN (R386). -/
abbrev R.ULX_PORT_RETRAIN : Nat := 0x0124
/-- ULX_PORT_RETRAIN.PORT, bits [7:0], access WO (R386). -/
abbrev F.ULX_PORT_RETRAIN_PORT : Fld := ⟨0x0124, 0, 8⟩
/-- ULX_PATTERN[k] (R386). -/
abbrev R.ULX_PATTERN : Nat := 0x0200
/-- ULX_PATTERN[k].SLOTS, bits [31:0], access RW (R386). -/
abbrev F.ULX_PATTERN_SLOTS : Fld := ⟨0x0200, 0, 32⟩
/-- ULX_QMAP[k] (R386). -/
abbrev R.ULX_QMAP : Nat := 0x0300
/-- ULX_QMAP[k].BASE, bits [16:0], access RW (R386). -/
abbrev F.ULX_QMAP_BASE : Fld := ⟨0x0300, 0, 17⟩
/-- ULX_QMAP[k].EN, bits [31:31], access RW (R386). -/
abbrev F.ULX_QMAP_EN : Fld := ⟨0x0300, 31, 1⟩
/-- ULX_QMAP[k].SIZE, bits [17:0], access RW (R386). -/
abbrev F.ULX_QMAP_SIZE : Fld := ⟨0x0304, 0, 18⟩
/-- ULX_QMAP[k].RBASE, bits [16:0], access RW (R386). -/
abbrev F.ULX_QMAP_RBASE : Fld := ⟨0x0308, 0, 17⟩
/-- ULX_QMAP[k].DEV, bits [18:17], access RW (R386). -/
abbrev F.ULX_QMAP_DEV : Fld := ⟨0x0308, 17, 2⟩
/-- ULX_QMAP[k].VC, bits [19:19], access RW (R386). -/
abbrev F.ULX_QMAP_VC : Fld := ⟨0x0308, 19, 1⟩
/-- ULX_TXN[s] (R386). -/
abbrev R.ULX_TXN : Nat := 0x0400
/-- ULX_TXN[s].GO, bits [0:0], access WO (R386). -/
abbrev F.ULX_TXN_GO : Fld := ⟨0x0400, 0, 1⟩
/-- ULX_TXN[s].OP, bits [2:1], access RW (R386). -/
abbrev F.ULX_TXN_OP : Fld := ⟨0x0400, 1, 2⟩
/-- ULX_TXN[s].SPACE, bits [3:3], access RW (R386). -/
abbrev F.ULX_TXN_SPACE : Fld := ⟨0x0400, 3, 1⟩
/-- ULX_TXN[s].DEV, bits [5:4], access RW (R386). -/
abbrev F.ULX_TXN_DEV : Fld := ⟨0x0400, 4, 2⟩
/-- ULX_TXN[s].ADDR, bits [31:0], access RW (R386). -/
abbrev F.ULX_TXN_ADDR : Fld := ⟨0x0404, 0, 32⟩
/-- ULX_TXN[s].DATA, bits [31:0], access RW (R386). -/
abbrev F.ULX_TXN_DATA : Fld := ⟨0x0408, 0, 32⟩
/-- ULX_TXN[s].BUSY, bits [0:0], access RO (R386). -/
abbrev F.ULX_TXN_BUSY : Fld := ⟨0x040C, 0, 1⟩
/-- ULX_TXN[s].DONE, bits [1:1], access RO (R386). -/
abbrev F.ULX_TXN_DONE : Fld := ⟨0x040C, 1, 1⟩
/-- ULX_TXN[s].ERROR, bits [2:2], access RO (R386). -/
abbrev F.ULX_TXN_ERROR : Fld := ⟨0x040C, 2, 1⟩
/-- ULX_TXN[s].QUAR, bits [3:3], access RO (R386). -/
abbrev F.ULX_TXN_QUAR : Fld := ⟨0x040C, 3, 1⟩
/-- ULX_TXN[s].CODE, bits [7:4], access RO (R386). -/
abbrev F.ULX_TXN_CODE : Fld := ⟨0x040C, 4, 4⟩
/-- ULX_WIN[w] (R386). -/
abbrev R.ULX_WIN : Nat := 0x0500
/-- ULX_WIN[w].EN, bits [0:0], access RW (R386). -/
abbrev F.ULX_WIN_EN : Fld := ⟨0x0500, 0, 1⟩
/-- ULX_WIN[w].SPACE, bits [1:1], access RW (R386). -/
abbrev F.ULX_WIN_SPACE : Fld := ⟨0x0500, 1, 1⟩
/-- ULX_WIN[w].WRITE_OK, bits [2:2], access RW (R386). -/
abbrev F.ULX_WIN_WRITE_OK : Fld := ⟨0x0500, 2, 1⟩
/-- ULX_WIN[w].SRC_MASK, bits [7:4], access RW (R386). -/
abbrev F.ULX_WIN_SRC_MASK : Fld := ⟨0x0500, 4, 4⟩
/-- ULX_WIN[w].BASE, bits [12:0], access RW (R386). -/
abbrev F.ULX_WIN_BASE : Fld := ⟨0x0504, 0, 13⟩
/-- ULX_WIN[w].SIZE, bits [29:16], access RW (R386). -/
abbrev F.ULX_WIN_SIZE : Fld := ⟨0x0504, 16, 14⟩
/-- ULX_WIN[w].TARGET, bits [12:0], access RW (R386). -/
abbrev F.ULX_WIN_TARGET : Fld := ⟨0x0508, 0, 13⟩
/-- ULX_PORT_STAT[i] (R386). -/
abbrev R.ULX_PORT_STAT : Nat := 0x0800
/-- ULX_PORT_STAT[i].STATE, bits [2:0], access RO (R386). -/
abbrev F.ULX_PORT_STAT_STATE : Fld := ⟨0x0800, 0, 3⟩
/-- ULX_PORT_STAT[i].PEER_DEV, bits [4:3], access RO (R386). -/
abbrev F.ULX_PORT_STAT_PEER_DEV : Fld := ⟨0x0800, 3, 2⟩
/-- ULX_PORT_STAT[i].PEER_PORT, bits [8:5], access RO (R386). -/
abbrev F.ULX_PORT_STAT_PEER_PORT : Fld := ⟨0x0800, 5, 4⟩
/-- ULX_PORT_CNT[i][k] (R386). -/
abbrev R.ULX_PORT_CNT : Nat := 0x0900
/-- ULX_PORT_CNT[i][k].COUNT, bits [31:0], access RC (R386). -/
abbrev F.ULX_PORT_CNT_COUNT : Fld := ⟨0x0900, 0, 32⟩
/-- ULX_PEER_CNT[e][k] (R386). -/
abbrev R.ULX_PEER_CNT : Nat := 0x0A00
/-- ULX_PEER_CNT[e][k].COUNT, bits [31:0], access RC (R386). -/
abbrev F.ULX_PEER_CNT_COUNT : Fld := ⟨0x0A00, 0, 32⟩
/-- ULX_CNT[k] (R386). -/
abbrev R.ULX_CNT : Nat := 0x0B00
/-- ULX_CNT[k].COUNT, bits [31:0], access RC (R386). -/
abbrev F.ULX_CNT_COUNT : Fld := ⟨0x0B00, 0, 32⟩
/-- ERR_CFG (R400). -/
abbrev R.ERR_CFG : Nat := 0x0100
/-- ERR_CFG.LOG_EN, bits [7:0], access RW (R400). -/
abbrev F.ERR_CFG_LOG_EN : Fld := ⟨0x0100, 0, 8⟩
/-- ERR_SCRUB (R400). -/
abbrev R.ERR_SCRUB : Nat := 0x0104
/-- ERR_SCRUB.MS, bits [15:0], access RW (R400). -/
abbrev F.ERR_SCRUB_MS : Fld := ⟨0x0104, 0, 16⟩
/-- ERR_SCRUB.EN, bits [16:16], access RW (R400). -/
abbrev F.ERR_SCRUB_EN : Fld := ⟨0x0104, 16, 1⟩
/-- ERR_LOG_STAT (R400). -/
abbrev R.ERR_LOG_STAT : Nat := 0x0108
/-- ERR_LOG_STAT.COUNT, bits [12:0], access RO (R400). -/
abbrev F.ERR_LOG_STAT_COUNT : Fld := ⟨0x0108, 0, 13⟩
/-- ERR_LOG_STAT.LOST, bits [31:16], access RC (R400). -/
abbrev F.ERR_LOG_STAT_LOST : Fld := ⟨0x0108, 16, 16⟩
/-- ERR_LOG_SEQ (R400). -/
abbrev R.ERR_LOG_SEQ : Nat := 0x010C
/-- ERR_LOG_SEQ.SEQ, bits [31:0], access RO (R400). -/
abbrev F.ERR_LOG_SEQ_SEQ : Fld := ⟨0x010C, 0, 32⟩
/-- ERR_LOG_POP (R400). -/
abbrev R.ERR_LOG_POP : Nat := 0x0110
/-- ERR_LOG_POP.POP, bits [0:0], access WO (R400). -/
abbrev F.ERR_LOG_POP_POP : Fld := ⟨0x0110, 0, 1⟩
/-- ERR_LOG_REC[k] (R400). -/
abbrev R.ERR_LOG_REC : Nat := 0x0120
/-- ERR_LOG_REC[k].WORD, bits [31:0], access RO (R400). -/
abbrev F.ERR_LOG_REC_WORD : Fld := ⟨0x0120, 0, 32⟩
/-- ERR_CNT[c] (R400). -/
abbrev R.ERR_CNT : Nat := 0x0200
/-- ERR_CNT[c].COUNT, bits [31:0], access RC (R400). -/
abbrev F.ERR_CNT_COUNT : Fld := ⟨0x0200, 0, 32⟩
/-- ERR_MISC_CNT[k] (R400). -/
abbrev R.ERR_MISC_CNT : Nat := 0x0240
/-- ERR_MISC_CNT[k].COUNT, bits [31:0], access RC (R400). -/
abbrev F.ERR_MISC_CNT_COUNT : Fld := ⟨0x0240, 0, 32⟩
/-- ERR_CE[m][d] (R400). -/
abbrev R.ERR_CE : Nat := 0x0300
/-- ERR_CE[m][d].COUNT, bits [31:0], access RC (R400). -/
abbrev F.ERR_CE_COUNT : Fld := ⟨0x0300, 0, 32⟩
/-- ERR_UE[m][d] (R400). -/
abbrev R.ERR_UE : Nat := 0x0380
/-- ERR_UE[m][d].COUNT, bits [31:0], access RC (R400). -/
abbrev F.ERR_UE_COUNT : Fld := ⟨0x0380, 0, 32⟩
/-- HIF_APT_CTL[n] (R30). -/
abbrev R.HIF_APT_CTL : Nat := 0x0800
/-- HIF_APT_CTL[n].TARGET, bits [7:0], access RW (R30). -/
abbrev F.HIF_APT_CTL_TARGET : Fld := ⟨0x0800, 0, 8⟩
/-- HIF_APT_BASE[n] (R30). -/
abbrev R.HIF_APT_BASE : Nat := 0x0804
/-- HIF_APT_BASE[n].BASE, bits [31:0], access RW (R30). -/
abbrev F.HIF_APT_BASE_BASE : Fld := ⟨0x0804, 0, 32⟩
/-- HIF_INT_SUM[k] (R35). -/
abbrev R.HIF_INT_SUM : Nat := 0x0B00
/-- HIF_INT_SUM[k].LINES, bits [31:0], access RO (R35). -/
abbrev F.HIF_INT_SUM_LINES : Fld := ⟨0x0B00, 0, 32⟩
/-- HIF_INT_ROUTE[p] (R35). -/
abbrev R.HIF_INT_ROUTE : Nat := 0x0C00
/-- HIF_INT_ROUTE[p].VECTOR, bits [10:0], access RW (R35). -/
abbrev F.HIF_INT_ROUTE_VECTOR : Fld := ⟨0x0C00, 0, 11⟩
/-- HIF_INT_ROUTE[p].EN, bits [15:15], access RW (R35). -/
abbrev F.HIF_INT_ROUTE_EN : Fld := ⟨0x0C00, 15, 1⟩
/-- HIF_INT_ROUTE[p].LINE, bits [16:16], access RO (R35). -/
abbrev F.HIF_INT_ROUTE_LINE : Fld := ⟨0x0C00, 16, 1⟩
/-- LKP_DESC[t][k] (R161). -/
abbrev R.LKP_DESC : Nat := 0x8020
/-- LKP_DESC[t][k].WORD, bits [31:0], access RW (R161). -/
abbrev F.LKP_DESC_WORD : Fld := ⟨0x8020, 0, 32⟩

end Sys2Proof.Machine
end

