-- ==== Sys2Proof/Machine/Maps.lean ====
section
/-! DEFINITION. Reading and writing a sparse store, and the canonical form it is kept in. -/

namespace Sys2Proof

/-- What key `k` reads as: its entry, or `d` where none is listed. -/
def Map.rd {α : Type} (d : α) : Map α → Nat → α
  | [], _ => d
  | (k, v) :: r, x => if x = k then v else Map.rd d r x

/-- The entry of key `k`, where one is listed. -/
def Map.find? {α : Type} : Map α → Nat → Option α
  | [], _ => none
  | (k, v) :: r, x => if x = k then some v else Map.find? r x

/-- The store without key `x`. -/
def Map.erase {α : Type} : Map α → Nat → Map α
  | [], _ => []
  | (k, v) :: r, x => if x = k then Map.erase r x else (k, v) :: Map.erase r x

/-- Puts an entry before the first greater key. -/
def Map.insert {α : Type} : Map α → Nat → α → Map α
  | [], x, v => [(x, v)]
  | (k, u) :: r, x, v => if x < k then (x, v) :: (k, u) :: r else (k, u) :: Map.insert r x v

/-- Writes key `x`; writing `d`, what an unlisted key reads as, removes the entry. -/
def Map.wr {α : Type} [DecidableEq α] (d : α) (m : Map α) (x : Nat) (v : α) : Map α :=
  if v = d then m.erase x else (m.erase x).insert x v

/-- Lists an entry for `x` whatever its value. -/
def Map.put {α : Type} (m : Map α) (x : Nat) (v : α) : Map α := (m.erase x).insert x v

/-- Keys strictly rise. -/
def Map.rising {α : Type} : Map α → Bool
  | [] => true
  | [_] => true
  | (k, _) :: (k', v') :: r => decide (k < k') && Map.rising ((k', v') :: r)

/-- The canonical form: keys strictly rise and no entry equals what its key reads as when unlisted. -/
def Map.wf {α : Type} [DecidableEq α] (d : Nat → α) (m : Map α) : Bool :=
  m.rising && m.all (fun e => decide (e.2 ≠ d e.1))

/-- The entries whose key lies in [lo, hi) are dropped. -/
def Map.dropRange {α : Type} (m : Map α) (lo hi : Nat) : Map α :=
  List.filter (fun e => e.1 < lo || hi ≤ e.1) m

end Sys2Proof
end

