-- ==== Sys2Proof/Machine/RegTable.lean ====
section
/-! DEFINITION. The block-specific registers of every page, one row per register or register array, as the field
tables of the chapters give them (R30, R35, R58, R59, R78, R94, R112, R113, R140, R149, R157, R158, R161, R181, R182,
R195, R211, R229, R247, R259, R288, R289, R311, R330, R344, R365, R366, R386, R400).
Bits that no field covers are RSV (R7, R21). -/

namespace Sys2Proof.Machine

/-- The block-specific registers of the SVC page. -/
def svcRegs : List RegDesc := [
  -- SVC_MODE_REQ (R78)
  ⟨0x0100, 1, 65536, 1, 4, .single, [⟨0, 3, .wo, 0, false⟩]⟩,
  -- SVC_MODE (R78)
  ⟨0x0104, 1, 65536, 1, 4, .single, [⟨0, 3, .ro, 0, false⟩, ⟨3, 1, .ro, 0, false⟩, ⟨4, 3, .ro, 0, false⟩, ⟨7, 1, .ro, 0, false⟩, ⟨8, 3, .ro, 0, false⟩, ⟨11, 1, .w1c, 0, false⟩]⟩,
  -- SVC_CFG (R78)
  ⟨0x0108, 1, 65536, 1, 4, .single, [⟨0, 1, .rw, 0, false⟩, ⟨1, 1, .rw, 0, false⟩]⟩,
  -- SVC_DRAIN_LIMIT (R78)
  ⟨0x010C, 1, 65536, 1, 4, .single, [⟨0, 16, .rw, 500, false⟩]⟩,
  -- SVC_DRAIN_LEFT (R78)
  ⟨0x0110, 1, 65536, 1, 4, .single, [⟨0, 32, .ro, 0, false⟩]⟩,
  -- SVC_DRAIN_FLUSH (R78)
  ⟨0x0114, 1, 65536, 1, 4, .single, [⟨0, 32, .rc, 0, false⟩]⟩,
  -- SVC_IMG_POLICY (R149)
  ⟨0x0200, 1, 65536, 1, 4, .single, [⟨0, 1, .rw, 0, false⟩, ⟨1, 1, .w1s, 0, false⟩]⟩,
  -- SVC_KEY_EN (R149)
  ⟨0x0204, 1, 65536, 1, 4, .single, [⟨0, 4, .rw, 0, false⟩]⟩,
  -- SVC_KEY_HASH[s][k] (R149)
  ⟨0x0210, 4, 64, 12, 4, .single, [⟨0, 32, .rw, 0, false⟩]⟩]

/-- The block-specific registers of the PWR page. -/
def pwrRegs : List RegDesc := [
  -- PWR_DOM_REQ (R58)
  ⟨0x0100, 1, 65536, 1, 4, .single, [⟨0, 29, .rw, 0, false⟩, ⟨29, 1, .ro, 1, false⟩]⟩,
  -- PWR_DOM_FAULT (R58)
  ⟨0x0104, 1, 65536, 1, 4, .single, [⟨0, 30, .w1c, 0, false⟩]⟩,
  -- PWR_INPUT (R58)
  ⟨0x0108, 1, 65536, 1, 4, .single, [⟨0, 1, .w1c, 0, false⟩, ⟨1, 3, .ro, 0, false⟩]⟩,
  -- PWR_IN_TEL (R58)
  ⟨0x010C, 1, 65536, 1, 4, .single, [⟨0, 16, .ro, 0, false⟩, ⟨16, 16, .ro, 0, false⟩]⟩,
  -- PWR_BUS_TEL (R58)
  ⟨0x0110, 1, 65536, 1, 4, .single, [⟨0, 16, .ro, 0, false⟩, ⟨16, 16, .ro, 0, false⟩]⟩,
  -- PWR_STBY_TEL (R58)
  ⟨0x0114, 1, 65536, 1, 4, .single, [⟨0, 16, .ro, 0, false⟩, ⟨16, 16, .ro, 0, false⟩]⟩,
  -- PWR_TEMP_WARN (R58)
  ⟨0x0118, 1, 65536, 1, 4, .single, [⟨0, 8, .rw, 100, false⟩]⟩,
  -- PWR_LINK (R58)
  ⟨0x011C, 1, 65536, 1, 4, .single, [⟨0, 16, .rc, 0, false⟩, ⟨16, 16, .rc, 0, false⟩]⟩,
  -- PWR_DOM_STATE[n] (R58)
  ⟨0x0200, 30, 4, 1, 4, .single, [⟨0, 3, .ro, 0, false⟩, ⟨3, 1, .ro, 0, false⟩]⟩,
  -- PWR_DOM_TEL[n] (R58)
  ⟨0x0280, 30, 4, 1, 4, .single, [⟨0, 16, .ro, 0, false⟩, ⟨16, 16, .ro, 0, false⟩]⟩,
  -- PWR_TEMP[s] (R58)
  ⟨0x0300, 16, 4, 1, 4, .single, [⟨0, 12, .ro, 0, false⟩]⟩]

/-- The block-specific registers of the CLK page. -/
def clkRegs : List RegDesc := [
  -- CLK_STAT (R59)
  ⟨0x0100, 1, 65536, 1, 4, .single, [⟨0, 1, .ro, 0, false⟩, ⟨1, 1, .ro, 0, false⟩, ⟨2, 1, .ro, 0, false⟩, ⟨3, 1, .ro, 0, false⟩, ⟨4, 1, .ro, 0, false⟩]⟩,
  -- CLK_REF_LOSS (R59)
  ⟨0x0104, 1, 65536, 1, 4, .single, [⟨0, 16, .rc, 0, false⟩]⟩,
  -- CLK_HOLD_TIME (R59)
  ⟨0x0108, 1, 65536, 1, 4, .single, [⟨0, 32, .ro, 0, false⟩]⟩]

/-- The block-specific registers of the ERR page. -/
def errRegs : List RegDesc := [
  -- ERR_CFG (R400)
  ⟨0x0100, 1, 65536, 1, 4, .single, [⟨0, 8, .rw, 254, false⟩]⟩,
  -- ERR_SCRUB (R400)
  ⟨0x0104, 1, 65536, 1, 4, .single, [⟨0, 16, .rw, 1000, false⟩, ⟨16, 1, .rw, 1, false⟩]⟩,
  -- ERR_LOG_STAT (R400)
  ⟨0x0108, 1, 65536, 1, 4, .single, [⟨0, 13, .ro, 0, false⟩, ⟨16, 16, .rc, 0, false⟩]⟩,
  -- ERR_LOG_SEQ (R400)
  ⟨0x010C, 1, 65536, 1, 4, .single, [⟨0, 32, .ro, 0, false⟩]⟩,
  -- ERR_LOG_POP (R400)
  ⟨0x0110, 1, 65536, 1, 4, .single, [⟨0, 1, .wo, 0, false⟩]⟩,
  -- ERR_LOG_REC[k] (R400)
  ⟨0x0120, 8, 4, 1, 4, .single, [⟨0, 32, .ro, 0, false⟩]⟩,
  -- ERR_CNT[c] (R400)
  ⟨0x0200, 8, 4, 1, 4, .single, [⟨0, 32, .rc, 0, false⟩]⟩,
  -- ERR_MISC_CNT[k] (R400)
  ⟨0x0240, 4, 4, 1, 4, .single, [⟨0, 32, .rc, 0, false⟩]⟩,
  -- ERR_CE[m][d] (R400)
  ⟨0x0300, 9, 8, 2, 4, .single, [⟨0, 32, .rc, 0, false⟩]⟩,
  -- ERR_UE[m][d] (R400)
  ⟨0x0380, 9, 8, 2, 4, .single, [⟨0, 32, .rc, 0, false⟩]⟩]

/-- The block-specific registers of the HIF page. -/
def hifRegs : List RegDesc := [
  -- HIF_LINK_STAT (R365)
  ⟨0x0100, 1, 65536, 1, 4, .single, [⟨0, 4, .ro, 0, false⟩, ⟨4, 4, .ro, 0, false⟩, ⟨8, 1, .ro, 0, false⟩, ⟨9, 1, .ro, 0, false⟩, ⟨10, 3, .ro, 0, false⟩, ⟨13, 2, .ro, 0, false⟩]⟩,
  -- HIF_CPL_TMO (R365)
  ⟨0x0104, 1, 65536, 1, 4, .single, [⟨0, 12, .rw, 50, false⟩]⟩,
  -- HIF_RECOV (R365)
  ⟨0x0108, 1, 65536, 1, 4, .single, [⟨0, 10, .rw, 10, false⟩]⟩,
  -- HIF_ORD (R365)
  ⟨0x010C, 1, 65536, 1, 4, .single, [⟨0, 1, .rw, 1, false⟩, ⟨1, 1, .rw, 1, false⟩]⟩,
  -- HIF_PM (R365)
  ⟨0x0110, 1, 65536, 1, 4, .single, [⟨0, 16, .rw, 64, false⟩, ⟨16, 16, .rw, 100, false⟩]⟩,
  -- HIF_LTR (R365)
  ⟨0x0114, 1, 65536, 1, 4, .single, [⟨0, 16, .rw, 200, false⟩]⟩,
  -- HIF_TAGS (R365)
  ⟨0x0118, 1, 65536, 1, 4, .single, [⟨0, 10, .ro, 0, false⟩, ⟨16, 10, .ro, 0, false⟩]⟩,
  -- HIF_CNT[k] (R365)
  ⟨0x0200, 8, 4, 1, 4, .single, [⟨0, 32, .rc, 0, false⟩]⟩,
  -- HIF_HPORT[i] (R365)
  ⟨0x0300, 8, 4, 1, 4, .single, [⟨0, 10, .rw, 0, false⟩, ⟨15, 1, .rw, 0, false⟩, ⟨16, 16, .rw, 8, false⟩]⟩,
  -- HIF_APT_CTL[n] (R30)
  ⟨0x0800, 16, 8, 1, 4, .single, [⟨0, 8, .rw, 0, false⟩]⟩,
  -- HIF_APT_BASE[n] (R30)
  ⟨0x0804, 16, 8, 1, 4, .single, [⟨0, 32, .rw, 0, false⟩]⟩,
  -- HIF_INT_SUM[k] (R35)
  ⟨0x0B00, 8, 4, 1, 4, .single, [⟨0, 32, .ro, 0, false⟩]⟩,
  -- HIF_INT_ROUTE[p] (R35)
  ⟨0x0C00, 256, 4, 1, 4, .single, [⟨0, 11, .rw, 0, false⟩, ⟨15, 1, .rw, 0, false⟩, ⟨16, 1, .ro, 0, false⟩]⟩]

/-- The block-specific registers of the DMA page. -/
def dmaRegs : List RegDesc := [
  -- DMA_CTX_BASE (R366)
  ⟨0x0100, 1, 65536, 1, 4, .low, [⟨12, 20, .rw, 0, true⟩]⟩,
  -- DMA_CTX_BASE (R366)
  ⟨0x0104, 1, 65536, 1, 4, .high, [⟨0, 32, .rw, 0, true⟩]⟩,
  -- DMA_CTX_INVAL (R366)
  ⟨0x0108, 1, 65536, 1, 4, .single, [⟨0, 10, .rw, 0, false⟩, ⟨14, 1, .rw, 0, false⟩, ⟨15, 1, .wo, 0, false⟩, ⟨16, 1, .ro, 0, false⟩]⟩,
  -- DMA_CH_ACTIVE (R366)
  ⟨0x010C, 1, 65536, 1, 4, .single, [⟨0, 11, .ro, 0, false⟩]⟩,
  -- DMA_CNT[k] (R366)
  ⟨0x0200, 6, 4, 1, 4, .single, [⟨0, 32, .rc, 0, false⟩]⟩,
  -- DMA_CH_CTL[c] (R366)
  ⟨0x4000, 1024, 16, 1, 4, .single, [⟨0, 1, .wo, 0, false⟩, ⟨1, 1, .wo, 0, false⟩, ⟨2, 3, .ro, 0, false⟩, ⟨5, 1, .ro, 0, false⟩]⟩,
  -- DMA_CH_IDX[c] (R366)
  ⟨0x4004, 1024, 16, 1, 4, .single, [⟨0, 16, .ro, 0, false⟩, ⟨16, 16, .ro, 0, false⟩]⟩,
  -- DMA_CH_ERR[c] (R366)
  ⟨0x4008, 1024, 16, 1, 4, .single, [⟨0, 8, .ro, 0, false⟩, ⟨8, 16, .ro, 0, false⟩]⟩,
  -- DMA_CH_DROP[c] (R366)
  ⟨0x400C, 1024, 16, 1, 4, .single, [⟨0, 32, .rc, 0, false⟩]⟩]

/-- The block-specific registers of the MOD page, part 1. -/
def modRegs1 : List RegDesc := [
  -- MOD_SCAN (R344)
  ⟨0x0100, 1, 65536, 1, 4, .single, [⟨0, 16, .rw, 100, false⟩]⟩,
  -- MOD_INS (R344)
  ⟨0x0104, 1, 65536, 1, 4, .single, [⟨0, 16, .rw, 2000, false⟩]⟩,
  -- MOD_LIFE (R344)
  ⟨0x0108, 1, 65536, 1, 4, .single, [⟨0, 8, .rw, 90, false⟩]⟩,
  -- MOD_ADV (R344)
  ⟨0x0110, 1, 65536, 1, 4, .single, [⟨0, 16, .rw, 20, false⟩, ⟨16, 4, .rw, 3, false⟩]⟩,
  -- MOD_ADV_LEAD (R344)
  ⟨0x0114, 1, 65536, 1, 4, .single, [⟨0, 16, .rw, 500, false⟩]⟩,
  -- MOD_EVT_DEPTH (R344)
  ⟨0x0120, 1, 65536, 1, 4, .single, [⟨0, 9, .ro, 0, false⟩, ⟨16, 16, .rc, 0, false⟩]⟩,
  -- MOD_EVT[i] (R344)
  ⟨0x0130, 4, 4, 1, 4, .single, [⟨0, 32, .ro, 0, false⟩]⟩,
  -- MOD_EVT_POP (R344)
  ⟨0x0140, 1, 65536, 1, 4, .single, [⟨0, 1, .wo, 0, false⟩]⟩,
  -- MOD_ADV_DEPTH (R344)
  ⟨0x0150, 1, 65536, 1, 4, .single, [⟨0, 6, .ro, 0, false⟩]⟩,
  -- MOD_ADV_REC[i] (R344)
  ⟨0x0160, 6, 4, 1, 4, .single, [⟨0, 32, .ro, 0, false⟩]⟩,
  -- MOD_ADV_POP (R344)
  ⟨0x0178, 1, 65536, 1, 4, .single, [⟨0, 1, .wo, 0, false⟩]⟩,
  -- MOD_LED_IDX (R344)
  ⟨0x0190, 1, 65536, 1, 4, .single, [⟨0, 7, .rw, 0, false⟩, ⟨7, 1, .rw, 0, false⟩]⟩,
  -- MOD_LED_CMD (R344)
  ⟨0x0194, 1, 65536, 1, 4, .single, [⟨0, 1, .wo, 0, false⟩, ⟨1, 1, .wo, 0, false⟩]⟩,
  -- MOD_CNT[i] (R344)
  ⟨0x01C0, 8, 4, 1, 4, .single, [⟨0, 32, .rc, 0, false⟩]⟩,
  -- MOD_BUS[m] (R344)
  ⟨0x0300, 16, 16, 1, 4, .single, [⟨0, 2, .rw, 1, false⟩, ⟨2, 2, .rw, 2, false⟩, ⟨4, 8, .rw, 10, false⟩, ⟨16, 16, .rw, 100, false⟩]⟩,
  -- MOD_CMD_CTL[m] (R344)
  ⟨0x0400, 16, 64, 1, 4, .single, [⟨0, 3, .rw, 0, false⟩, ⟨3, 2, .rw, 0, false⟩, ⟨5, 6, .rw, 0, false⟩, ⟨11, 8, .rw, 0, false⟩, ⟨19, 8, .rw, 0, false⟩]⟩,
  -- MOD_CMD_ADDR[m] (R344)
  ⟨0x0404, 16, 64, 1, 4, .single, [⟨0, 8, .rw, 0, false⟩, ⟨8, 1, .wo, 0, false⟩]⟩,
  -- MOD_CMD_STAT[m] (R344)
  ⟨0x0408, 16, 64, 1, 4, .single, [⟨0, 1, .ro, 0, false⟩, ⟨1, 1, .ro, 0, false⟩, ⟨2, 1, .ro, 0, false⟩, ⟨3, 3, .ro, 0, false⟩]⟩,
  -- MOD_CMD_DATA[m][i] (R344)
  ⟨0x0420, 16, 64, 8, 4, .single, [⟨0, 32, .rw, 0, false⟩]⟩,
  -- MOD_LED_DATA[i] (R344)
  ⟨0x0800, 32, 4, 1, 4, .single, [⟨0, 32, .rw, 0, false⟩]⟩,
  -- MOD_TW[k] (R344)
  ⟨0x0C00, 16, 32, 1, 4, .single, [⟨0, 7, .rw, 0, false⟩, ⟨7, 8, .rw, 0, false⟩, ⟨15, 8, .rw, 0, false⟩, ⟨23, 8, .rw, 0, false⟩]⟩,
  -- MOD_TW[k] (R344)
  ⟨0x0C04, 16, 32, 1, 4, .single, [⟨0, 4, .rw, 0, false⟩, ⟨4, 1, .wo, 0, false⟩, ⟨5, 1, .wo, 0, false⟩, ⟨6, 3, .ro, 0, false⟩]⟩,
  -- MOD_TW[k] (R344)
  ⟨0x0C08, 16, 32, 1, 4, .single, [⟨0, 30, .rw, 0, false⟩]⟩,
  -- MOD_TW[k] (R344)
  ⟨0x0C0C, 16, 32, 1, 4, .single, [⟨0, 32, .rw, 0, false⟩]⟩]

/-- The block-specific registers of the MOD page, part 2. -/
def modRegs2 : List RegDesc := [
  -- MOD_TW[k] (R344)
  ⟨0x0C10, 16, 32, 2, 4, .single, [⟨0, 32, .rw, 0, false⟩]⟩,
  -- MOD_TW[k] (R344)
  ⟨0x0C18, 16, 32, 1, 4, .single, [⟨0, 30, .ro, 0, false⟩]⟩,
  -- MOD_TW[k] (R344)
  ⟨0x0C1C, 16, 32, 1, 4, .single, [⟨0, 32, .ro, 0, false⟩]⟩,
  -- MOD_CAGE_CTL[p] (R344)
  ⟨0x1000, 128, 4, 1, 4, .single, [⟨0, 1, .rw, 0, false⟩, ⟨1, 1, .wo, 0, false⟩, ⟨2, 1, .rw, 0, false⟩, ⟨3, 4, .rw, 0, false⟩]⟩,
  -- MOD_CAGE_STAT[p] (R344)
  ⟨0x1200, 128, 4, 1, 4, .single, [⟨0, 3, .ro, 0, false⟩, ⟨3, 1, .ro, 0, false⟩, ⟨4, 1, .ro, 0, false⟩, ⟨5, 3, .ro, 0, false⟩, ⟨8, 3, .ro, 0, false⟩]⟩,
  -- MOD_WATCH[p] (R344)
  ⟨0x1400, 128, 4, 1, 4, .single, [⟨0, 8, .rw, 0, false⟩, ⟨8, 8, .rw, 0, false⟩, ⟨16, 8, .rw, 0, false⟩, ⟨24, 2, .rw, 0, false⟩, ⟨26, 1, .rw, 0, false⟩]⟩,
  -- MOD_BAND[b][j] (R344)
  ⟨0x1800, 16, 64, 8, 8, .single, [⟨0, 32, .rw, 0, false⟩]⟩,
  -- MOD_BAND[b][j] (R344)
  ⟨0x1804, 16, 64, 8, 8, .single, [⟨0, 32, .rw, 0, false⟩]⟩]

/-- The block-specific registers of the MOD page. -/
def modRegs : List RegDesc := modRegs1 ++ modRegs2

/-- The block-specific registers of the TIME page, part 1. -/
def timeRegs1 : List RegDesc := [
  -- TIME_STAT (R330)
  ⟨0x0100, 1, 65536, 1, 4, .single, [⟨0, 1, .ro, 0, false⟩, ⟨1, 1, .ro, 0, false⟩, ⟨2, 1, .ro, 0, false⟩, ⟨3, 1, .ro, 0, false⟩, ⟨4, 1, .ro, 0, false⟩]⟩,
  -- TIME_CTL (R330)
  ⟨0x0104, 1, 65536, 1, 4, .single, [⟨0, 1, .wo, 0, false⟩, ⟨1, 1, .wo, 0, false⟩, ⟨2, 1, .wo, 0, false⟩, ⟨3, 1, .wo, 0, false⟩]⟩,
  -- TIME_FREQ (R330)
  ⟨0x0108, 1, 65536, 1, 4, .single, [⟨0, 32, .rw, 0, false⟩]⟩,
  -- TIME_ADJ (R330)
  ⟨0x010C, 1, 65536, 1, 4, .single, [⟨0, 32, .rw, 0, false⟩]⟩,
  -- TIME_ADJ_LEFT (R330)
  ⟨0x0110, 1, 65536, 1, 4, .single, [⟨0, 32, .ro, 0, false⟩]⟩,
  -- TIME_SLEW (R330)
  ⟨0x0114, 1, 65536, 1, 4, .single, [⟨0, 16, .rw, 100, false⟩]⟩,
  -- TIME_SET[0] (R330)
  ⟨0x0118, 1, 65536, 1, 4, .single, [⟨0, 30, .rw, 0, false⟩]⟩,
  -- TIME_SET[1] (R330)
  ⟨0x011C, 1, 65536, 1, 4, .single, [⟨0, 32, .rw, 0, false⟩]⟩,
  -- TIME_SET[2] (R330)
  ⟨0x0120, 1, 65536, 1, 4, .single, [⟨0, 16, .rw, 0, false⟩]⟩,
  -- TIME_NOW[k] (R330)
  ⟨0x0130, 4, 4, 1, 4, .single, [⟨0, 32, .ro, 0, false⟩]⟩,
  -- TIME_PPS (R330)
  ⟨0x0140, 1, 65536, 1, 4, .single, [⟨0, 30, .rw, 100000000, false⟩, ⟨30, 1, .rw, 0, false⟩, ⟨31, 1, .rw, 0, false⟩]⟩,
  -- TIME_CHIME[c] (R330)
  ⟨0x0200, 8, 32, 1, 4, .single, [⟨0, 1, .wo, 0, false⟩, ⟨1, 1, .wo, 0, false⟩, ⟨2, 1, .rw, 0, false⟩, ⟨3, 1, .rw, 0, false⟩, ⟨4, 2, .ro, 0, false⟩]⟩,
  -- TIME_CHIME[c] (R330)
  ⟨0x0204, 8, 32, 1, 4, .single, [⟨0, 30, .rw, 0, false⟩]⟩,
  -- TIME_CHIME[c] (R330)
  ⟨0x0208, 8, 32, 1, 4, .single, [⟨0, 32, .rw, 0, false⟩]⟩,
  -- TIME_CHIME[c] (R330)
  ⟨0x020C, 8, 32, 1, 4, .single, [⟨0, 32, .rw, 0, false⟩]⟩,
  -- TIME_CHIME[c] (R330)
  ⟨0x0210, 8, 32, 1, 4, .single, [⟨0, 32, .rw, 0, false⟩]⟩,
  -- TIME_CHIME[c] (R330)
  ⟨0x0214, 8, 32, 1, 4, .single, [⟨0, 16, .rc, 0, false⟩]⟩,
  -- TIME_CAP_CFG[i] (R330)
  ⟨0x0300, 8, 4, 1, 4, .single, [⟨0, 2, .rw, 0, false⟩]⟩,
  -- TIME_CAP_DEPTH (R330)
  ⟨0x0320, 1, 65536, 1, 4, .single, [⟨0, 7, .ro, 0, false⟩, ⟨16, 16, .rc, 0, false⟩]⟩,
  -- TIME_CAP_REC[k] (R330)
  ⟨0x0330, 4, 4, 1, 4, .single, [⟨0, 32, .ro, 0, false⟩]⟩,
  -- TIME_CAP_POP (R330)
  ⟨0x0340, 1, 65536, 1, 4, .single, [⟨0, 1, .wo, 0, false⟩]⟩,
  -- TIME_PORT_TS[n] (R330)
  ⟨0x0400, 64, 8, 1, 4, .single, [⟨0, 2, .rw, 0, false⟩, ⟨2, 1, .rw, 1, false⟩, ⟨3, 1, .rw, 1, false⟩, ⟨4, 1, .rw, 1, false⟩]⟩,
  -- TIME_PORT_TS[n] (R330)
  ⟨0x0404, 64, 8, 1, 4, .single, [⟨0, 16, .rw, 0, false⟩, ⟨16, 16, .rw, 0, false⟩]⟩,
  -- TIME_TX_DEPTH (R330)
  ⟨0x0600, 1, 65536, 1, 4, .single, [⟨0, 9, .ro, 0, false⟩, ⟨16, 16, .rc, 0, false⟩]⟩,
  -- TIME_TX_REC[k] (R330)
  ⟨0x0610, 4, 4, 1, 4, .single, [⟨0, 32, .ro, 0, false⟩]⟩,
  -- TIME_TX_POP (R330)
  ⟨0x0620, 1, 65536, 1, 4, .single, [⟨0, 1, .wo, 0, false⟩]⟩]

/-- The block-specific registers of the TIME page, part 2. -/
def timeRegs2 : List RegDesc := [
  -- TIME_MESH_CFG (R330)
  ⟨0x0700, 1, 65536, 1, 4, .single, [⟨0, 2, .rw, 0, true⟩, ⟨2, 2, .rw, 0, true⟩, ⟨16, 16, .rw, 1000, true⟩]⟩,
  -- TIME_MESH_OFF (R330)
  ⟨0x0704, 1, 65536, 1, 4, .single, [⟨0, 32, .ro, 0, false⟩]⟩]

/-- The block-specific registers of the TIME page. -/
def timeRegs : List RegDesc := timeRegs1 ++ timeRegs2

/-- The block-specific registers of the PG page. -/
def pgRegs : List RegDesc := [
  -- PG_CFG (R94)
  ⟨0x0100, 1, 65536, 1, 4, .single, [⟨0, 2, .rw, 0, true⟩]⟩,
  -- PG_PORT_EN (R94)
  ⟨0x0104, 1, 65536, 1, 4, .single, [⟨0, 8, .rw, 0, true⟩]⟩,
  -- PG_STAT (R94)
  ⟨0x0108, 1, 65536, 1, 4, .single, [⟨0, 8, .ro, 0, false⟩, ⟨8, 8, .ro, 0, false⟩]⟩,
  -- PG_UDP_PORT (R94)
  ⟨0x010C, 1, 65536, 1, 4, .single, [⟨0, 16, .rw, 4789, true⟩, ⟨16, 16, .rw, 6081, true⟩]⟩,
  -- PG_HASH_CFG (R94)
  ⟨0x0110, 1, 65536, 1, 4, .single, [⟨0, 1, .rw, 1, true⟩, ⟨1, 1, .rw, 1, true⟩, ⟨2, 1, .rw, 1, true⟩, ⟨16, 16, .rw, 0, true⟩]⟩,
  -- PG_PUNT_CH (R94)
  ⟨0x0114, 1, 65536, 1, 4, .single, [⟨0, 10, .rw, 0, false⟩, ⟨15, 1, .rw, 0, false⟩]⟩,
  -- PG_INTAKE (R94)
  ⟨0x0118, 1, 65536, 1, 4, .single, [⟨0, 11, .ro, 0, false⟩, ⟨16, 11, .rc, 0, false⟩]⟩,
  -- PG_PORT_CFG[n] (R94)
  ⟨0x0200, 8, 4, 1, 4, .single, [⟨0, 14, .rw, 9216, true⟩, ⟨14, 2, .rw, 0, true⟩, ⟨16, 1, .rw, 0, true⟩, ⟨17, 6, .rw, 20, true⟩, ⟨23, 1, .rw, 1, true⟩, ⟨24, 1, .rw, 0, false⟩]⟩,
  -- PG_PORT_HOLD[n] (R94)
  ⟨0x0220, 8, 4, 1, 4, .single, [⟨0, 14, .rw, 100, false⟩]⟩,
  -- PG_PORT_ACT[n] (R94)
  ⟨0x0240, 8, 4, 1, 4, .single, [⟨0, 10, .rw, 680, false⟩]⟩,
  -- PG_LANE_CFG[l] (R94)
  ⟨0x0260, 8, 4, 1, 4, .single, [⟨0, 1, .rw, 0, true⟩, ⟨1, 1, .rw, 0, true⟩, ⟨4, 4, .rw, 0, true⟩]⟩,
  -- PG_FEC_CORR[n] (R94)
  ⟨0x0300, 8, 8, 1, 4, .single, [⟨0, 32, .rc, 0, false⟩]⟩,
  -- PG_FEC_UNCORR[n] (R94)
  ⟨0x0304, 8, 8, 1, 4, .single, [⟨0, 32, .rc, 0, false⟩]⟩,
  -- PG_CNT[n][k] (R94)
  ⟨0x0400, 8, 32, 8, 4, .single, [⟨0, 32, .rc, 0, false⟩]⟩]

/-- The block-specific registers of the LKP page. -/
def lkpRegs : List RegDesc := [
  -- LKP_CMD_CTL (R181)
  ⟨0x0100, 1, 65536, 1, 4, .single, [⟨0, 3, .rw, 0, false⟩, ⟨3, 1, .rw, 0, false⟩, ⟨4, 1, .rw, 0, false⟩, ⟨5, 10, .rw, 0, false⟩]⟩,
  -- LKP_CMD_STAT (R181)
  ⟨0x0104, 1, 65536, 1, 4, .single, [⟨0, 1, .ro, 0, false⟩, ⟨1, 1, .ro, 0, false⟩, ⟨2, 4, .ro, 0, false⟩, ⟨6, 4, .ro, 0, false⟩, ⟨10, 4, .ro, 0, false⟩]⟩,
  -- LKP_CMD_POS (R181)
  ⟨0x0108, 1, 65536, 1, 4, .single, [⟨0, 26, .ro, 0, false⟩]⟩,
  -- LKP_CMD_GO (R181)
  ⟨0x010C, 1, 65536, 1, 4, .single, [⟨0, 1, .wo, 0, false⟩]⟩,
  -- LKP_CMD_KEY[k] (R181)
  ⟨0x0110, 8, 4, 1, 4, .single, [⟨0, 32, .rw, 0, false⟩]⟩,
  -- LKP_CMD_RES[k] (R181)
  ⟨0x0130, 8, 4, 1, 4, .single, [⟨0, 32, .rw, 0, false⟩]⟩,
  -- LKP_CNT[k] (R181)
  ⟨0x0200, 9, 4, 1, 4, .single, [⟨0, 32, .rc, 0, false⟩]⟩,
  -- LKP_RT_CNT[k] (R195)
  ⟨0x0240, 5, 4, 1, 4, .single, [⟨0, 32, .rc, 0, false⟩]⟩,
  -- LKP_DESC[t][k] (R161)
  ⟨0x8020, 1023, 32, 8, 4, .single, [⟨0, 32, .rw, 0, false⟩]⟩]

/-- The block-specific registers of the LRN page. -/
def lrnRegs : List RegDesc := [
  -- LRN_CFG (R182)
  ⟨0x0100, 1, 65536, 1, 4, .single, [⟨0, 1, .rw, 0, false⟩, ⟨4, 4, .rw, 4, false⟩, ⟨8, 4, .rw, 5, false⟩]⟩,
  -- LRN_SWEEP (R182)
  ⟨0x0104, 1, 65536, 1, 4, .single, [⟨0, 16, .rw, 2000, false⟩, ⟨16, 8, .rw, 150, false⟩, ⟨24, 1, .rw, 1, false⟩]⟩,
  -- LRN_QUEUE (R182)
  ⟨0x0108, 1, 65536, 1, 4, .single, [⟨0, 11, .ro, 0, false⟩, ⟨16, 11, .rc, 0, false⟩]⟩,
  -- LRN_EW_TABLE (R182)
  ⟨0x010C, 1, 65536, 1, 4, .single, [⟨0, 10, .rw, 0, false⟩]⟩,
  -- LRN_EVT_EN (R182)
  ⟨0x0110, 1, 65536, 1, 4, .single, [⟨0, 5, .rw, 20, false⟩]⟩,
  -- LRN_EVT_DEPTH (R182)
  ⟨0x0114, 1, 65536, 1, 4, .single, [⟨0, 10, .ro, 0, false⟩, ⟨16, 16, .rc, 0, false⟩]⟩,
  -- LRN_EVT[k] (R182)
  ⟨0x0120, 4, 4, 1, 4, .single, [⟨0, 32, .ro, 0, false⟩]⟩,
  -- LRN_EVT_POP (R182)
  ⟨0x0130, 1, 65536, 1, 4, .single, [⟨0, 1, .wo, 0, false⟩]⟩,
  -- LRN_CNT[k] (R182)
  ⟨0x0200, 10, 4, 1, 4, .single, [⟨0, 32, .rc, 0, false⟩]⟩]

/-- The block-specific registers of the ORD page. -/
def ordRegs : List RegDesc := [
  -- ORD_CFG (R113)
  ⟨0x0100, 1, 65536, 1, 4, .single, [⟨0, 1, .rw, 1, true⟩]⟩,
  -- ORD_SLOTS (R113)
  ⟨0x0104, 1, 65536, 1, 4, .single, [⟨0, 16, .ro, 0, false⟩, ⟨16, 16, .rc, 0, false⟩]⟩,
  -- ORD_FAR_CAP (R113)
  ⟨0x0108, 1, 65536, 1, 4, .single, [⟨0, 10, .rw, 256, false⟩]⟩,
  -- ORD_AGE_LIMIT (R113)
  ⟨0x010C, 1, 65536, 1, 4, .single, [⟨0, 14, .rw, 100, true⟩]⟩,
  -- ORD_READY (R113)
  ⟨0x0110, 1, 65536, 1, 4, .single, [⟨0, 20, .ro, 0, false⟩]⟩,
  -- ORD_CNT[k] (R113)
  ⟨0x0200, 12, 4, 1, 4, .single, [⟨0, 32, .rc, 0, false⟩]⟩,
  -- ORD_EPOCH (R157)
  ⟨0x0300, 1, 65536, 1, 4, .single, [⟨0, 1, .ro, 0, false⟩, ⟨1, 1, .wo, 0, false⟩]⟩,
  -- ORD_EPOCH_INFL[e] (R157)
  ⟨0x0304, 2, 4, 1, 4, .single, [⟨0, 16, .ro, 0, false⟩]⟩]

/-- The block-specific registers of the BPM page. -/
def bpmRegs : List RegDesc := [
  -- BPM_CELLS (R211)
  ⟨0x0100, 1, 65536, 1, 4, .single, [⟨0, 19, .ro, 0, false⟩]⟩,
  -- BPM_LOST (R211)
  ⟨0x0104, 1, 65536, 1, 4, .single, [⟨0, 32, .rc, 0, false⟩]⟩,
  -- BPM_FLUSH (R211)
  ⟨0x0108, 1, 65536, 1, 4, .single, [⟨0, 16, .rw, 2000, false⟩]⟩,
  -- BPM_QUOTA[r] (R211)
  ⟨0x0200, 16, 8, 1, 4, .single, [⟨0, 19, .rw, 0, true⟩]⟩,
  -- BPM_QUOTA[r] (R211)
  ⟨0x0204, 16, 8, 1, 4, .single, [⟨0, 19, .rw, 0, false⟩]⟩,
  -- BPM_USED[r] (R211)
  ⟨0x0300, 16, 4, 1, 4, .single, [⟨0, 19, .ro, 0, false⟩]⟩,
  -- BPM_REFUSE[r] (R211)
  ⟨0x0340, 16, 4, 1, 4, .single, [⟨0, 32, .rc, 0, false⟩]⟩,
  -- BPM_SPILL_PROF[p] (R211)
  ⟨0x0400, 16, 4, 1, 4, .single, [⟨0, 14, .rw, 256, false⟩, ⟨14, 14, .rw, 128, false⟩, ⟨31, 1, .rw, 0, false⟩]⟩,
  -- BPM_PG_BASE[h] (R211)
  ⟨0x0500, 2, 16, 1, 4, .single, [⟨0, 23, .rw, 0, true⟩]⟩,
  -- BPM_PG_LIMIT[h] (R211)
  ⟨0x0504, 2, 16, 1, 4, .single, [⟨0, 23, .rw, 0, true⟩]⟩,
  -- BPM_PG_RING[h] (R211)
  ⟨0x0508, 2, 16, 1, 4, .single, [⟨0, 23, .rw, 0, true⟩]⟩,
  -- BPM_PG_STAT[h] (R211)
  ⟨0x050C, 2, 16, 1, 4, .single, [⟨0, 23, .ro, 0, false⟩, ⟨31, 1, .ro, 0, false⟩]⟩,
  -- BPM_RX_DROP[n] (R211)
  ⟨0x0600, 8, 4, 1, 4, .single, [⟨0, 32, .rc, 0, false⟩]⟩,
  -- BPM_CNT[k] (R211)
  ⟨0x0700, 9, 4, 1, 4, .single, [⟨0, 32, .rc, 0, false⟩]⟩]

/-- The block-specific registers of the SWC page. -/
def swcRegs : List RegDesc := [
  -- SWC_POOL (R229)
  ⟨0x0100, 1, 65536, 1, 4, .single, [⟨0, 19, .rw, 196608, true⟩]⟩,
  -- SWC_POOL_USED (R229)
  ⟨0x0104, 1, 65536, 1, 4, .single, [⟨0, 19, .ro, 0, false⟩]⟩,
  -- SWC_ECN_SEED (R229)
  ⟨0x0108, 1, 65536, 1, 4, .single, [⟨0, 16, .rw, 44257, true⟩]⟩,
  -- SWC_PFC_THR (R229)
  ⟨0x010C, 1, 65536, 1, 4, .single, [⟨0, 16, .rw, 2048, false⟩, ⟨16, 16, .rw, 1536, false⟩]⟩,
  -- SWC_PFC_REFRESH (R229)
  ⟨0x0110, 1, 65536, 1, 4, .single, [⟨0, 16, .rw, 10000, false⟩]⟩,
  -- SWC_CT_EN[k] (R229)
  ⟨0x0120, 2, 4, 1, 4, .single, [⟨0, 32, .rw, 0, false⟩]⟩,
  -- SWC_BR_CELLS (R229)
  ⟨0x0130, 1, 65536, 1, 4, .low, [⟨0, 32, .ro, 0, false⟩]⟩,
  -- SWC_BR_CELLS (R229)
  ⟨0x0134, 1, 65536, 1, 4, .high, [⟨0, 32, .ro, 0, false⟩]⟩,
  -- SWC_CNT[k] (R229)
  ⟨0x0200, 8, 4, 1, 4, .single, [⟨0, 32, .rc, 0, false⟩]⟩,
  -- SWC_ADM_PROF[a] (R229)
  ⟨0x0400, 32, 16, 1, 4, .single, [⟨0, 16, .rw, 256, false⟩, ⟨16, 4, .rw, 8, false⟩, ⟨20, 4, .rw, 6, false⟩, ⟨24, 4, .rw, 4, false⟩]⟩,
  -- SWC_ADM_PROF[a] (R229)
  ⟨0x0404, 32, 16, 1, 4, .single, [⟨0, 16, .rw, 512, false⟩, ⟨16, 16, .rw, 4096, false⟩]⟩,
  -- SWC_ADM_PROF[a] (R229)
  ⟨0x0408, 32, 16, 1, 4, .single, [⟨0, 1, .rw, 0, false⟩, ⟨1, 1, .rw, 0, false⟩, ⟨2, 4, .rw, 3, false⟩, ⟨16, 16, .rw, 0, false⟩]⟩,
  -- SWC_PORT_STATE[n] (R229)
  ⟨0x0800, 64, 4, 1, 4, .single, [⟨0, 3, .ro, 0, false⟩, ⟨3, 1, .ro, 0, false⟩, ⟨16, 16, .ro, 0, false⟩]⟩,
  -- SWC_PFC_CFG[n] (R229)
  ⟨0x0900, 64, 4, 1, 4, .single, [⟨0, 1, .rw, 0, false⟩, ⟨1, 1, .rw, 0, false⟩, ⟨2, 3, .rw, 0, false⟩, ⟨8, 8, .rw, 0, false⟩, ⟨16, 16, .rw, 65535, false⟩]⟩,
  -- SWC_PFC_STAT[n] (R229)
  ⟨0x0A00, 64, 4, 1, 4, .single, [⟨0, 8, .ro, 0, false⟩, ⟨8, 8, .ro, 0, false⟩]⟩,
  -- SWC_DROP[n][k] (R229)
  ⟨0x1000, 64, 16, 4, 4, .single, [⟨0, 32, .rc, 0, false⟩]⟩,
  -- SWC_DROP_AUX[j][k] (R229)
  ⟨0x1400, 24, 16, 4, 4, .single, [⟨0, 32, .rc, 0, false⟩]⟩]

/-- The block-specific registers of the TM page. -/
def tmRegs : List RegDesc := [
  -- TM_PORT_RATE[i] (R247)
  ⟨0x0400, 152, 4, 1, 4, .single, [⟨0, 32, .rwl, 0, true⟩]⟩,
  -- TM_PORT_CFG[i] (R247)
  ⟨0x0700, 152, 4, 1, 4, .single, [⟨0, 16, .rw, 256, true⟩, ⟨16, 7, .rw, 10, true⟩, ⟨23, 1, .rw, 1, true⟩, ⟨24, 1, .rw, 0, true⟩, ⟨25, 1, .rw, 0, true⟩, ⟨26, 4, .rw, 0, true⟩]⟩,
  -- TM_GATE[n] (R247)
  ⟨0x0A00, 64, 16, 1, 4, .single, [⟨0, 9, .rw, 0, true⟩, ⟨16, 10, .rw, 0, true⟩]⟩,
  -- TM_GATE[n] (R247)
  ⟨0x0A04, 64, 16, 1, 4, .single, [⟨0, 32, .rw, 0, true⟩]⟩,
  -- TM_GATE[n] (R247)
  ⟨0x0A08, 64, 16, 1, 4, .single, [⟨0, 30, .rw, 0, true⟩]⟩,
  -- TM_GATE[n] (R247)
  ⟨0x0A0C, 64, 16, 1, 4, .single, [⟨0, 32, .rw, 0, true⟩]⟩,
  -- TM_RS[n] (R247)
  ⟨0x1000, 64, 16, 1, 4, .single, [⟨0, 32, .rw, 0, false⟩]⟩,
  -- TM_RS[n] (R247)
  ⟨0x1004, 64, 16, 1, 4, .single, [⟨0, 30, .rw, 0, false⟩]⟩,
  -- TM_RS[n] (R247)
  ⟨0x1008, 64, 16, 1, 4, .single, [⟨0, 32, .rw, 0, false⟩]⟩,
  -- TM_RS_CTL[n] (R247)
  ⟨0x100C, 64, 16, 1, 4, .single, [⟨0, 1, .wo, 0, false⟩, ⟨1, 1, .wo, 0, false⟩, ⟨2, 2, .ro, 0, false⟩, ⟨4, 2, .ro, 0, false⟩]⟩,
  -- TM_PORT_CNT[n][k] (R247)
  ⟨0x1800, 64, 16, 4, 4, .single, [⟨0, 32, .rc, 0, false⟩]⟩,
  -- TM_CNT[k] (R247)
  ⟨0x1C00, 4, 4, 1, 4, .single, [⟨0, 32, .rc, 0, false⟩]⟩,
  -- TM_GCE[b][e] (R247)
  ⟨0x4000, 2, 2048, 512, 4, .single, [⟨0, 8, .rw, 0, false⟩, ⟨8, 24, .rw, 0, false⟩]⟩]

/-- The block-specific registers of the HBM page. -/
def hbmRegs : List RegDesc := [
  -- HBM_CFG (R311)
  ⟨0x0100, 1, 65536, 1, 4, .single, [⟨0, 2, .rwl, 3, true⟩, ⟨4, 3, .rwl, 4, true⟩, ⟨8, 1, .rw, 1, false⟩, ⟨9, 1, .rw, 1, false⟩, ⟨10, 1, .rw, 0, true⟩]⟩,
  -- HBM_STAT (R311)
  ⟨0x0104, 1, 65536, 1, 4, .single, [⟨0, 1, .ro, 0, false⟩, ⟨1, 1, .ro, 0, false⟩, ⟨2, 2, .ro, 0, false⟩, ⟨4, 1, .ro, 0, false⟩, ⟨5, 1, .ro, 0, false⟩]⟩,
  -- HBM_TEMP (R311)
  ⟨0x0108, 1, 65536, 1, 4, .single, [⟨0, 8, .ro, 0, false⟩, ⟨8, 8, .rw, 95, false⟩, ⟨16, 8, .rw, 100, false⟩]⟩,
  -- HBM_PAGE (R311)
  ⟨0x010C, 1, 65536, 1, 4, .single, [⟨0, 8, .rw, 60, false⟩, ⟨8, 8, .rw, 16, false⟩]⟩,
  -- HBM_MIG (R311)
  ⟨0x0110, 1, 65536, 1, 4, .single, [⟨0, 8, .rw, 200, false⟩]⟩,
  -- HBM_CE_RET (R311)
  ⟨0x0114, 1, 65536, 1, 4, .single, [⟨0, 16, .rw, 1000, false⟩, ⟨16, 16, .rw, 3600, false⟩]⟩,
  -- HBM_SCRUB (R311)
  ⟨0x0118, 1, 65536, 1, 4, .single, [⟨0, 8, .rw, 24, false⟩]⟩,
  -- HBM_RETRAIN (R311)
  ⟨0x011C, 1, 65536, 1, 4, .single, [⟨0, 16, .rw, 100, false⟩]⟩,
  -- HBM_STOP_LIMIT (R311)
  ⟨0x0120, 1, 65536, 1, 4, .single, [⟨0, 16, .rw, 50, false⟩]⟩,
  -- HBM_CNT_BASE (R311)
  ⟨0x0124, 1, 65536, 1, 4, .single, [⟨0, 19, .rw, 0, true⟩, ⟨31, 1, .rw, 0, true⟩]⟩,
  -- HBM_CNTR_IDX (R311)
  ⟨0x0128, 1, 65536, 1, 4, .single, [⟨0, 24, .rw, 0, false⟩]⟩,
  -- HBM_CNTR_CMD (R311)
  ⟨0x012C, 1, 65536, 1, 4, .single, [⟨0, 1, .wo, 0, false⟩, ⟨1, 1, .wo, 0, false⟩]⟩,
  -- HBM_CNTR_STAT (R311)
  ⟨0x0130, 1, 65536, 1, 4, .single, [⟨0, 1, .ro, 0, false⟩, ⟨1, 1, .ro, 0, false⟩, ⟨2, 1, .ro, 0, false⟩, ⟨3, 3, .ro, 0, false⟩]⟩,
  -- HBM_CNTR_PKTS (R311)
  ⟨0x0138, 1, 65536, 1, 4, .low, [⟨0, 32, .ro, 0, false⟩]⟩,
  -- HBM_CNTR_PKTS (R311)
  ⟨0x013C, 1, 65536, 1, 4, .high, [⟨0, 32, .ro, 0, false⟩]⟩,
  -- HBM_CNTR_BYTES (R311)
  ⟨0x0140, 1, 65536, 1, 4, .low, [⟨0, 32, .ro, 0, false⟩]⟩,
  -- HBM_CNTR_BYTES (R311)
  ⟨0x0144, 1, 65536, 1, 4, .high, [⟨0, 32, .ro, 0, false⟩]⟩,
  -- HBM_RMAP_CFG[p] (R311)
  ⟨0x0200, 32, 4, 1, 4, .single, [⟨0, 5, .rw, 0, true⟩, ⟨5, 2, .rw, 0, true⟩]⟩,
  -- HBM_QOS[k] (R311)
  ⟨0x0300, 8, 4, 1, 4, .single, [⟨0, 24, .rw, 0, false⟩]⟩,
  -- HBM_QOS_LATE[k] (R311)
  ⟨0x0340, 8, 4, 1, 4, .single, [⟨0, 32, .rc, 0, false⟩]⟩,
  -- HBM_CNT[k] (R311)
  ⟨0x0400, 12, 4, 1, 4, .single, [⟨0, 32, .rc, 0, false⟩]⟩]

/-- The block-specific registers of the PEAL page. -/
def pealRegs : List RegDesc := [
  -- PEAL_QUEUE (R259)
  ⟨0x0100, 1, 65536, 1, 4, .single, [⟨0, 9, .ro, 0, false⟩, ⟨16, 9, .rc, 0, false⟩]⟩,
  -- PEAL_FENCE (R259)
  ⟨0x0104, 1, 65536, 1, 4, .single, [⟨0, 1, .wo, 0, false⟩, ⟨1, 1, .ro, 0, false⟩]⟩,
  -- PEAL_MEM_IDX (R259)
  ⟨0x0110, 1, 65536, 1, 4, .single, [⟨0, 19, .rw, 0, false⟩, ⟨20, 1, .rw, 0, false⟩]⟩,
  -- PEAL_MEM_DATA[k] (R259)
  ⟨0x0120, 9, 4, 1, 4, .single, [⟨0, 32, .rw, 0, false⟩]⟩,
  -- PEAL_MEM_CMD (R259)
  ⟨0x0148, 1, 65536, 1, 4, .single, [⟨0, 1, .wo, 0, false⟩, ⟨1, 1, .wo, 0, false⟩]⟩,
  -- PEAL_CNT[k] (R259)
  ⟨0x0200, 13, 4, 1, 4, .single, [⟨0, 32, .rc, 0, false⟩]⟩]

/-- The block-specific registers of the CAR page. -/
def carRegs : List RegDesc := [
  -- CAR_CFG (R288)
  ⟨0x0100, 1, 65536, 1, 4, .single, [⟨0, 8, .rw, 64, false⟩]⟩,
  -- CAR_HELD (R288)
  ⟨0x0104, 1, 65536, 1, 4, .single, [⟨0, 19, .ro, 0, false⟩]⟩,
  -- CAR_GLB_CNT[k] (R288)
  ⟨0x0200, 4, 4, 1, 4, .single, [⟨0, 32, .rc, 0, false⟩]⟩,
  -- CAR_CNT[t][k] (R288)
  ⟨0x1000, 16, 32, 8, 4, .single, [⟨0, 32, .rc, 0, false⟩]⟩]

/-- The block-specific registers of the ELI page. -/
def eliRegs : List RegDesc := [
  -- ELI_MINE (R289)
  ⟨0x0100, 1, 65536, 1, 4, .single, [⟨0, 1, .rw, 1, false⟩, ⟨1, 3, .rw, 4, false⟩, ⟨16, 16, .rw, 1000, false⟩]⟩,
  -- ELI_MINE_THR (R289)
  ⟨0x0104, 1, 65536, 1, 4, .single, [⟨0, 32, .rw, 1000000, false⟩]⟩,
  -- ELI_PROP_DEPTH (R289)
  ⟨0x0108, 1, 65536, 1, 4, .single, [⟨0, 7, .ro, 0, false⟩, ⟨16, 16, .rc, 0, false⟩]⟩,
  -- ELI_PROP[k] (R289)
  ⟨0x0110, 4, 4, 1, 4, .single, [⟨0, 32, .ro, 0, false⟩]⟩,
  -- ELI_PROP_POP (R289)
  ⟨0x0120, 1, 65536, 1, 4, .single, [⟨0, 1, .wo, 0, false⟩]⟩,
  -- ELI_GLB_CNT[k] (R289)
  ⟨0x0200, 4, 4, 1, 4, .single, [⟨0, 32, .rc, 0, false⟩]⟩,
  -- ELI_FORBID[k] (R289)
  ⟨0x0400, 256, 8, 1, 4, .single, [⟨0, 1, .rw, 0, false⟩, ⟨1, 4, .rw, 0, false⟩]⟩,
  -- ELI_FORBID[k] (R289)
  ⟨0x0404, 256, 8, 1, 4, .single, [⟨0, 32, .rw, 0, false⟩]⟩,
  -- ELI_CNT[t][k] (R289)
  ⟨0x1000, 16, 32, 8, 4, .single, [⟨0, 32, .rc, 0, false⟩]⟩]

/-- The block-specific registers of the ULX page, part 1. -/
def ulxRegs1 : List RegDesc := [
  -- ULX_STRAP (R386)
  ⟨0x0100, 1, 65536, 1, 4, .single, [⟨0, 2, .ro, 0, false⟩]⟩,
  -- ULX_CFG (R386)
  ⟨0x0104, 1, 65536, 1, 4, .single, [⟨0, 4, .rw, 0, true⟩, ⟨4, 6, .rw, 0, true⟩]⟩,
  -- ULX_LINK (R386)
  ⟨0x0108, 1, 65536, 1, 4, .single, [⟨0, 16, .rw, 2000, false⟩, ⟨16, 4, .rw, 4, false⟩]⟩,
  -- ULX_TXN_TMO (R386)
  ⟨0x010C, 1, 65536, 1, 4, .single, [⟨0, 16, .rw, 1000, false⟩]⟩,
  -- ULX_RSQ (R386)
  ⟨0x0110, 1, 65536, 1, 4, .single, [⟨0, 16, .rw, 5000, false⟩]⟩,
  -- ULX_PEER_HOLD (R386)
  ⟨0x0114, 1, 65536, 1, 4, .single, [⟨0, 14, .rw, 100, false⟩]⟩,
  -- ULX_CRED (R386)
  ⟨0x0118, 1, 65536, 1, 4, .single, [⟨0, 32, .rw, 538992736, true⟩]⟩,
  -- ULX_REACH (R386)
  ⟨0x011C, 1, 65536, 1, 4, .single, [⟨0, 4, .ro, 0, false⟩, ⟨4, 4, .ro, 0, false⟩]⟩,
  -- ULX_WIN_COMMIT (R386)
  ⟨0x0120, 1, 65536, 1, 4, .single, [⟨0, 1, .wo, 0, false⟩, ⟨1, 1, .ro, 0, false⟩, ⟨2, 1, .ro, 0, false⟩]⟩,
  -- ULX_PORT_RETRAIN (R386)
  ⟨0x0124, 1, 65536, 1, 4, .single, [⟨0, 8, .wo, 0, false⟩]⟩,
  -- ULX_PATTERN[k] (R386)
  ⟨0x0200, 4, 4, 1, 4, .single, [⟨0, 32, .rw, 2223277188, true⟩]⟩,
  -- ULX_QMAP[k] (R386)
  ⟨0x0300, 8, 16, 1, 4, .single, [⟨0, 17, .rw, 0, true⟩, ⟨31, 1, .rw, 0, false⟩]⟩,
  -- ULX_QMAP[k] (R386)
  ⟨0x0304, 8, 16, 1, 4, .single, [⟨0, 18, .rw, 0, false⟩]⟩,
  -- ULX_QMAP[k] (R386)
  ⟨0x0308, 8, 16, 1, 4, .single, [⟨0, 17, .rw, 0, false⟩, ⟨17, 2, .rw, 0, false⟩, ⟨19, 1, .rw, 0, false⟩]⟩,
  -- ULX_TXN[s] (R386)
  ⟨0x0400, 4, 16, 1, 4, .single, [⟨0, 1, .wo, 0, false⟩, ⟨1, 2, .rw, 0, false⟩, ⟨3, 1, .rw, 0, false⟩, ⟨4, 2, .rw, 0, false⟩]⟩,
  -- ULX_TXN[s] (R386)
  ⟨0x0404, 4, 16, 1, 4, .single, [⟨0, 32, .rw, 0, false⟩]⟩,
  -- ULX_TXN[s] (R386)
  ⟨0x0408, 4, 16, 1, 4, .single, [⟨0, 32, .rw, 0, false⟩]⟩,
  -- ULX_TXN[s] (R386)
  ⟨0x040C, 4, 16, 1, 4, .single, [⟨0, 1, .ro, 0, false⟩, ⟨1, 1, .ro, 0, false⟩, ⟨2, 1, .ro, 0, false⟩, ⟨3, 1, .ro, 0, false⟩, ⟨4, 4, .ro, 0, false⟩]⟩,
  -- ULX_WIN[w] (R386)
  ⟨0x0500, 8, 16, 1, 4, .single, [⟨0, 1, .rw, 0, false⟩, ⟨1, 1, .rw, 0, false⟩, ⟨2, 1, .rw, 0, false⟩, ⟨4, 4, .rw, 0, false⟩]⟩,
  -- ULX_WIN[w] (R386)
  ⟨0x0504, 8, 16, 1, 4, .single, [⟨0, 13, .rw, 0, false⟩, ⟨16, 14, .rw, 0, false⟩]⟩,
  -- ULX_WIN[w] (R386)
  ⟨0x0508, 8, 16, 1, 4, .single, [⟨0, 13, .rw, 0, false⟩]⟩,
  -- ULX_PORT_STAT[i] (R386)
  ⟨0x0800, 8, 4, 1, 4, .single, [⟨0, 3, .ro, 0, false⟩, ⟨3, 2, .ro, 0, false⟩, ⟨5, 4, .ro, 0, false⟩]⟩,
  -- ULX_PORT_CNT[i][k] (R386)
  ⟨0x0900, 8, 16, 4, 4, .single, [⟨0, 32, .rc, 0, false⟩]⟩,
  -- ULX_PEER_CNT[e][k] (R386)
  ⟨0x0A00, 4, 32, 8, 4, .single, [⟨0, 32, .rc, 0, false⟩]⟩]

/-- The block-specific registers of the ULX page, part 2. -/
def ulxRegs2 : List RegDesc := [
  -- ULX_CNT[k] (R386)
  ⟨0x0B00, 4, 4, 1, 4, .single, [⟨0, 32, .rc, 0, false⟩]⟩]

/-- The block-specific registers of the ULX page. -/
def ulxRegs : List RegDesc := ulxRegs1 ++ ulxRegs2

/-- The block-specific registers of the ENG page. -/
def engRegs : List RegDesc := [
  -- ENG_CFG (R112)
  ⟨0x0100, 1, 65536, 1, 4, .single, [⟨0, 1, .rw, 1, false⟩, ⟨1, 1, .rw, 1, false⟩, ⟨2, 3, .rw, 2, false⟩, ⟨8, 4, .rw, 2, false⟩]⟩,
  -- ENG_STEAL_THR (R112)
  ⟨0x0104, 1, 65536, 1, 4, .single, [⟨0, 6, .rw, 8, false⟩, ⟨8, 6, .rw, 24, false⟩]⟩,
  -- ENG_BUDGET (R112)
  ⟨0x0108, 1, 65536, 1, 4, .single, [⟨0, 16, .rw, 4096, true⟩]⟩,
  -- ENG_QUEUE (R112)
  ⟨0x010C, 1, 65536, 1, 4, .single, [⟨0, 6, .ro, 0, false⟩, ⟨16, 6, .rc, 0, false⟩]⟩,
  -- ENG_THREADS (R112)
  ⟨0x0110, 1, 65536, 1, 4, .single, [⟨0, 8, .ro, 128, false⟩, ⟨8, 8, .ro, 0, false⟩, ⟨16, 8, .ro, 0, false⟩, ⟨24, 8, .ro, 0, false⟩]⟩,
  -- ENG_ISSUE (R112)
  ⟨0x0120, 1, 65536, 1, 4, .low, [⟨0, 32, .ro, 0, false⟩]⟩,
  -- ENG_ISSUE (R112)
  ⟨0x0124, 1, 65536, 1, 4, .high, [⟨0, 32, .ro, 0, false⟩]⟩,
  -- ENG_CNT[k] (R112)
  ⟨0x0130, 8, 4, 1, 4, .single, [⟨0, 32, .rc, 0, false⟩]⟩,
  -- ENG_THR_STATE[e] (R112)
  ⟨0x0200, 16, 4, 1, 4, .single, [⟨0, 24, .ro, 0, false⟩]⟩,
  -- ENG_DBG_CTL (R140)
  ⟨0x0300, 1, 65536, 1, 4, .single, [⟨0, 1, .rw, 0, false⟩, ⟨1, 1, .wo, 0, false⟩, ⟨8, 4, .rw, 0, false⟩, ⟨12, 3, .rw, 0, false⟩, ⟨16, 1, .wo, 0, false⟩, ⟨17, 2, .wo, 0, false⟩]⟩,
  -- ENG_DBG_STAT (R140)
  ⟨0x0304, 1, 65536, 1, 4, .single, [⟨0, 1, .ro, 0, false⟩, ⟨16, 8, .ro, 0, false⟩]⟩,
  -- ENG_DBG_ADDR (R140)
  ⟨0x0308, 1, 65536, 1, 4, .single, [⟨0, 2, .rw, 0, false⟩, ⟨8, 5, .rw, 0, false⟩]⟩,
  -- ENG_DBG_DATA (R140)
  ⟨0x0310, 1, 65536, 1, 4, .low, [⟨0, 32, .rw, 0, false⟩]⟩,
  -- ENG_DBG_DATA (R140)
  ⟨0x0314, 1, 65536, 1, 4, .high, [⟨0, 32, .rw, 0, false⟩]⟩,
  -- ENG_CS_CNT (R140)
  ⟨0x0318, 1, 65536, 1, 4, .single, [⟨0, 16, .rc, 0, false⟩, ⟨16, 16, .rc, 0, false⟩]⟩,
  -- ENG_IMG_CTL (R158)
  ⟨0x0400, 1, 65536, 1, 4, .single, [⟨0, 1, .wo, 0, false⟩]⟩,
  -- ENG_IMG_STAT (R158)
  ⟨0x0404, 1, 65536, 1, 4, .single, [⟨0, 1, .ro, 0, false⟩, ⟨1, 1, .ro, 0, false⟩, ⟨4, 8, .ro, 0, false⟩]⟩,
  -- ENG_IMG_TAG (R158)
  ⟨0x0408, 1, 65536, 1, 4, .low, [⟨0, 32, .ro, 0, false⟩]⟩,
  -- ENG_IMG_TAG (R158)
  ⟨0x040C, 1, 65536, 1, 4, .high, [⟨0, 32, .ro, 0, false⟩]⟩,
  -- ENG_IMG_ENTRY (R158)
  ⟨0x0410, 1, 65536, 1, 4, .single, [⟨0, 14, .ro, 0, false⟩, ⟨16, 14, .ro, 0, false⟩]⟩,
  -- ENG_IMG_TRAP (R158)
  ⟨0x0414, 1, 65536, 1, 4, .single, [⟨0, 14, .ro, 0, false⟩]⟩,
  -- ENG_IMG_HDR[k] (R158)
  ⟨0x0500, 80, 4, 1, 4, .single, [⟨0, 32, .rw, 0, false⟩]⟩,
  -- ENG_IMG_SIG[k] (R158)
  ⟨0x0700, 64, 4, 1, 4, .single, [⟨0, 32, .rw, 0, false⟩]⟩]

end Sys2Proof.Machine
end

