-- ==== Sys2Proof/Machine/State.lean ====
section
/-! DEFINITION. The state of the block, its fault and refusal reasons, and the state after reset. -/

namespace Sys2Proof.Machine

/-- Reasons a step stops with a fault. No command of the block raises one: the spec gives every wrong access an answer. -/
inductive Fault where
  /-- Raised by nothing; it keeps the type inhabited. Safe. -/
  | none
  deriving DecidableEq, Repr

/-- Reasons a command is refused. -/
inductive Refusal where
  /-- Raised by `Machine/Dispatch.lean` alone, for a command whose meaning is not written yet. Safe: nothing runs. -/
  | notModelled (mnemonic : String)
  deriving DecidableEq, Repr

/-- What leaves the block, in order (the MODEL's own record of its outputs; the spec's own outputs, one constructor each). -/
inductive Out where
  /-- An MSI-X message (R36): vector, address, data. -/
  | msix (vector addr data : Nat)
  /-- The completion data of a host or peer register or window read. -/
  | readData (value : Word)
  /-- A frame sent on a network port, FCS included (R82). -/
  | frame (port : Nat) (bytes : List Byte)
  /-- A PFC frame sent on a port for one priority with this time (R220). -/
  | pfc (port prio time : Nat)
  /-- A write of the device to host memory (R347), with Relaxed Ordering and ID-Based Ordering (R351). -/
  | hostWrite (addr : Nat) (bytes : List Byte) (relaxed ido : Bool)
  /-- A read request of the device to host memory (R347): tag, address, bytes asked for. -/
  | hostRead (tag addr len : Nat)
  /-- A cell sent on a Ulux port (R370). -/
  | ulxCell (port : Nat) (cell : List Byte)
  /-- Link training restarts on a Ulux port (R372). -/
  | ulxTrain (port : Nat)
  /-- A transaction on a module's two-wire bus (R333): master, cage, write, page, bank, address, length and the bytes written.
  One that reaches upper memory, address 128 and up, begins with the writes of the bank and page select bytes 126 and 127. -/
  | modBus (master cage : Nat) (write : Bool) (page bank addr len : Nat) (bytes : List Byte)
  /-- Nine clocks and a stop on a master's bus, as it abandons an attempt (R334). -/
  | modRecover (master : Nat)
  /-- An error reported through PCIe AER (R348). -/
  | aer (code : Nat)
  deriving DecidableEq, Repr

/-- The register store. Keys are page * 0x1_0000 + offset. -/
structure Csr where
  /-- What the host reads back; an unlisted register reads as its reset value. -/
  words : Map Word
  /-- The applied value of each shadowed register that holds an unapplied write (R70). -/
  inForce : Map Word
  /-- The latch of each register pair whose low word has been read (R6), by the low word's key; words 1–3 of TIME_NOW by their
  own keys (R330). -/
  latches : Map Word
  /-- The held low word of each register pair (R6), by the low word's key. -/
  held : Map Word
  deriving DecidableEq, Repr

/-- The MSI-X structures of BAR4 (R34). -/
structure Msix where
  /-- Table words: key 4 * vector + k. An unlisted word 3 reads 1, the PCIe-defined mask bit set. -/
  table : Map Word
  /-- The pending-bit array: the vectors whose bit is set. -/
  pba : Map Bool
  deriving DecidableEq, Repr

/-- One entry window (R32, R33). -/
structure EntryWindow where
  target : Word
  index : Word
  busy : Bool
  done : Bool
  error : Bool
  code : Nat
  bytes : Nat
  /-- The operation in progress, 1 READ or 2 WRITE. -/
  op : Nat
  /-- Responses still to come from targets that did not answer in time (R33 step 4). -/
  late : Nat
  /-- EW_DATA, word k at key k. -/
  data : Map Word
  deriving DecidableEq, Repr

/-- The control stores (R29): key cluster * 16384 + address. -/
structure Cs where
  words : Map (BitVec 192)
  /-- Held words 0–4: key (cluster * 16384 + address) * 8 + k. -/
  held : Map (Option Word)
  /-- The latch of a microword whose word 0 has been read. -/
  latch : Map (Option (BitVec 192))
  /-- Microwords that read as uncorrectable until the host rewrites them (R117), by the key of `words`. -/
  bad : Map Bool
  deriving DecidableEq, Repr

/-- The trust anchors of R149 in SVC_IMG_POLICY, SVC_KEY_EN and SVC_KEY_HASH, which live in the service island's memory. -/
structure Trust where
  sigReq : Bool
  lock : Bool
  keyEn : Nat
  /-- SVC_KEY_HASH[s][k] at key 16 * s + k. -/
  keyHash : Map Word
  deriving DecidableEq, Repr

/-- The event log of the ERR page (R388–R390). -/
structure ErrLog where
  /-- The ring, oldest record first, eight words a record. -/
  ring : List (List Word)
  /-- The latched oldest record of R390. -/
  latch : Option (List Word)
  /-- The microsecond, plus one, of each cluster's last TRAP_END or THREAD_UE record (R390). -/
  trapUs : Map Nat
  /-- The scrubber has visited a word since its last completed pass (R392). -/
  visited : Bool
  deriving DecidableEq, Repr

/-- Inputs, conversion, the domain sequencer, temperatures and clocks outside the registers of R58 and R59. -/
structure Power where
  /-- VSTBY is within 3.3 V ± 5% (R38). -/
  standbyOk : Bool
  /-- SYS_RST_N is low (R411). -/
  rstLow : Bool
  /-- The service island runs (R38). -/
  island : Bool
  /-- UX_ID0 and UX_ID1 as sampled when the island started (R367). -/
  uxId : Nat
  /-- The main input is valid (R37). -/
  vinValid : Bool
  /-- The first stage is commanded on (R39 step 1). -/
  stage1 : Bool
  /-- The 6 V bus is in regulation (R39 step 2). -/
  bus : Bool
  /-- The main input was lost and has not yet returned (PWR INT_STAT.BLK bit 4). -/
  lossSeen : Bool
  /-- The domain the sequencer works on (R47). -/
  current : Option Nat
  /-- Switch-offs that wait for the sequencer. -/
  offQueue : List Nat
  /-- Ramps that wait for the sequencer. -/
  onQueue : List Nat
  /-- For each accepted write of PWR_DOM_REQ, the domains whose change has not completed (R49). -/
  changes : List (List Nat)
  /-- A thermal trip of R45 is in force. -/
  trip : Bool
  /-- THERM_N is driven low (R412). -/
  thermLow : Bool
  /-- The times of the last PD29 faults, newest first, in ns of the model's clock (R51). -/
  pd29Faults : List Nat
  /-- The reference has returned and the root PLL slews to it (R57). -/
  refSlewing : Bool
  /-- Nanoseconds of holdover not yet in CLK_HOLD_TIME's microseconds. -/
  holdNs : Nat
  /-- TCLK cycles since the island started: the model's clock, advanced by idle steps. -/
  clock : Nat
  deriving DecidableEq, Repr

/-- Mode transitions and function control outside the registers of R21 and R78. -/
structure Modes where
  /-- The mode the running transition came from (R77). -/
  origin : Nat
  /-- Functions the device has still to start or stop, in order (R64). -/
  plan : List Nat
  /-- The transition is stopping the traffic set (R415). -/
  stopping : Bool
  /-- Functions started in this transition (R77). -/
  started : List Nat
  /-- A transition to FORWARD has failed and is being undone (R77). -/
  failed : Bool
  /-- The stop in progress is a flushing stop (R75). -/
  flushing : Bool
  deriving DecidableEq, Repr

/-- A packet inside the device: its chain of cells and what travels with it. -/
structure Pkt where
  /-- First cell of the chain (R196). -/
  first : Nat
  /-- Cell 0 of the frame as received, which holds the owner fields (R199). -/
  owner : Nat
  /-- Length in bytes without FCS (R152). -/
  len : Nat
  /-- FRAME_LEN as received, FCS included (R82). -/
  flen : Nat
  /-- INPORT (R88). -/
  inport : Nat
  /-- The PG through which the head entered intake, and the index of its PG_PORT_ACT entry (R104). -/
  pg : Nat
  lane : Nat
  /-- PFC priority at receive, and whether the cells are charged to PFC counts (R220). -/
  prio : Nat
  pfc : Bool
  deriving DecidableEq, Repr

/-- A head with its packet, from the intake queue to a thread (R84, R98, R100, R154). -/
structure Head where
  pkt : Pkt
  /-- The 256 head bytes. -/
  bytes : List Byte
  /-- The 64 metadata bytes; on a first pass the parse record of R88. -/
  md : List Byte
  /-- Issuing ORD (die), slot, ticket and captured epoch (R100, R155). -/
  ord : Nat
  slot : Nat
  /-- Its ordering domain: INPORT * 4096 + FLOW_HASH[11:0]. -/
  dom : Nat
  ticket : Nat
  epoch : Nat
  pass2 : Bool
  issues : Nat
  deriving DecidableEq, Repr

/-- A head that has its intake place and waits for the parser (R84); `nxt` is the first header of a restored head (R87). -/
structure RawHead where
  pkt : Pkt
  bytes : List Byte
  sec : Nat
  ns : Nat
  nxt : Option Nat
  deriving DecidableEq, Repr

/-- A frame that is still arriving at a port (R14). -/
structure RxFrame where
  /-- Cell 0 of the frame. -/
  owner : Nat
  /-- The frame will end with a bad FCS: as received, or by R82, R203. -/
  bad : Bool
  deriving DecidableEq, Repr

/-- The queues of one port group (R84, R110). -/
structure PortGroup where
  parsing : List RawHead
  intake : List Head
  recirc : List Head
  /-- The head at the front of intake has been counted as held for lack of a slot (R100). -/
  heldCounted : Bool
  /-- MAC control frames that are still arriving: lane, bytes, and whether the frame is marked bad (R81, R82). -/
  macFrames : List (Nat × List Byte × Bool)
  /-- MODE, PG_PORT_EN bit, MEDIUM and PG_LANE_CFG of each lane as they were applied at the last start: what the trained links of
  the group were trained with (R80, R81). -/
  trained : List Nat
  deriving DecidableEq, Repr

/-- A cell state entry (R196). `vb` is the number of valid bytes less one. -/
structure CellEntry where
  next : Nat
  last : Bool
  sh : Bool
  vb : Nat
  req : Nat
  alloc : Bool
  own : Nat
  fin : Bool
  /-- The scrubber found the entry uncorrectable (R394): the walk of R201 ends at it. -/
  ue : Bool
  deriving DecidableEq, Repr

/-- A requester that waits for a cell after a refusal (R203): what it resumes with. -/
inductive CellWait where
  /-- Requester 8: the ended pass of this thread waits for its rewrite cell (R198). -/
  | rewrite (thread : Nat)
  /-- Requester 9: the walk of this die's Peal engine waits for an edit cell (R252). -/
  | edit (die : Nat)
  /-- Requester 11: this queue's recall waits (R209), with the 32-bit words of its page that read as uncorrectable. -/
  | recall (queue : Nat) (bad : List Nat)
  /-- Requester 12: this channel's inject waits. -/
  | inject (ch : Nat)
  /-- Requester 13: Ulux receive withholds credits. -/
  | ulux
  /-- Requester 14: the restore of this trunk's next frame waits (R278). -/
  | restore (trunk : Nat)
  deriving DecidableEq, Repr

/-- The cell pool of one die (R202). -/
structure Bpm where
  /-- The next index of the rebuilt ring that has not been taken; 262,144 when all have. -/
  fresh : Nat
  /-- Freed indices in the ring, behind the fresh ones, oldest first. -/
  freed : List Nat
  /-- The allocation cache of each requester. -/
  caches : Map (List Nat)
  /-- The cell free cache. -/
  freeCache : List Nat
  /-- Requesters that wait for a cell, with what they resume. -/
  waits : List (Nat × CellWait)
  deriving DecidableEq, Repr

/-- The page ring and page caches of one stack (R202, R206, R208); the ring's pointers are in HBM, at BPM_PG_RING. -/
structure PageRing where
  /-- The ring's entry with the oldest pointer, and how many entries from there on hold one. -/
  head : Nat
  count : Nat
  /-- The allocation cache and the free cache, oldest first. -/
  cache : List Nat
  freed : List Nat
  /-- The page allocation bitmap. -/
  allocated : Map Bool
  /-- The region is valid and awaits its ring (R208). -/
  valid : Bool
  deriving DecidableEq, Repr

/-- A queue entry (R213). -/
structure QEnt where
  first : Nat
  len : Nat
  owner : Nat
  color : Nat
  enqNs : Nat
  srcDie : Nat
  inPort : Nat
  prio : Nat
  ce : Bool
  shared : Bool
  final : Bool
  ct : Bool
  pfc : Bool
  /-- Cells the entry is charged with in CNT_d(q) (R214). -/
  cells : Nat
  /-- Member frames: shim bytes 0–6, and for a message its body (R263, R279); empty otherwise. -/
  lead : List Byte
  /-- Leading packet bytes that the member frame does not carry (R276, R277). -/
  skip : Nat
  /-- The entry is a marker or a message and holds no packet (R270). -/
  ctl : Bool
  deriving DecidableEq, Repr

/-- A packet recorded in a page (R207). -/
structure PageRec where
  slot : Nat
  ent : QEnt
  deriving DecidableEq, Repr

/-- One page of a queue's HBM segment (R207, R209). The open page is still in the writer. -/
structure Page where
  ptr : Nat
  slots : Nat
  recs : List PageRec
  /-- Packet bytes by slot while the page is in the writer. -/
  data : List Byte
  written : Bool
  recalling : Bool
  /-- Its stack's domain was lost with the page in it (R298). -/
  lost : Bool
  deriving DecidableEq, Repr

/-- A token bucket (R236): tokens in 1/65,536 byte. -/
structure Bucket where
  tokens : Int
  last : Nat
  /-- Remainder of the last refill, in 1/8,000,000 of a token (R236: the fraction carries forward). -/
  frac : Nat
  full : Bool
  paused : Bool
  deriving DecidableEq, Repr

/-- Start and finish tag of one child, and whether it was selectable when last judged (R235). -/
structure Tag where
  s : Nat
  f : Nat
  sel : Bool
  deriving DecidableEq, Repr

/-- A queue (R209, R232). -/
structure Queue where
  w0 : Word
  w1 : Word
  w2 : Word
  w3 : Word
  /-- The on-chip segment. -/
  ents : List QEnt
  /-- The HBM segment, first page first. -/
  seg : List Page
  /-- A packet whose earlier pages have been recalled: its entry and the bytes so far. -/
  partly : Option (QEnt × List Byte)
  /-- Packets bound for the HBM segment that wait in the writer (R209). -/
  writer : List QEnt
  bucket : Bucket
  /-- R394 m = 6. -/
  faulted : Bool
  deriving DecidableEq, Repr

/-- A shaping node (R233). -/
structure Node where
  w0 : Word
  w1 : Word
  w2 : Word
  w3 : Word
  bucket : Bucket
  faulted : Bool
  deriving DecidableEq, Repr

/-- The applied gate list of a port (R240, R242). -/
structure Gate where
  base : Nat
  /-- (GATES, DUR_NS) of each entry, which together fill one cycle. -/
  entries : List (Nat × Nat)
  /-- Index of the entry in force; none before the first cycle. -/
  idx : Option Nat
  /-- When the entry in force began. -/
  began : Nat
  deriving DecidableEq, Repr

/-- A committed rate-schedule entry (R243): rate and application time in ns. -/
structure RsEntry where
  rate : Nat
  time : Int
  deriving DecidableEq, Repr

/-- The traffic managers of both dies. -/
structure Tm where
  queues : Map Queue
  nodes : Map Node
  ports : Map Bucket
  /-- Tags: queues at q, classes at 200,000 + 8 * node + class, nodes at 400,000 + node. -/
  tags : Map Tag
  /-- Virtual time of each level: classes at 200,000 + 8 * node + class, nodes at 400,000 + node, ports at 500,000 + port. -/
  vtime : Map Nat
  /-- The fine wheel: slot of die d at 4096 * d + slot. Entities are coded as in `tags`, ports at 500,000 + port. -/
  fine : Map (List Nat)
  coarse : Map (List Nat)
  gates : Map (Option Gate)
  rs : Map (Option RsEntry)
  /-- With GAP_FILL = 0: ports on which no frame starts until this class's window closes (R241). -/
  blocked : Map (Option Nat)
  deriving DecidableEq, Repr

/-- A packet offered to admission (R216). -/
structure Offer where
  queue : Nat
  color : Nat
  pkt : Pkt
  shared : Bool
  final : Bool
  /-- The Peal reason counters to charge (R256): group counting base plus one, 0 for none. -/
  cntBase : Nat
  deriving DecidableEq, Repr

/-- A packet its TM has selected, on its way through staging (R222). -/
structure Sel where
  port : Nat
  queue : Nat
  ent : QEnt
  /-- Cells still to be moved into staging. -/
  cells : List Nat
  /-- Cells in staging. -/
  staged : Nat
  /-- It entered by the direct path, and the TM records the selection when the first cell reaches staging (R225). -/
  direct : Bool
  /-- Its transmission by cut-through has begun, while cells of it are still to come. -/
  onWire : Bool
  deriving DecidableEq, Repr

/-- A transfer endpoint (R222): the selected packets, current first, and those whole in staging. -/
structure Endpoint where
  sel : List Sel
  staged : List Sel
  deriving DecidableEq, Repr

/-- A frame in transmission. -/
structure Tx where
  ent : QEnt
  queue : Nat
  bytes : List Byte
  /-- When its last byte and the minimum gap will have left, in ns of the model's clock (R241). -/
  endNs : Nat
  deriving DecidableEq, Repr

/-- The switch cores of both dies and the transfer scheduler. -/
structure Swc where
  /-- CNT_d(q) at 131,072 * d + q (R214). -/
  cnt : Map Nat
  /-- PFC_CNT(n, p) at 8 * n + p (R220). -/
  pfcCnt : Map Nat
  /-- The PFC count each cell is charged to, plus one. -/
  pfcOf : Map Nat
  /-- Offers of source s to die d at 3 * d + s (R216). -/
  offers : Map (List Offer)
  endpoints : Map Endpoint
  /-- Cells each die sent across the bridge in the last 63 cycles, newest first (R223). -/
  crossed : Map (List Nat)
  /-- The ECN generators (R217). -/
  lfsr : Map Nat
  /-- Frames in transmission, by port. -/
  tx : Map (Option Tx)
  /-- When a port in HOLD entered it, in ns of the model's clock (HOLD_LEFT, R226). -/
  holdAt : Map Nat
  /-- PFC frames that a port in loopback has sent and not yet received: port, priority, time (R94, R220). -/
  looped : List (Nat × Nat × Nat)
  deriving DecidableEq, Repr

/-- A multicast packet in a Peal engine's input queue (R249). -/
structure McPkt where
  group : Nat
  pkt : Pkt
  deriving DecidableEq, Repr

/-- The Peal engine of one die. Its walk in hand is `walk`: the packet, the group entry as read and the next list index. -/
structure Peal where
  queue : List McPkt
  walk : Option (McPkt × (Nat × Nat × Nat × Bool) × Nat)
  /-- The fence of R257: 0 none, 1 waits for the walk in hand, 2 has nothing left to wait for. -/
  fence : Nat
  deriving DecidableEq, Repr

/-- An edit entry (R252). -/
structure Edit where
  off : Nat
  del : Nat
  ins : Nat
  template : List Byte
  deriving DecidableEq, Repr

/-- Group, list and edit memories: keys 65,536 d + g, 524,288 d + i, 4,096 d + e. -/
structure PealMem where
  /-- LIST_BASE, COUNT, CNT_BASE, CNT_EN. -/
  groups : Map (Nat × Nat × Nat × Bool)
  lists : Map (BitVec 64)
  edits : Map Edit
  /-- Groups, list entries and edit entries that read as uncorrectable until rewritten, by kind, die and index. -/
  bad : Map Bool
  deriving DecidableEq, Repr

/-- A member frame in a resequencer (R272): its shim's SEQ and the frame with its shim removed. -/
structure Held where
  seq : Nat
  /-- CTX, FLG, EPO, ELEN of the shim. -/
  ctx : Nat
  flg : Nat
  epo : Nat
  elen : Nat
  pkt : Pkt
  /-- The residue with any padding (shim and FCS removed). -/
  residue : List Byte
  /-- Entry time into the hold, ns. -/
  time : Nat
  /-- The member frame's receive timestamp (R320). -/
  sec : Nat
  ns : Nat
  /-- Original requester of the cells, and whether they are recharged to requester 10 (R274). -/
  req : Nat
  recharged : Bool
  deriving DecidableEq, Repr

/-- A trunk's sender and resequencer (R269–R275). -/
structure Trunk where
  txSeq : Nat
  next : Nat
  learn : Bool
  learnSince : Option Nat
  lateRun : Nat
  hold : List Held
  /-- Released frames that wait for a restore cell or an intake place, in release order (R275). -/
  released : List Held
  /-- Restored heads that wait for an intake place, in release order, with the frame they came from. -/
  restored : List (RawHead × Nat × Nat × Bool)
  deriving DecidableEq, Repr

/-- The sending and receiving sides of one member (R268–R271). -/
structure Member where
  /-- Credit in 1/65,536 byte. -/
  credit : Int
  joined : Bool
  marker : Bool
  floor : Nat
  floorV : Bool
  deriving DecidableEq, Repr

/-- A transmit context (R280, R287). -/
structure TxCtx where
  state : Nat
  epo : Nat
  pin : Bool
  autoSet : Bool
  len : Nat
  nxt : Nat
  tries : Nat
  pkts : Nat
  cand : Nat
  template : List Byte
  deriving DecidableEq, Repr

/-- A receive context (R281, R287). -/
structure RxCtx where
  valid : Bool
  epo : Nat
  len : Nat
  nxt : Nat
  pkts : Nat
  template : List Byte
  /-- Time of the last STALE notice plus one, ns (R281). -/
  noticed : Nat
  deriving DecidableEq, Repr

/-- A miner candidate (R283). -/
structure Cand where
  used : Bool
  trunk : Nat
  nxt : Nat
  template : List Byte
  saved : Nat
  err : Nat
  deriving DecidableEq, Repr

/-- The miner and proposal FIFO of one ELI. -/
structure Miner where
  cands : Map Cand
  /-- Packets seen since the last sample (R283). -/
  count : Nat
  /-- (trunk, len, nxt, cand, hash, saved), oldest first. -/
  props : List (Nat × Nat × Nat × Nat × Nat × Nat)
  /-- Installs that wait for a context to reach FREE: (trunk, context, candidate). -/
  pending : List (Nat × Nat × Nat)
  deriving DecidableEq, Repr

/-- Trunks, members and contexts of die d: trunk t at 16 d + t, its member m at 256 d + 16 t + m, contexts at
65,536 d + 4,096 t + c. -/
structure Carillon where
  /-- RW words of the trunk and member entries: key (512 d + index) * 8 + word (R286). -/
  entries : Map Word
  trunks : Map Trunk
  members : Map Member
  tx : Map TxCtx
  rx : Map RxCtx
  miners : Map Miner
  /-- What the last CAR start found of trunk entry t of die d, at 16 d + t: 0 none has looked, 1 good, 2 disabled (R261). -/
  verdicts : Map Nat
  /-- Trunk entries that read as uncorrectable (R394 m = 7), at 16 d + t: the trunk is disabled until the next CAR start. -/
  bad : Map Bool
  deriving DecidableEq, Repr

/-- One lookup slot of a thread (R127). -/
structure LkSlot where
  busy : Bool
  /-- Status nibble: HIT, UE, table bit, REFUSED from bit 0 up. -/
  status : Nat
  te : Bool
  rreg : Nat
  /-- Descriptor index after epoch redirection (R163), and the LKP page that serves it (R153, R159). -/
  table : Nat
  quad : Nat
  /-- The eight descriptor words as read when the request was accepted (R162). -/
  desc : List Word
  /-- 0 the request reaches the table, 1 EPOCH condition, 2 REFUSED (R163). -/
  fate : Nat
  key : Nat
  flg : Nat
  /-- The learn value, as sampled at launch, and whether the request carries one (R173). -/
  learn : Nat
  learns : Bool
  /-- The address of the launching microword, which a trap of this lookup saves (R134). -/
  upc : Nat
  deriving DecidableEq, Repr

/-- What a pass ended with (R104). -/
structure Ending where
  /-- 0 forward unicast, 1 forward multicast, 2 drop, 3 punt, 4 recirculate. -/
  kind : Nat
  /-- Queue, group, channel or PG. -/
  arg : Nat
  color : Nat
  reason : Nat
  /-- SRC of a punt (R359). -/
  src : Nat
  pkt : Pkt
  md : List Byte
  deriving DecidableEq, Repr

/-- A hardware thread (R95, R96, R115). Flag nibbles hold V, C, N, Z from bit 3 down. -/
structure Thread where
  st : Nat
  head : Option Head
  regs : Map (BitVec 64)
  flagsA : Nat
  flagsB : Nat
  latch : Nat
  stack : List Nat
  /-- TRAPF (R135); bit 32 is VALID. -/
  frame : BitVec 64
  slots : Map LkSlot
  launched : Nat
  upc : Nat
  /-- A held trap: cause, saved address, slot (R137, R139). -/
  held : Option (Nat × Nat × Nat)
  epochFail : Bool
  haltReq : Bool
  skipBrk : Bool
  /-- The microword a WAIT waits with, and its address (R139). -/
  waitWord : Option (BitVec 192 × Nat)
  /-- The pass has ended and its report waits for outstanding lookups (R138). -/
  ended : Option Ending
  deriving DecidableEq, Repr

/-- An ordering domain's counters (R100). -/
structure Domain where
  nextIssue : Nat
  nextRetire : Nat
  deriving DecidableEq, Repr

/-- A ticket slot (R100, R106, R395). State 0 free, 1 PENDING, 2 DONE, 3 VOID. -/
structure Slot where
  state : Nat
  dom : Nat
  ticket : Nat
  epoch : Nat
  pass2 : Bool
  /-- The cluster that holds the head (R395). -/
  cluster : Nat
  pkt : Pkt
  ending : Option Ending
  deriving DecidableEq, Repr

/-- A completion report on its way to an ORD (R107): slot, domain and ticket it is for; `lost` once its slot has been voided
at a domain loss (R395). -/
structure Report where
  slot : Nat
  dom : Nat
  ticket : Nat
  lost : Bool
  ending : Ending
  deriving DecidableEq, Repr

/-- The ordering unit of one die. Key of a domain: INPORT * 4096 + FLOW_HASH[11:0]. -/
structure Ord where
  domains : Map Domain
  slots : Map Slot
  ready : List Nat
  reports : List Report
  /-- Far steals admitted in this microsecond, and thief clusters refused in it (R103). -/
  farUsed : Nat
  farRefused : List Nat
  deriving DecidableEq, Repr

/-- The engine fabric. -/
structure Engine where
  /-- Thread t of engine e of cluster c at 128 c + 8 e + t. -/
  threads : Map Thread
  /-- Local work queues, oldest head first. -/
  queues : Map (List Head)
  ords : Map Ord
  deriving DecidableEq, Repr

/-- An operation of an update engine that waits for its turn (R169). -/
inductive EngOp where
  /-- The host command in LKP_CMD_CTL. -/
  | cmd
  /-- A learn request: descriptor, whether it is a MOVE, key, learn value (R173). -/
  | learn (table : Nat) (move : Bool) (key data : Nat)
  /-- An operation of this entry window on space 0x07 (R180). -/
  | window (w : Nat)
  deriving DecidableEq, Repr

/-- The update engine, learn queue and learn events of one quadrant or gang (R169, R173, R179). -/
structure Lkp where
  /-- The victim pointer (R170). -/
  vp : Nat
  ops : List EngOp
  /-- Operations since the last ageing visit (R169). -/
  turns : Nat
  /-- Ageing visits that wait for their turn: table and position (R169). -/
  visits : List (Nat × Nat)
  evts : List (List Word)
  deriving DecidableEq, Repr

/-- The lookup memories. -/
structure Lookup where
  engines : Map Lkp
  /-- Quadrant or gang memory: 32-bit word w of store q at q * 2 ^ 26 + w. -/
  mem : Map Word
  /-- Held descriptor words 0–6 (R162): page q, descriptor t, word k at 8192 q + 8 t + k. -/
  held : Map (Option Word)
  deriving DecidableEq, Repr

/-- A committed chime (R325). -/
structure Chime where
  periodic : Bool
  start : Int
  period : Nat
  width : Nat
  /-- The next pulse time, ns. -/
  next : Int
  deriving DecidableEq, Repr

/-- One time exchange (R382): the device it runs with, its port, XSEQ, t1, t2 and t3. -/
structure Exchange where
  dev : Nat
  port : Nat
  xseq : Nat
  t1 : Nat
  t2 : Nat
  t3 : Nat
  deriving DecidableEq, Repr

/-- The time unit (R312–R330). -/
structure TimeUnit where
  sec : Nat
  ns : Nat
  /-- Units of 2⁻³² ns. -/
  frac : Nat
  /-- Slew remainder in units of 10⁻⁶ ns. -/
  slew : Int
  /-- Rate of the slew in ppm: TIME_SLEW.PPM, or that of R328's spread, in 10⁻⁶ ns a cycle. -/
  slewRate : Nat
  chimes : Map (Option Chime)
  /-- Chime outputs and the PPS output in a pulse. -/
  pulse : Map Bool
  pps : Bool
  /-- A second boundary was reached and PPS has not begun its pulse (R327). -/
  ppsDue : Bool
  /-- Capture FIFO and the transmit FIFO of each die, oldest first. -/
  caps : List (List Word)
  txs : Map (List (List Word))
  /-- Consecutive exchanges within 5 ns, and the integrator (R328). -/
  good : Nat
  integ : Int
  xseq : Nat
  exchanges : List Exchange
  deriving DecidableEq, Repr

/-- A physical rank (R310). State 0 SPARE, 1 IN_SERVICE, 2 RETIRING, 3 RETIRED, 4 TARGET. -/
structure Rank where
  state : Nat
  lrank : Nat
  cause : Nat
  progress : Nat
  ce : Nat
  ue : Nat
  deriving DecidableEq, Repr

/-- A request of an HBM controller's QoS ports (R294): the part of an access that lies in one row of one bank. -/
structure HbmReq where
  port : Nat
  write : Bool
  /-- The physical rank it goes to (R308). -/
  rank : Nat
  /-- The logical address it begins at, and its length in bytes. -/
  addr : Nat
  len : Nat
  /-- When it came, in ns of the model's clock. -/
  since : Nat
  deriving DecidableEq, Repr

/-- One line of the counter cache (R305): its index, and packets and bytes of its two pairs. -/
structure CntLine where
  idx : Nat
  p0 : Nat
  b0 : Nat
  p1 : Nat
  b1 : Nat
  deriving DecidableEq, Repr

/-- One HBM controller (R290–R311). -/
structure Hbm where
  /-- RATE and GRAIN of the last full training since the domain entered ON (R299). -/
  full : Option (Nat × Nat)
  /-- Training runs since the last START, and whether it is full training (R299). -/
  training : Bool
  fullNow : Bool
  /-- Consecutive readings at 105 °C or above (R298). -/
  hot : Nat
  ranks : Map Rank
  /-- HBM_RMAP_CFG as the last start applied it: ROLE and LRANK of each entry (R301). -/
  image : List (Nat × Nat)
  /-- The migration that runs: RETIRING rank and TARGET (R308). -/
  mig : Option (Nat × Nat)
  /-- A failed target and the rank pages it holds, while they are copied again (R309). -/
  failed : Option (Nat × Nat)
  /-- Open rows, plus one, by rank * 32 + stack ID * 16 + bank group * 4 + bank (R296). -/
  rows : Map Nat
  /-- Requests that wait for a command slot, oldest first (R294, R295). -/
  reqs : List HbmReq
  /-- Row hits that a bank has served in a row, by the key of `rows` (R295). -/
  hits : Map Nat
  /-- Writes still to be issued in the run in hand of a rank (R295). -/
  run : Map Nat
  /-- RETIRING ranks that wait, oldest first (R307). -/
  queued : List Nat
  /-- The counter region applied at the start: its first byte (R304). -/
  region : Option Nat
  /-- Counter updates posted and not yet applied: pair, packets, bytes (R305). -/
  posted : List (Nat × Nat × Nat)
  lines : List CntLine
  /-- The counter read in hand: pair, packets and bytes as the command found them, CLEAR, and whether memory was read (R306). -/
  read : Option (Nat × Nat × Nat × Bool × Bool)
  deriving DecidableEq, Repr

/-- What MOD keeps of a cage besides its registers. -/
structure Cage where
  /-- The module reports a revision outside R333. -/
  limited : Bool
  /-- Latched flag bytes as read at the last visit (R337). -/
  flags : List Byte
  /-- The counter's seconds at the last visit, and whether it saw ModuleReady with an output enabled (R337). -/
  visited : Option Nat
  lit : Bool
  /-- The current band has been set since MOD started (R340). -/
  known : Bool
  /-- The new band the last visits found, and how many in a row (R340). -/
  cand : Nat
  run : Nat
  deriving DecidableEq, Repr

/-- A committed timed write (R342); `again` when an attempt was repeated. -/
structure Timed where
  cage : Nat
  page : Nat
  bank : Nat
  addr : Nat
  data : List Byte
  time : Int
  again : Bool
  deriving DecidableEq, Repr

/-- Module management (R331–R344). Ledger entry of cage p: CUR at 2 p, PREV at 2 p + 1. -/
structure Modules where
  /-- PRS_N of the cages, debounced; a level of the outside, which no domain loss changes. -/
  present : Map Bool
  cages : Map Cage
  ledger : Map (List Byte)
  evts : List (List Word)
  advs : List (List Word)
  timed : Map (Option Timed)
  /-- Attempts repeated so far in the transaction that each master has in hand (R334). -/
  tries : Map Nat
  /-- Cages that the scan period in hand has still to visit (R337). -/
  unseen : List Nat
  deriving DecidableEq, Repr

/-- A channel context's host-owned fields (R355). -/
structure Ctx where
  ring : Nat
  typ : Nat
  intEn : Bool
  ringLog : Nat
  bufLog : Nat
  vector : Nat
  coalCnt : Nat
  coalUs : Nat
  pg : Nat
  inport : Nat
  lane : Nat
  deriving DecidableEq, Repr

/-- A descriptor as read from the ring (R358). -/
structure Desc where
  addr : Nat
  len : Nat
  flags : Nat
  deriving DecidableEq, Repr

/-- One read of at most Max Read Request Size inside 4 KB (R347), and its data once they have come. -/
structure Piece where
  addr : Nat
  len : Nat
  data : Option (List Byte)
  deriving DecidableEq, Repr

/-- What a channel is reading: 0 its context at a start, 1 its context, 2 descriptors, 3 packet bytes or records. -/
structure Job where
  kind : Nat
  pieces : List Piece
  deriving DecidableEq, Repr

/-- A DMA channel outside its registers (R354–R364). -/
structure Chan where
  /-- The context as last read (R356). -/
  ctx : Option Ctx
  armed : Bool
  /-- Completions not yet signalled (R364). -/
  unsig : Nat
  units : Nat
  bytes : Nat
  drops : Nat
  /-- Descriptors read and not yet completed, from HEAD on. -/
  descs : List Desc
  job : Option Job
  /-- The cached context is to be dropped when the descriptor in hand is finished (R356). -/
  inval : Bool
  deriving DecidableEq, Repr

/-- A tag of a device read (R347, R349): the channel and piece it serves, the bytes asked for and those that have come.
A read whose channel no longer waits for it has the piece 65,535. -/
structure ReadTag where
  ch : Nat
  piece : Nat
  len : Nat
  got : List Byte
  deriving DecidableEq, Repr

/-- A packet on its way to a channel (R359, R360). -/
structure Punt where
  ch : Nat
  src : Nat
  reason : Nat
  /-- The record in front of the packet: parse record or metadata; none for a host port. -/
  record : List Byte
  hport : Nat
  pkt : Pkt
  /-- A host-port packet's queue and entry, whose holder releases it at delivery (R360). -/
  held : Option (Nat × QEnt)
  deriving DecidableEq, Repr

/-- A packet at endpoint 16, the host path (R222, R360): cells still to be moved into its staging, and those in it. -/
structure HostPkt where
  punt : Punt
  cells : List Nat
  staged : Nat
  deriving DecidableEq, Repr

/-- The host interface and the DMA channels. -/
structure HostIf where
  /-- PCIE_PERST_N is low, and link training has begun (R346). -/
  perst : Bool
  training : Bool
  /-- Lanes negotiated at the last link-up (R345, R352). -/
  lanes : Nat
  /-- 10-Bit Tag Requester Enable, Max Read Request Size, Relaxed Ordering Enable and the IDO enables, as PCIe's own
  configuration holds them. -/
  tenBit : Bool
  maxRead : Nat
  roEn : Bool
  idoEn : Bool
  tags : Map (Option ReadTag)
  quarantined : Map Bool
  /-- Reads that wait for a tag: (channel, piece), oldest first (R347). -/
  waiting : List (Nat × Nat)
  chans : Map Chan
  /-- Cached contexts, least recently used first (R356). -/
  cached : List Nat
  /-- Punts that wait for the host path, oldest first. -/
  punts : List Punt
  /-- The packets that endpoint 16 holds, the current one and the next (R222). -/
  path : List HostPkt
  /-- Packets whole in the host path's staging, in the order they leave it. -/
  staged : List HostPkt
  deriving DecidableEq, Repr

/-- A DATA cell in a replay buffer (R372). -/
structure Sent where
  lseq : Nat
  cell : List Byte
  resends : Nat
  deriving DecidableEq, Repr

/-- A DATA cell in a receive buffer, which holds its credit (R373). -/
structure RxCell where
  vc : Nat
  payload : List Byte
  deriving DecidableEq, Repr

/-- One Ulux port (R370–R374); its state is in ULX_PORT_STAT. -/
structure UlxPort where
  /-- Last LSEQ sent and last DATA LSEQ received good in order. -/
  lseq : Nat
  ack : Nat
  /-- One NAK has been sent since the last good cell. -/
  nak : Bool
  replay : List Sent
  /-- Credits held for each VC, and credits to be returned for each. -/
  cred : List Nat
  owed : List Nat
  /-- The peer's REACH bits. -/
  reach : Nat
  /-- RESTART is set in the HELLO this port sends. -/
  restart : Bool
  /-- REQ and RSP cells to send: VC and payload. -/
  out : List (Nat × List Byte)
  rx : List RxCell
  deriving DecidableEq, Repr

/-- A packet in a transmit queue (R375): remote queue, colour, virtual channel, bytes sent. -/
structure UlxPkt where
  queue : Nat
  vc : Nat
  color : Nat
  pkt : Pkt
  shared : Bool
  final : Bool
  sent : Nat
  /-- The wait of its next cell has been counted (R377). -/
  waited : Bool
  deriving DecidableEq, Repr

/-- A packet being put together by a resequencer (R375, R378). -/
structure Build where
  queue : Nat
  color : Nat
  len : Nat
  /-- Its cells of requester 13 so far. -/
  cells : List Nat
  deriving DecidableEq, Repr

/-- A receive stream (R376, R378). -/
structure Stream where
  next : Nat
  /-- Held cells: the PSEQ, the route header's bytes and the cell of requester 13 that holds the data (R373). -/
  held : List (Nat × List Byte × Nat)
  build : Option Build
  /-- The cells up to the next SOP belong to a packet counted as dropped. -/
  dropping : Bool
  deriving DecidableEq, Repr

/-- A window in force (R381): EN, SPACE, WRITE_OK, SRC_MASK, BASE, SIZE, TARGET as its three words. -/
structure Window where
  w0 : Word
  w1 : Word
  w2 : Word
  deriving DecidableEq, Repr

/-- The Ulux links. -/
structure Ulux where
  ports : Map UlxPort
  /-- Transmit queues: key 8 * die + 2 * device + destination die. -/
  queues : Map (List UlxPkt)
  /-- PSEQ of the next cell: key 16 * die + 4 * device + 2 * destination die + VC. -/
  pseq : Map Nat
  /-- Cells sent to each device (R377). -/
  count : Map Nat
  /-- Packet cells to be sent again: device of the next hop, VC, payload (R379). -/
  again : List (Nat × Nat × List Byte)
  /-- Receive streams: key 16 * die + 4 * source device + 2 * source die + VC. -/
  streams : Map Stream
  /-- The hold of an unreachable device has expired (R379). -/
  lost : Map Bool
  windows : Map Window
  deriving DecidableEq, Repr

/-- Everything the block holds but the trust anchors and the queue of commands. -/
structure Dev where
  csr : Csr
  msix : Msix
  ews : Map EntryWindow
  cs : Cs
  log : ErrLog
  /-- What has left the block, newest first (the MODEL's own record). -/
  out : List Out
  /-- The MODEL's own counter of free values taken; nothing of the spec. -/
  fresh : Nat
  /-- The rotating-priority pointers of R17, by resource. -/
  rr : Map Nat
  power : Power
  modes : Modes
  time : TimeUnit
  pgs : Map PortGroup
  rx : Map (Option RxFrame)
  /-- Frames that have ended with a bad FCS and are still in the device: their ingress port plus one, by cell 0 (R14). -/
  badFrames : Map Nat
  /-- Packet buffer: the 256 bytes of each cell, by cell pointer. -/
  buf : Map (List Byte)
  cells : Map CellEntry
  bpms : Map Bpm
  rings : Map PageRing
  swc : Swc
  tm : Tm
  peals : Map Peal
  pealMem : PealMem
  car : Carillon
  eng : Engine
  lkp : Lookup
  hbms : Map Hbm
  /-- HBM data by logical address: 32-bit word w of stack h at h * 2 ^ 33 + w; and words with uncorrectable check bits. -/
  hbmMem : Map Word
  hbmBad : Map Bool
  mods : Modules
  hif : HostIf
  ulx : Ulux
  deriving DecidableEq, Repr

/-- The machine: the commands that wait, first in first out; the trust anchors; and the rest of the block. -/
structure State where
  pending : List Instr
  trust : Trust
  dev : Dev
  deriving DecidableEq, Repr

/-- Default values of the keyed stores: what an unlisted key reads as. -/
def EntryWindow.init : EntryWindow := ⟨0, 0, false, false, false, 0, 0, 0, 0, []⟩
def Pkt.init : Pkt := ⟨0, 0, 0, 0, 0, 0, 0, 0, false⟩
def PortGroup.init : PortGroup := ⟨[], [], [], false, [], []⟩
def CellEntry.init : CellEntry := ⟨0, false, false, 0, 0, false, 0, false, false⟩
def Bpm.init : Bpm := ⟨262144, [], [], [], []⟩
def PageRing.init : PageRing := ⟨0, 0, [], [], [], false⟩
def Bucket.init : Bucket := ⟨0, 0, 0, true, false⟩
def Tag.init : Tag := ⟨0, 0, false⟩
def Queue.init : Queue := ⟨0, 0, 0, 0, [], [], none, [], Bucket.init, false⟩
def Node.init : Node := ⟨0, 0, 0, 0, Bucket.init, false⟩
def Endpoint.init : Endpoint := ⟨[], []⟩
def Peal.init : Peal := ⟨[], none, 0⟩
def Edit.init : Edit := ⟨0, 0, 0, List.replicate 32 0⟩
def Trunk.init : Trunk := ⟨0, 0, false, none, 0, [], [], []⟩
def Member.init : Member := ⟨0, false, false, 0, false⟩
def TxCtx.init : TxCtx := ⟨0, 0, false, false, 0, 0, 0, 0, 0, List.replicate 128 0⟩
def RxCtx.init : RxCtx := ⟨false, 0, 0, 0, 0, List.replicate 128 0, 0⟩
def Cand.init : Cand := ⟨false, 0, 0, [], 0, 0⟩
def Miner.init : Miner := ⟨[], 0, [], []⟩
def LkSlot.init : LkSlot := ⟨false, 0, false, 0, 0, 0, [], 0, 0, 0, 0, false, 0⟩
def Lkp.init : Lkp := ⟨0, [], 0, [], []⟩
def Rank.init (p : Nat) : Rank := ⟨if p < 30 then 1 else 0, if p < 30 then p else 0, 0, 0, 0, 0⟩
def Hbm.init : Hbm := ⟨none, false, false, 0, [], [], none, none, [], [], [], [], [], none, [], [], none⟩
def Cage.init : Cage := ⟨false, [], none, false, false, 0, 0⟩
def Chan.init : Chan := ⟨none, false, 0, 0, 0, 0, [], none, false⟩
def UlxPort.init : UlxPort := ⟨4095, 4095, false, [], [0, 0, 0, 0], [0, 0, 0, 0], 0, false, [], []⟩
def Stream.init : Stream := ⟨0, [], none, false⟩
def Window.init : Window := ⟨0, 0, 0⟩
def Thread.init : Thread := ⟨0, none, [], 0, 0, 0, [], 0, [], 0, 0, none, false, false, false, none, none⟩
def Domain.init : Domain := ⟨0, 0⟩
def Slot.init : Slot := ⟨0, 0, 0, 0, false, 0, Pkt.init, none⟩
def Ord.init : Ord := ⟨[], [], [], [], 0, []⟩

/-- Inputs, conversion and sequencer as the reset values of R58 show them: the island runs, the main input is valid
and PD29 is ON. -/
def Power.reset : Power := ⟨true, false, true, 0, true, true, true, false, none, [], [], [], false, false, [], false, 0, 0⟩
def Modes.reset : Modes := ⟨0, [], false, [], false, false⟩
def ErrLog.reset : ErrLog := ⟨[], none, [], false⟩
def Trust.reset : Trust := ⟨false, false, 0, []⟩
def TimeUnit.reset : TimeUnit := ⟨0, 0, 0, 0, 0, [], [], false, false, [], [], 0, 0, 0, []⟩
def Modules.reset : Modules := ⟨[], [], [], [], [], [], [], []⟩
def HostIf.reset : HostIf := ⟨true, false, 0, false, 512, true, false, [], [], [], [], [], [], [], []⟩
def Ulux.reset : Ulux := ⟨[], [], [], [], [], [], [], []⟩

/-- The block right after reset, registers unlisted and so at the reset values of their tables. -/
def Dev.reset : Dev where
  csr := ⟨[], [], [], []⟩
  msix := ⟨[], []⟩
  ews := []
  cs := ⟨[], [], [], []⟩
  log := ErrLog.reset
  out := []
  fresh := 0
  rr := []
  power := Power.reset
  modes := Modes.reset
  time := TimeUnit.reset
  pgs := []
  rx := []
  badFrames := []
  buf := []
  cells := []
  bpms := []
  rings := []
  swc := ⟨[], [], [], [], [], [], [], [], [], []⟩
  tm := ⟨[], [], [], [], [], [], [], [], [], []⟩
  peals := []
  pealMem := ⟨[], [], [], []⟩
  car := ⟨[], [], [], [], [], [], [], []⟩
  eng := ⟨[], [], []⟩
  lkp := ⟨[], [], []⟩
  hbms := []
  hbmMem := []
  hbmBad := []
  mods := Modules.reset
  hif := HostIf.reset
  ulx := Ulux.reset

/-- The machine right after reset. -/
def State.reset : State := ⟨[], Trust.reset, Dev.reset⟩

end Sys2Proof.Machine
end

