-- ==== Sys2Proof/Machine/Regs.lean ====
section
/-! DEFINITION. The CSR pages (R23), the common page header (R21), reset values, and reading and writing stored fields. -/

namespace Sys2Proof.Machine

/-! Pages -/

/-- The block on BAR0 page `p` (R23). -/
def pageKind (p : Nat) : PageKind :=
  if p = 0x00 then .dir else if p = 0x01 then .svc else if p = 0x02 then .pwr else if p = 0x03 then .clk
  else if p = 0x04 then .err else if p = 0x05 then .hif else if p = 0x06 then .dma else if p = 0x07 then .mod
  else if p < 0x0A then .time else if p < 0x10 then .none else if p < 0x20 then .pg
  else if p < 0x24 then .lkp else if p < 0x28 then .lrn else if p < 0x2A then .ord else if p < 0x2C then .bpm
  else if p < 0x2E then .swc else if p < 0x30 then .tm else if p < 0x34 then .hbm else if p < 0x36 then .peal
  else if p < 0x38 then .car else if p < 0x3A then .eli else if p < 0x3C then .ulx else if p < 0x40 then .none
  else if p < 0x80 then .eng else .none

/-- The first page of a block's range (R23). -/
def PageKind.base : PageKind → Nat
  | .dir => 0x00 | .svc => 0x01 | .pwr => 0x02 | .clk => 0x03 | .err => 0x04 | .hif => 0x05 | .dma => 0x06
  | .mod => 0x07 | .time => 0x08 | .pg => 0x10 | .lkp => 0x20 | .lrn => 0x24 | .ord => 0x28 | .bpm => 0x2A
  | .swc => 0x2C | .tm => 0x2E | .hbm => 0x30 | .peal => 0x34 | .car => 0x36 | .eli => 0x38 | .ulx => 0x3A
  | .eng => 0x40 | .none => 0x80

/-- BLK_ID.INSTANCE (R21). -/
def pageInst (p : Nat) : Nat := p - (pageKind p).base

/-- BLK_ID.DIE: 0 west, 1 east (R23). -/
def pageDie (p : Nat) : Nat :=
  match pageKind p with
  | .pg => if pageInst p < 8 then 0 else 1
  | .lkp | .lrn | .hbm => if pageInst p < 2 then 0 else 1
  | .ord | .bpm | .swc | .tm | .peal | .car | .eli | .ulx | .time => pageInst p
  | .eng => if pageInst p < 32 then 0 else 1
  | _ => 0

/-- The power domain of a page; none for the always-on pages (R23). -/
def pageDom (p : Nat) : Option Nat :=
  match pageKind p with
  | .hif | .dma => some 29
  | .mod | .time => some 28
  | .pg => some (18 + pageInst p / 4)
  | .lkp | .lrn => some (8 + pageInst p)
  | .ord | .swc | .tm => some (24 + pageInst p)
  | .bpm => some (12 + pageInst p)
  | .hbm => some (14 + pageInst p)
  | .peal | .car | .eli => some 26
  | .ulx => some (22 + pageInst p)
  | .eng => some (pageInst p / 8)
  | _ => none

/-- The 118 assigned pages in ascending order (R23, R25). -/
def assignedPages : List Nat := (List.range 256).filter (fun p => pageKind p ≠ .none)

/-- Whether a page has a stoppable function (R21). -/
def hasFunction (p : Nat) : Bool :=
  match pageKind p with
  | .dir | .svc | .pwr | .clk | .err | .none => false
  | _ => true

/-- The INT_STAT.BLK bits a block defines (R21 and the block chapters). -/
def PageKind.blkMask : PageKind → Nat
  | .pwr => 0x3F | .clk => 0x7 | .svc => 0xF | .err => 0x1F | .pg => 0xF | .eng => 0x7F | .ord => 0x1F
  | .lkp => 0xF | .lrn => 0xF | .bpm => 0x1F | .swc => 0xF | .tm => 0x1F | .peal => 0x7 | .car => 0xF | .eli => 0xF
  | .hbm => 0x7F | .time => 0xFF | .mod => 0x3F | .hif => 0xF | .dma => 0x7 | .ulx => 0x3F
  | .dir => 0 | .none => 0

/-- The class of an ERR_CAP kind (R387). -/
def PageKind.classOf (k : PageKind) (kind : Nat) : Nat :=
  if kind < 0x20 then 3 else match k, kind with
  | .pwr, 0x23 | .pwr, 0x24 | .pwr, 0x25 | .clk, 0x20 => 7
  | .svc, 0x20 | .svc, 0x21 | .svc, 0x22 | .svc, 0x23 | .svc, 0x24 => 3
  | .eng, 0x21 | .lkp, 0x20 | .tm, 0x21 | .time, 0x22 | .mod, 0x22 | .dma, 0x22 | .dma, 0x23 | .ulx, 0x24 => 3
  | .eng, 0x22 | .ord, 0x21 | .lkp, 0x23 | .bpm, 0x20 | .bpm, 0x21 | .peal, 0x21 | .hbm, 0x22 | .hbm, 0x23 => 2
  | .lkp, 0x22 | .hbm, 0x21 => 1
  | .eli, 0x22 | .ulx, 0x22 => 5
  | _, _ => 4

/-! Registers -/

/-- The block-specific registers of a block's pages. -/
def PageKind.regs : PageKind → List RegDesc
  | .svc => svcRegs | .pwr => pwrRegs | .clk => clkRegs | .err => errRegs | .hif => hifRegs | .dma => dmaRegs
  | .mod => modRegs | .time => timeRegs | .pg => pgRegs | .lkp => lkpRegs | .lrn => lrnRegs | .ord => ordRegs
  | .bpm => bpmRegs | .swc => swcRegs | .tm => tmRegs | .hbm => hbmRegs | .peal => pealRegs | .car => carRegs
  | .eli => eliRegs | .ulx => ulxRegs | .eng => engRegs
  | .dir => [⟨0x0100, 3, 4, 1, 4, .single, [⟨0, 32, .ro, 0, false⟩]⟩, ⟨0x010C, 1, 65536, 1, 4, .single, [⟨0, 2, .ro, 0, false⟩]⟩,
      ⟨0x0110, 1, 65536, 1, 4, .low, [⟨0, 32, .ro, 0, false⟩]⟩, ⟨0x0114, 1, 65536, 1, 4, .high, [⟨0, 32, .ro, 0, false⟩]⟩,
      ⟨0x0118, 1, 65536, 1, 4, .single, [⟨0, 32, .ro, 0, false⟩]⟩, ⟨0x0200, 118, 8, 1, 4, .single, [⟨0, 30, .ro, 0, false⟩]⟩,
      ⟨0x0204, 118, 8, 1, 4, .single, [⟨0, 32, .ro, 0, false⟩]⟩]
  | .none => []

/-- The registers of the common page header (R21); INT_STAT, INT_EN and INT_SET have the block's BLK bits. -/
def headerRegs (k : PageKind) : List RegDesc :=
  let intf (a : Acc) : List FieldDesc := ⟨30, 2, a, 0, false⟩ :: ((setBits 30 k.blkMask).map fun i => ⟨i, 1, a, 0, false⟩)
  let one (o : Nat) (f : List FieldDesc) : RegDesc := ⟨o, 1, 65536, 1, 4, .single, f⟩
  let ro : List FieldDesc := [⟨0, 32, .ro1, 0, false⟩]
  [ one 0x00 [⟨24, 8, .ro, 0, false⟩, ⟨16, 8, .ro, 0, false⟩, ⟨15, 1, .ro, 0, false⟩, ⟨0, 8, .ro, 0, false⟩],
    one 0x04 [⟨24, 8, .ro, 1, false⟩, ⟨16, 8, .ro, 0, false⟩],
    one 0x08 [⟨0, 2, .wo, 0, false⟩],
    one 0x0C [⟨0, 2, .ro, 0, false⟩, ⟨2, 1, .ro, 0, false⟩],
    one 0x10 (intf .w1c), one 0x14 (intf .rw), one 0x18 (intf .w1s),
    one 0x1C [⟨31, 1, .ro, 0, false⟩, ⟨0, 5, .ro, 0, false⟩],
    one 0x20 [⟨31, 1, .w1c, 0, false⟩, ⟨30, 1, .ro1, 0, false⟩, ⟨24, 6, .ro1, 0, false⟩, ⟨16, 8, .w1c, 0, false⟩, ⟨0, 16, .ro1, 0, false⟩],
    one 0x24 ro, one 0x28 [⟨16, 1, .ro1, 0, false⟩, ⟨0, 16, .ro1, 0, false⟩], one 0x2C [⟨0, 30, .ro1, 0, false⟩],
    one 0x30 ro, one 0x34 ro, one 0x38 ro, one 0x3C ro,
    one 0x40 [⟨0, 1, .ro, 0, false⟩, ⟨1, 1, .wo, 0, false⟩, ⟨16, 8, .ro, 0, false⟩],
    one 0x44 [⟨0, 32, .rw, 0, false⟩] ]

/-- Whether a register row has an element at offset `o`. -/
def RegDesc.hit (r : RegDesc) (o : Nat) : Bool :=
  decide (r.off ≤ o) && decide ((o - r.off) / r.s1 < r.n1) &&
    decide ((o - r.off) % r.s1 % r.s2 = 0) && decide ((o - r.off) % r.s1 / r.s2 < r.n2)

/-- Registers that are RSV on the east instance (R313, R381). -/
def eastRsv (p o : Nat) : Bool :=
  (p = 0x09 && !(decide (o = 0x0100) || (decide (0x0130 ≤ o) && decide (o < 0x0140)) ||
    (decide (0x0400 ≤ o) && decide (o ≤ 0x0620)))) || (p = 0x3B && decide (0x0500 ≤ o) && decide (o < 0x0580))

/-- The register at offset `o` of page `p`; none for an RSV offset (R21). -/
def regAt (p o : Nat) : Option RegDesc :=
  if o < 0x100 then (headerRegs (pageKind p)).find? (·.hit o)
  else if eastRsv p o then none
  else (pageKind p).regs.find? (·.hit o)

/-- Reset values that depend on the element or the page (R21, R58, R211, R294, R311, R330, R368). -/
def specialReset (p o : Nat) : Option Nat :=
  match pageKind p with
  | .pwr => if o = 0x0274 then some 3 else none
  | .bpm =>
    if 0x0200 ≤ o ∧ o < 0x0280 then
      let r := (o - 0x0200) / 8
      if o % 8 = 0 then some (if r < 8 then 8192 else if r < 10 then 2048 else if r = 10 then 0 else if r = 11 then 4096
        else if r = 13 then 8192 else if r = 15 then 0 else 1024)
      else some (if r = 10 then 131072 else if r = 15 then 0 else 262144)
    else none
  | .hbm =>
    if 0x0200 ≤ o ∧ o < 0x0280 then let q := (o - 0x0200) / 4; some (if q < 30 then q else 1 * 32)
    else if 0x0300 ≤ o ∧ o < 0x0320 then
      some ([2000, 4000, 8000, 4000, 20000, 100000, 1000000, 1000000].getD ((o - 0x0300) / 4) 0)
    else none
  | .time => if p = 0x08 ∧ o = 0x0100 then some 2 else none
  | .ulx => if o = 0x0104 then some (16 * (1 + 2 * 4 + 3 * 16)) else none
  | _ => none

/-- The reset word of the register at offset `o` of page `p`. -/
def resetWord (p o : Nat) : Word :=
  if o = 0x00 then
    BitVec.ofNat 32 ((if p = 0 then 0xFF else (pageKind p).base) * 2 ^ 24 + pageInst p * 2 ^ 16 + pageDie p * 2 ^ 15 + p)
  else if o = 0x0C then (if hasFunction p then 0 else 2)
  else match specialReset p o with
    | some v => BitVec.ofNat 32 v
    | none => match regAt p o with
      | some r => BitVec.ofNat 32 ((r.fields.map fun f => f.rst * 2 ^ f.lsb).sum)
      | none => 0

/-- The store key of a register. -/
def csrKey (p o : Nat) : Nat := p * 0x10000 + o

/-- The stored (host-visible) word of a register. -/
def Dev.word (d : Dev) (p o : Nat) : Word := Map.rd (resetWord p o) d.csr.words (csrKey p o)

/-- Writes the stored word of a register. -/
def Dev.setWord (d : Dev) (p o : Nat) (w : Word) : Dev :=
  { d with csr := { d.csr with words := Map.wr (resetWord p o) d.csr.words (csrKey p o) w } }

/-- A field of a stored register. -/
def Dev.get (d : Dev) (p : Nat) (f : Fld) : Nat := bits (d.word p f.off).toNat f.lsb f.wd

/-- Writes a field of a stored register. -/
def Dev.set (d : Dev) (p : Nat) (f : Fld) (v : Nat) : Dev :=
  d.setWord p f.off (BitVec.ofNat 32 (putBits (d.word p f.off).toNat f.lsb f.wd v))

/-- The same field of the array element `n` bytes on. -/
def Fld.at (f : Fld) (n : Nat) : Fld := { f with off := f.off + n }

/-- The word in force: the applied value while an unapplied shadow write is held (R70), else the stored one. -/
def Dev.liveWord (d : Dev) (p o : Nat) : Word := Map.rd (d.word p o) d.csr.inForce (csrKey p o)

/-- A field in force. -/
def Dev.live (d : Dev) (p : Nat) (f : Fld) : Nat := bits (d.liveWord p f.off).toNat f.lsb f.wd

/-- Writes a field's value in force and the value read back (R244). -/
def Dev.setLive (d : Dev) (p : Nat) (f : Fld) (v : Nat) : Dev :=
  let k := csrKey p f.off
  let d := match d.csr.inForce.find? k with
    | some w =>
      let w' : Word := BitVec.ofNat 32 (putBits w.toNat f.lsb f.wd v)
      { d with csr := { d.csr with inForce := d.csr.inForce.put k w' } }
    | none => d
  d.set p f v

def H.STATE : Fld := ⟨0x0C, 0, 2⟩

/-- FN_STATE.STATE: 0 STOPPED, 1 STARTING, 2 RUNNING, 3 STOPPING (R21). -/
def Dev.fn (d : Dev) (p : Nat) : Nat := d.get p H.STATE

/-- Adds `n` to a saturating count of a page in every state of its function: of the drops and discards that a rule counts
while the function does not run (log entry 154). -/
def Dev.tally (d : Dev) (p : Nat) (f : Fld) (n : Nat := 1) : Dev := d.set p f (satAdd f.wd (d.get p f) n)

/-- Adds `n` to a saturating count of a page; the counters of a STOPPED function do not count (R68). -/
def Dev.bump (d : Dev) (p : Nat) (f : Fld) (n : Nat := 1) : Dev := if hasFunction p && d.fn p == 0 then d else d.tally p f n

/-- Adds one to element `k` of an array of saturating counts. -/
def Dev.cnt (d : Dev) (p : Nat) (f : Fld) (k : Nat) : Dev := d.bump p (f.at (4 * k))

/-- Keeps the highest value seen in a PEAK field. -/
def Dev.peak (d : Dev) (p : Nat) (f : Fld) (v : Nat) : Dev := d.set p f (max (d.get p f) v)

/-- Drops every stored word, shadow, latch and held word of a page: its registers are at reset. -/
def Dev.resetPage (d : Dev) (p : Nat) : Dev :=
  let lo := csrKey p 0
  let hi := csrKey (p + 1) 0
  { d with csr := ⟨d.csr.words.dropRange lo hi, d.csr.inForce.dropRange lo hi, d.csr.latches.dropRange lo hi, d.csr.held.dropRange lo hi⟩ }

/-! The fields of the common header. -/
def H.PENDING : Fld := ⟨0x0C, 2, 1⟩
def H.INT_STAT : Fld := ⟨0x10, 0, 32⟩
def H.INT_EN : Fld := ⟨0x14, 0, 32⟩
def H.INT_FIRST : Fld := ⟨0x1C, 0, 32⟩
def H.VALID : Fld := ⟨0x20, 31, 1⟩
def H.OVF : Fld := ⟨0x20, 30, 1⟩

/-- Domain state (R48): 0 OFF, 1 RAMP, 2 INIT, 3 ON, 4 DISCHARGE, 5 FAULT. -/
def Dev.domState (d : Dev) (n : Nat) : Nat := d.get 0x02 (F.PWR_DOM_STATE_STATE.at (4 * n))

/-- The domain is ON. -/
def Dev.domOn (d : Dev) (n : Nat) : Bool := d.domState n == 3

/-- The page is reachable: its domain is ON, and PD27 for an east-die page (R24, R46). -/
def Dev.pageOn (d : Dev) (p : Nat) : Bool :=
  match pageDom p with
  | some n => d.domOn n && (pageDie p == 0 || d.domOn 27)
  | none => d.power.island

/-- The mode (R60). -/
def Dev.mode (d : Dev) : Nat := d.get 0x01 F.SVC_MODE_MODE

/-- The page's function is RUNNING in a domain that is ON. -/
def Dev.running (d : Dev) (p : Nat) : Bool :=
  d.fn p == 2 && (match pageDom p with | some n => d.domOn n | none => true)

/-- SVC_CFG.FLAM_WEST or FLAM_EAST (R78). -/
def Dev.flam (d : Dev) (die : Nat) : Bool := d.get 0x01 (if die = 0 then F.SVC_CFG_FLAM_WEST else F.SVC_CFG_FLAM_EAST) == 1

/-- Pages of two-instance and other blocks by instance. -/
def pgPage (n : Nat) : Nat := 0x10 + n
def lkpPage (q : Nat) : Nat := 0x20 + q
def lrnPage (q : Nat) : Nat := 0x24 + q
def ordPage (d : Nat) : Nat := 0x28 + d
def bpmPage (d : Nat) : Nat := 0x2A + d
def swcPage (d : Nat) : Nat := 0x2C + d
def tmPage (d : Nat) : Nat := 0x2E + d
def hbmPage (h : Nat) : Nat := 0x30 + h
def pealPage (d : Nat) : Nat := 0x34 + d
def carPage (d : Nat) : Nat := 0x36 + d
def eliPage (d : Nat) : Nat := 0x38 + d
def ulxPage (d : Nat) : Nat := 0x3A + d
def engPage (c : Nat) : Nat := 0x40 + c

end Sys2Proof.Machine
end

