-- ==== Sys2Proof/Machine/Ops.lean ====
section
/-! DEFINITION. The operations every block shares: outputs, interrupts and MSI-X (R35, R36), error capture (R22), the
event log (R388–R390), rotating priority (R17), the time of the time unit, free values and applying shadow settings (R70). -/

namespace Sys2Proof.Machine

/-- Something leaves the block. -/
def Dev.emit (d : Dev) (o : Out) : Dev := { d with out := o :: d.out }

/-- The next free value of the model, and the count advanced. -/
def Dev.free (d : Dev) : Word × Dev := (Config.freeWord d.fresh, { d with fresh := d.fresh + 1 })

/-! Time -/

/-- The master counter in nanoseconds. -/
def Dev.now (d : Dev) : Nat := d.time.sec * 1000000000 + d.time.ns

/-- TCLK cycles of 1 ns since the island started: the time of shapers and of the calendar wheel (R236, R237), which no write
moves. -/
def Dev.clk (d : Dev) : Nat := d.power.clock

/-- A counter value in ns less another, as a signed 64-bit difference (R318). -/
def diff64 (a b : Nat) : Int := toSigned 64 ((a + 2 ^ 64 - b % 2 ^ 64) % 2 ^ 64)

/-! The host link -/

def hifPage : Nat := 0x05

def Dev.lstate (d : Dev) : Nat := d.get hifPage F.HIF_LINK_STAT_LSTATE

/-- The function is in D3hot (R352). -/
def Dev.d3hot (d : Dev) : Bool := d.get hifPage F.HIF_LINK_STAT_DSTATE != 0

/-- The link is down or its function in D3hot: the device issues no requests (R352). -/
def Dev.hostShut (d : Dev) : Bool := d.lstate == 5 || d.d3hot

/-! Interrupts -/

/-- The message of a vector waits: it is masked (R36), or the device issues no requests (R352, log entry 175). -/
def Dev.msixHeld (d : Dev) (v : Nat) : Bool := bit (Map.rd 1 d.msix.table (4 * v + 3)).toNat 0 || d.hostShut

/-- Sends the message of a vector, or sets its pending bit while it waits (R36). -/
def Dev.sendMsix (d : Dev) (v : Nat) : Dev :=
  if !d.domOn 29 then d
  else if d.msixHeld v then
    { d with msix := { d.msix with pba := d.msix.pba.wr false v true } }
  else
    d.emit (.msix v ((Map.rd 0 d.msix.table (4 * v)).toNat + 2 ^ 32 * (Map.rd 0 d.msix.table (4 * v + 1)).toNat)
      (Map.rd 0 d.msix.table (4 * v + 2)).toNat)

/-- Pending messages that no longer wait are sent, in ascending order of vector. -/
def Dev.sendPending (d : Dev) : Dev :=
  List.foldl (fun (d : Dev) (e : Nat × Bool) => if d.msixHeld e.1 then d
    else ({ d with msix := { d.msix with pba := d.msix.pba.wr false e.1 false } } : Dev).sendMsix e.1) d d.msix.pba

/-- The interrupt line of a page (R35). -/
def Dev.line (d : Dev) (p : Nat) : Bool := ((d.word p 0x10) &&& (d.word p 0x14)) != 0

/-- Sends the message of page `p`'s route, where it is enabled (R35, R36). -/
def Dev.sendRoute (d : Dev) (p : Nat) : Dev :=
  if d.get 0x05 (F.HIF_INT_ROUTE_EN.at (4 * p)) = 1 then d.sendMsix (d.get 0x05 (F.HIF_INT_ROUTE_VECTOR.at (4 * p))) else d

/-- Sets INT_STAT bits and INT_FIRST (R21), without the message of the line. -/
def Dev.raiseInt (d : Dev) (p mask : Nat) : Dev :=
  let old := (d.word p 0x10).toNat
  let d := d.setWord p 0x10 (BitVec.ofNat 32 (Nat.lor old mask))
  if old = 0 ∧ mask ≠ 0 then d.setWord p 0x1C (BitVec.ofNat 32 (2 ^ 31 + ((setBits 32 mask).headD 0))) else d

/-- Sets INT_STAT bits with all the effects of the event: INT_FIRST (R21) and the line's message (R36). -/
def Dev.setInt (d : Dev) (p mask : Nat) : Dev :=
  let d' := d.raiseInt p mask
  if !d.line p && d'.line p then d'.sendRoute p else d'

/-- Sets one INT_STAT bit. -/
def Dev.int (d : Dev) (p i : Nat) : Dev := d.setInt p (2 ^ i)

/-- Clears INT_STAT bits; INT_FIRST.VALID clears when none is left (R21). -/
def Dev.clearInt (d : Dev) (p mask : Nat) : Dev :=
  let w := (d.word p 0x10) &&& ~~~(BitVec.ofNat 32 mask)
  let d := d.setWord p 0x10 w
  if w = 0 then d.set p ⟨0x1C, 31, 1⟩ 0 else d

/-! The event log -/

/-- One record to be posted (R389). -/
structure LogRec where
  page : Nat
  kind : Nat
  cls : Nat
  ovf : Bool
  event : Nat
  d0 : Nat
  d1 : Nat
  d2 : Nat
  req : Nat
  write : Bool
  deriving DecidableEq, Repr

/-- The eight words of a record (R389). -/
def LogRec.words (r : LogRec) (sec ns seq : Nat) : List Word :=
  [BitVec.ofNat 32 (r.page + r.kind * 2 ^ 8 + r.cls * 2 ^ 14 + b2n r.ovf * 2 ^ 17 + pageDie r.page * 2 ^ 18 + r.event * 2 ^ 19),
   BitVec.ofNat 32 r.d0, BitVec.ofNat 32 r.d1, BitVec.ofNat 32 r.d2, BitVec.ofNat 32 ns, BitVec.ofNat 32 sec,
   BitVec.ofNat 32 seq, BitVec.ofNat 32 (r.req + b2n r.write * 2 ^ 16)]

/-- Appends a record to the ring; a full ring overwrites its oldest record (R388, R390). -/
def Dev.pushLog (d : Dev) (r : LogRec) : Dev :=
  let seq := d.get 0x04 F.ERR_LOG_SEQ_SEQ
  let w := r.words d.time.sec d.time.ns seq
  let full := d.log.ring.length ≥ 4096
  let ring := (if full then d.log.ring.drop 1 else d.log.ring) ++ [w]
  let was := d.log.ring.isEmpty
  let latch := if full then none else d.log.latch
  let d := { d with log := { d.log with ring := ring, latch := latch } }
  let d := d.set 0x04 F.ERR_LOG_SEQ_SEQ (seq + 1)
  let d := d.set 0x04 F.ERR_LOG_STAT_COUNT ring.length
  let d := if full then (d.bump 0x04 F.ERR_LOG_STAT_LOST).int 0x04 1 else d
  let d := if was then d.int 0x04 0 else d
  let d := if r.cls = 1 ∨ r.cls = 2 then d.int 0x04 2 else d
  if r.cls = 7 then d.int 0x04 4 else d

/-- Counts an event in its class and posts its record where the class is logged (R388). -/
def Dev.post (d : Dev) (r : LogRec) : Dev :=
  let d := d.bump 0x04 (F.ERR_CNT_COUNT.at (4 * r.cls))
  if bit (d.get 0x04 F.ERR_CFG_LOG_EN) r.cls then d.pushLog r else d

/-- Posts an event of R388's table, which has no ERR_CAP record of its own. -/
def Dev.event (d : Dev) (page ev cls d0 d1 d2 : Nat) : Dev := d.post ⟨page, 0, cls, false, ev, d0, d1, d2, 0xFFFF, false⟩

/-! Error capture -/

/-- One error as R22 records it: every kind it shows, and what ERR_CAP0–7 hold of it. -/
structure Cap where
  page : Nat
  kinds : List Nat
  off : Nat := 0
  data : Nat := 0
  write : Bool := false
  req : Nat := 0xFFFF
  d5 : Nat := 0
  d6 : Nat := 0
  d7 : Nat := 0
  deriving DecidableEq, Repr

/-- The sticky bit of ERR_CAP0 for a kind (R21). -/
def stickyBit (kind : Nat) : Nat :=
  if kind = 0x01 then 16 else if kind = 0x02 then 17 else if kind = 0x03 then 18 else if kind = 0x04 then 19
  else if kind = 0x05 then 20 else if kind = 0x06 then 21 else if kind = 0x07 ∨ kind = 0x08 then 22 else 23

/-- Records one error in its page and in the log (R22, R388). -/
def Dev.capture (d : Dev) (c : Cap) : Dev :=
  match c.kinds with
  | [] => d
  | k0 :: ks =>
    let kind := ks.foldl min k0
    let p := c.page
    let valid := d.get p H.VALID = 1
    let cap0 := (d.word p 0x20).toNat
    let sticky := c.kinds.foldl (fun v k => setBit v (stickyBit k)) cap0
    let d := if valid then d.setWord p 0x20 (BitVec.ofNat 32 (setBit sticky 30))
      else
        let w0 := putBits (putBits (clrBit (setBit sticky 31) 30) 24 6 kind) 0 16 c.off
        let d := d.setWord p 0x20 (BitVec.ofNat 32 w0)
        let d := d.setWord p 0x24 (BitVec.ofNat 32 c.data)
        let d := d.setWord p 0x28 (BitVec.ofNat 32 (c.req % 2 ^ 16 + b2n c.write * 2 ^ 16))
        let d := d.setWord p 0x2C (BitVec.ofNat 32 d.time.ns)
        let d := d.setWord p 0x30 (BitVec.ofNat 32 d.time.sec)
        let d := d.setWord p 0x34 (BitVec.ofNat 32 c.d5)
        let d := d.setWord p 0x38 (BitVec.ofNat 32 c.d6)
        let d := d.setWord p 0x3C (BitVec.ofNat 32 c.d7)
        d.int p 31
    d.post ⟨p, kind, (pageKind p).classOf kind, valid, 0, c.d5, c.d6, c.d7, c.req, c.write⟩

/-- Records an internal error of a block (REQ_ID 0xFFFF). -/
def Dev.err (d : Dev) (p kind : Nat) (d5 d6 d7 : Nat := 0) : Dev := d.capture { page := p, kinds := [kind], d5 := d5, d6 := d6, d7 := d7 }

/-- The interrupt bits of a raised bound: ERR's bit 3, and the bit of a page that has one for it (R350, R374). -/
def Dev.madeConsistent (d : Dev) (p : Nat) : Dev :=
  (match pageKind p with | .hif | .ulx => d.int p 3 | _ => d).int 0x04 3

/-- A check of a pair of bounds that no write of the higher bound's page calls for: where the bound was raised, its page
records the kind as an error of the device's own (R399). -/
def Dev.inconsistent (d : Dev) (raised : Option Dev) (p kind : Nat) : Dev :=
  match raised with
  | some x => (x.err p kind).madeConsistent p
  | none => d

/-- A correction or an uncorrectable word of on-chip memory `m` on a die is counted (R391, R388). -/
def Dev.eccCount (d : Dev) (m die : Nat) : Ecc → Dev
  | .clean => d
  | .corrected => (d.bump 0x04 (F.ERR_CE_COUNT.at (8 * m + 4 * die))).cnt 0x04 F.ERR_CNT_COUNT 0
  | .bad => d.bump 0x04 (F.ERR_UE_COUNT.at (8 * m + 4 * die))

/-- Shows a record, or zeros, in `n` consecutive registers. -/
def Dev.showRec (d : Dev) (p off : Nat) : Nat → List Word → Dev
  | 0, _ => d
  | n + 1, r => (d.setWord p off (r.headD 0)).showRec p (off + 4) n r.tail

/-! Rotating priority -/

/-- The requesting index that comes first from the pointer on, of `n` indices (R17). -/
def rrPick (ptr n : Nat) (req : List Nat) : Option Nat := argMin (fun i => (((i + n - ptr % n) % n : Nat) : Int)) req

/-- Grants one of the requesting indices of resource `res` and moves the pointer after a contended choice (R17). -/
def Dev.grant (d : Dev) (res n : Nat) (req : List Nat) : Option Nat × Dev :=
  match rrPick (Map.rd 0 d.rr res) n req with
  | none => (none, d)
  | some g => (some g, if req.length ≥ 2 then { d with rr := d.rr.wr 0 res ((g + 1) % n) } else d)

/-- The resources of R17, one pointer each. -/
def Rr.hbm (h rank : Nat) : Nat := 32 * h + rank
def Rr.ports (pg : Nat) : Nat := 0x7200 + pg
def Rr.swc (die : Nat) : Nat := 0x7300 + die
def Rr.thread (engine : Nat) : Nat := 0x8000 + engine
def Rr.homeCluster (pg : Nat) : Nat := 0x1000 + pg
def Rr.engine (c : Nat) : Nat := 0x2000 + c
def Rr.victim (c : Nat) : Nat := 0x3000 + c
def Rr.stack (die : Nat) : Nat := 0x4000 + die
def Rr.node (port : Nat) : Nat := 0x10000 + port
def Rr.class (node : Nat) : Nat := 0x20000 + node
def Rr.queue (level : Nat) : Nat := 0x40000 + level
def Rr.member (trunk : Nat) : Nat := 0x5000 + trunk
def Rr.transfer (die : Nat) : Nat := 0x6000 + die

def Rr.tags : Nat := 0x7000
def Rr.hostPath : Nat := 0x7001
def Rr.ulux (dev : Nat) : Nat := 0x7100 + dev

/-! Shadow settings -/

/-- Page `p` holds an unapplied shadow write. -/
def Dev.shadowKeys (d : Dev) (p : Nat) : List Nat :=
  (d.csr.inForce.filter (fun e => csrKey p 0 ≤ e.1 && e.1 < csrKey (p + 1) 0)).map (·.1)

/-- All pending shadow writes of a page take effect together (R70). -/
def Dev.applyShadow (d : Dev) (p : Nat) : Dev :=
  { d with csr := { d.csr with inForce := d.csr.inForce.dropRange (csrKey p 0) (csrKey (p + 1) 0) } }

/-- Every shadowed register of the page returns to its applied value (R70). -/
def Dev.discardShadow (d : Dev) (p : Nat) : Dev :=
  let d' := (d.shadowKeys p).foldl (fun d k => d.setWord p (k % 0x10000) (d.liveWord p (k % 0x10000))) d
  d'.applyShadow p

/-- A write of a register with shadowed bits `mask`: the value read back changes at once, and with it what is in force of
the other bits; what is in force of the shadowed bits stays (R70). -/
def Dev.storeShadow (d : Dev) (p o mask : Nat) (w : Word) : Dev :=
  let k := csrKey p o
  let m : Word := BitVec.ofNat 32 mask
  let live : Word := (d.liveWord p o &&& m) ||| (w &&& ~~~m)
  ({ d with csr := { d.csr with inForce := d.csr.inForce.put k live } } : Dev).setWord p o w

/-- A host write of a register that is shadowed whole. -/
def Dev.writeShadow (d : Dev) (p o : Nat) (w : Word) : Dev := d.storeShadow p o 0xFFFFFFFF w

/-- Function control: FN_STATE.STATE and PENDING (R21, R65). -/
def Dev.setFn (d : Dev) (p st pend : Nat) : Dev := (d.set p H.STATE st).set p H.PENDING pend

/-- A function reaches STOPPED or RUNNING: INT_STAT.FN sets (R65). -/
def Dev.fnArrive (d : Dev) (p st : Nat) : Dev := (d.setFn p st 0).int p 30

/-- A function that cannot start returns to STOPPED with START_FAIL and its cause (R67). -/
def Dev.startFail (d : Dev) (p cause : Nat) : Dev := (d.fnArrive p 0).err p 0x0F cause

end Sys2Proof.Machine
end

