-- ==== Sys2Proof/Machine/Time.lean ====
section
/-! DEFINITION. The time unit (R312–R330): the counter and its adjustment, comparisons, captures, transmit timestamps,
chimes, PPS and the mesh update. -/

namespace Sys2Proof.Machine

def Dev.setTime (d : Dev) (t : TimeUnit) : Dev := { d with time := t }

/-- The counter runs: PD28 is INIT or ON (R312). -/
def Dev.timeRuns (d : Dev) : Bool := d.domState 28 == 2 || d.domState 28 == 3

/-- diff(now, t) ≥ 0: an action of time `t` ns is due (R318). -/
def Dev.due (d : Dev) (t : Int) : Bool := decide (toSigned 64 (((d.now : Int) - t) % (2 ^ 64 : Nat)).toNat ≥ 0)

/-- A 32-bit seconds value with the upper bits of the counter, and nanoseconds, as a time in ns (R325, R243, R342). -/
def Dev.commitTime (d : Dev) (s ns : Nat) : Nat := (d.time.sec / 2 ^ 32 * 2 ^ 32 + s) * 1000000000 + ns

/-- Nanoseconds in the counter's whole range. -/
def timeSpan : Nat := 2 ^ 48 * 1000000000

/-- The PPS output follows the counter: EN is set, and the TIME function runs (R327, R329). -/
def Dev.ppsOn (d : Dev) : Bool := d.get 0x08 F.TIME_PPS_EN == 1 && d.running 0x08

/-- The counter takes a new whole-nanosecond value; where the next second boundary is then due, PPS is (R318, R319, R327). -/
def Dev.moveTime (d : Dev) (v : Int) : Dev :=
  let new := (v % (timeSpan : Int)).toNat
  let passed := decide (diff64 new ((d.now / 1000000000 + 1) * 1000000000) ≥ 0)
  d.setTime { d.time with sec := new / 1000000000, ns := new % 1000000000, ppsDue := d.time.ppsDue || (passed && d.ppsOn) }

/-- What the slew adds in one cycle, in 10⁻⁶ ns (R315). -/
def Dev.slewStep (d : Dev) : Int :=
  let t := d.time
  let r : Int := if t.slewRate = 0 then d.get 0x08 F.TIME_SLEW_PPM else t.slewRate
  if t.slew ≥ 0 then min r t.slew else max (-r) t.slew

/-- One TCLK cycle: 1 ns, TIME_FREQ × 2⁻³² ns and the slew (R312). -/
def Dev.advance (d : Dev) : Dev :=
  if !d.timeRuns then d
  else
    let t := d.time
    let s := d.slewStep
    -- the fraction the slew adds: the difference of the floors of what is left before and after
    let sf : Int := t.slew * 2 ^ 32 / 1000000 - (t.slew - s) * 2 ^ 32 / 1000000
    let f : Int := t.frac + 2 ^ 32 + toSigned 32 (d.get 0x08 F.TIME_FREQ_FREQ) + sf
    let d := d.setTime { t with frac := (f % 2 ^ 32).toNat, slew := t.slew - s }
    d.moveTime ((d.now : Int) + f / 2 ^ 32)

/-- The time unit is a follower: its own device ID is no leader's (R328). -/
def Dev.meshRole (d : Dev) : Nat :=
  let r := d.live 0x08 F.TIME_MESH_CFG_ROLE
  if r = 2 ∧ d.live 0x08 F.TIME_MESH_CFG_LEADER = d.power.uxId then 0 else if r = 3 then 0 else r

/-- A write of TIME_CTL that is ignored with TIME_CONFLICT (R315). -/
def Dev.timeConflict (d : Dev) (v : Nat) : Bool :=
  decide (b2n (bit v 0) + b2n (bit v 1) + b2n (bit v 2) > 1) || (bit v 2 && !bit v 3 && d.get 0x08 F.TIME_STAT_SLEWING == 1)

/-- A write of TIME_CTL (R315). -/
def Dev.timeCtl (d : Dev) (v : Nat) : Dev :=
  let set := bit v 0
  let step := bit v 1
  let slew := bit v 2
  let abort := bit v 3
  if d.timeConflict v then d
  else
    let adj := toSigned 32 (d.get 0x08 F.TIME_ADJ_NS)
    let d := if abort then (d.setTime { d.time with slew := 0 }).set 0x08 F.TIME_STAT_SLEWING 0 else d
    if set then
      let s := d.get 0x08 (F.TIME_SET_VALUE.at 4) + d.get 0x08 (F.TIME_SET_VALUE.at 8) % 65536 * 2 ^ 32
      (d.setTime { d.time with frac := 0 }).moveTime (s * 1000000000 + d.get 0x08 F.TIME_SET_VALUE % 2 ^ 30 : Nat)
    else if step then d.moveTime ((d.now : Int) + adj)
    else if slew then
      if adj = 0 then (d.setTime { d.time with slew := 0 }).int 0x08 5
      else (d.setTime { d.time with slew := adj * 1000000, slewRate := 0 }).set 0x08 F.TIME_STAT_SLEWING 1
    else d

/-- SLEW_COMPLETE (R315): the whole amount has been added. -/
def Dev.slewComplete (d : Dev) : Dev :=
  if d.get 0x08 F.TIME_STAT_SLEWING ≠ 1 then d
  else
    let left := d.time.slew
    let f : Int := d.time.frac + left * 2 ^ 32 / 1000000
    let d := (d.setTime { d.time with slew := 0, frac := (f % 2 ^ 32).toNat }).moveTime ((d.now : Int) + f / 2 ^ 32)
    (d.set 0x08 F.TIME_STAT_SLEWING 0).int 0x08 5

/-- SLAVE_ALIGNED (R313). -/
def Dev.slaveAligned (d : Dev) : Dev :=
  if d.domOn 27 ∧ d.domOn 28 then d.set 0x09 F.TIME_STAT_ALIGNED 1 else d

/-- The words of TIME_NOW (R330). -/
def Dev.nowWords (d : Dev) : List Word :=
  let t := d.time
  [BitVec.ofNat 32 t.frac, BitVec.ofNat 32 t.ns, BitVec.ofNat 32 t.sec, BitVec.ofNat 32 (t.sec / 2 ^ 32)]

/-! FIFOs (R322, R324) -/

def Dev.showCaps (d : Dev) : Dev :=
  (d.set 0x08 F.TIME_CAP_DEPTH_COUNT d.time.caps.length).showRec 0x08 F.TIME_CAP_REC_WORD.off 4 (d.time.caps.headD [])

def Dev.txFifo (d : Dev) (die : Nat) : List (List Word) := Map.rd [] d.time.txs die

def Dev.setTxFifo (d : Dev) (die : Nat) (l : List (List Word)) : Dev :=
  let d := d.setTime { d.time with txs := d.time.txs.wr [] die l }
  (d.set (8 + die) F.TIME_TX_DEPTH_COUNT l.length).showRec (8 + die) F.TIME_TX_REC_WORD.off 4 (l.headD [])

/-- CAPTURE (R324): an edge that its input selects is recorded. -/
def Dev.captureEdge (d : Dev) (i : Nat) (rising : Bool) : Dev :=
  let e := d.get 0x08 (F.TIME_CAP_CFG_EDGE.at (4 * i))
  if !d.running 0x08 ∨ !bit e (if rising then 0 else 1) then d
  else if d.time.caps.length ≥ 64 then (d.bump 0x08 F.TIME_CAP_DEPTH_LOST).int 0x08 1
  else
    let t := d.time
    let r : List Word := [BitVec.ofNat 32 t.ns, BitVec.ofNat 32 t.sec, BitVec.ofNat 32 (t.sec / 2 ^ 32 + i * 2 ^ 16 + b2n rising * 2 ^ 19), 0]
    let d := (d.setTime { t with caps := t.caps ++ [r] }).showCaps
    if t.caps.isEmpty then d.int 0x08 0 else d

/-- A pop of the capture FIFO (R324). -/
def Dev.popCap (d : Dev) : Dev := (d.setTime { d.time with caps := d.time.caps.drop 1 }).showCaps

/-- A transmit timestamp record of a port (R321, R322). -/
def Dev.txRecord (d : Dev) (port : Nat) (t : Nat) (msg seqId dom : Nat) : Dev :=
  let die := port / 64
  let p := 8 + die
  if !d.running p then d.tally p F.TIME_TX_DEPTH_LOST
  else if (d.txFifo die).length ≥ 256 then (d.bump p F.TIME_TX_DEPTH_LOST).int p 3
  else
    let s := t / 1000000000
    let r : List Word := [BitVec.ofNat 32 (t % 1000000000), BitVec.ofNat 32 s,
      BitVec.ofNat 32 (s / 2 ^ 32 % 65536 + port * 2 ^ 16 + msg * 2 ^ 23), BitVec.ofNat 32 (seqId + dom * 2 ^ 16)]
    let was := (d.txFifo die).isEmpty
    let d := d.setTxFifo die (d.txFifo die ++ [r])
    if was then d.int p 2 else d

/-- A pop of a transmit FIFO (R322). -/
def Dev.popTx (d : Dev) (die : Nat) : Dev := d.setTxFifo die ((d.txFifo die).drop 1)

/-! Chimes (R325, R326) -/

def Dev.chime (d : Dev) (c : Nat) : Option Chime := Map.rd none d.time.chimes c
def Dev.setChime (d : Dev) (c : Nat) (x : Option Chime) : Dev := d.setTime { d.time with chimes := d.time.chimes.wr none c x }
def Dev.setPulse (d : Dev) (c : Nat) (b : Bool) : Dev := d.setTime { d.time with pulse := d.time.pulse.wr false c b }
def Dev.chimeState (d : Dev) (c st : Nat) : Dev := d.set 0x08 (F.TIME_CHIME_STATE.at (32 * c)) st

/-- CANCEL: the output returns inactive and the chime reads IDLE (R325). -/
def Dev.chimeCancel (d : Dev) (c : Nat) : Dev := ((d.setChime c none).setPulse c false).chimeState c 0

/-- The next pulse time after a pulse at `x.next`, and the further times the counter has passed (R326). -/
def Dev.chimeNext (d : Dev) (x : Chime) : Int × Nat :=
  let behind := toSigned 64 (((d.now : Int) - x.next) % (2 ^ 64 : Nat)).toNat
  let n := (behind / x.period).toNat
  (x.next + (n + 1) * x.period, n)

/-- A commit of a chime is refused with CHIME_BAD (R325). -/
def Dev.chimeBad (d : Dev) (c : Nat) : Bool :=
  let p := d.get 0x08 (F.TIME_CHIME_PERIOD_NS.at (32 * c))
  let w := d.get 0x08 (F.TIME_CHIME_WIDTH_NS.at (32 * c))
  decide (w = 0) || (d.get 0x08 (F.TIME_CHIME_PERIODIC.at (32 * c)) == 1 && (decide (p < 100) || decide (w ≥ p)))

/-- ARM commits START, PERIOD and WIDTH (R325). -/
def Dev.chimeArm (d : Dev) (c : Nat) : Dev :=
  let f (x : Fld) : Nat := d.get 0x08 (x.at (32 * c))
  let per := f F.TIME_CHIME_PERIODIC = 1
  let p := f F.TIME_CHIME_PERIOD_NS
  let w := f F.TIME_CHIME_WIDTH_NS
  if d.chimeBad c then d
  else
    let start := d.commitTime (f F.TIME_CHIME_START_S) (f F.TIME_CHIME_START_NS)
    let x : Chime := ⟨per, start, p, w, start⟩
    if d.due start then
      -- not after the counter: fires at once and reads LATE
      let d := ((d.setPulse c true).chimeState c 3).int 0x08 4
      d.setChime c (if per then some { x with next := (d.chimeNext x).1 } else none)
    else (d.setChime c (some x)).chimeState c 1

/-- CHIME_PULSE (R325, R326): a due pulse begins. -/
def Dev.chimePulse (d : Dev) (c : Nat) : Dev :=
  match d.chime c with
  | none => d
  | some x =>
    if !d.running 0x08 ∨ !d.due x.next then d
    else
      let d := d.setPulse c true
      if !x.periodic then (d.setChime c none).chimeState c 2
      else
        let (n, skip) := d.chimeNext x
        let d := d.setChime c (some { x with next := n })
        if skip = 0 then d else (d.bump 0x08 (F.TIME_CHIME_SKIP.at (32 * c)) skip).int 0x08 4

/-- PPS (R327): a reached second boundary begins a pulse. -/
def Dev.ppsPulse (d : Dev) : Dev :=
  if d.time.ppsDue ∧ d.running 0x08 ∧ d.get 0x08 F.TIME_PPS_EN = 1 then d.setTime { d.time with pps := true, ppsDue := false }
  else d

/-- A write that clears TIME_PPS.EN: a boundary reached before gives no pulse. -/
def Dev.ppsOff (d : Dev) : Dev := if d.ppsOn then d else d.setTime { d.time with ppsDue := false }

/-- Levels of the outputs at their contacts: active level XOR POL (R325, R327). -/
def Dev.chimeLevel (d : Dev) (c : Nat) : Bool := xor (Map.rd false d.time.pulse c) (d.get 0x08 (F.TIME_CHIME_POL.at (32 * c)) == 1)
def Dev.ppsLevel (d : Dev) : Bool := xor d.time.pps (d.get 0x08 F.TIME_PPS_POL == 1)

/-! Mesh time (R328) -/

/-- mesh_update of R328 with offset `o` in ns, and the LOCK rule. -/
def Dev.meshUpdate (d : Dev) (o : Int) : Dev :=
  let d := d.set 0x08 F.TIME_MESH_OFF_NS (ofSigned 32 o)
  let d := d.set 0x08 F.TIME_STAT_LOST 0
  let good := if -5 ≤ o ∧ o ≤ 5 then d.time.good + 1 else 0
  let was := d.get 0x08 F.TIME_STAT_LOCK = 1
  let now := good ≥ 16 ∨ (was ∧ good > 0)
  let d := d.setTime { d.time with good := min good 16 }
  let d := if was ≠ now then (d.set 0x08 F.TIME_STAT_LOCK (b2n now)).int 0x08 6 else d
  let stepNs : Int := max 1 (d.live 0x08 F.TIME_MESH_CFG_STEP_NS)
  if o > stepNs ∨ -o > stepNs then d.moveTime ((d.now : Int) - o)
  else
    let i := max (-4294967) (min 4294967 (d.time.integ - o * 2 ^ 32 / 2000000))
    let amt : Int := -o / 4
    let d := d.set 0x08 F.TIME_FREQ_FREQ (ofSigned 32 i)
    d.setTime { d.time with integ := i, slew := amt * 1000000, slewRate := (if amt ≥ 0 then amt else -amt).toNat * 8 }

/-- MESH_LOST (R328): no exchange has completed for 4 ms. -/
def Dev.meshLost (d : Dev) : Dev :=
  if d.meshRole ≠ 2 ∨ !d.running 0x08 then d
  else
    let was := d.get 0x08 F.TIME_STAT_LOCK = 1
    let d := (d.setTime { d.time with good := 0 }).set 0x08 F.TIME_STAT_LOCK 0
    let d := if was then d.int 0x08 6 else d
    if d.get 0x08 F.TIME_STAT_LOST = 1 then d else (d.set 0x08 F.TIME_STAT_LOST 1).int 0x08 7

/-! Starting and stopping (R329) -/

/-- STARTING of a TIME page: both FIFOs empty; a follower that names itself is refused with RANGE. -/
def Dev.startTime (d : Dev) (p : Nat) : Dev :=
  let d := d.setTxFifo (p - 8) []
  if p ≠ 0x08 then d
  else
    let d := (d.setTime { d.time with caps := [], ppsDue := false }).showCaps
    if d.live 0x08 F.TIME_MESH_CFG_ROLE = 2 ∧ d.live 0x08 F.TIME_MESH_CFG_LEADER = d.power.uxId then
      d.err 0x08 0x20 (d.liveWord 0x08 0x0700).toNat
    else d

/-- STOPPING of a TIME page: chimes return to IDLE and PPS stops. -/
def Dev.stopTime (d : Dev) (p : Nat) : Dev :=
  if p ≠ 0x08 then d
  else
    let d := (List.range 8).foldl (fun d c => d.chimeCancel c) d
    d.setTime { d.time with pps := false, ppsDue := false, good := 0 }

/-! Frame timestamps (R320) -/

/-- A receive timestamp: the contact time less RX_DLY, as seconds and nanoseconds. -/
def Dev.rxStamp (d : Dev) (port : Nat) : Nat × Nat :=
  let dly := toSigned 16 (d.get (8 + port / 64) (F.TIME_PORT_TS_RX_DLY.at (8 * (port % 64))))
  let t := (((d.now : Int) - dly) % (timeSpan : Int)).toNat
  if d.timeRuns then (t / 1000000000, t % 1000000000) else (0, 0)

/-- A transmit timestamp: the contact time plus TX_DLY, in ns. -/
def Dev.txStamp (d : Dev) (port : Nat) : Nat :=
  let dly := toSigned 16 (d.get (8 + port / 64) (F.TIME_PORT_TS_TX_DLY.at (8 * (port % 64))))
  if d.timeRuns then (((d.now : Int) + dly) % (timeSpan : Int)).toNat else 0

end Sys2Proof.Machine
end

