-- ==== Sys2Proof/Machine/Modules.lean ====
section
/-! DEFINITION. Optical module management (R331–R344): cages, commands, the scanner, the ledger, rate advisories and
timed writes. -/

namespace Sys2Proof.Machine

/-- The MOD page. -/
def modPage : Nat := 0x07

def Dev.cage (d : Dev) (p : Nat) : Cage := Map.rd Cage.init d.mods.cages p
def Dev.setCage (d : Dev) (p : Nat) (c : Cage) : Dev := { d with mods := { d.mods with cages := d.mods.cages.wr Cage.init p c } }

/-- A field of element `p` of MOD_CAGE_STAT or MOD_CAGE_CTL. -/
def Dev.cageGet (d : Dev) (p : Nat) (f : Fld) : Nat := d.get modPage (f.at (4 * p))
def Dev.cageSet (d : Dev) (p : Nat) (f : Fld) (v : Nat) : Dev := d.set modPage (f.at (4 * p)) v

/-- Cage states (R336): 0 EMPTY, 1 RESET, 2 INIT, 3 READY, 4 FAULT. -/
def Dev.cageState (d : Dev) (p : Nat) : Nat := d.cageGet p F.MOD_CAGE_STAT_STATE

/-- Output lines of a cage (R332, R336): RST_N, and LPM; none while they are undriven, PD28 not being ON. -/
def Dev.rstN (d : Dev) (p : Nat) : Option Bool := if d.domOn 28 then some (decide (d.cageState p ≥ 2)) else none
def Dev.lpm (d : Dev) (p : Nat) : Option Bool :=
  if d.domOn 28 then some !(d.cageState p == 3 && d.cageGet p F.MOD_CAGE_CTL_HP == 1) else none

/-! Bus transactions (R333, R334) -/

/-- Attempts that a master has repeated in the transaction in hand. -/
def Dev.busTries (d : Dev) (m : Nat) : Nat := Map.rd 0 d.mods.tries m
def Dev.setBusTries (d : Dev) (m n : Nat) : Dev := { d with mods := { d.mods with tries := d.mods.tries.wr 0 m n } }

/-- The transaction in hand has an attempt left (R334). -/
def Dev.mayRetry (d : Dev) (m : Nat) : Bool := decide (d.busTries m < d.get modPage (F.MOD_BUS_RETRIES.at (16 * m)))

/-- A transaction of a cage's master ends on the bus: it is counted, and the next one begins at its first attempt. -/
def Dev.busEnd (d : Dev) (cage : Nat) (write : Bool) (page bank addr len : Nat) (bytes : List Byte) : Dev :=
  ((d.cnt modPage F.MOD_CNT_COUNT 0).setBusTries (cage / 8) 0).emit (.modBus (cage / 8) cage write page bank addr len bytes)

/-- Reads of a cage, one transaction for each (page, bank, address, length). -/
def Dev.busReads (d : Dev) (cage : Nat) (l : List (Nat × Nat × Nat × Nat)) : Dev :=
  l.foldl (fun d x => d.busEnd cage false x.1 x.2.1 x.2.2.1 x.2.2.2 []) d

/-- MOD is RUNNING or finishing. -/
def Dev.modActive (d : Dev) : Bool := d.domOn 28 && (d.fn modPage == 2 || d.fn modPage == 3)

/-! Events (R339) -/

def Dev.showModEvts (d : Dev) : Dev :=
  (d.set modPage F.MOD_EVT_DEPTH_COUNT d.mods.evts.length).showRec modPage F.MOD_EVT_WORD.off 4 (d.mods.evts.headD [])

/-- Appends an event record (R339, R322). -/
def Dev.modEvent (d : Dev) (ty cage qty flag lane cause value : Nat) : Dev :=
  if d.mods.evts.length ≥ 256 then ((d.bump modPage F.MOD_EVT_DEPTH_LOST).cnt modPage F.MOD_CNT_COUNT 6).int modPage 1
  else
    let w0 := ty + cage * 2 ^ 4 + qty * 2 ^ 11 + flag * 2 ^ 14 + lane * 2 ^ 16 + cause * 2 ^ 20
    let r : List Word := [BitVec.ofNat 32 w0, BitVec.ofNat 32 value, BitVec.ofNat 32 d.time.ns, BitVec.ofNat 32 d.time.sec]
    let was := d.mods.evts.isEmpty
    let d := ({ d with mods := { d.mods with evts := d.mods.evts ++ [r] } } : Dev).showModEvts
    if was then d.int modPage 0 else d

def Dev.popModEvt (d : Dev) : Dev := ({ d with mods := { d.mods with evts := d.mods.evts.drop 1 } } : Dev).showModEvts

def Dev.showAdvs (d : Dev) : Dev :=
  (d.set modPage F.MOD_ADV_DEPTH_COUNT d.mods.advs.length).showRec modPage F.MOD_ADV_REC_WORD.off 6 (d.mods.advs.headD [])

def Dev.popAdv (d : Dev) : Dev := ({ d with mods := { d.mods with advs := d.mods.advs.drop 1 } } : Dev).showAdvs

/-! Timed writes (R342) -/

def Dev.timedW (d : Dev) (k : Nat) : Option Timed := Map.rd none d.mods.timed k
def Dev.setTimed (d : Dev) (k : Nat) (x : Option Timed) : Dev := { d with mods := { d.mods with timed := d.mods.timed.wr none k x } }
def Dev.twState (d : Dev) (k : Nat) : Nat := d.get modPage (F.MOD_TW_STATE.at (32 * k))
def Dev.setTwState (d : Dev) (k st : Nat) : Dev := d.set modPage (F.MOD_TW_STATE.at (32 * k)) st

/-- A timed write ends LATE or FAILED (R342). -/
def Dev.twBadEnd (d : Dev) (k st : Nat) : Dev := ((d.setTimed k none).setTwState k st).int modPage 4

/-- A timed write holds a master's bus (R342). -/
def Dev.busHeld (d : Dev) (m : Nat) : Bool :=
  (List.range 16).any fun k => d.twState k == 2 && (match d.timedW k with | some t => t.cage / 8 == m | none => false)

/-- A cage leaves READY, or its module is removed: its armed and reserved timed writes fail (R336, R342). -/
def Dev.failTimed (d : Dev) (p : Nat) : Dev :=
  (List.range 16).foldl (fun d k =>
    let mine : Bool := match d.timedW k with | some t => t.cage == p | none => false
    if mine ∧ (d.twState k = 1 ∨ d.twState k = 2) then d.twBadEnd k 5 else d) d

/-- A commit of a timed write is refused with TW_BAD (R342); so is one to an entry that is RESERVED. -/
def Dev.twBad (d : Dev) (k : Nat) : Bool :=
  let f (x : Fld) : Nat := d.get modPage (x.at (32 * k))
  let cage := f F.MOD_TW_CAGE
  let len := f F.MOD_TW_LEN
  let t := d.commitTime (f F.MOD_TW_T_S) (f F.MOD_TW_T_NS)
  decide (len = 0 ∨ len > 8 ∨ d.cageState cage ≠ 3 ∨ d.get modPage (F.MOD_BUS_SPEED.at (16 * (cage / 8))) = 3
    ∨ d.due ((t : Int) - 1999999) ∨ d.twState k = 2)

/-- ARM commits a timed write (R342). -/
def Dev.twArm (d : Dev) (k : Nat) : Dev :=
  let f (x : Fld) : Nat := d.get modPage (x.at (32 * k))
  let cage := f F.MOD_TW_CAGE
  let len := f F.MOD_TW_LEN
  let t := d.commitTime (f F.MOD_TW_T_S) (f F.MOD_TW_T_NS)
  if d.twBad k then d
  else
    let data := (leBytes 4 (f F.MOD_TW_DATA) ++ leBytes 4 (d.get modPage (F.MOD_TW_DATA.at (32 * k + 4)))).take len
    (d.setTimed k (some ⟨cage, f F.MOD_TW_PAGE, f F.MOD_TW_BANK, f F.MOD_TW_ADDR, data, t, false⟩)).setTwState k 1

/-- CANCEL returns ARMED to IDLE (R342). -/
def Dev.twCancel (d : Dev) (k : Nat) : Dev := if d.twState k = 1 then (d.setTimed k none).setTwState k 0 else d

/-- TW_RESERVE (R342): at T − 1 ms the entry is RESERVED, or fails when its cage is not READY (R343). -/
def Dev.twReserve (d : Dev) (k : Nat) : Dev :=
  match d.timedW k with
  | none => d
  | some t =>
    if d.twState k ≠ 1 ∨ !d.running modPage ∨ !d.due (t.time - 1000000) then d
    else if d.cageState t.cage ≠ 3 then d.twBadEnd k 5 else (d.setTwState k 2).setBusTries (t.cage / 8) 0

/-- A bus clock period in ns (R333). -/
def bitPeriod (speed : Nat) : Int := if speed = 0 then 10000 else if speed = 1 then 2500 else 1000

/-- BUS_ATTEMPT_RETRY (R334): an attempt ends and the transaction is retried, at most RETRIES times; a timed write then ends
LATE. -/
def Dev.busRetry (d : Dev) (m : Nat) : Dev :=
  if !d.modActive ∨ !d.mayRetry m then d
  else
    let d := (d.cnt modPage F.MOD_CNT_COUNT 1).setBusTries m (d.busTries m + 1)
    (List.range 16).foldl (fun d k => match d.timedW k with
      | some t => if d.twState k = 2 ∧ t.cage / 8 = m then d.setTimed k (some { t with again := true }) else d
      | none => d) d

/-- TW_ACK (R342): the last acknowledge; without it the write is attempted again, and after every attempt it fails. -/
def Dev.twAck (d : Dev) (k : Nat) (ack : Bool) : Dev :=
  match d.timedW k with
  | none => d
  | some t =>
    if d.twState k ≠ 2 then d
    else if !ack ∧ d.modActive ∧ d.mayRetry (t.cage / 8) then d.busRetry (t.cage / 8)
    else
      let d := d.busEnd t.cage true t.page t.bank t.addr t.data.length t.data
      if !ack then d.twBadEnd k 5
      else
        let err := toSigned 64 (((d.now : Int) - t.time) % (2 ^ 64 : Nat)).toNat
        let d := d.set modPage (F.MOD_TW_ACT_NS.at (32 * k)) d.time.ns
        let d := d.set modPage (F.MOD_TW_ERR_NS.at (32 * k)) (ofSigned 32 err)
        let lim := 2 * bitPeriod (d.get modPage (F.MOD_BUS_SPEED.at (16 * (t.cage / 8))))
        if t.again ∨ err > lim ∨ -err > lim then d.twBadEnd k 4 else (d.setTimed k none).setTwState k 3

/-- TIMED_WRITE_T_PASSED (R342): T passes while MOD is stopped. -/
def Dev.twPassed (d : Dev) (k : Nat) : Dev :=
  match d.timedW k with
  | none => d
  | some t =>
    if (d.twState k = 1 ∨ d.twState k = 2) ∧ d.domOn 28 ∧ d.fn modPage = 0 ∧ d.due t.time then d.twBadEnd k 5 else d

/-! Commands (R335) -/

/-- The offset of a master's command registers. -/
def cmdOff (m : Nat) : Nat := 64 * m

/-- MOD_CMD_STAT: DONE, or ERROR with its CODE (R344). -/
def Dev.cmdStat (d : Dev) (m code : Nat) : Dev :=
  d.setWord modPage (0x0408 + cmdOff m) (BitVec.ofNat 32 (if code = 0 then 2 else 4 + code * 8))

/-- GO: the command is refused, ends at once for an empty cage, or is BUSY (R335). -/
def Dev.modGo (d : Dev) (m : Nat) : Dev :=
  let f (x : Fld) : Nat := d.get modPage (x.at (cmdOff m))
  let op := f F.MOD_CMD_CTL_OP
  let len := f F.MOD_CMD_CTL_LEN
  if op = 0 ∨ op = 3 ∨ len = 0 ∨ len > 32 ∨ f F.MOD_CMD_ADDR_ADDR + len > 256 ∨ !d.running modPage then d.cmdStat m 4
  else if d.cageState (8 * m + f F.MOD_CMD_CTL_CAGE) = 0 then (d.cmdStat m 3).int modPage 5
  else d.setWord modPage (0x0408 + cmdOff m) 1

def Dev.cmdBusy (d : Dev) (m : Nat) : Bool := d.get modPage (F.MOD_CMD_STAT_BUSY.at (cmdOff m)) == 1

/-- MOD_CMD_DONE (R334, R335): the command ends with its data, or its attempt ends with a NACK, which ends it after its
retries. -/
def Dev.modCmdDone (d : Dev) (m : Nat) (nack : Bool) (bytes : List Byte) : Dev :=
  let f (x : Fld) : Nat := d.get modPage (x.at (cmdOff m))
  if !d.cmdBusy m ∨ d.busHeld m then d
  else if nack ∧ d.modActive ∧ d.mayRetry m then d.busRetry m
  else
    let len := f F.MOD_CMD_CTL_LEN
    let wr := f F.MOD_CMD_CTL_OP = 2
    let regs := ((List.range 8).flatMap fun i => leBytes 4 (d.word modPage (0x0420 + cmdOff m + 4 * i)).toNat)
    let d := d.busEnd (8 * m + f F.MOD_CMD_CTL_CAGE) (decide wr) (f F.MOD_CMD_CTL_PAGE) (f F.MOD_CMD_CTL_BANK) (f F.MOD_CMD_ADDR_ADDR) len
      (if wr then regs.take len else [])
    let d := if nack ∨ wr then d
      else
        let data := slice bytes 0 len ++ regs.drop len
        d.showRec modPage (0x0420 + cmdOff m) 8 ((List.range 8).map fun i => BitVec.ofNat 32 (leNat (slice data (4 * i) 4)))
    (d.cmdStat m (if nack then 1 else 0)).int modPage 5

/-- MOD_CMD_TIMEOUT (R334): the master abandons its attempt, sends nine clocks and a stop where the bus is its own, and the
command ends with CODE 2. -/
def Dev.modCmdTimeout (d : Dev) (m : Nat) : Dev :=
  if !d.cmdBusy m then d
  else
    let d := if d.busHeld m then d else (d.setBusTries m 0).emit (.modRecover m)
    ((d.cmdStat m 2).cnt modPage F.MOD_CNT_COUNT 2).int modPage 5

/-! The ledger (R338) -/

def Dev.ledgerOf (d : Dev) (i : Nat) : List Byte := Map.rd (List.replicate 128 0) d.mods.ledger i
def Dev.setLedger (d : Dev) (i : Nat) (l : List Byte) : Dev :=
  { d with mods := { d.mods with ledger := d.mods.ledger.wr (List.replicate 128 0) i l } }

/-- A little-endian field of an entry, and its replacement. -/
def ledNat (l : List Byte) (o n : Nat) : Nat := leNat (slice l o n)
def ledPut (l : List Byte) (o n v : Nat) : List Byte := splice l o (leBytes n v)

/-- The entry of a module whose identity bytes are lower 0–3 and page 00h 129–189. -/
def newLedger (id : List Byte) (sec : Nat) : List Byte :=
  let pg (a n : Nat) : List Byte := slice id (4 + (a - 129)) n
  pg 129 16 ++ pg 145 3 ++ slice id 1 1 ++ pg 148 16 ++ pg 164 2 ++ pg 166 16 ++ pg 182 8 ++ slice id 0 1 ++ [1] ++
    leBytes 4 0 ++ leBytes 4 0 ++ leBytes 4 1 ++ leBytes 4 sec ++ leBytes 4 0 ++ List.replicate 44 0

/-- Vendor name, OUI, part and serial of two entries agree. -/
def sameModule (a b : List Byte) : Bool :=
  slice a 0 19 == slice b 0 19 && slice a 20 16 == slice b 20 16 && slice a 38 16 == slice b 38 16

/-- The ledger at an entry to READY (R338). -/
def Dev.ledgerInsert (d : Dev) (p : Nat) (id : List Byte) : Dev :=
  let cur := d.ledgerOf (2 * p)
  let new := newLedger id d.time.sec
  if bit (ledNat cur 63 1) 0 ∧ sameModule cur new then d.setLedger (2 * p) (ledPut cur 72 4 (ledNat cur 72 4 + 1))
  else (d.setLedger (2 * p + 1) cur).setLedger (2 * p) new

/-- LEDGER_READ and LEDGER_WRITE: a write of MOD_LED_CMD (R338, R344). -/
def Dev.ledgerCmd (d : Dev) (v : Nat) : Dev :=
  let c := d.get modPage F.MOD_LED_IDX_CAGE
  let prev := d.get modPage F.MOD_LED_IDX_PREV = 1
  if bit v 0 ∧ bit v 1 then d
  else if bit v 0 then
    let l := d.ledgerOf (2 * c + b2n prev)
    d.showRec modPage F.MOD_LED_DATA_DATA.off 32 ((List.range 32).map fun i => BitVec.ofNat 32 (ledNat l (4 * i) 4))
  else if bit v 1 then
    if prev then d
    else
      let data := (List.range 32).flatMap fun i => leBytes 4 (d.word modPage (0x0800 + 4 * i)).toNat
      let l := d.ledgerOf (2 * c)
      d.setLedger (2 * c) (splice l 64 (slice data 64 12))
  else d

/-! Insertion and removal (R336) -/

/-- A cage enters EMPTY: its command ends with CODE 3 and its timed writes fail. Its current band stays: R340 sets one at MOD start
alone. -/
def Dev.cageEmpty (d : Dev) (p : Nat) : Dev :=
  let m := p / 8
  let d := d.setCage p { Cage.init with known := (d.cage p).known }
  let d := ((d.cageSet p F.MOD_CAGE_STAT_STATE 0).cageSet p F.MOD_CAGE_STAT_INT 0).cageSet p F.MOD_CAGE_STAT_MSTATE 0
  let d := if d.cmdBusy m ∧ d.get modPage (F.MOD_CMD_CTL_CAGE.at (cmdOff m)) = p % 8 then (d.cmdStat m 3).int modPage 5 else d
  d.failTimed p

def Dev.setPresent (d : Dev) (p : Nat) (b : Bool) : Dev :=
  let d : Dev := { d with mods := { d.mods with present := d.mods.present.wr false p b } }
  if d.domOn 28 then d.cageSet p F.MOD_CAGE_STAT_PRS (b2n b) else d

/-- MODULE_INSERT: presence is asserted and debounced; a managed cage enters RESET. -/
def Dev.moduleInsert (d : Dev) (p : Nat) : Dev :=
  if Map.rd false d.mods.present p then d
  else
    let d := d.setPresent p true
    if d.modActive ∧ d.cageState p = 0 then (d.cageSet p F.MOD_CAGE_STAT_STATE 1).cnt modPage F.MOD_CNT_COUNT 4 else d

/-- MODULE_REMOVE: presence is released; a managed cage goes to EMPTY and raises REMOVED. -/
def Dev.moduleRemove (d : Dev) (p : Nat) : Dev :=
  if !Map.rd false d.mods.present p then d
  else
    let d := d.setPresent p false
    if d.modActive then ((d.cageEmpty p).modEvent 2 p 0 0 0 0 0).cnt modPage F.MOD_CNT_COUNT 5 else d

/-- RST_REQ puts an occupied cage in RESET (R336). -/
def Dev.cageReset (d : Dev) (p : Nat) : Dev :=
  if d.modActive ∧ d.cageState p ≠ 0 then (d.cageSet p F.MOD_CAGE_STAT_STATE 1).failTimed p else d

/-- RESET_RELEASE: after 10 µs RST_N is released (R336). -/
def Dev.resetRelease (d : Dev) (p : Nat) : Dev :=
  if d.modActive ∧ d.cageState p = 1 then d.cageSet p F.MOD_CAGE_STAT_STATE 2 else d

/-- A cage enters FAULT with a STATE event of this cause (R336, R339). -/
def Dev.cageFault (d : Dev) (p cause : Nat) : Dev :=
  ((d.cageSet p F.MOD_CAGE_STAT_STATE 4).failTimed p).modEvent 4 p 0 0 0 cause 0

/-- A revision that R333 does not list. -/
def revLimited (rev : Nat) : Bool := !(rev == 0x40 || (decide (0x50 ≤ rev) && decide (rev ≤ 0x53)))

/-- INIT_POLL: the module state is polled (R336); CMIS codes 1 ModuleLowPwr, 3 ModuleReady, 5 ModuleFault. -/
def Dev.initPoll (d : Dev) (p mstate : Nat) (id : List Byte) : Dev :=
  if !d.modActive ∨ d.cageState p ≠ 2 then d
  else
    let d := (d.cageSet p F.MOD_CAGE_STAT_MSTATE mstate).busReads p [(0, 0, 0, 4)]
    if mstate = 5 then d.cageFault p 3
    else if ¬ (mstate = 1 ∨ mstate = 3) then d
    else
    let d := d.busReads p [(0, 0, 129, 61)]
    if id.length ≠ 65 then d.cageFault p 4
    else
      let lim := revLimited (ledNat id 1 1)
      let d := (d.ledgerInsert p id).setCage p { Cage.init with limited := lim, known := (d.cage p).known }
      (d.cageSet p F.MOD_CAGE_STAT_STATE 3).modEvent 1 p 0 0 0 (b2n lim) 0

/-- INIT_TIMEOUT (R336). -/
def Dev.initTimeout (d : Dev) (p : Nat) : Dev := if d.modActive ∧ d.cageState p = 2 then d.cageFault p 2 else d

/-! The scanner (R337) -/

/-- Latched flags of a visit: (quantity, flag, lane, monitor value) of each set bit. `lower` holds lower bytes 3 and
8–17, `lanes` page 11h bytes 135–152 and 154–201. -/
def visitFlags (lower lanes : List Byte) (limited : Bool) : List (Nat × Nat × Nat × Nat) :=
  let m := (List.range 8).filterMap fun i =>
    if bit (ledNat lower 2 1) i then some (i / 4, i % 4, 0, beAt lower (7 + i / 4 * 2) 2) else none
  let lane (q first mon : Nat) : List (Nat × Nat × Nat × Nat) :=
    (List.range 4).flatMap fun f => (List.range 8).filterMap fun l =>
      if bit (ledNat lanes (first - 135 + f) 1) l then some (q, f, l, beAt lanes (18 + (mon - 154) + 2 * l) 2) else none
  if limited then m else m ++ lane 2 139 154 ++ lane 3 143 170 ++ lane 4 149 186

/-- Raises and counts one newly set flag (R337, R338). -/
def Dev.raiseFlag (d : Dev) (p : Nat) (x : Nat × Nat × Nat × Nat) : Dev :=
  let (q, f, l, v) := x
  let led := d.ledgerOf (2 * p)
  let o := 84 + 4 * q + f
  (d.setLedger (2 * p) (ledPut led o 1 (satAdd 8 (ledNat led o 1) 1))).modEvent 3 p q f l 0 v

/-- Laser-on time, LAST_S and the LIFE event of a visit (R337, R338). -/
def Dev.visitLedger (d : Dev) (p : Nat) (lit : Bool) : Dev :=
  let c := d.cage p
  let l := d.ledgerOf (2 * p)
  let add := match c.visited with
    | some s => if c.lit ∧ lit then d.time.sec - s else 0
    | none => 0
  let laser := min (2 ^ 32 - 1) (ledNat l 64 4 + add)
  let l := ledPut (ledPut l 64 4 laser) 80 4 d.time.sec
  let rated := ledNat l 68 4
  let warn := rated ≠ 0 ∧ laser * 100 ≥ d.get modPage F.MOD_LIFE_WARN_PCT * rated * 3600 ∧ ¬ bit (ledNat l 63 1) 1
  let l := if warn then ledPut l 63 1 (setBit (ledNat l 63 1) 1) else l
  let d := (d.setLedger (2 * p) l).setCage p { c with visited := some d.time.sec, lit := lit }
  if warn then d.modEvent 5 p 0 0 0 0 0 else d

/-- A band's floor, and its rate (R340). -/
def Dev.bandLow (d : Dev) (b j : Nat) : Int := toSigned 32 (d.word modPage (0x1800 + 64 * b + 8 * j)).toNat
def Dev.bandRate (d : Dev) (b j : Nat) : Nat := (d.word modPage (0x1804 + 64 * b + 8 * j)).toNat

/-- The highest used band whose floor is at most v. -/
def Dev.bandFor (d : Dev) (b : Nat) (v : Int) : Option Nat :=
  ((List.range 8).reverse).find? fun j => decide (d.bandRate b j ≠ 0 ∧ d.bandLow b j ≤ v)

/-- An advisory record (R340, R344). -/
def Dev.pushAdv (d : Dev) (p b old new : Nat) (v : Int) : Dev :=
  if d.mods.advs.length ≥ 32 then (d.cnt modPage F.MOD_CNT_COUNT 7).int modPage 3
  else
    let t := d.now + d.get modPage F.MOD_ADV_LEAD_MS * 1000000
    let r : List Word := [BitVec.ofNat 32 (p + old * 2 ^ 7 + new * 2 ^ 10), BitVec.ofNat 32 (ofSigned 32 v), BitVec.ofNat 32 (d.bandRate b new),
      BitVec.ofNat 32 (d.bandRate b old), BitVec.ofNat 32 (t % 1000000000), BitVec.ofNat 32 (t / 1000000000)]
    let was := d.mods.advs.isEmpty
    let d := ({ d with mods := { d.mods with advs := d.mods.advs ++ [r] } } : Dev).showAdvs
    if was then d.int modPage 2 else d

/-- The watched field is judged against the band profile (R340). -/
def Dev.watch (d : Dev) (p : Nat) (raw : Word) : Dev :=
  if d.cageGet p F.MOD_CAGE_CTL_ADV_EN ≠ 1 then d
  else
    let w := d.cageGet p F.MOD_WATCH_WIDTH
    let wd := if w = 1 then 16 else if w = 2 then 32 else 8
    let v : Int := if d.cageGet p F.MOD_WATCH_SIGNED = 1 then toSigned wd raw.toNat else (raw.toNat % 2 ^ wd : Nat)
    let b := d.cageGet p F.MOD_CAGE_CTL_BAND_PROF
    let c := d.cage p
    match d.bandFor b v with
    | none => d.setCage p { c with run := 0 }
    | some new =>
      if !c.known then (d.setCage p { c with known := true, run := 0 }).cageSet p F.MOD_CAGE_STAT_BAND new
      else
        let j := d.cageGet p F.MOD_CAGE_STAT_BAND
        let hyst : Int := d.get modPage F.MOD_ADV_HYST
        let leaves := v < d.bandLow b j - hyst ∨
          ((List.range 8).any fun k => decide (j < k ∧ d.bandRate b k ≠ 0 ∧ d.bandLow b k + hyst ≤ v)) = true
        if ¬ leaves ∨ new = j then d.setCage p { c with run := 0 }
        else
          let run := if c.run ≠ 0 ∧ c.cand = new then c.run + 1 else 1
          if run ≥ max 1 (d.get modPage F.MOD_ADV_HOLD) then
            ((d.setCage p { c with run := 0 }).cageSet p F.MOD_CAGE_STAT_BAND new).pushAdv p b j new v
          else d.setCage p { c with cand := new, run := run }

/-- What the scanner reads on a visit (R333, R340): lower memory, and unless only that is scanned the upper places and the
watched field. -/
def Dev.scanReads (d : Dev) (p : Nat) (low : Bool) : List (Nat × Nat × Nat × Nat) :=
  let w := d.cageGet p F.MOD_WATCH_WIDTH
  [(0, 0, 0, 4), (0, 0, 8, 6), (0, 0, 14, 4)] ++
    (if low then [] else [(0x10, 0, 130, 1), (0x11, 0, 135, 18), (0x11, 0, 154, 48)]) ++
    (if low ∨ d.cageGet p F.MOD_CAGE_CTL_ADV_EN ≠ 1 then []
     else [(d.cageGet p F.MOD_WATCH_PAGE, d.cageGet p F.MOD_WATCH_BANK, d.cageGet p F.MOD_WATCH_OFFSET, if w = 1 then 2 else if w = 2 then 4 else 1)])

def Dev.setUnseen (d : Dev) (l : List Nat) : Dev := { d with mods := { d.mods with unseen := l } }

/-- Cages that the scanner visits: READY and FAULT (R337). -/
def Dev.scanned (d : Dev) (p : Nat) : Bool := d.cageState p == 3 || d.cageState p == 4

/-- The end of a scan period, each MOD_SCAN.MS of the TCLK count (log entry 112): one that ends before every cage has been visited
counts, and every cage is to be visited in the next (R337). -/
def Dev.scanPeriod (d : Dev) : Dev :=
  if d.clk % (max 1 (d.get modPage F.MOD_SCAN_MS) * 1000000) ≠ 0 ∨ !d.running modPage then d
  else
    let d := if d.mods.unseen.any d.scanned then d.cnt modPage F.MOD_CNT_COUNT 3 else d
    d.setUnseen ((List.range 128).filter d.scanned)

/-- SCAN_VISIT (R337): the scanner visits a READY or FAULT cage. -/
def Dev.scanVisit (d : Dev) (p : Nat) (lower lanes : List Byte) (disable : Byte) (watch : Word) (intLow : Bool) : Dev :=
  let st := d.cageState p
  if !d.running modPage ∨ ¬ (st = 3 ∨ st = 4) ∨ d.busHeld (p / 8) then d
  else
    let d := d.setUnseen (d.mods.unseen.erase p)
    let c := d.cage p
    let low := c.limited || st == 4
    let ms := ledNat lower 0 1 / 2 % 8
    let d := ((d.busReads p (d.scanReads p low)).cageSet p F.MOD_CAGE_STAT_MSTATE ms).cageSet p F.MOD_CAGE_STAT_INT (b2n intLow)
    let seen := visitFlags c.flags (c.flags.drop 11) low
    let d := ((visitFlags lower lanes low).filter fun x => !seen.any fun y => y.1 == x.1 && y.2.1 == x.2.1 && y.2.2.1 == x.2.2.1).foldl
      (fun d x => d.raiseFlag p x) d
    let d := d.setCage p { d.cage p with flags := slice lower 0 11 ++ lanes }
    let d := d.visitLedger p (!low && ms == 3 && disable.toNat != 255)
    if st = 3 ∧ ms = 5 then d.cageFault p 3 else if low then d else d.watch p watch

/-! Starting (R343) -/

/-- MOD starts: cages found present enter RESET, the rest go to EMPTY; bands are set again from the first visit. -/
def Dev.startMod (d : Dev) : Dev :=
  let d := d.setUnseen []
  (List.range 128).foldl (fun d p =>
    let d := d.setCage p { d.cage p with known := false, run := 0 }
    if Map.rd false d.mods.present p then
      ((d.cageSet p F.MOD_CAGE_STAT_PRS 1).cageSet p F.MOD_CAGE_STAT_STATE 1).failTimed p
    else if d.cageState p = 0 then d else d.cageEmpty p) d

end Sys2Proof.Machine
end

