-- ==== Sys2Proof/Machine/Crc.lean ====
section
/-! DEFINITION. The check codes: CRC-32C (R92), CRC-32 of a frame or an image section (R25, R82, R144), CRC-8 of the shim (R265). -/

namespace Sys2Proof.Machine

/-- One bit of a reflected 32-bit CRC. -/
def crcBit (poly c : Nat) : Nat := if c % 2 = 1 then Nat.xor (c / 2) poly else c / 2

/-- One byte of a reflected 32-bit CRC. -/
def crcByte (poly c : Nat) (b : Byte) : Nat :=
  crcBit poly (crcBit poly (crcBit poly (crcBit poly (crcBit poly (crcBit poly (crcBit poly (crcBit poly (Nat.xor c b.toNat))))))))

/-- A reflected 32-bit CRC with a final complement. -/
def crc32r (poly init : Nat) (l : List Byte) : Nat := Nat.xor (l.foldl (crcByte poly) init) 0xFFFFFFFF

/-- CRC-32C as R92's model computes it. -/
def crc32c (init : Nat) (l : List Byte) : Nat := crc32r 0x82F63B78 init l

/-- CRC-32 with the IEEE 802.3 polynomial, reflected (R25, R144). -/
def crc32 (l : List Byte) : Nat := crc32r 0xEDB88320 0xFFFFFFFF l

/-- The FCS of a frame, in wire order (IEEE 802.3: least significant byte first). -/
def fcsOf (l : List Byte) : List Byte := leBytes 4 (crc32 l)

/-- One bit of the shim's CRC-8, polynomial 0x07 (R265). -/
def crc8Bit (c : Nat) : Nat := if c ≥ 128 then Nat.xor (c * 2 % 256) 0x07 else c * 2

/-- The shim's CRC-8 (R265). -/
def crc8 (l : List Byte) : Nat :=
  l.foldl (fun c b => crc8Bit (crc8Bit (crc8Bit (crc8Bit (crc8Bit (crc8Bit (crc8Bit (crc8Bit (Nat.xor c b.toNat))))))))) 0

/-- Ones' complement sum of 16-bit lanes, folded. -/
def onesSum (l : List Nat) : Nat :=
  let s := l.sum
  let s := s % 65536 + s / 65536
  s % 65536 + s / 65536

/-- The 16-bit big-endian words of a list of bytes. -/
def halfWords : List Byte → List Nat
  | a :: b :: r => (a.toNat * 256 + b.toNat) :: halfWords r
  | [a] => [a.toNat * 256]
  | [] => []

/-- The checksum of an IPv4 header whose checksum field is zero. -/
def ipChecksum (h : List Byte) : Nat := 65535 - onesSum (halfWords h)

/-- The IPv4 header checksum holds. -/
def ipSumOk (h : List Byte) : Bool := onesSum (halfWords h) == 65535

end Sys2Proof.Machine
end

