-- ==== Sys2Proof/Machine/Parser.lean ====
section
/-! DEFINITION. The header parser (R85–R92): the walk over a head, the parse record and the flow hash. -/

namespace Sys2Proof.Machine

/-- Settings the parser reads (R86, R92). -/
structure ParseCfg where
  pwEth : Bool
  vxlan : Nat
  geneve : Nat
  l4 : Bool
  flowLbl : Bool
  el : Bool
  seed : Nat
  deriving DecidableEq, Repr

/-- What the previous header leads to. `ninth` is the ninth label of a stack; `over` an SRH with more than 16 SIDs
followed by header type `t`. -/
inductive NextHdr where
  | done | unknown
  | eth | tag (svlan : Bool) | mpls | ninth | cw | ip4 | ip6
  | ext (nh : Nat) (first : Bool) | udp | tcp | icmp | icmp6 | gre | vxlan | geneve | shim
  deriving DecidableEq, Repr

/-- The parser's state. -/
structure Walk where
  off : Nat
  hdrs : List (Nat × Nat × Nat)
  next : NextHdr
  why : Nat
  code : Nat
  srhPast : Bool
  tags : Nat
  inTags : Nat
  tagsDone : Bool
  labels : Nat
  elIdx : Nat
  stackCnt : Nat
  stackOff : Nat
  sids : Nat
  sidsOver : Bool
  segsLeft : Nat
  exts : Nat
  firstExts : Nat
  ip6s : Nat
  csumBad : Bool
  frag : Bool
  fragLater : Bool
  ipOpt : Bool
  tunnel : Bool
  elSeen : Bool
  cwSeen : Bool
  ttlLow : Bool
  l3 : Nat
  l4 : Nat
  inL2 : Nat
  inL3 : Nat
  /-- The IP header now open: offset, payload end, IPv6 payload length and extension bytes. -/
  ipOff : Nat
  ipEnd : Nat
  ipPl : Nat
  extLen : Nat
  ips : Nat
  /-- Protocol or last Next Header of the first IP header, and the offset of the L4 header directly after it. -/
  proto : Nat
  l4Direct : Nat
  etype : Nat
  deriving DecidableEq, Repr

/-- The walk before the first header. -/
def Walk.init (n : NextHdr) : Walk where
  off := 0
  hdrs := []
  next := n
  why := 0
  code := 0
  srhPast := false
  tags := 0
  inTags := 0
  tagsDone := false
  labels := 0
  elIdx := 0
  stackCnt := 0
  stackOff := 0
  sids := 0
  sidsOver := false
  segsLeft := 0
  exts := 0
  firstExts := 0
  ip6s := 0
  csumBad := false
  frag := false
  fragLater := false
  ipOpt := false
  tunnel := false
  elSeen := false
  cwSeen := false
  ttlLow := false
  l3 := 0xFF
  l4 := 0xFF
  inL2 := 0xFF
  inL3 := 0xFF
  ipOff := 0
  ipEnd := 0
  ipPl := 0
  extLen := 0
  ips := 0
  proto := 0
  l4Direct := 0xFF
  etype := 0

/-- A byte of the head. -/
def hb (h : List Byte) (o : Nat) : Nat := (h.getD o 0).toNat

/-- A 16-bit field of the head, most significant byte first. -/
def hw (h : List Byte) (o : Nat) : Nat := hb h o * 256 + hb h (o + 1)

/-- What an EtherType leads to (R86). -/
def byEtherType (t : Nat) : NextHdr :=
  if t = 0x8100 then .tag false else if t = 0x88A8 then .tag true else if t = 0x8847 ∨ t = 0x8848 then .mpls
  else if t = 0x0800 then .ip4 else if t = 0x86DD then .ip6 else .unknown

/-- What a Next Header leads to; `first` directly after IPv6 (R86). -/
def byNextHeader (nh : Nat) (first : Bool) : NextHdr :=
  if nh = 0 then (if first then .ext 0 true else .unknown)
  else if nh = 43 ∨ nh = 60 ∨ nh = 44 then .ext nh first
  else if nh = 6 then .tcp else if nh = 17 then .udp else if nh = 58 then .icmp6 else if nh = 47 then .gre else .done

/-- What an IPv4 protocol leads to (R86). -/
def byProtocol (p : Nat) : NextHdr :=
  if p = 1 then .icmp else if p = 6 then .tcp else if p = 17 then .udp else if p = 47 then .gre else .done

/-- What a tunnel's protocol type leads to (R86); MPLS under GRE only. -/
def byTunnelType (t : Nat) (gre : Bool) : NextHdr :=
  if t = 0x6558 then .eth else if t = 0x0800 then .ip4 else if t = 0x86DD then .ip6
  else if gre && t = 0x8847 then .mpls else .done

/-- Labels of a stack from offset `o`: how many up to BoS (or to the first label that cannot be read), whether BoS was
found, and the position of the entropy label: that of the deepest label-7 entry where several stand (log entry 163). -/
def labelScan (h : List Byte) (lim : Nat) : Nat → Nat → Nat → Bool → Nat → Nat × Bool × Nat
  | 0, _, i, _, el => (i, false, el)
  | n + 1, o, i, eli, el =>
    if o + 4 > lim then (i + 1, false, el)
    else
      let lbl := hb h o * 4096 + hb h (o + 1) * 16 + hb h (o + 2) / 16
      let el := if eli then i + 1 else el
      if hb h (o + 2) % 2 = 1 then (i + 1, true, el)
      else labelScan h lim n (o + 4) (i + 1) (lbl = 7 ∧ ¬ eli) el

/-- TYPE code of R86. -/
def typeCode (n : NextHdr) (rt4 : Bool) : Nat :=
  match n with
  | .eth => 1 | .tag false => 2 | .tag true => 3 | .mpls | .ninth => 4 | .cw => 5 | .ip4 => 6 | .ip6 => 7
  | .ext nh _ => if nh = 0 then 8 else if nh = 43 then (if rt4 then 0x0A else 9) else if nh = 60 then 0x0B else 0x0C
  | .udp => 0x0D | .tcp => 0x0E | .icmp => 0x0F | .icmp6 => 0x10 | .gre => 0x11 | .vxlan => 0x12 | .geneve => 0x13
  | .shim => 0x14 | .done | .unknown => 0

/-- Byte `o` can be read: it lies in the head and in the available bytes (R85). -/
def readable (avail o : Nat) : Bool := decide (o < 256) && decide (o < avail)

/-- The recognition condition of the next header; a byte that cannot be read is taken as met (R85, R86). -/
def recognised (h : List Byte) (avail : Nat) (w : Walk) : Bool :=
  let o := w.off
  match w.next with
  | .unknown => false
  | .ip4 => !readable avail o || hb h o / 16 = 4
  | .ip6 => !readable avail o || hb h o / 16 = 6
  | .gre => !readable avail (o + 1) || hb h (o + 1) % 8 = 0
  | .vxlan => !readable avail o || bit (hb h o) 3
  | .geneve => !readable avail o || hb h o / 64 = 0
  | _ => true

/-- The next header is an SRH: its routing type can be read and is 4 (R85, R86). -/
def isSrh (h : List Byte) (avail : Nat) (w : Walk) : Bool :=
  match w.next with
  | .ext 43 _ => readable avail (w.off + 2) && hb h (w.off + 2) = 4
  | _ => false

/-- The next header's length (R86), or its minimum where the length field cannot be read (R85). -/
def hdrLen (h : List Byte) (avail : Nat) (w : Walk) : Nat :=
  let o := w.off
  match w.next with
  | .eth => 14
  | .tag _ | .cw => 4
  | .mpls => 4 * (labelScan h (min 256 avail) 8 o 0 false 0).1
  | .ip4 => if readable avail o ∧ hb h o % 16 ≥ 5 then hb h o % 16 * 4 else 20
  | .ip6 => 40
  | .ext 44 _ => 8
  | .ext _ _ => if readable avail (o + 1) then (hb h (o + 1) + 1) * 8 else 8
  | .udp | .icmp | .icmp6 | .vxlan | .shim => 8
  | .tcp => if readable avail (o + 12) ∧ hb h (o + 12) / 16 ≥ 5 then hb h (o + 12) / 16 * 4 else 20
  | .gre => if readable avail o then 4 + 4 * (b2n (bit (hb h o) 7) + b2n (bit (hb h o) 5) + b2n (bit (hb h o) 4)) else 4
  | .geneve => if readable avail o then 8 + hb h o % 64 * 4 else 8
  | .done | .unknown | .ninth => 0

/-- A limit of R86 is exceeded by the next header. -/
def overLimit (w : Walk) : Bool :=
  w.sidsOver || (match w.next with
    | .tag _ => decide (w.inTags ≥ 3)
    | .ninth => true
    | .ext _ _ => decide (w.exts ≥ 4)
    | _ => false)

/-- Opens an IP header: the offsets of word 3. -/
def Walk.openIp (w : Walk) (o plEnd pl : Nat) : Walk :=
  { w with
    l3 := if w.ips = 0 then o else w.l3
    inL3 := if w.tunnel ∧ w.inL3 = 0xFF then o else w.inL3
    ipOff := o, ipEnd := plEnd, ipPl := pl, extLen := 0, ips := w.ips + 1 }

/-- Notes an L4 or GRE header: L4_OFF, and the ports the flow key may use (R92). -/
def Walk.noteL4 (w : Walk) (o : Nat) (ports : Bool) : Walk :=
  { w with l4 := if w.l4 = 0xFF then o else w.l4, l4Direct := if ports ∧ w.ips = 1 ∧ w.l4 = 0xFF then o else w.l4Direct }

/-- After a header that may end the extension headers of an IPv6 header, code 0x5 (R91). -/
def Walk.extCheck (w : Walk) : Walk :=
  match w.next with
  | .ext _ _ => w
  | _ => if w.code = 0 ∧ w.ipPl < w.extLen then { w with code := 5 } else w

/-- Records the next header and checks it (R85 rule 8, R86, R90, R91). A first nibble past BoS that cannot be read is taken as 0
(log entry 164); of several SRHs the last gives SID_CNT and SEGS_LEFT (log entry 165); every Fragment header sets FRAG, one of
offset 0 and M = 0 too (log entry 166). -/
def recordHdr (c : ParseCfg) (h : List Byte) (flen avail : Nat) (w : Walk) : Walk :=
  let o := w.off
  let len := hdrLen h avail w
  let rt4 := isSrh h avail w
  let sub := match w.next with
    | .ip4 => b2n (hb h o % 16 > 5)
    | .ext 44 _ => b2n (hw h (o + 2) / 8 ≠ 0)
    | _ => 0
  let cur := w.next
  let w := { w with off := o + len, hdrs := w.hdrs ++ [(o, typeCode cur rt4, sub)] }
  match cur with
  | .eth =>
    { w with next := byEtherType (hw h (o + 12)), inTags := 0, etype := if o = 0 then hw h (o + 12) else w.etype,
             tagsDone := decide (o ≠ 0), inL2 := if w.tunnel ∧ w.inL2 = 0xFF then o else w.inL2 }
  | .tag _ =>
    { w with next := byEtherType (hw h (o + 2)), inTags := w.inTags + 1, tags := if w.tagsDone then w.tags else w.tags + 1,
             etype := if w.tagsDone then w.etype else hw h (o + 2) }
  | .mpls =>
    let (n, bos, el) := labelScan h (min 256 avail) 8 o 0 false 0
    let nib := if readable avail w.off then hb h w.off / 16 else 0
    { w with
      next := if !bos then .ninth else if nib = 4 then .ip4 else if nib = 6 then .ip6 else if nib = 0 then .cw else .unknown
      labels := if w.stackCnt = 0 then n else w.labels
      elIdx := if w.stackCnt = 0 then el else w.elIdx
      stackOff := if w.stackCnt = 0 then o else w.stackOff
      elSeen := w.elSeen || decide (el ≠ 0), stackCnt := w.stackCnt + 1 }
  | .cw => { w with next := if c.pwEth then .eth else .done, cwSeen := true }
  | .ip4 =>
    let ihl := hb h o % 16
    let tl := hw h (o + 2)
    let off := hw h (o + 6) % 8192
    let frag := off ≠ 0 ∨ bit (hw h (o + 6)) 13
    let code := if ihl < 5 then 3 else if tl > avail - o then 1
      else if tl < ihl * 4 ∨ (tl < avail - o ∧ flen > 64) then 2 else 0
    let first := w.ips = 0
    let w := w.openIp o (o + tl) (tl - len)
    { w with
      next := if off ≠ 0 then .done else byProtocol (hb h (o + 9)), code := code
      csumBad := w.csumBad || !ipSumOk (slice h o len)
      frag := w.frag || decide frag, fragLater := w.fragLater || decide (off ≠ 0), ipOpt := w.ipOpt || decide (ihl > 5)
      ttlLow := if first then decide (hb h (o + 8) ≤ 1) else w.ttlLow
      proto := if first then hb h (o + 9) else w.proto }
  | .ip6 =>
    let pl := hw h (o + 4)
    let code := if pl = 0 ∨ 40 + pl > avail - o ∨ (40 + pl < avail - o ∧ flen > 64) then 4 else 0
    let first := w.ips = 0
    let w := w.openIp o (o + 40 + pl) pl
    { w with
      next := byNextHeader (hb h (o + 6)) true, code := code, exts := 0, ip6s := w.ip6s + 1
      ttlLow := if first then decide (hb h (o + 7) ≤ 1) else w.ttlLow
      proto := if first then hb h (o + 6) else w.proto }
  | .ext nh _ =>
    let fo := hw h (o + 2) / 8
    let later := nh = 44 ∧ fo ≠ 0
    let n : NextHdr := if later then .done else byNextHeader (hb h o) false
    let w := { w with
      next := n, exts := w.exts + 1, firstExts := if w.ip6s = 1 then w.firstExts + 1 else w.firstExts
      extLen := w.extLen + len, proto := if w.ips = 1 then hb h o else w.proto
      frag := w.frag || decide (nh = 44), fragLater := w.fragLater || decide later }
    let w := if rt4 then
        let last := hb h (o + 4)
        { w with sids := if last + 1 > 16 then 17 else last + 1, sidsOver := decide (last + 1 > 16), segsLeft := hb h (o + 3),
                 code := if hb h (o + 1) < 2 * (last + 1) ∨ hb h (o + 3) > last then 8 else w.code }
      else w
    w.extCheck
  | .udp =>
    let ul := hw h (o + 4)
    let code := if ul < 8 ∨ (!w.frag ∧ ul + o ≠ w.ipEnd) then 6 else 0
    let dp := hw h (o + 2)
    { (w.noteL4 o true) with next := if dp = c.vxlan then .vxlan else if dp = c.geneve then .geneve else .done, code := code }
  | .tcp => { (w.noteL4 o true) with next := .done, code := if hb h (o + 12) / 16 < 5 then 10 else 0 }
  | .icmp | .icmp6 => { (w.noteL4 o false) with next := .done }
  | .gre => { (w.noteL4 o false) with next := byTunnelType (hw h (o + 2)) true, tunnel := true }
  | .vxlan => { w with next := .eth, tunnel := true }
  | .geneve => { w with next := byTunnelType (hw h (o + 2)) false, tunnel := true }
  | .shim => { w with next := .done }
  | .done | .unknown | .ninth => w

/-- The walk of R85: at each header the first matching rule. -/
def parseWalk (c : ParseCfg) (h : List Byte) (flen : Nat) : Nat → Walk → Walk
  | 0, w => w
  | n + 1, w =>
    let avail := flen - 4
    let len := hdrLen h avail w
    if w.next = .done then { w with why := 0 }
    else if !recognised h avail w then { w with why := 3 }
    else if w.hdrs.length ≥ 16 then { w with why := 1 }
    else if overLimit w then { w with why := 5 }
    else if w.off + len > avail then { w with why := 6, code := 9 }
    else if w.off + len > 256 then
      if isSrh h avail w then { w with why := 2, code := 7, srhPast := true } else { w with why := 2 }
    else
      let w := recordHdr c h flen avail w
      if w.code ≠ 0 then { w with why := 4 } else parseWalk c h flen n w

/-- The flow key (R92). -/
def flowKey (c : ParseCfg) (h : List Byte) (w : Walk) : List Byte :=
  if w.ips ≠ 0 then
    let v6 := hb h w.l3 / 16 = 6
    let addr := if v6 then slice h (w.l3 + 8) 32 else slice h (w.l3 + 12) 8
    let fl := if v6 ∧ c.flowLbl then beBytes 3 (beAt h w.l3 4 % 2 ^ 20) else []
    let ports := if w.l4Direct ≠ 0xFF ∧ c.l4 ∧ !w.frag then slice h w.l4Direct 4 else []
    addr ++ [BitVec.ofNat 8 w.proto] ++ fl ++ ports
  else if w.stackCnt ≠ 0 then
    let lbl (i : Nat) : List Byte := beBytes 4 (beAt h (w.stackOff + 4 * i) 4 / 4096 * 4096)
    if w.elIdx ≠ 0 ∧ c.el then lbl (w.elIdx - 1) else ((List.range w.labels).map lbl).flatten
  else match w.hdrs with
    | (0, 1, _) :: _ => slice h 0 12 ++ beBytes 2 w.etype
    | _ => []

/-- FLOW_HASH (R92). -/
def flowHash (c : ParseCfg) (h : List Byte) (w : Walk) : Nat := crc32c (0xFFFF0000 + c.seed % 65536) (flowKey c h w)

/-- FLAGS (R90). -/
def walkFlags (h : List Byte) (w : Walk) (shimBad : Bool) : Nat :=
  let deep := (w.why = 1 ∨ w.why = 2 ∨ w.why = 5) ∧ ¬ w.srhPast
  let mcast := match w.hdrs with | (0, 1, _) :: _ => bit (hb h 0) 0 | _ => false
  let srh := w.hdrs.any (fun x => x.2.1 = 0x0A)
  b2n deep + b2n (w.code ≠ 0) * 2 + b2n w.csumBad * 4 + b2n shimBad * 8 + b2n w.frag * 16 + b2n w.fragLater * 32 +
  b2n w.ipOpt * 64 + b2n w.tunnel * 128 + b2n w.elSeen * 256 + b2n w.cwSeen * 512 + b2n srh * 1024 + b2n mcast * 2048 +
  b2n w.ttlLow * 4096 + b2n (w.why = 3) * 8192

/-- The parse record (R88): words 0–15 as 64 bytes. -/
def parseRecord (c : ParseCfg) (h : List Byte) (w : Walk) (inport flen sec ns : Nat) (shimBad : Bool) : List Byte :=
  let hdr (i : Nat) : Nat := match w.hdrs[i]? with
    | some (o, t, s) => o + t * 2 ^ 8 + s * 2 ^ 14
    | none => 0
  let words : List Nat :=
    [ inport + flen * 2 ^ 8 + w.hdrs.length * 2 ^ 22 + b2n (flen < 256) * 2 ^ 27,
      w.off + w.code * 2 ^ 9 + w.why * 2 ^ 13 + walkFlags h w shimBad * 2 ^ 16,
      flowHash c h w,
      w.l3 + w.l4 * 2 ^ 8 + w.inL2 * 2 ^ 16 + w.inL3 * 2 ^ 24,
      w.tags + w.labels * 4 + w.elIdx * 64 + w.sids * 1024 + w.segsLeft * 2 ^ 15 + w.firstExts * 2 ^ 23,
      ns + sec % 4 * 2 ^ 30,
      sec ] ++ (List.range 8).map (fun j => hdr (2 * j) + hdr (2 * j + 1) * 2 ^ 16) ++ [0]
  (words.map (leBytes 4)).flatten

/-- The first header a restored head's NXT designates (R264, R87). -/
def byNxt (nxt : Nat) : NextHdr := if nxt = 0 then .eth else if nxt = 1 then .mpls else if nxt = 2 then .ip4 else .ip6

end Sys2Proof.Machine
end

