-- ==== Sys2Proof/Machine/Hbm.lean ====
section
/-! DEFINITION. The HBM controllers (R290–R311): address mapping, open rows, training, temperature, check-bit errors,
rank retirement and migration, and the packet and byte counters. -/

namespace Sys2Proof.Machine

def Dev.hbm (d : Dev) (h : Nat) : Hbm := Map.rd Hbm.init d.hbms h
def Dev.setHbm (d : Dev) (h : Nat) (x : Hbm) : Dev := { d with hbms := d.hbms.wr Hbm.init h x }

/-- A physical rank. -/
def Hbm.rank (x : Hbm) (p : Nat) : Rank := Map.rd (Rank.init p) x.ranks p
def Hbm.setRank (x : Hbm) (p : Nat) (r : Rank) : Hbm := { x with ranks := x.ranks.wr (Rank.init p) p r }
def Dev.setRank (d : Dev) (h p : Nat) (r : Rank) : Dev := d.setHbm h ((d.hbm h).setRank p r)

/-- HBM_STAT.TRAINED (R300). -/
def Dev.trained (d : Dev) (h : Nat) : Bool := d.get (hbmPage h) F.HBM_STAT_TRAINED == 1

/-- Bytes of a stack in service (R290). -/
def hbmSize : Nat := 22 * 2 ^ 30 + 2 ^ 29

/-- Rank pages of a rank (R308). -/
def rankPages : Nat := 196608

/-! Mapping (R292, R293) -/

/-- Logical rank and rank-local address of a logical byte address, under the grain of the last full training (R292). -/
def Hbm.split (x : Hbm) (a : Nat) : Nat × Nat :=
  let g := 256 * 2 ^ (x.full.getD (3, 4)).2
  (a / g % 30, a / g / 30 * g + a % g)

/-- The logical address of byte `r` of logical rank `lr` (R292). -/
def Hbm.join (x : Hbm) (lr r : Nat) : Nat :=
  let g := 256 * 2 ^ (x.full.getD (3, 4)).2
  (r / g * 30 + lr) * g + r % g

/-- The physical rank that serves an access to rank page `pg` of a logical rank (R301, R308, R309). -/
def Hbm.serves (x : Hbm) (lr pg : Nat) : Nat :=
  let base := ((List.range 32).find? fun p => ((x.rank p).state = 1 ∨ (x.rank p).state = 2) ∧ (x.rank p).lrank = lr).getD 0
  match x.mig with
  | some (f, t) =>
    if (x.rank f).lrank ≠ lr then base
    else if pg < (x.rank f).progress then t
    else match x.failed with
      | some (ft, n) => if pg < n then ft else f
      | none => f
  | none => base

/-- The physical rank of a logical byte address. -/
def Hbm.phys (x : Hbm) (a : Nat) : Nat := let (lr, r) := x.split a; x.serves lr (r / 4096)

/-- Bank (stack ID, bank group, bank) and row of a rank-local address (R293). -/
def bankRow (r : Nat) : Nat × Nat :=
  let row := bits r 15 15
  (bits r 14 1 * 16 + Nat.xor (bits r 10 2) (bits row 0 2) * 4 + Nat.xor (bits r 12 2) (bits row 2 2), row)

/-! Requests (R294–R296) -/

/-- The bank of a request, by the key of `Hbm.rows`, and its row plus one. -/
def Hbm.bankOf (x : Hbm) (q : HbmReq) : Nat × Nat :=
  let b := bankRow (x.split q.addr).2
  (q.rank * 32 + b.1, b.2 + 1)

/-- The stack is in self-refresh, which keeps no row open: its function is STOPPED and training has completed (R297). -/
def Dev.selfRefresh (d : Dev) (h : Nat) : Bool := d.fn (hbmPage h) == 0 && d.trained h

/-- A request goes to another row of the bank that `q` goes to. -/
def Hbm.otherRow (x : Hbm) (q : HbmReq) : Bool :=
  x.reqs.any fun r => (x.bankOf r).1 == (x.bankOf q).1 && (x.bankOf r).2 != (x.bankOf q).2

/-- The row that a request needs is open in its bank. -/
def Hbm.rowHit (x : Hbm) (q : HbmReq) : Bool := Map.rd 0 x.rows (x.bankOf q).1 == (x.bankOf q).2

/-- The target of a QoS port, and the age of a request in ns (R294). -/
def Dev.qosTarget (d : Dev) (h port : Nat) : Nat := d.get (hbmPage h) (F.HBM_QOS_TARGET_NS.at (4 * port))
def Dev.reqAge (d : Dev) (q : HbmReq) : Nat := d.clk - q.since

/-- The urgency of a request: from 50%, 75% and 100% of its port's target (R294). -/
def Dev.urgency (d : Dev) (h : Nat) (q : HbmReq) : Nat :=
  let a := d.reqAge q
  let t := d.qosTarget h q.port
  if a ≥ t then 3 else if 4 * a ≥ 3 * t then 2 else if 2 * a ≥ t then 1 else 0

/-- A request is issued and completes: a row hit or a miss of its bank, the row it leaves open and the hits served there while
another row waits (R295, R296); one past its target is counted (R294). -/
def Dev.hbmIssue (d : Dev) (h : Nat) (q : HbmReq) : Dev :=
  let x := d.hbm h
  let p := hbmPage h
  let (k, row) := x.bankOf q
  let hit := x.rowHit q
  let keep := d.get p F.HBM_PAGE_IDLE_NS ≠ 0 ∧ !d.selfRefresh h
  let late := decide (d.reqAge q > d.qosTarget h q.port)
  let d := d.setHbm h { x with
    reqs := x.reqs.erase q
    rows := x.rows.wr 0 k (if keep then row else 0)
    hits := x.hits.wr 0 k (if hit ∧ x.otherRow q then Map.rd 0 x.hits k + 1 else 0) }
  let d := d.cnt p F.HBM_CNT_COUNT (if hit then 3 else 4)
  if late then d.cnt p F.HBM_QOS_LATE_COUNT q.port else d

/-- Pieces of an access of `n` bytes at `a` that each lie in one row of one bank of one rank. -/
def Hbm.cut (x : Hbm) (port : Nat) (write : Bool) (since : Nat) : Nat → Nat → Nat → List HbmReq
  | 0, _, _ => []
  | fuel + 1, a, n =>
    let g := min 1024 (256 * 2 ^ (x.full.getD (3, 4)).2)
    let l := min n (g - a % g)
    if n = 0 then [] else ⟨port, write, x.phys a, a, l, since⟩ :: x.cut port write since fuel (a + l) (n - l)

/-- The requests of an access of `n` bytes at `a`, each of which covers 256 bytes at least but for the first and the last. -/
def Dev.hbmPieces (d : Dev) (h port : Nat) (write : Bool) (a n : Nat) : List HbmReq :=
  (d.hbm h).cut port write d.clk (n / 256 + 2) a n

/-- The access waits at its QoS port (R294). -/
def Dev.hbmAsk (d : Dev) (h port : Nat) (write : Bool) (a n : Nat) : Dev :=
  d.setHbm h { d.hbm h with reqs := (d.hbm h).reqs ++ d.hbmPieces h port write a n }

/-- An access that the step which makes it completes. -/
def Dev.hbmNow (d : Dev) (h port : Nat) (write : Bool) (a n : Nat) : Dev :=
  (d.hbmPieces h port write a n).foldl (fun d q => d.hbmIssue h q) d

/-- The reads of a port in `n` bytes at `a` that still wait complete. -/
def Dev.hbmServe (d : Dev) (h port a n : Nat) : Dev :=
  ((d.hbm h).reqs.filter fun q => q.port == port && !q.write && decide (a ≤ q.addr ∧ q.addr < a + n)).foldl (fun d q => d.hbmIssue h q) d

/-- A write to the rank page that a migration has in hand, which waits until its copy completes (R308). -/
def Hbm.heldWrite (x : Hbm) (q : HbmReq) : Bool :=
  match x.mig with
  | some (f, t) => q.write && q.port != 5 && q.rank == t && (x.split q.addr).2 / 4096 == (x.rank f).progress
  | none => false

/-- The oldest of some requests; between equals the port of R17. -/
def Dev.oldest (d : Dev) (res : Nat) (l : List HbmReq) : Option HbmReq × Dev :=
  match argMin (fun s => (s : Int)) (l.map (·.since)) with
  | none => (none, d)
  | some s =>
    let eq := l.filter (·.since = s)
    let (k, d) := d.grant res 8 ((eq.map (·.port)).dedup)
    (eq.find? fun q => some q.port = k, d)

/-- The choice of R295 at a command slot of a rank, among requests whose bank timing allows an access. -/
def Dev.hbmChoose (d : Dev) (h rank : Nat) (l : List HbmReq) : Option HbmReq × Dev :=
  let x := d.hbm h
  let top := (l.map (d.urgency h)).foldl max 0
  let l := l.filter fun q => d.urgency h q = top
  let cap := max 1 (d.get (hbmPage h) F.HBM_PAGE_HIT_CAP)
  let pref := l.filter fun q => x.rowHit q && !(decide (Map.rd 0 x.hits (x.bankOf q).1 ≥ cap) && x.otherRow q)
  d.oldest (Rr.hbm h rank) (if pref.isEmpty then l else pref)

/-- Writes of a rank are issued: a run of 16 is in hand or may begin, the write queue is three-quarters full, or a write has
reached its target (R295, log entry 151). -/
def Dev.writesGo (d : Dev) (h rank : Nat) (l : List HbmReq) : Bool :=
  let writes := l.filter (·.write)
  let pressed := l.any fun q => !q.write && decide (d.urgency h q ≥ 2)
  decide (Map.rd 0 (d.hbm h).run rank > 0) || decide (4 * writes.length ≥ 3 * (Config.hbmWriteQueue + 1)) ||
    (decide (writes.length ≥ 16) && !pressed) || writes.any fun q => decide (d.urgency h q = 3)

/-- One command slot of a rank, whose bank timing `free` leaves open (R295). -/
def Dev.hbmSlot (d : Dev) (h rank : Nat) (free : Word) : Dev :=
  let x := d.hbm h
  let mine := x.reqs.filter fun q => q.rank == rank && !x.heldWrite q
  let ready := mine.filter fun q => bit free.toNat ((x.bankOf q).1 % 32)
  let go := d.writesGo h rank mine
  let run := Map.rd 0 x.run rank
  match d.hbmChoose h rank (if run > 0 then ready.filter (·.write) else if go then ready else ready.filter fun q => !q.write) with
  | (none, d) => d
  | (some q, d) =>
    let left := if !q.write then run
      else if !mine.any (fun r => r.write && r != q) then 0
      else if run > 0 then run - 1 else if (mine.filter (·.write)).length ≥ 16 then 15 else 0
    let d := d.hbmIssue h q
    d.setHbm h { d.hbm h with run := (d.hbm h).run.wr 0 rank left }

/-- The command slots of a cycle: every rank with requests has one, and the bank timing that leaves it open is a free value. -/
def Dev.hbmSlots (d : Dev) (h : Nat) : Dev :=
  if (d.hbm h).reqs.isEmpty then d
  else ((d.hbm h).reqs.map (·.rank)).dedup.foldl (fun d rank => let (w, d) := d.free; d.hbmSlot h rank w) d

/-- Every request completes, oldest first: the function is about to reach STOPPED (R302). -/
def Dev.hbmDrain (d : Dev) (h : Nat) : Dev := (d.hbm h).reqs.foldl (fun d q => d.hbmIssue h q) d

/-! Data -/

/-- The store key of the word that holds a byte. -/
def hbmKey (h a : Nat) : Nat := h * 2 ^ 33 + a / 4

/-- `n` bytes from a word-aligned logical address. -/
def Dev.hbmRead (d : Dev) (h a n : Nat) : List Byte :=
  ((List.range (cdiv n 4)).flatMap fun i => leBytes 4 (Map.rd 0 d.hbmMem (hbmKey h a + i)).toNat).take n

/-- Writes words of bytes from a word key on; the words then hold valid check bits. -/
def Dev.hbmPut (d : Dev) : Nat → Nat → List Byte → Dev
  | 0, _, _ => d
  | n + 1, k, l =>
    let d := { d with hbmMem := d.hbmMem.wr 0 k (BitVec.ofNat 32 (leNat (l.take 4))), hbmBad := d.hbmBad.wr false k false }
    d.hbmPut n (k + 1) (l.drop 4)

/-- A piece of a write that reaches the rank page in hand while its copy is in flight goes to the new rank (R308). -/
def Dev.steer (d : Dev) (h : Nat) (q : HbmReq) : HbmReq :=
  let x := d.hbm h
  match x.mig with
  | some (f, t) =>
    if d.running (hbmPage h) ∧ (x.split q.addr).1 = (x.rank f).lrank ∧ (x.split q.addr).2 / 4096 = (x.rank f).progress then { q with rank := t } else q
  | none => q

/-- A write of bytes at a word-aligned logical address through a QoS port; one that reaches the rank page being copied is held
for the copy and counted (R308). -/
def Dev.hbmWrite (d : Dev) (h port a : Nat) (l : List Byte) : Dev :=
  let x := d.hbm h
  let qs := (d.hbmPieces h port true a l.length).map (d.steer h)
  let d := if qs.any x.heldWrite then d.cnt (hbmPage h) F.HBM_CNT_COUNT 11 else d
  (d.setHbm h { x with reqs := x.reqs ++ qs }).hbmPut (cdiv l.length 4) (hbmKey h a) l

/-! Retirement and migration (R307–R309) -/

def Hbm.spares (x : Hbm) : List Nat := (List.range 32).filter fun p => (x.rank p).state = 0

/-- Shows SPARES, MIG and QUEUED (R311). -/
def Dev.showHbm (d : Dev) (h : Nat) : Dev :=
  let x := d.hbm h
  let p := hbmPage h
  ((d.set p F.HBM_STAT_SPARES x.spares.length).set p F.HBM_STAT_MIG (b2n x.mig.isSome)).set p F.HBM_STAT_QUEUED (b2n (x.queued ≠ []))

/-- The logical address and length of the `i`th piece of a rank page. -/
def Hbm.pagePiece (x : Hbm) (lr pg i : Nat) : Nat × Nat :=
  let g := min 1024 (256 * 2 ^ (x.full.getD (3, 4)).2)
  (x.join lr (pg * 4096 + i * g), g)

def Hbm.pagePieces (x : Hbm) (lr pg : Nat) : List (Nat × Nat) :=
  (List.range (4096 / min 1024 (256 * 2 ^ (x.full.getD (3, 4)).2))).map (x.pagePiece lr pg)

/-- The copy in hand reads its rank page through QoS port 5 (R308). -/
def Dev.askCopy (d : Dev) (h : Nat) : Dev :=
  let x := d.hbm h
  match x.mig with
  | none => d
  | some (f, _) => (x.pagePieces (x.rank f).lrank (x.rank f).progress).foldl (fun d a => d.hbmAsk h 5 false a.1 a.2) d

/-- Migration of a RETIRING rank to the lower-numbered spare begins (R308); `failed` is a failed target and the rank pages it
holds, which are read from there (R309). -/
def Dev.startMig (d : Dev) (h f : Nat) (failed : Option (Nat × Nat)) : Dev :=
  let x := d.hbm h
  match x.spares with
  | [] => d
  | t :: _ =>
    let x := (x.setRank t { x.rank t with state := 4, lrank := (x.rank f).lrank }).setRank f { x.rank f with progress := 0 }
    (d.setHbm h { x with mig := some (f, t), failed := failed }).askCopy h

/-- NO_SPARE (R307, R309). -/
def Dev.noSpare (d : Dev) (h f : Nat) : Dev := (d.int (hbmPage h) 4).err (hbmPage h) 0x22 f

/-- The next RETIRING rank that waits starts its migration; where R309 has taken the last spare meanwhile, those that wait stay
in service with NO_SPARE (R307, log entry 152). -/
def Dev.nextMig (d : Dev) (h : Nat) : Dev :=
  let x := d.hbm h
  match x.queued with
  | [] => d.showHbm h
  | f :: r =>
    if x.spares = [] then
      let y := { x with queued := [] }
      let d := d.setHbm h (x.queued.foldl (fun y q => y.setRank q { y.rank q with state := 1, cause := 0 }) y)
      (x.queued.foldl (fun d q => d.noSpare h q) d).showHbm h
    else ((d.setHbm h { x with queued := r }).startMig h f none).showHbm h

/-- An in-service rank becomes RETIRING for a cause (R307). -/
def Dev.retire (d : Dev) (h f cause : Nat) : Dev :=
  let x := d.hbm h
  if (x.rank f).state ≠ 1 then d
  else if x.spares.length ≤ x.queued.length then d.noSpare h f
  else
    let d := (d.setHbm h (x.setRank f { x.rank f with state := 2, cause := cause })).int (hbmPage h) 2
    if x.mig.isSome then (d.setHbm h { d.hbm h with queued := x.queued ++ [f] }).showHbm h else (d.startMig h f none).showHbm h

/-- An uncorrectable word in the TARGET (R309). -/
def Dev.targetBad (d : Dev) (h : Nat) : Dev :=
  let x := d.hbm h
  match x.mig with
  | none => d
  | some (f, t) =>
    if x.spares = [] then d.noSpare h f
    else
      let x := { x.setRank t { x.rank t with state := 3, cause := 1 } with reqs := x.reqs.filter (·.port ≠ 5) }
      ((d.setHbm h x).startMig h f (some (t, (x.rank f).progress))).showHbm h

/-- An uncorrectable word is counted, recorded and, where R307 or R309 says so, retires its rank (R303). -/
def Dev.hbmUe (d : Dev) (h a : Nat) : Dev :=
  let p := hbmPage h
  let x := d.hbm h
  let ph := x.phys a
  let r := x.rank ph
  let d := d.setRank h ph { r with ue := satAdd 16 r.ue 1 }
  let d := ((d.cnt p F.HBM_CNT_COUNT 1).int p 1).err p 0x21 (a % 2 ^ 32) (a / 2 ^ 32) ph
  if r.state = 4 then d.targetBad h
  else if r.state = 1 ∧ d.get p F.HBM_CFG_AUTO_RET = 1 then d.retire h ph 1 else d

/-- A corrected word (R303); the CE limit may retire its rank (R307). -/
def Dev.hbmCe (d : Dev) (h a : Nat) : Dev :=
  let p := hbmPage h
  let x := d.hbm h
  let ph := x.phys a
  let r := x.rank ph
  let ce := satAdd 16 r.ce 1
  let d := (d.setRank h ph { r with ce := ce }).cnt p F.HBM_CNT_COUNT 0
  if r.state = 1 ∧ d.get p F.HBM_CFG_CE_RET = 1 ∧ ce ≥ max 1 (d.get p F.HBM_CE_RET_LIMIT) then d.retire h ph 2 else d

/-- What the check bits say of a read at `a`. -/
def Dev.hbmEcc (d : Dev) (h a : Nat) : Ecc → Dev
  | .clean => d
  | .corrected => d.hbmCe h a
  | .bad => d.hbmUe h a

/-- A word is marked uncorrectable. -/
def Dev.markBad (d : Dev) (h a : Nat) : Dev := { d with hbmBad := d.hbmBad.wr false (hbmKey h a) true }

/-- The last page is copied: the logical rank is served by the new rank, and the next RETIRING rank starts (R307, R308). -/
def Dev.endMig (d : Dev) (h f t : Nat) : Dev :=
  let p := hbmPage h
  let x := d.hbm h
  let x := (x.setRank f { x.rank f with state := 3, progress := rankPages }).setRank t { x.rank t with state := 1 }
  (((d.setHbm h { x with mig := none, failed := none }).cnt p F.HBM_CNT_COUNT 10).int p 3).nextMig h

/-- The words, of 1,024 at the addresses `at_` gives, that a read finds uncorrectable and corrected: those it names, and those
already known to be uncorrectable. -/
def Dev.wordsRead (d : Dev) (h : Nat) (at_ : Nat → Nat) (bad corrected : List (Fin 1024)) : List Nat × List Nat :=
  let is (l : List (Fin 1024)) (w : Nat) : Bool := l.any fun i => i.val == w
  let b := (List.range 1024).filter fun w => is bad w || Map.rd false d.hbmBad (hbmKey h (at_ w))
  (b, (List.range 1024).filter fun w => is corrected w && !b.contains w)

/-- What the check bits of words read say (R303). -/
def Dev.countWords (d : Dev) (h : Nat) (at_ : Nat → Nat) (bad corrected : List Nat) : Dev :=
  let d := corrected.foldl (fun d w => d.hbmCe h (at_ w)) d
  bad.foldl (fun d w => d.hbmUe h (at_ w)) d

/-- The rank page read is written to the new rank, each word read as uncorrectable with check bits that read so (R308). -/
def Dev.copyWrite (d : Dev) (h lr pg : Nat) (bad : List Nat) : Dev :=
  let x := d.hbm h
  let d := (x.pagePieces lr pg).foldl (fun d a => d.hbmAsk h 5 true a.1 a.2) d
  bad.foldl (fun d w => d.markBad h (x.join lr (pg * 4096 + 4 * w))) d

/-- PAGE_COPY_DONE (R308): one rank page is copied while the function runs, `bad` and `corrected` the words of it that read so.
Writes held for the copy follow it. -/
def Dev.pageCopyDone (d : Dev) (h : Nat) (bad corrected : List (Fin 1024)) : Dev :=
  let x := d.hbm h
  match x.mig with
  | none => d
  | some (f, t) =>
    if !d.running (hbmPage h) then d
    else
      let pg := (x.rank f).progress
      let lr := (x.rank f).lrank
      let at_ (w : Nat) : Nat := x.join lr (pg * 4096 + 4 * w)
      let (bad, corrected) := d.wordsRead h at_ bad corrected
      let covered (w : Nat) : Bool := x.reqs.any fun q => x.heldWrite q && decide (q.addr ≤ at_ w ∧ at_ w < q.addr + q.len)
      let d := (x.pagePieces lr pg).foldl (fun d a => d.hbmServe h 5 a.1 a.2) d
      let d := d.countWords h at_ bad corrected
      let x := d.hbm h
      if x.mig ≠ some (f, t) then d
      else
        let d := d.setHbm h (x.setRank f { x.rank f with progress := pg + 1 })
        let d := d.copyWrite h lr pg (bad.filter fun w => !covered w)
        if pg + 1 = rankPages then d.endMig h f t else d.askCopy h

/-- PATROL_SCRUB (R303): one word is read; a corrected word is written back. -/
def Dev.patrolScrub (d : Dev) (h a : Nat) (ecc : Ecc) : Dev :=
  let p := hbmPage h
  if !d.trained h ∨ d.get p F.HBM_SCRUB_HOURS = 0 ∨ a ≥ hbmSize then d
  else
    let d := d.hbmNow h 6 false a 4
    match (if Map.rd false d.hbmBad (hbmKey h a) then Ecc.bad else ecc) with
    | .clean => d
    | .corrected => ((d.hbmCe h a).hbmAsk h 6 true a 4).cnt p F.HBM_CNT_COUNT 2
    | .bad => (d.hbmUe h a).markBad h a

/-- CE_WINDOW_END (R307, R311): CE counts clear. -/
def Dev.ceWindowEnd (d : Dev) (h : Nat) : Dev :=
  d.setHbm h ((List.range 32).foldl (fun x p => x.setRank p { x.rank p with ce := 0 }) (d.hbm h))

/-! Refresh (R296, R297) -/

/-- A bank's open row closes. -/
def Dev.closeRow (d : Dev) (h rank bank : Nat) : Dev :=
  let x := d.hbm h
  d.setHbm h { x with rows := x.rows.wr 0 (rank * 32 + bank) 0 }

/-- REFRESH (R297): issued (0), postponed (1), or issued at the postponement limit (2), which is counted. In self-refresh the
controller issues none. -/
def Dev.refresh (d : Dev) (h rank bank how : Nat) : Dev :=
  if !d.trained h ∨ d.selfRefresh h ∨ how = 1 then d
  else
    let d := d.closeRow h rank bank
    if how = 2 then d.cnt (hbmPage h) F.HBM_CNT_COUNT 5 else d

/-! Training and start (R299–R301, R304) -/

/-- The applied remap image of a stack: rank states (R301). -/
def Dev.imageRank (d : Dev) (h p : Nat) : Rank :=
  let f (x : Fld) : Nat := d.live (hbmPage h) (x.at (4 * p))
  let role := f F.HBM_RMAP_CFG_ROLE
  ⟨if role = 0 then 1 else if role = 1 then 0 else 3, f F.HBM_RMAP_CFG_LRANK, 0, 0, 0, 0⟩

/-- Each logical rank 0–29 appears in exactly one in-service entry (R301). -/
def Dev.imageValid (d : Dev) (h : Nat) : Bool :=
  (List.range 30).all fun l => ((List.range 32).filter fun p => (d.imageRank h p).state = 1 ∧ (d.imageRank h p).lrank = l).length = 1

/-- The 64 MB counter region that the base in force names; none where R304 refuses it. -/
def Dev.counterRegion (d : Dev) (h : Nat) : Option Nat :=
  let b := d.live (hbmPage h) F.HBM_CNT_BASE_BASE * 65536
  if b % 2 ^ 26 = 0 ∧ b + 2 ^ 26 ≤ hbmSize then some b else none

/-- The counter region applied at a start, or a refusal (R304). -/
def Dev.applyRegion (d : Dev) (h : Nat) : Dev :=
  let p := hbmPage h
  let d := d.setHbm h { d.hbm h with region := d.counterRegion h }
  if (d.counterRegion h).isSome then d else d.err p 0x20 (d.live p F.HBM_CNT_BASE_BASE)

/-- ROLE and LRANK of the entries of the image in force (R301). -/
def Dev.imageNow (d : Dev) (h : Nat) : List (Nat × Nat) :=
  (List.range 32).map fun p => (d.live (hbmPage h) (F.HBM_RMAP_CFG_ROLE.at (4 * p)), d.live (hbmPage h) (F.HBM_RMAP_CFG_LRANK.at (4 * p)))

/-- The image in force becomes the live state of every rank (R301); a migration that it overtakes ends, and CE and UE stay. -/
def Dev.takeImage (d : Dev) (h : Nat) : Dev :=
  let x := d.hbm h
  let x := (List.range 32).foldl (fun x q => x.setRank q { d.imageRank h q with ce := (x.rank q).ce, ue := (x.rank q).ue }) x
  d.setHbm h { x with image := d.imageNow h, mig := none, failed := none, queued := [] }

/-- STARTING of an HBM function after its shadow settings have applied: image check, and which training runs (R299, R301). -/
def Dev.startHbm (d : Dev) (h : Nat) : Dev :=
  let p := hbmPage h
  if !d.imageValid h then d.startFail p 1
  else
    let x := d.hbm h
    let full := match x.full with | some (r, _) => r ≠ d.live p F.HBM_CFG_RATE | none => true
    (d.setHbm h { x with training := true, fullNow := full }).applyRegion h

/-- A rank that fails training is substituted or retired; false where no spare remains (R300). -/
def Dev.substitute (d : Dev) (h p : Nat) : Bool × Dev :=
  let x := d.hbm h
  let r := x.rank p
  if r.state = 0 then (true, d.setHbm h (x.setRank p { r with state := 3, cause := 4 }))
  else if r.state = 1 then
    match x.spares with
    | [] => (false, d)
    | t :: _ =>
      let x := (x.setRank p { r with state := 3, cause := 4 }).setRank t { x.rank t with state := 1, lrank := r.lrank }
      (true, ((d.setHbm h x).cnt (hbmPage h) F.HBM_CNT_COUNT 9).int (hbmPage h) 2)
  else (true, d)

/-- Substitutes failed ranks in turn. -/
def Dev.substituteList (d : Dev) (h : Nat) : List Nat → Bool × Dev
  | [] => (true, d)
  | p :: r => match d.substitute h p with
    | (false, d) => (false, d)
    | (true, d) => d.substituteList h r

/-- Every rank that failed training: a spare among them is RETIRED before it could serve for another (R300). -/
def Dev.substituteAll (d : Dev) (h : Nat) (l : List Nat) : Bool × Dev :=
  let spare (p : Nat) : Bool := ((d.hbm h).rank p).state == 0
  d.substituteList h (l.filter spare ++ l.filter fun p => !spare p)

/-- TRAINING_DONE (R299–R301): training ends. Full training zeroes the stack and takes up the image; a start that only retrains
read timing takes up an image that has changed since the last one applied (log entry 153). The self-test's fault is one only
where BIST runs the self-test. -/
def Dev.trainingDone (d : Dev) (h : Nat) (fault : Option (Fin 3)) (failed : List (Fin 32)) : Dev :=
  let p := hbmPage h
  let x := d.hbm h
  if !x.training then d
  else
    let d := d.setHbm h { x with training := false }
    if !x.fullNow then (if x.image = d.imageNow h then d else (d.takeImage h).showHbm h)
    else match fault.filter fun c => c.val ≠ 2 ∨ d.live p F.HBM_CFG_BIST = 1 with
      | some c => d.startFail p (3 + c.val)
      | none =>
        let d := d.setHbm h { d.hbm h with ranks := [], rows := [], reqs := [], hits := [], run := [] }
        let (ok, d) := (d.takeImage h).substituteAll h ((List.range 32).filter fun q => failed.any (fun f => f.val = q))
        if !ok then d.startFail p 2
        else
          let d := d.setHbm h { d.hbm h with full := some (d.live p F.HBM_CFG_RATE, min 5 (d.live p F.HBM_CFG_GRAIN)) }
          let d := { d with hbmMem := d.hbmMem.dropRange (h * 2 ^ 33) ((h + 1) * 2 ^ 33), hbmBad := d.hbmBad.dropRange (h * 2 ^ 33) ((h + 1) * 2 ^ 33) }
          (d.set p F.HBM_STAT_TRAINED 1).showHbm h

/-! Counters (R304–R306) -/

/-- Counting is enabled and its region applied. -/
def Dev.counting (d : Dev) (h : Nat) : Bool :=
  (d.hbm h).region.isSome && d.live (hbmPage h) F.HBM_CNT_BASE_EN == 1

/-- A counter update is posted to the stack of its pair; one aimed at a domain that is off is lost uncounted (R305). -/
def Dev.postCounter (d : Dev) (c pk by_ : Nat) : Dev :=
  let h := c % 4
  if !d.domOn (14 + h) then d
  else d.setHbm h { d.hbm h with posted := (d.hbm h).posted ++ [(c, pk, by_)] }

/-- The byte of a stack at which pair `c` lies (R304). -/
def Hbm.pairAt (x : Hbm) (c : Nat) : Nat := x.region.getD 0 + c / 4 * 16

/-- A line of two pairs read from memory. -/
def Dev.fetchLine (d : Dev) (h i : Nat) : CntLine :=
  let b := d.hbmRead h ((d.hbm h).region.getD 0 + i * 32) 32
  ⟨i, leNat (b.take 8), leNat ((b.drop 8).take 8), leNat ((b.drop 16).take 8), leNat (b.drop 24)⟩

/-- A line is written back. -/
def Dev.writeLine (d : Dev) (h : Nat) (l : CntLine) : Dev :=
  d.hbmWrite h 2 ((d.hbm h).region.getD 0 + l.idx * 32) (leBytes 8 l.p0 ++ leBytes 8 l.b0 ++ leBytes 8 l.p1 ++ leBytes 8 l.b1)

/-- The cache holds the line of index `i`; a full cache first writes a line back, which one is left open (R305). -/
def Dev.holdLine (d : Dev) (h i : Nat) : Dev :=
  if (d.hbm h).lines.any (·.idx = i) then d
  else
    let l := d.fetchLine h i
    let d := if (d.hbm h).lines.length ≥ 8192 then
        let (v, d) := d.free
        let k := v.toNat % 8192
        match (d.hbm h).lines[k]? with
        | some o => let d := d.writeLine h o; d.setHbm h { d.hbm h with lines := (d.hbm h).lines.eraseIdx k }
        | none => d
      else d
    let d := d.hbmAsk h 2 false ((d.hbm h).region.getD 0 + i * 32) 32
    d.setHbm h { d.hbm h with lines := (d.hbm h).lines ++ [l] }

/-- The pair `c` of the cached lines. -/
def Hbm.pair (x : Hbm) (c : Nat) : Nat × Nat :=
  match x.lines.find? (·.idx = c / 8) with
  | some l => if c / 4 % 2 = 0 then (l.p0, l.b0) else (l.p1, l.b1)
  | none => (0, 0)

/-- Sets pair `c` in its cached line; both counts wrap (R305). -/
def Hbm.setPair (x : Hbm) (c p b : Nat) : Hbm :=
  { x with lines := x.lines.map fun l => if l.idx ≠ c / 8 then l
      else if c / 4 % 2 = 0 then { l with p0 := p % 2 ^ 64, b0 := b % 2 ^ 64 } else { l with p1 := p % 2 ^ 64, b1 := b % 2 ^ 64 } }

/-- What a read of pair `c` finds in memory: the word of it that is known to be uncorrectable, or what the step says. -/
def Dev.pairEcc (d : Dev) (h c : Nat) (ecc : Ecc) : Ecc :=
  if (List.range 4).any fun w => Map.rd false d.hbmBad (hbmKey h ((d.hbm h).pairAt c) + w) then .bad else ecc

/-- A pair is read as uncorrectable (R303, R305). -/
def Dev.pairUe (d : Dev) (h c : Nat) : Dev :=
  let p := hbmPage h
  ((d.hbmUe h ((d.hbm h).pairAt c)).cnt p F.HBM_CNT_COUNT 7).err p 0x23 c

/-- The read of pair `c`'s line completes. The line's other pair, where memory is known to be uncorrectable there, is rewritten
with no update to hold (R305). -/
def Dev.lineRead (d : Dev) (h c : Nat) : Dev :=
  let d := d.hbmServe h 2 ((d.hbm h).region.getD 0 + c / 8 * 32) 32
  let o := c / 8 * 8 + (1 - c / 4 % 2) * 4 + c % 4
  if d.pairEcc h o .clean = .bad then let d := d.pairUe h o; d.setHbm h ((d.hbm h).setPair o 0 0) else d

/-- COUNTER_UPDATE (R305): the oldest posted update is applied or discarded. -/
def Dev.counterUpdate (d : Dev) (h : Nat) (ecc : Ecc) : Dev :=
  let p := hbmPage h
  match (d.hbm h).posted with
  | [] => d
  | (c, pk, by_) :: r =>
    let d := d.setHbm h { d.hbm h with posted := r }
    if !d.counting h ∨ ¬ (d.fn p = 2 ∨ d.fn p = 3) ∨ !d.trained h then d.tally p (F.HBM_CNT_COUNT.at 24)
    else
      let miss := !(d.hbm h).lines.any (·.idx = c / 8)
      let ecc := d.pairEcc h c ecc
      let d := d.holdLine h (c / 8)
      let d := if miss then d.lineRead h c else d
      let (p0, b0) := (d.hbm h).pair c
      if miss ∧ ecc = .bad then
        let d := d.pairUe h c
        d.setHbm h ((d.hbm h).setPair c pk by_)
      else
        let d := if miss ∧ ecc = .corrected then d.hbmCe h ((d.hbm h).pairAt c) else d
        d.setHbm h ((d.hbm h).setPair c (p0 + pk) (b0 + by_))

/-- HBM_CNTR_CMD.READ (R306), CLEAR as given. -/
def Dev.counterRead (d : Dev) (h : Nat) (clear : Bool) : Dev :=
  let p := hbmPage h
  let c := d.get p F.HBM_CNTR_IDX_INDEX
  let fail (code : Nat) : Dev := d.setWord p F.HBM_CNTR_STAT_BUSY.off (BitVec.ofNat 32 (4 + code * 8))
  if c % 4 ≠ h then fail 1
  else if !d.counting h ∨ !d.trained h then fail 2
  else
    let miss := !(d.hbm h).lines.any (·.idx = c / 8)
    let d := d.holdLine h (c / 8)
    let (pk, by_) := (d.hbm h).pair c
    let x := if clear then (d.hbm h).setPair c 0 0 else d.hbm h
    (d.setHbm h { x with read := some (c, pk, by_, clear, miss) }).setWord p F.HBM_CNTR_STAT_BUSY.off 1

/-- COUNTER_READ_DONE (R306): the pair is returned; one whose memory read was uncorrectable keeps only later updates. -/
def Dev.counterReadDone (d : Dev) (h : Nat) (ecc : Ecc) : Dev :=
  let p := hbmPage h
  match (d.hbm h).read with
  | none => d
  | some (c, pk, by_, clear, miss) =>
    let ecc := d.pairEcc h c ecc
    let d := d.setHbm h { d.hbm h with read := none }
    let d := if miss then d.lineRead h c else d
    let (pk, by_, d) : Nat × Nat × Dev := if miss ∧ ecc = .bad then
        let d := d.pairUe h c
        let (p1, b1) := (d.hbm h).pair c
        let x := if clear then d.hbm h else (d.hbm h).setPair c (p1 + 2 ^ 64 - pk) (b1 + 2 ^ 64 - by_)
        (0, 0, d.setHbm h x)
      else (pk, by_, if miss ∧ ecc = .corrected then d.hbmCe h ((d.hbm h).pairAt c) else d)
    let d := d.showRec p F.HBM_CNTR_PKTS_PKTS.off 4
      [BitVec.ofNat 32 pk, BitVec.ofNat 32 (pk / 2 ^ 32), BitVec.ofNat 32 by_, BitVec.ofNat 32 (by_ / 2 ^ 32)]
    (d.setWord p F.HBM_CNTR_STAT_BUSY.off 2).int p 0

/-- The counter cache is written back in full (R302 step 4). -/
def Dev.flushCounters (d : Dev) (h : Nat) : Dev :=
  let d' := (d.hbm h).lines.foldl (fun d l => d.writeLine h l) d
  d'.setHbm h { d'.hbm h with lines := [] }

/-! Temperature (R298) -/

/-- HBM_TEMP_READ: warning and throttle; true where the second reading at 105 °C or above trips the stack. -/
def Dev.hbmTemp (d : Dev) (h t : Nat) : Bool × Dev :=
  let p := hbmPage h
  let c := toSigned 8 t
  let d := d.set p F.HBM_TEMP_TEMP t
  let d := if c ≥ (d.get p F.HBM_TEMP_WARN : Int) then d.int p 5 else d
  let hot := (d.get p F.HBM_TEMP_HOT : Int)
  let was := d.get p F.HBM_STAT_THROTTLE = 1
  let d := if !was ∧ c ≥ hot then (d.set p F.HBM_STAT_THROTTLE 1).int p 6
    else if was ∧ c < hot - 5 then d.set p F.HBM_STAT_THROTTLE 0 else d
  let n := if c ≥ 105 then (d.hbm h).hot + 1 else 0
  (decide (n ≥ 2), d.setHbm h { d.hbm h with hot := n })

/-! Entry-window space 0x09 (R310) -/

/-- The four words of a remap entry. -/
def Dev.rankRead (d : Dev) (h p : Nat) : List Word :=
  let r := (d.hbm h).rank p
  [BitVec.ofNat 32 (r.state + r.lrank * 8 + r.cause * 512), BitVec.ofNat 32 r.progress, BitVec.ofNat 32 (r.ce + r.ue * 65536), 0]

/-- A WRITE: RETIRE on an in-service rank, or CE or UE written 0; CODE 3 otherwise (R310). -/
def Dev.rankWrite (d : Dev) (h p : Nat) (x : List Word) : Nat × Dev :=
  let r := (d.hbm h).rank p
  let w0 := (x.getD 0 0).toNat
  let w2 := (x.getD 2 0).toNat
  let ret := bit w0 8
  let okCnt (now new : Nat) : Bool := decide (new = 0 ∨ new = now)
  let same := clrBit w0 8 = ((d.rankRead h p).getD 0 0).toNat ∧ (x.getD 1 0) = (d.rankRead h p).getD 1 0 ∧ x.getD 3 0 = 0
  if !d.running (hbmPage h) ∨ !same ∨ (ret ∧ r.state ≠ 1) ∨ !okCnt r.ce (w2 % 65536) ∨ !okCnt r.ue (w2 / 65536) then (3, d)
  else
    let d := d.setRank h p { r with ce := w2 % 65536, ue := w2 / 65536 }
    (0, if ret then d.retire h p 3 else d)

end Sys2Proof.Machine
end

