-- ==== Sys2Proof/Machine/Buffer.lean ====
section
/-! DEFINITION. The buffer pool manager's cells: state entries, quotas, allocation, chains, owners and frees
(R196–R206), with the PFC charge of a cell (R220). -/

namespace Sys2Proof.Machine

/-- An erased cell: INIT writes memories to zero (R48). -/
def zeroCell : List Byte := List.replicate 256 0

/-- The 256 bytes of a cell. -/
def Dev.cellBytes (d : Dev) (ptr : Nat) : List Byte := Map.rd zeroCell d.buf ptr

/-- The state entry of a cell. -/
def Dev.cell (d : Dev) (ptr : Nat) : CellEntry := Map.rd CellEntry.init d.cells ptr

/-- Writes a cell's state entry. -/
def Dev.setCell (d : Dev) (ptr : Nat) (e : CellEntry) : Dev := { d with cells := d.cells.wr CellEntry.init ptr e }

/-- Writes leading bytes of a cell; the rest keeps its contents. -/
def Dev.writeCell (d : Dev) (ptr : Nat) (b : List Byte) : Dev :=
  { d with buf := d.buf.wr zeroCell ptr (splice (d.cellBytes ptr) 0 (b.take 256)) }

/-- The die of a cell pointer (R196). -/
def cellDie (ptr : Nat) : Nat := ptr / 262144 % 2

/-- The pool of a die. -/
def Dev.bpm (d : Dev) (die : Nat) : Bpm := Map.rd Bpm.init d.bpms die
def Dev.setBpm (d : Dev) (die : Nat) (b : Bpm) : Dev := { d with bpms := d.bpms.wr Bpm.init die b }

/-! Ports -/

/-- The page of a network port's PG and its lane index (R79). -/
def portPage (port : Nat) : Nat := pgPage (port / 8)

/-- A field of a PG register indexed by lane, in force. -/
def Dev.portCfg (d : Dev) (port : Nat) (f : Fld) : Nat := d.live (portPage port) (f.at (4 * (port % 8)))

/-- The port's receive PCS takes its own transmit stream (R94). -/
def Dev.loops (d : Dev) (port : Nat) : Bool := d.mode == 5 && d.portCfg port F.PG_PORT_CFG_LOOP == 1

/-! PFC charge of cells (R220) -/

/-- PFC_CNT(n, p). -/
def Dev.pfcCount (d : Dev) (port prio : Nat) : Nat := Map.rd 0 d.swc.pfcCnt (8 * port + prio)

/-- Sends a PFC frame for one priority (R220); a port in loopback will receive it (R94, log entry 149). -/
def Dev.sendPfc (d : Dev) (port prio time : Nat) : Dev :=
  let p := swcPage (port / 64)
  let f := F.SWC_PFC_STAT_XOFF.at (4 * (port % 64))
  let d := d.bump p (F.SWC_CNT_COUNT.at 8)
  let d := d.set p f (if time = 0 then clrBit (d.get p f) prio else setBit (d.get p f) prio)
  let d := if time = 0 then d else d.int p 2
  let d := if d.loops port then { d with swc := { d.swc with looped := d.swc.looped ++ [(port, prio, time)] } } else d
  d.emit (.pfc port prio time)

/-- PFC is sent for this priority of the port (R220). -/
def Dev.pfcEnabled (d : Dev) (port prio : Nat) : Bool :=
  let p := swcPage (port / 64)
  d.get p (F.SWC_PFC_CFG_TX_EN.at (4 * (port % 64))) = 1 && bit (d.get p (F.SWC_PFC_CFG_PRIO_EN.at (4 * (port % 64)))) prio

/-- SWC_PFC_STAT.XOFF of a priority: it has been sent paused. -/
def Dev.pfcXoff (d : Dev) (port prio : Nat) : Bool := bit (d.get (swcPage (port / 64)) (F.SWC_PFC_STAT_XOFF.at (4 * (port % 64)))) prio

/-- PFC_CNT(n, p), which was `was`, is held against the thresholds in force (R220): at or above XOFF, reached now or not yet told
to the peer, a pause of QUANTA is sent; below XON, with the peer paused, time 0. -/
def Dev.pfcJudge (d : Dev) (port prio was : Nat) : Dev :=
  let p := swcPage (port / 64)
  let n := d.pfcCount port prio
  let xoff := d.get p F.SWC_PFC_THR_XOFF
  if n ≥ xoff ∧ (was < xoff ∨ !d.pfcXoff port prio) then
    if d.pfcEnabled port prio then d.sendPfc port prio (d.get p (F.SWC_PFC_CFG_QUANTA.at (4 * (port % 64)))) else d
  else if n < d.get p F.SWC_PFC_THR_XON ∧ d.pfcXoff port prio then d.sendPfc port prio 0
  else d

/-- A die's counts are held against thresholds that a write has moved (log entry 150). -/
def Dev.pfcJudgeAll (d : Dev) (die : Nat) : Dev :=
  (List.range 512).foldl (fun d i => d.pfcJudge (64 * die + i / 8) (i % 8) (d.pfcCount (64 * die + i / 8) (i % 8))) d

/-- Charges a cell to PFC_CNT(n, p) (R220). -/
def Dev.pfcCharge (d : Dev) (ptr port prio : Nat) : Dev :=
  let n := d.pfcCount port prio
  ({ d with swc := { d.swc with
      pfcCnt := d.swc.pfcCnt.wr 0 (8 * port + prio) (n + 1)
      pfcOf := d.swc.pfcOf.wr 0 ptr (8 * port + prio + 1) } } : Dev).pfcJudge port prio n

/-- Ends a cell's PFC charge (R220). -/
def Dev.pfcRelease (d : Dev) (ptr : Nat) : Dev :=
  let k := Map.rd 0 d.swc.pfcOf ptr
  if k = 0 then d
  else
    let n := d.pfcCount ((k - 1) / 8) ((k - 1) % 8)
    ({ d with swc := { d.swc with pfcCnt := d.swc.pfcCnt.wr 0 (k - 1) (n - 1), pfcOf := d.swc.pfcOf.wr 0 ptr 0 } } : Dev).pfcJudge
      ((k - 1) / 8) ((k - 1) % 8) n

/-! Quotas and allocation (R202–R205) -/

/-- Cells charged to requester `r` and its limits. -/
def Dev.used (d : Dev) (die r : Nat) : Nat := d.get (bpmPage die) (F.BPM_USED_USED.at (4 * r))
def Dev.quotaMin (d : Dev) (die r : Nat) : Nat := d.live (bpmPage die) (F.BPM_QUOTA_MIN.at (8 * r))
def Dev.quotaMax (d : Dev) (die r : Nat) : Nat := d.get (bpmPage die) (F.BPM_QUOTA_MAX.at (8 * r))
def Dev.freeCells (d : Dev) (die : Nat) : Nat := d.get (bpmPage die) F.BPM_CELLS_FREE

/-- The decision of R204. -/
def Dev.mayTake (d : Dev) (die r : Nat) : Bool :=
  if d.used die r ≥ d.quotaMax die r then false
  else if d.used die r < d.quotaMin die r then true
  else decide (d.freeCells die > ((List.range 16).map fun q => d.quotaMin die q - d.used die q).sum)

/-- Takes up to `n` indices from the head of the ring (R202). -/
def Bpm.take : Nat → Bpm → List Nat × Bpm
  | 0, b => ([], b)
  | n + 1, b =>
    if b.fresh < 262144 then let (l, b') := Bpm.take n { b with fresh := b.fresh + 1 }; (b.fresh :: l, b')
    else match b.freed with
      | [] => ([], b)
      | i :: r => let (l, b') := Bpm.take n { b with freed := r }; (i :: l, b')

/-- The ring holds fewer than 8 pointers. -/
def Bpm.low (b : Bpm) : Bool := decide (262144 - b.fresh + b.freed.length < 8)

/-- Drains the free cache to the ring's tail: batches of 8, or all of it while the ring is low (R202). -/
def Bpm.drain (b : Bpm) : Bpm :=
  if b.low then { b with freed := b.freed ++ b.freeCache, freeCache := [] }
  else if b.freeCache.length ≥ 8 then { b with freed := b.freed ++ b.freeCache.take 8, freeCache := b.freeCache.drop 8 }
  else b

/-- Requester `r`'s cache refilled by one batch where it holds fewer than 8 (R202). -/
def Bpm.refill (b : Bpm) (r : Nat) : Bpm :=
  let c := Map.rd [] b.caches r
  if c.length < 8 then let (l, b') := b.take 8; { b' with caches := b'.caches.wr [] r (c ++ l) } else b

/-- One cell for requester `r`: a pointer charged to it, or a refusal that is counted (R204). -/
def Dev.allocCell (d : Dev) (die r : Nat) : Option Nat × Dev :=
  let p := bpmPage die
  let refuse := (none, d.bump p (F.BPM_REFUSE_COUNT.at (4 * r)))
  if !d.mayTake die r then refuse
  else
    let b := ((d.bpm die).drain).refill r
    match Map.rd [] b.caches r with
    | [] => refuse
    | i :: rest =>
      let ptr := die * 262144 + i
      let d := d.setBpm die { b with caches := b.caches.wr [] r rest }
      let d := d.setCell ptr { CellEntry.init with alloc := true, req := r, last := true }
      let d := d.set p (F.BPM_USED_USED.at (4 * r)) (d.used die r + 1)
      (some ptr, d.set p F.BPM_CELLS_FREE (d.freeCells die - 1))

/-- A pointer that fails a check is discarded (R206); one aimed at a lost half leaves nothing (R395). -/
def Dev.ptrBad (d : Dev) (p ptr code : Nat) : Dev :=
  if !d.pageOn p then d else ((d.bump p F.BPM_CNT_COUNT).int p 0).err p 0x20 ptr code

/-- What is known of a frame's end is kept by its cell 0 (R14): `old` gives the part over to `new`, or ends it. -/
def Dev.moveMark (d : Dev) (old : Nat) (new : Option Nat) : Dev :=
  let bad := Map.rd 0 d.badFrames old
  let b := d.badFrames.wr 0 old 0
  let b := match new with | some n => b.wr 0 n bad | none => b
  let rx := d.rx.foldl (fun m x => match x.2 with
    | some f => if f.owner = old then m.wr none x.1 (new.map fun n => { f with owner := n }) else m
    | none => m) d.rx
  { d with badFrames := b, rx := rx }

/-- One cell returns to the requester of its REQ field through the free cache (R199, R202, R206). -/
def Dev.freeCell (d : Dev) (ptr : Nat) : Dev :=
  let die := cellDie ptr
  let p := bpmPage die
  let e := d.cell ptr
  if !e.alloc then d.ptrBad p ptr 2
  else
    let d := ((d.pfcRelease ptr).setCell ptr CellEntry.init).moveMark ptr none
    let b := d.bpm die
    let d := d.setBpm die (Bpm.drain { b with freeCache := b.freeCache ++ [ptr % 262144] })
    let d := d.set p (F.BPM_USED_USED.at (4 * e.req)) (d.used die e.req - 1)
    d.set p F.BPM_CELLS_FREE (d.freeCells die + 1)

/-! Chains -/

/-- The longest chain: 16,063 bytes and two rewrite cells. -/
def chainFuel : Nat := 80

/-- The cells of a chain in order; a walk ends at a cell that is not allocated. -/
def Dev.chainFrom (d : Dev) : Nat → Nat → List Nat
  | 0, _ => []
  | n + 1, ptr => if (d.cell ptr).last || !(d.cell ptr).alloc then [ptr] else ptr :: d.chainFrom n (d.cell ptr).next

/-- The cells of the chain that begins at `first`. -/
def Dev.chain (d : Dev) (first : Nat) : List Nat := d.chainFrom chainFuel first

/-- The valid bytes of a chain (VB of R196). -/
def Dev.chainBytes (d : Dev) (first : Nat) : List Byte :=
  ((d.chain first).map fun c => (d.cellBytes c).take ((d.cell c).vb + 1)).flatten

/-- The chain walker frees linked cells, each NEXT read before its entry is cleared; a pointer that names the other die is
discarded (R206 code 1), and at an uncorrectable entry the walk ends: that cell and the rest are lost (R201). -/
def Dev.walkFree (d : Dev) (l : List Nat) : Dev :=
  let die := cellDie (l.headD 0)
  let p := bpmPage die
  let good := l.takeWhile fun c => !(d.cell c).ue
  let lost := l.drop good.length
  let d := good.foldl (fun d c => if cellDie c = die then d.freeCell c else d.ptrBad p c 1) d
  match lost with
  | [] => d
  | c :: _ => ((d.bump p F.BPM_LOST_COUNT lost.length).int p 1).err p 0x21 c

/-- The chain walker frees a whole chain. -/
def Dev.freeChain (d : Dev) (first : Nat) : Dev := d.walkFree (d.chain first)

/-- Splits bytes into 256-byte pieces. -/
def pieces : Nat → List Byte → List (List Byte)
  | 0, _ => []
  | n + 1, l => if l.length ≤ 256 then [l] else l.take 256 :: pieces n (l.drop 256)

/-- Links a list of cells into a chain that ends in `tail` (none: the last cell ends the chain). -/
def Dev.linkCells (d : Dev) : List Nat → Option Nat → Dev
  | [], _ => d
  | [c], none => d.setCell c { d.cell c with last := true, next := 0 }
  | [c], some t => d.setCell c { d.cell c with last := false, next := t }
  | c :: c' :: r, t => (d.setCell c { d.cell c with last := false, next := c' }).linkCells (c' :: r) t

/-- Writes pieces into fresh cells of requester `r` until one is refused: the cells written and whether all were. -/
def Dev.writePieces (d : Dev) (die r : Nat) : List (List Byte) → List Nat × Bool × Dev
  | [] => ([], true, d)
  | b :: rest =>
    match d.allocCell die r with
    | (none, d) => ([], false, d)
    | (some c, d) =>
      let d := d.writeCell c b
      let d := d.setCell c { d.cell c with vb := b.length - 1 }
      let (cs, ok, d) := d.writePieces die r rest
      (c :: cs, ok, d)

/-- A chain of full cells holding these bytes, charged to requester `r`; on a refusal the cells taken are freed. -/
def Dev.newChain (d : Dev) (die r : Nat) (b : List Byte) : Option Nat × Dev :=
  let (cs, ok, d) := d.writePieces die r (pieces chainFuel b)
  if ok then (cs.head?, d.linkCells cs none) else (none, d.walkFree cs)

/-! Owners (R199, R200) -/

/-- SET(n): the owner fields of cell 0, and SH in every cell of the body when n > 0. -/
def Dev.setOwners (d : Dev) (owner first n : Nat) : Dev :=
  let d := if n = 0 then d else (d.chain first).foldl (fun d c => d.setCell c { d.cell c with sh := true }) d
  d.setCell owner { d.cell owner with own := n, fin := false }

/-- The free condition of R199, tested after an owner operation: the body is freed from its first shared cell. -/
def Dev.ownerTest (d : Dev) (owner : Nat) : Dev :=
  if (d.cell owner).own = 0 ∧ (d.cell owner).fin = true then
    (d.freeChain owner).bump (bpmPage (cellDie owner)) (F.BPM_CNT_COUNT.at 28)
  else d

/-- RELEASE by a non-final holder. -/
def Dev.ownRelease (d : Dev) (owner : Nat) : Dev :=
  let e := d.cell owner
  if e.own = 0 then d.ptrBad (bpmPage (cellDie owner)) owner 4
  else (d.setCell owner { e with own := e.own - 1 }).ownerTest owner

/-- FINAL by the final owner. -/
def Dev.ownFinal (d : Dev) (owner : Nat) : Dev :=
  let e := d.cell owner
  if e.fin then d.ptrBad (bpmPage (cellDie owner)) owner 4 else (d.setCell owner { e with fin := true }).ownerTest owner

/-- A holder lets go of its packet: its private cells, then RELEASE or FINAL; an unshared chain is freed (R199). -/
def Dev.letGo (d : Dev) (first owner : Nat) (shared final : Bool) : Dev :=
  if !shared then d.freeChain first
  else
    let body := d.chain owner
    let own := (d.chain first).takeWhile (fun c => !(d.cell c).sh && !body.contains c)
    let d := d.walkFree own
    if final then d.ownFinal owner else d.ownRelease owner

/-- A holder of a queue entry lets go; markers and messages hold nothing. -/
def Dev.letGoEnt (d : Dev) (e : QEnt) : Dev := if e.ctl then d else d.letGo e.first e.owner e.shared e.final

/-- Frees the chain of a packet that no queue holds. -/
def Dev.freePkt (d : Dev) (p : Pkt) : Dev := d.letGo p.first p.owner false false

/-! Waiting requesters (R203) -/

/-- A requester that waits joins the list of its die. -/
def Dev.waitCell (d : Dev) (die r : Nat) (w : CellWait) : Dev :=
  let b := d.bpm die
  d.setBpm die { b with waits := b.waits ++ [(r, w)] }

/-! Function start (R205, R206) -/

/-- The BPM rebuilds its cell ring with every cell in ascending order and clears entries and used counts (R206). -/
def Dev.startBpm (d : Dev) (die : Nat) : Dev :=
  let p := bpmPage die
  let lo := die * 262144
  let d := { d with cells := d.cells.dropRange lo (lo + 262144) }
  let d := { d with swc := { d.swc with pfcOf := d.swc.pfcOf.dropRange lo (lo + 262144) } }
  let d := d.setBpm die ⟨0, [], [], [], []⟩
  let d := (List.range 16).foldl (fun d r => d.set p (F.BPM_USED_USED.at (4 * r)) 0) d
  d.set p F.BPM_CELLS_FREE 262144

/-! Rewrite placement (R198) -/

/-- The leading bytes replace cell 0 of a chain: in place, by freeing it, or with one more cell of requester `r`.
None: the cell is refused. -/
def Dev.placeLead (d : Dev) (r first : Nat) (lead : List Byte) : Option Nat × Dev :=
  let e := d.cell first
  let die := cellDie first
  if lead.length = 0 then (some e.next, (d.moveMark first (some e.next)).walkFree [first])
  else if lead.length ≤ 256 then (some first, (d.writeCell first lead).setCell first { e with vb := lead.length - 1 })
  else
    match d.allocCell die r with
    | (none, d) => (none, d)
    | (some c, d) =>
      let d := d.writeCell first (lead.take 256)
      let d := d.setCell first { e with vb := 255, last := false, next := c }
      let d := d.writeCell c (lead.drop 256)
      (some first, d.setCell c { d.cell c with vb := lead.length - 257, last := e.last, next := e.next })

end Sys2Proof.Machine
end

