-- ==== Sys2Proof/Machine/Tm.lean ====
section
/-! DEFINITION. The traffic manager's structures (R212, R230–R246): queue and node entries, virtual-time tags, shapers and
the calendar wheel, gate lists and windows, and the rate schedule. -/

namespace Sys2Proof.Machine

/-! Ports -/

/-- The lane starts a port under the MODE (R79). -/
def laneStarts (mode lane : Nat) : Bool := lane % (8 / 2 ^ mode) == 0

/-- The port number starts a port under the applied MODE. -/
def Dev.portStarts (d : Dev) (port : Nat) : Bool := laneStarts (d.live (portPage port) F.PG_CFG_MODE) (port % 8)

/-- A port's Ethernet rate in Gb/s (R79). -/
def Dev.ethRate (d : Dev) (port : Nat) : Nat := 1600 / 2 ^ d.live (portPage port) F.PG_CFG_MODE

/-- A member port: applied SHIM = 1 (R260). -/
def Dev.isMember (d : Dev) (port : Nat) : Bool := decide (port < 128) && d.portCfg port F.PG_PORT_CFG_SHIM == 1

/-- Word `w` of entry `k` of a trunk on a die's CAR (R286). -/
def Dev.carWord (d : Dev) (die t k w : Nat) : Nat := (Map.rd 0 d.car.entries ((512 * die + 32 * t + k) * 8 + w)).toNat

/-- What speaks for a die as a trunk's home: 0 its entry has EN = 0, else 1 a start disabled it, 2 none has looked at it yet,
3 a start found it good (R260, R261). -/
def Dev.trunkClaim (d : Dev) (die t : Nat) : Nat :=
  if !bit (d.carWord die t 0 0) 0 then 0
  else match Map.rd 0 d.car.verdicts (16 * die + t) with
    | 0 => 2
    | 1 => 3
    | _ => 1

/-- The home die of a trunk (R260); of two entries with EN = 1, the one a start has not disabled. -/
def Dev.trunkHome (d : Dev) (t : Nat) : Option Nat :=
  if d.trunkClaim 0 t = 0 ∧ d.trunkClaim 1 t = 0 then none else if d.trunkClaim 0 t < d.trunkClaim 1 t then some 1 else some 0

/-- The home die of a scheduling port (R212). -/
def Dev.portHome (d : Dev) (port : Nat) : Option Nat :=
  if port < 64 then some 0 else if port < 128 then some 1 else if port < 144 then d.trunkHome (port - 128)
  else if port < 148 then some 0 else if port < 152 then some 1 else none

/-- STATE of a network port (R226). -/
def Dev.portState (d : Dev) (port : Nat) : Nat := d.get (swcPage (port / 64)) (F.SWC_PORT_STATE_STATE.at (4 * (port % 64)))

/-- A counter of SWC_DROP or SWC_DROP_AUX for a scheduling port (R229). -/
def Dev.dropCount (d : Dev) (port k : Nat) : Dev :=
  match d.portHome port with
  | none => d
  | some h =>
    if port < 128 then d.bump (swcPage h) (F.SWC_DROP_COUNT.at (16 * (port % 64) + 4 * k))
    else d.bump (swcPage h) (F.SWC_DROP_AUX_COUNT.at (16 * (port - 128) + 4 * k))

/-! Queue and node entries (R232, R233) -/

def Dev.setTm (d : Dev) (t : Tm) : Dev := { d with tm := t }
def Dev.queue (d : Dev) (q : Nat) : Queue := Map.rd Queue.init d.tm.queues q
def Dev.setQueue (d : Dev) (q : Nat) (x : Queue) : Dev := d.setTm { d.tm with queues := d.tm.queues.wr Queue.init q x }
def Dev.node (d : Dev) (m : Nat) : Node := Map.rd Node.init d.tm.nodes m
def Dev.setNode (d : Dev) (m : Nat) (x : Node) : Dev := d.setTm { d.tm with nodes := d.tm.nodes.wr Node.init m x }

/-- The node, class, weight and profiles a queue entry names. -/
def Dev.qNode (d : Dev) (q : Nat) : Nat := q / 65536 * 8192 + bits (d.queue q).w0.toNat 0 13
def Dev.qClass (d : Dev) (q : Nat) : Nat := bits (d.queue q).w0.toNat 13 3
def Dev.qWeight (d : Dev) (q : Nat) : Nat := max 1 (bits (d.queue q).w0.toNat 16 12)
def Dev.qSpill (d : Dev) (q : Nat) : Nat := bits (d.queue q).w0.toNat 28 4
def Dev.qAdm (d : Dev) (q : Nat) : Nat := bits (d.queue q).w1.toNat 0 5
def Dev.qPrio (d : Dev) (q : Nat) : Nat := bits (d.queue q).w1.toNat 5 3
def Dev.qPfcEn (d : Dev) (q : Nat) : Bool := bit (d.queue q).w1.toNat 8

def Dev.nPort (d : Dev) (m : Nat) : Nat := bits (d.node m).w0.toNat 0 8
def Dev.nWeight (d : Dev) (m : Nat) : Nat := max 1 (bits (d.node m).w0.toNat 8 12)
def Dev.nStrict (d : Dev) (m : Nat) : Nat := bits (d.node m).w0.toNat 20 4
def Dev.classWeight (d : Dev) (m k : Nat) : Nat := max 1 (bits (d.node m).w3.toNat (4 * k) 4)

/-- A node is attached when PORT names a scheduling port homed on its die (R233). -/
def Dev.attached (d : Dev) (m : Nat) : Bool := d.portHome (d.nPort m) == some (m / 8192)

/-- The scheduling port of a queue. -/
def Dev.qPort (d : Dev) (q : Nat) : Nat := d.nPort (d.qNode q)

/-- The queues that the store lists on a node, and on a port. -/
def Dev.nodeQueues (d : Dev) (m : Nat) : List Nat := (d.tm.queues.map (·.1)).filter fun q => d.qNode q = m
def Dev.portQueues (d : Dev) (port : Nat) : List Nat :=
  (d.tm.queues.map (·.1)).filter fun q => d.attached (d.qNode q) && d.qPort q == port
def Dev.portNodes (d : Dev) (port : Nat) : List Nat := ((d.portQueues port).map d.qNode).dedup

/-- CNT_d(q) (R214). -/
def Dev.cntOf (d : Dev) (die q : Nat) : Nat := Map.rd 0 d.swc.cnt (131072 * die + q)

/-- A word field of the admission profile a queue names, on the admitting die. -/
def Dev.adm (d : Dev) (die q : Nat) (f : Fld) : Nat := d.get (swcPage die) (f.at (16 * d.qAdm q))

/-- U_d, the die's shared use (R214). -/
def Dev.sharedUse (d : Dev) (die : Nat) : Nat :=
  ((d.swc.cnt.filter fun x => x.1 / 131072 = die).map fun x => x.2 - d.adm die (x.1 % 131072) F.SWC_ADM_PROF_MIN).sum

/-- F_d, the free shared space. -/
def Dev.sharedFree (d : Dev) (die : Nat) : Nat := d.live (swcPage die) F.SWC_POOL_SHARED - d.sharedUse die

/-- SWC INT_STAT.BLK bit 1: F_d, which was `was`, has reached 0 (R229). -/
def Dev.freeFell (d : Dev) (die was : Nat) : Dev := if was ≠ 0 ∧ d.sharedFree die = 0 then d.int (swcPage die) 1 else d

/-- Changes of CNT_d(q). -/
def Dev.cntAdd (d : Dev) (die q n : Nat) : Dev :=
  ({ d with swc := { d.swc with cnt := d.swc.cnt.wr 0 (131072 * die + q) (d.cntOf die q + n) } } : Dev).freeFell die (d.sharedFree die)
def Dev.cntSub (d : Dev) (die q n : Nat) : Dev :=
  { d with swc := { d.swc with cnt := d.swc.cnt.wr 0 (131072 * die + q) (d.cntOf die q - n) } }

/-- A queue's on-chip cells. -/
def Dev.qCells (d : Dev) (q : Nat) : Nat := d.cntOf 0 q + d.cntOf 1 q

/-- The packets of a queue's HBM segment, but for those that have been dropped there (R210, R302). -/
def Queue.inHbm (x : Queue) : Nat :=
  (x.seg.map fun g => (g.recs.filter fun r => !r.ent.ctl).length).sum + (match x.partly with | some (e, _) => b2n (!e.ctl) | none => 0)

/-- The packets a queue holds, on chip, in the writer and in HBM. -/
def Queue.pkts (x : Queue) : Nat := x.ents.length + x.writer.length + x.inHbm

/-- The HBM segment is not empty (R209). -/
def Queue.spilled (x : Queue) : Bool := !x.seg.isEmpty || !x.writer.isEmpty || x.partly.isSome

/-! Lengths (R234) -/

/-- The frame length F of an entry after rewrite, or of its member frame. -/
def QEnt.frameLen (e : QEnt) : Nat :=
  if e.lead.isEmpty then max 64 (e.len + 4) else max 64 (e.lead.length + 1 + (e.len - e.skip) + 4)

/-- The charge at a port. -/
def Dev.portCharge (d : Dev) (port f : Nat) : Nat := if port < 128 then f + d.portCfg port F.PG_PORT_CFG_OVH else f

/-- The wire time of a frame in whole ns, rounded up (R241). -/
def Dev.wireNs (d : Dev) (port f : Nat) : Nat := cdiv ((f + 20) * 8) (d.ethRate port)

/-! Shapers and the wheel (R236, R237). Entities: queue q, node 400,000 + m, port 500,000 + port. -/

def nodeEnt (m : Nat) : Nat := 400000 + m
def portEnt (p : Nat) : Nat := 500000 + p

/-- The rate in kb/s of an entity. -/
def Dev.entRate (d : Dev) (e : Nat) : Nat :=
  if e < 400000 then (d.queue e).w2.toNat
  else if e < 500000 then (d.node (e - 400000)).w1.toNat
  else d.live (tmPage ((d.portHome (e - 500000)).getD 0)) (F.TM_PORT_RATE_KBPS.at (4 * (e - 500000)))

/-- The most an entity's bucket holds, in 1/65,536 byte. -/
def Dev.entLimit (d : Dev) (e : Nat) : Nat :=
  let u := if e < 400000 then bits (d.queue e).w3.toNat 0 16
    else if e < 500000 then bits (d.node (e - 400000)).w2.toNat 0 16
    else d.live (tmPage ((d.portHome (e - 500000)).getD 0)) (F.TM_PORT_CFG_BURST.at (4 * (e - 500000)))
  max 1 u * 64 * 65536

def Dev.bucket (d : Dev) (e : Nat) : Bucket :=
  if e < 400000 then (d.queue e).bucket else if e < 500000 then (d.node (e - 400000)).bucket
  else Map.rd Bucket.init d.tm.ports (e - 500000)

def Dev.setBucket (d : Dev) (e : Nat) (b : Bucket) : Dev :=
  if e < 400000 then d.setQueue e { d.queue e with bucket := b }
  else if e < 500000 then d.setNode (e - 400000) { d.node (e - 400000) with bucket := b }
  else d.setTm { d.tm with ports := d.tm.ports.wr Bucket.init (e - 500000) b }

/-- The bucket gains for the time since its last event, up to its limit; a paused one keeps its tokens (R236, R238). -/
def Bucket.refill (b : Bucket) (rate lim now : Nat) : Bucket :=
  if b.paused then { b with tokens := if b.full then lim else b.tokens, last := now }
  else if b.full then { b with tokens := lim, last := now, frac := 0 }
  else
    let acc := (now - b.last) * rate * 65536 + b.frac
    let tok := b.tokens + (acc / 8000000 : Nat)
    if tok ≥ lim then { b with tokens := lim, last := now, frac := 0, full := true }
    else { b with tokens := tok, last := now, frac := acc % 8000000 }

/-- The entity is eligible (R236). -/
def Dev.eligible (d : Dev) (e : Nat) : Bool :=
  let b := d.bucket e
  d.entRate e == 0 || b.full || decide (b.tokens ≥ 0)

/-- When an entity whose tokens are negative reaches 0 again (R236). -/
def Bucket.wake (b : Bucket) (rate : Nat) : Nat := b.last + cdiv ((-b.tokens).toNat * 8000000) (65536 * max 1 rate)

/-- The TM that holds an entity. -/
def Dev.entDie (d : Dev) (e : Nat) : Nat :=
  if e < 400000 then e / 65536 else if e < 500000 then (e - 400000) / 8192 else (d.portHome (e - 500000)).getD 0

/-- An entity goes on the wheel at its wake time, in the first fine slot at or after it (R237: at most 8 ns late). -/
def Dev.place (d : Dev) (e w : Nat) : Dev :=
  let die := d.entDie e
  let now := d.clk
  let put (m : Map (List Nat)) (slot : Nat) : Map (List Nat) := m.wr [] (4096 * die + slot) (Map.rd [] m (4096 * die + slot) ++ [e])
  if w - now < 32768 then d.setTm { d.tm with fine := put d.tm.fine (cdiv w 8 % 4096) }
  else if w - now < 4096 * 32768 then d.setTm { d.tm with coarse := put d.tm.coarse (w / 32768 % 4096) }
  else d.setTm { d.tm with coarse := put d.tm.coarse ((now / 32768 + 4095) % 4096) }

/-- An entity leaves the wheel. -/
def Dev.unplace (d : Dev) (e : Nat) : Dev :=
  let rm (m : Map (List Nat)) : Map (List Nat) := m.foldl (fun a x => a.wr [] x.1 (x.2.filter (· ≠ e))) m
  d.setTm { d.tm with fine := rm d.tm.fine, coarse := rm d.tm.coarse }

/-- The entity is on the wheel. -/
def Dev.placed (d : Dev) (e : Nat) : Bool := d.tm.fine.any (fun x => x.2.contains e) || d.tm.coarse.any (fun x => x.2.contains e)

/-- A selection charges an entity; one left negative waits on the wheel (R236). -/
def Dev.chargeShaper (d : Dev) (e n : Nat) : Dev :=
  let r := d.entRate e
  if r = 0 then d
  else
    let b := (d.bucket e).refill r (d.entLimit e) d.clk
    let b := { b with tokens := b.tokens - (n * 65536 : Nat), full := false }
    let d := d.setBucket e b
    if b.tokens < 0 ∧ !b.paused then (d.unplace e).place e (b.wake r) else d

/-! Gate lists and windows (R240–R242) -/

/-- The gate list in force on a port. -/
def Dev.gate (d : Dev) (port : Nat) : Option Gate := Map.rd none d.tm.gates port

/-- The list entries as a cycle runs them: cut at the cycle's end, the last extended to it. -/
def cutEntries (cycle : Nat) : Nat → List (Nat × Nat) → List (Nat × Nat)
  | _, [] => []
  | at_, [(g, _)] => if at_ < cycle then [(g, cycle - at_)] else []
  | at_, (g, n) :: r =>
    if at_ ≥ cycle then [] else (g, min (max 1 n) (cycle - at_)) :: cutEntries cycle (at_ + max 1 n) r

/-- The class's gate is open: every gate before the first cycle (R240). -/
def Dev.gateOpen (d : Dev) (port c : Nat) : Bool :=
  match d.gate port with
  | some g => (match g.idx with | some i => bit ((g.entries.getD i (0, 0)).1) c | none => true)
  | none => true

/-- The sum of the durations of the leading entries in which the class is open. -/
def openRun (c : Nat) : List (Nat × Nat) → Nat
  | [] => 0
  | (g, n) :: r => if bit g c then n + openRun c r else 0

/-- The class is open in every entry. -/
def Gate.always (g : Gate) (c : Nat) : Bool := g.entries.all (fun x => bit x.1 c)

/-- The close time of an open class's window; none for a class without a window limit (R241). -/
def Gate.closeTime (g : Gate) (c : Nat) : Option Nat :=
  match g.idx with
  | none => none
  | some i => if g.always c then none else some (g.began + openRun c (g.entries.drop i ++ g.entries.take i))

/-- W_c, the longest window of the class in the list; none when it has no limit (R242). -/
def Gate.longest (g : Gate) (c : Nat) : Option Nat :=
  if g.always c then none
  else some (((List.range g.entries.length).map fun i => openRun c (g.entries.drop i ++ g.entries.take i)).foldl max 0)

/-- How long the frames already ahead in the port's staging last (R241). -/
def Dev.aheadNs (d : Dev) (port : Nat) : Nat :=
  let ep := Map.rd Endpoint.init d.swc.endpoints (port / 8)
  let ahead := (ep.sel ++ ep.staged).filter (fun x => x.port = port && !x.onWire)
  let left := match Map.rd none d.swc.tx port with | some t => t.endNs - d.clk | none => 0
  left + (ahead.map fun x => d.wireNs port x.ent.frameLen).sum

/-- The window test of a candidate head (R241): the projected start and the wire time against the close time (R318). -/
def Dev.headFits (d : Dev) (port c f : Nat) : Bool :=
  match (d.gate port).bind (·.closeTime c) with
  | none => true
  | some t => decide (diff64 (d.now + max Config.pipelineNs (d.aheadNs port) + d.wireNs port f) t ≤ 0)

/-- The head's wire time exceeds its class's longest window (R242). -/
def Dev.tooLong (d : Dev) (port c f : Nat) : Bool :=
  match (d.gate port).bind (·.longest c) with
  | none => false
  | some w => decide (d.wireNs port f > w)

/-- GAP_FILL in force. -/
def Dev.gapFill (d : Dev) (port : Nat) : Bool := d.live (tmPage (port / 64)) (F.TM_PORT_CFG_GAP_FILL.at (4 * port)) == 1

/-! Selectability and tags (R231, R235) -/

def classKey (m k : Nat) : Nat := 200000 + 8 * m + k
def nodeKey (m : Nat) : Nat := 400000 + m
def portKey (p : Nat) : Nat := 500000 + p

/-- A 48-bit tag is before another, by signed difference (R235). -/
def tagLt (a b : Nat) : Bool := decide (toSigned 48 ((a + 2 ^ 48 - b % 2 ^ 48) % 2 ^ 48) < 0)

def Dev.tag (d : Dev) (k : Nat) : Tag := Map.rd Tag.init d.tm.tags k
def Dev.setTag (d : Dev) (k : Nat) (t : Tag) : Dev := d.setTm { d.tm with tags := d.tm.tags.wr Tag.init k t }
def Dev.virtual (d : Dev) (level : Nat) : Nat := Map.rd 0 d.tm.vtime level
def Dev.setVirtual (d : Dev) (level v : Nat) : Dev := d.setTm { d.tm with vtime := d.tm.vtime.wr 0 level v }

/-- A child's selectability is judged; one that becomes selectable enters its level (R235). -/
def Dev.judge (d : Dev) (key level : Nat) (sel : Bool) : Dev :=
  let t := d.tag key
  let v := d.virtual level
  if sel && !t.sel then d.setTag key { t with s := if tagLt t.f v then v else t.f, sel := true } else d.setTag key { t with sel := sel }

/-- The queue is paused by the peer (R221). -/
def Dev.qPaused (d : Dev) (q : Nat) : Bool :=
  let p := d.qPort q
  decide (p < 128) && d.qPfcEn q && bit (d.get (swcPage (p / 64)) (F.SWC_PFC_STAT_PAUSED.at (4 * (p % 64)))) (d.qPrio q)

/-- A queue is selectable (R231); with `window` false the window test is left out. -/
def Dev.qSelectable (d : Dev) (q : Nat) (window : Bool) : Bool :=
  let x := d.queue q
  match x.ents with
  | [] => false
  | e :: _ =>
    let p := d.qPort q
    !x.faulted && d.eligible q && !d.qPaused q &&
      (decide (p ≥ 128) || (d.gateOpen p (d.qClass q) && (!window || !d.gapFill p || d.headFits p (d.qClass q) e.frameLen)))

/-- Classes and the node are judged from their queues. -/
def Dev.touchNode (d : Dev) (m : Nat) : Dev :=
  let qs := d.nodeQueues m
  let d := (List.range 8).foldl (fun d k =>
    d.judge (classKey m k) (nodeKey m) (qs.any fun q => d.qClass q == k && (d.tag q).sel)) d
  d.judge (nodeKey m) (portKey (d.nPort m))
    (d.attached m && !(d.node m).faulted && d.eligible (nodeEnt m) && ((List.range 8).any fun k => (d.tag (classKey m k)).sel))

/-- A queue and what holds it are judged. -/
def Dev.touchQueue (d : Dev) (q : Nat) : Dev :=
  (d.judge q (classKey (d.qNode q) (d.qClass q)) (d.qSelectable q true)).touchNode (d.qNode q)

/-- Every queue and node of a port is judged. -/
def Dev.touchPort (d : Dev) (port : Nat) : Dev :=
  let d := (d.portQueues port).foldl (fun d q => d.judge q (classKey (d.qNode q) (d.qClass q)) (d.qSelectable q true)) d
  (d.portNodes port).foldl (fun d m => d.touchNode m) d

/-- An entity has become eligible or changed: what it holds is judged. -/
def Dev.touchEnt (d : Dev) (e : Nat) : Dev :=
  if e < 400000 then d.touchQueue e else if e < 500000 then d.touchNode (e - 400000) else d

/-- The children with the smallest start tag (R231); ties stay. -/
def Dev.minStart (d : Dev) (key : Nat → Nat) : List Nat → List Nat
  | [] => []
  | c :: r =>
    match d.minStart key r with
    | [] => [c]
    | b :: t =>
      let sc := (d.tag (key c)).s
      let sb := (d.tag (key b)).s
      if tagLt sc sb then [c] else if sc = sb then c :: b :: t else b :: t

/-- min_start with R17 on ties. -/
def Dev.pickStart (d : Dev) (res n : Nat) (key : Nat → Nat) (l : List Nat) : Option Nat × Dev := d.grant res n (d.minStart key l)

/-- The choice of R231 for a port, `sel` saying which queues are selectable: node, class and queue. -/
def Dev.choose (d : Dev) (port : Nat) (sel : Nat → Bool) : Option (Nat × Nat × Nat) × Dev :=
  let classOk (m k : Nat) : Bool := (d.nodeQueues m).any fun q => d.qClass q == k && sel q
  let nodes := (d.portNodes port).filter fun m =>
    !(d.node m).faulted && d.eligible (nodeEnt m) && (List.range 8).any (classOk m)
  match d.pickStart (Rr.node port) 16384 nodeKey nodes with
  | (none, d) => (none, d)
  | (some m, d) =>
    let ks := (List.range 8).filter (classOk m)
    let strict := ks.filter (· < d.nStrict m)
    let (k, d) := match strict with
      | k :: _ => (some k, d)
      | [] => d.pickStart (Rr.class m) 8 (classKey m) ks
    match k with
    | none => (none, d)
    | some k =>
      match d.pickStart (Rr.queue (classKey m k)) 131072 id ((d.nodeQueues m).filter fun q => d.qClass q == k && sel q) with
      | (none, d) => (none, d)
      | (some q, d) => (some (m, k, q), d)

/-- charge (R235): the level moves to the child's start, and the child's finish follows its length and weight. -/
def Dev.chargeTag (d : Dev) (key level len w : Nat) : Dev :=
  let t := d.tag key
  (d.setVirtual level t.s).setTag key { t with f := (t.s + cdiv (len * 65536) w) % 2 ^ 48 }

/-- After a charge: a child still selectable starts from its finish (R235). -/
def Dev.settle (d : Dev) (key : Nat) (sel : Bool) : Dev :=
  let t := d.tag key
  d.setTag key { t with s := if sel then t.f else t.s, sel := sel }

/-- A selection's charges at queue, class and node, and at the port (R234–R236). -/
def Dev.chargeSelection (d : Dev) (port m k q f : Nat) : Dev :=
  let d := ((d.chargeShaper q f).chargeShaper (nodeEnt m) f).chargeShaper (portEnt port) (d.portCharge port f)
  let fair := decide (k ≥ d.nStrict m)
  let d := d.chargeTag q (classKey m k) f (d.qWeight q)
  let d := if fair then d.chargeTag (classKey m k) (nodeKey m) f (d.classWeight m k) else d
  let d := d.chargeTag (nodeKey m) (portKey port) f (d.nWeight m)
  let d := d.settle q (d.qSelectable q true)
  let csel := (d.nodeQueues m).any fun c => d.qClass c == k && (d.tag c).sel
  let d := if fair then d.settle (classKey m k) csel else d.judge (classKey m k) (nodeKey m) csel
  d.settle (nodeKey m) (d.eligible (nodeEnt m) && ((List.range 8).any fun j => (d.tag (classKey m j)).sel))

/-- A packet on the direct path is charged as a selection is: its queue, class and node enter their levels first (R231, R235). -/
def Dev.chargeDirect (d : Dev) (port q f : Nat) : Dev :=
  let m := d.qNode q
  let k := d.qClass q
  let d := ((d.judge q (classKey m k) true).judge (classKey m k) (nodeKey m) true).judge (nodeKey m) (portKey port) true
  d.chargeSelection port m k q f

/-! The wheel's slots (R237) -/

/-- One due entity: refilled and made eligible, or placed again. -/
def Dev.wakeEnt (d : Dev) (e : Nat) : Dev :=
  let r := d.entRate e
  let b := (d.bucket e).refill r (d.entLimit e) d.clk
  let d := d.setBucket e b
  if b.tokens ≥ 0 then d.touchEnt e else d.place e (b.wake r)

/-- SHAPER_WAKE: at most 128 entities of the due fine slot wake; the others carry into the next slot. -/
def Dev.shaperWake (d : Dev) (die : Nat) : Dev :=
  let key := 4096 * die + d.clk / 8 % 4096
  let next := 4096 * die + (d.clk / 8 + 1) % 4096
  let l := Map.rd [] d.tm.fine key
  let late := l.drop 128
  let d := d.setTm { d.tm with fine := (d.tm.fine.wr [] key []).wr [] next (late ++ Map.rd [] d.tm.fine next) }
  let d := if late.isEmpty then d else (d.bump (tmPage die) (F.TM_CNT_COUNT.at 8) late.length).int (tmPage die) 4
  (l.take 128).foldl (fun d e => d.wakeEnt e) d

/-- COARSE_SLOT: the entities of the due coarse slot are placed again. -/
def Dev.coarseSlot (d : Dev) (die : Nat) : Dev :=
  let key := 4096 * die + d.clk / 32768 % 4096
  let l := Map.rd [] d.tm.coarse key
  let d := d.setTm { d.tm with coarse := d.tm.coarse.wr [] key [] }
  l.foldl (fun d e => d.place e ((d.bucket e).wake (d.entRate e))) d

/-- A shaper is paused: it leaves the wheel (R238). -/
def Dev.pauseEnt (d : Dev) (e : Nat) : Dev :=
  let b := (d.bucket e).refill (d.entRate e) (d.entLimit e) d.clk
  (d.setBucket e { b with paused := true }).unplace e

/-- A shaper resumes from now, placed again if negative (R238). -/
def Dev.resumeEnt (d : Dev) (e : Nat) : Dev :=
  let b := d.bucket e
  if !b.paused then d
  else
    let b := { b with paused := false, last := d.clk }
    let d := d.setBucket e b
    if !b.full ∧ b.tokens < 0 then d.place e (b.wake (d.entRate e)) else d

/-- An entity's shaper is to be paused: its port is in HOLD, or it is a queue that the peer pauses (R238). -/
def Dev.entHeld (d : Dev) (e : Nat) : Bool :=
  let on (port : Nat) (att : Bool) : Bool := att && decide (port < 128) && d.portState port == 2
  if e < 400000 then on (d.qPort e) (d.attached (d.qNode e)) || d.qPaused e
  else if e < 500000 then on (d.nPort (e - 400000)) (d.attached (e - 400000))
  else on (e - 500000) true

/-- An entity's shaper pauses or resumes as what holds it asks. -/
def Dev.syncPause (d : Dev) (e : Nat) : Dev :=
  if !d.entHeld e then d.resumeEnt e else if (d.bucket e).paused then d else d.pauseEnt e

/-- The shapers of a port, its nodes and its queues. -/
def Dev.portEnts (d : Dev) (port : Nat) : List Nat := portEnt port :: (d.portNodes port).map nodeEnt ++ d.portQueues port

/-! Gates (R240) -/

/-- The gate settings of a port as applied at a start; a refused list is recorded and taken as GATE_EN = 0. -/
def Dev.applyGate (d : Dev) (port : Nat) : Dev :=
  let p := tmPage (port / 64)
  let n := 16 * (port % 64)
  let put (d : Dev) (g : Option Gate) : Dev := d.setTm { d.tm with gates := d.tm.gates.wr none port g, blocked := d.tm.blocked.wr none port none }
  if d.get p (F.TM_PORT_CFG_GATE_EN.at (4 * port)) = 0 then put d none
  else
    let base := d.get p (F.TM_GATE_LIST_BASE.at n)
    let len := d.get p (F.TM_GATE_LIST_LEN.at n)
    let cyc := d.get p (F.TM_GATE_CYCLE_NS.at n)
    if len = 0 ∨ base + len > 512 ∨ cyc < 1000 then ((put d none).int p 3).err p 0x22 port
    else
      let bank := d.get p (F.TM_PORT_CFG_GATE_BANK.at (4 * port))
      let ents := (List.range len).map fun i =>
        let o := 0x800 * bank + 4 * (base + i)
        (d.get p (F.TM_GCE_GATES.at o), d.get p (F.TM_GCE_DUR_NS.at o))
      let b := d.commitTime (d.get p (F.TM_GATE_BASE_SEC.at n)) (d.get p (F.TM_GATE_BASE_NS.at n))
      let first := b + cdiv (diff64 d.now b).toNat cyc * cyc
      put d (some ⟨first, cutEntries cyc 0 ents, none, first⟩)

/-- GATE_BOUNDARY: the next entry's gates apply once the one in force has ended. -/
def Dev.gateBoundary (d : Dev) (port : Nat) : Dev :=
  match d.gate port with
  | none => d
  | some g =>
    let endT : Nat := match g.idx with | none => g.base | some i => g.began + (g.entries.getD i (0, 0)).2
    if !d.due endT then d
    else
      let i := match g.idx with | none => 0 | some i => (i + 1) % g.entries.length
      let d := d.setTm { d.tm with gates := d.tm.gates.wr none port (some { g with idx := some i, began := endT }) }
      let d := match Map.rd none d.tm.blocked port with
        | some c => if d.gateOpen port c then d else d.setTm { d.tm with blocked := d.tm.blocked.wr none port none }
        | none => d
      d.touchPort port

/-- Index and beginning of the entry that holds byte `at_` of a cycle's time. -/
def gateEntryAt (at_ : Nat) : Nat → Nat → List (Nat × Nat) → Nat × Nat
  | i, o, [] => (i, o)
  | i, o, [_] => (i, o)
  | i, o, (_, n) :: r => if at_ < o + n then (i, o) else gateEntryAt at_ (i + 1) (o + n) r

/-- A gate list takes its position from the count (R319): before its first cycle every gate is open. -/
def Gate.place (g : Gate) (now : Nat) : Gate :=
  let e := diff64 now g.base
  let cyc := (g.entries.map (·.2)).sum
  if e < 0 ∨ cyc = 0 then { g with idx := none, began := g.base }
  else
    let (i, o) := gateEntryAt (e.toNat % cyc) 0 0 g.entries
    { g with idx := some i, began := now - (e.toNat % cyc - o) }

/-- After a SET or STEP every gate list is placed again, and a port that waited for a window's close waits no more (R319). -/
def Dev.placeGates (d : Dev) : Dev :=
  (d.tm.gates.map (·.1)).foldl (fun d port => match d.gate port with
    | none => d
    | some g => (d.setTm { d.tm with
        gates := d.tm.gates.wr none port (some (g.place d.now)), blocked := d.tm.blocked.wr none port none }).touchPort port) d

/-! Rate schedule (R243–R245). Entry n of a die is that of network port 64 * die + n. -/

/-- The rate in force, an unshaped port counting as its Ethernet rate. -/
def Dev.rateInForce (d : Dev) (port : Nat) : Nat :=
  let r := d.entRate (portEnt port)
  if r = 0 then d.ethRate port * 1000000 else r

/-- Application of a rate-schedule entry (R244), with the STATE it leaves. -/
def Dev.rsApplyAs (d : Dev) (port rate st : Nat) : Dev :=
  let p := tmPage (port / 64)
  let n := port % 64
  let e := portEnt port
  let old := d.entRate e
  let b := (d.bucket e).refill old (d.entLimit e) d.clk
  let on := d.placed e
  let d := (d.setBucket e b).setLive p (F.TM_PORT_RATE_KBPS.at (4 * port)) rate
  let d := if on then (d.unplace e).place e (b.wake (d.entRate e)) else d
  let d := (d.set p (F.TM_RS_CTL_STATE.at (16 * n)) st).int p 0
  d.bump p (F.TM_PORT_CNT_COUNT.at (16 * n + 12))

/-- The application time A of the entry held, judged against the rate in force, and its direction (R243 step 3). -/
def Dev.rsTime (d : Dev) (port : Nat) : Int × Nat :=
  let p := tmPage (port / 64)
  let n := 16 * (port % 64)
  let t : Int := d.commitTime (d.get p (F.TM_RS_T_SEC.at n)) (d.get p (F.TM_RS_T_NS.at n))
  let g : Int := (d.live p (F.TM_PORT_CFG_GUARD.at (4 * port)) * 1000 : Nat)
  let r := d.get p (F.TM_RS_RATE.at n)
  let cur := d.rateInForce port
  if r < cur then (t - g, 1) else if r > cur then (t + g, 2) else (t, 0)

/-- A commit whose RATE is out of range is refused with RS_BAD (R243). -/
def Dev.rsBad (d : Dev) (port : Nat) : Bool :=
  let r := d.get (tmPage (port / 64)) (F.TM_RS_RATE.at (16 * (port % 64)))
  decide (r < 100) || decide (r > 1600000000)

/-- An ARMED entry whose time A has come is applied while the TM runs, or as it starts with STATE LATE, 3 (R244). -/
def Dev.rsApply (d : Dev) (port : Nat) (st : Nat) : Dev :=
  let p := tmPage (port / 64)
  match Map.rd none d.tm.rs port with
  | none => d
  | some e =>
    if d.get p (F.TM_RS_CTL_STATE.at (16 * (port % 64))) = 1 ∧ d.due e.time ∧ (st = 3 ∨ d.running p) then
      let d := d.rsApplyAs port e.rate st
      let d := if st = 3 then d.int p 1 else d
      d.setTm { d.tm with rs := d.tm.rs.wr none port none }
    else d

/-- ARM: the entry is committed (R243), after the application of an entry that has fallen due (R245). -/
def Dev.rsArm (d : Dev) (port : Nat) : Dev :=
  let p := tmPage (port / 64)
  let n := port % 64
  let r := d.get p (F.TM_RS_RATE.at (16 * n))
  if d.rsBad port then d
  else
    let d := d.rsApply port 2
    let again := d.get p (F.TM_RS_CTL_STATE.at (16 * n)) = 1
    let d := if again then d.cnt p F.TM_CNT_COUNT 3 else d
    let (a, dir) := d.rsTime port
    let d := d.set p (F.TM_RS_CTL_DIR.at (16 * n)) dir
    let d := d.setTm { d.tm with rs := d.tm.rs.wr none port (some ⟨r, a⟩) }
    if d.due a ∧ d.running p then ((d.rsApplyAs port r 3).int p 1).setTm { d.tm with rs := d.tm.rs.wr none port none }
    else d.set p (F.TM_RS_CTL_STATE.at (16 * n)) 1

/-- CANCEL: an ARMED entry returns to IDLE. -/
def Dev.rsCancel (d : Dev) (port : Nat) : Dev :=
  let p := tmPage (port / 64)
  let n := port % 64
  if d.get p (F.TM_RS_CTL_STATE.at (16 * n)) = 1 then
    (d.set p (F.TM_RS_CTL_STATE.at (16 * n)) 0).setTm { d.tm with rs := d.tm.rs.wr none port none }
  else d

/-- TM STARTING after its shadow settings have applied (R246): tags, buckets and wheel, gate lists, and entries fallen due. -/
def Dev.startTm (d : Dev) (die : Nat) : Dev :=
  let t := d.tm
  let keep (k : Nat) : Bool :=
    if k < 200000 then k / 65536 ≠ die else if k < 400000 then (k - 200000) / 65536 ≠ die
    else if k < 500000 then (k - 400000) / 8192 ≠ die else d.portHome (k - 500000) ≠ some die
  let d := d.setTm { t with
    tags := t.tags.filter (fun x => keep x.1)
    vtime := t.vtime.filter (fun x => keep x.1)
    ports := t.ports.filter (fun x => keep (500000 + x.1))
    queues := t.queues.foldl (fun m x => if x.1 / 65536 = die then m.wr Queue.init x.1 { x.2 with bucket := Bucket.init } else m) t.queues
    nodes := t.nodes.foldl (fun m x => if x.1 / 8192 = die then m.wr Node.init x.1 { x.2 with bucket := Bucket.init } else m) t.nodes
    fine := t.fine.dropRange (4096 * die) (4096 * (die + 1))
    coarse := t.coarse.dropRange (4096 * die) (4096 * (die + 1)) }
  let held := (List.range 64).flatMap (fun n => d.portEnts (64 * die + n)) ++ (t.queues.map (·.1)).filter (· / 65536 = die)
  let d := held.foldl (fun d e => d.syncPause e) d
  let d := (List.range 64).foldl (fun d n => d.applyGate (64 * die + n)) d
  (List.range 64).foldl (fun d n => d.rsApply (64 * die + n) 3) d

end Sys2Proof.Machine
end

