-- ==== Sys2Proof/Machine/Spill.lean ====
section
/-! DEFINITION. Spill pages (R207–R210): page rings, the writer, the page image in HBM, recall, and the flush of a queue. -/

namespace Sys2Proof.Machine

/-! Page rings (R202, R206, R208). Stack h is stack h mod 2 of die h / 2. -/

def Dev.ring (d : Dev) (h : Nat) : PageRing := Map.rd PageRing.init d.rings h
def Dev.setRing (d : Dev) (h : Nat) (r : PageRing) : Dev := { d with rings := d.rings.wr PageRing.init h r }
def Dev.pgBase (d : Dev) (h : Nat) : Nat := d.live (bpmPage (h / 2)) (F.BPM_PG_BASE_BASE.at (16 * (h % 2)))
def Dev.pgLimit (d : Dev) (h : Nat) : Nat := d.live (bpmPage (h / 2)) (F.BPM_PG_LIMIT_LIMIT.at (16 * (h % 2)))
def Dev.pgFree (d : Dev) (h : Nat) : Nat := d.get (bpmPage (h / 2)) (F.BPM_PG_STAT_FREE.at (16 * (h % 2)))
def Dev.setPgFree (d : Dev) (h n : Nat) : Dev := d.set (bpmPage (h / 2)) (F.BPM_PG_STAT_FREE.at (16 * (h % 2))) n

/-- The stack takes spill (R208); a throttled one takes no new page (R298). -/
def Dev.stackReady (d : Dev) (h : Nat) : Bool :=
  d.get (bpmPage (h / 2)) (F.BPM_PG_STAT_READY.at (16 * (h % 2))) == 1 && d.running (bpmPage (h / 2)) && d.running (hbmPage h) &&
    d.get (hbmPage h) F.HBM_STAT_THROTTLE == 0

/-- Two byte ranges, given by first byte and length, share a byte. -/
def overlap (a n b m : Nat) : Bool := decide (a < b + m) && decide (b < a + n)

/-- A spill region or ring lies over the stack's counter region (R302). -/
def Dev.overCounters (d : Dev) (h base lim rb : Nat) : Bool :=
  match (if d.domOn (14 + h) then d.counterRegion h else none) with
  | some c => overlap c (2 ^ 26) (base * 4096) ((lim - base) * 4096) || overlap c (2 ^ 26) (rb * 4096) ((lim - base) * 4)
  | none => false

/-- The first byte of a stack's ring, and its places, one for each page of the region (R202). -/
def Dev.ringBase (d : Dev) (h : Nat) : Nat := d.live (bpmPage (h / 2)) (F.BPM_PG_RING_RING_BASE.at (16 * (h % 2))) * 4096
def Dev.ringSize (d : Dev) (h : Nat) : Nat := d.pgLimit h - d.pgBase h

/-- A stack's regions as applied at a BPM start: not configured, invalid and recorded, or valid (R208). -/
def Dev.applyPgRegion (d : Dev) (h : Nat) : Dev :=
  let p := bpmPage (h / 2)
  let base := d.pgBase h
  let lim := d.pgLimit h
  let rb := d.live p (F.BPM_PG_RING_RING_BASE.at (16 * (h % 2)))
  let d := d.set p (F.BPM_PG_STAT_READY.at (16 * (h % 2))) 0
  let d := d.setPgFree h 0
  if base = 0 ∧ lim = 0 ∧ rb = 0 then d.setRing h PageRing.init
  else if base ≥ lim ∨ lim > 5898240 ∨ overlap (rb * 4096) ((lim - base) * 4) (base * 4096) ((lim - base) * 4096) ∨ d.overCounters h base lim rb then
    ((d.setRing h PageRing.init).int p 2).err p 0x22
  else d.setRing h { PageRing.init with valid := true }

/-- PAGE_RING_READY: the ring is built in HBM with every page of the region (R202, R208). -/
def Dev.pageRingReady (d : Dev) (h : Nat) : Dev :=
  let p := bpmPage (h / 2)
  if (d.ring h).valid ∧ d.running p ∧ d.running (hbmPage h) ∧ d.get p (F.BPM_PG_STAT_READY.at (16 * (h % 2))) = 0 then
    let d := d.hbmWrite h 3 (d.ringBase h) ((List.range (d.ringSize h)).flatMap fun i => leBytes 4 (d.pgBase h + i + h * 2 ^ 23))
    let d := (d.setRing h { PageRing.init with count := d.ringSize h, valid := true }).setPgFree h (d.ringSize h)
    (d.set p (F.BPM_PG_STAT_READY.at (16 * (h % 2))) 1).int p 4
  else d

/-- A page pointer fails code 3 of R206 on a die: bits [31:25], its stack, or its index. -/
def Dev.pageBad (d : Dev) (die ptr : Nat) : Bool :=
  let h := ptr / 2 ^ 23 % 4
  decide (ptr / 2 ^ 25 ≠ 0) || decide (h / 2 ≠ die) || decide (ptr % 2 ^ 23 < d.pgBase h) || decide (ptr % 2 ^ 23 ≥ d.pgLimit h)

/-- The page is allocated, by the bitmap of its stack; and the bitmap's change. -/
def Dev.pageTaken (d : Dev) (ptr : Nat) : Bool := Map.rd false (d.ring (ptr / 2 ^ 23 % 4)).allocated (ptr % 2 ^ 23)
def Dev.setTaken (d : Dev) (ptr : Nat) (v : Bool) : Dev :=
  let r := d.ring (ptr / 2 ^ 23 % 4)
  d.setRing (ptr / 2 ^ 23 % 4) { r with allocated := r.allocated.wr false (ptr % 2 ^ 23) v }

/-- A pointer of a stack's ring or cache is given up: discarded with its check's code (R206). -/
def Dev.dropPointer (d : Dev) (h ptr code : Nat) : Dev := (d.setPgFree h (d.pgFree h - 1)).ptrBad (bpmPage (h / 2)) ptr code

/-- A ring entry that reads as uncorrectable: the page it named is lost (R206). -/
def Dev.ringPageUe (d : Dev) (h a ptr : Nat) : Dev :=
  let p := bpmPage (h / 2)
  let d := (d.hbmUe h a).setPgFree h (d.pgFree h - 1)
  (((d.bump p F.BPM_LOST_COUNT).cnt p F.BPM_CNT_COUNT 1).int p 1).err p 0x21 ptr

/-- `n` pointers from the ring's head, each checked on its way to the allocation cache (R202, R206). -/
def Dev.ringLoad (d : Dev) (h : Nat) : Nat → Dev
  | 0 => d
  | n + 1 =>
    let r := d.ring h
    let a := d.ringBase h + 4 * r.head
    let ptr := (Map.rd 0 d.hbmMem (hbmKey h a)).toNat
    let d := d.setRing h { r with head := (r.head + 1) % d.ringSize h, count := r.count - 1 }
    let d := if Map.rd false d.hbmBad (hbmKey h a) then d.ringPageUe h a ptr
      else if d.pageBad (h / 2) ptr then d.dropPointer h ptr 3
      else if d.pageTaken ptr then d.dropPointer h ptr 5
      else d.setRing h { d.ring h with cache := (d.ring h).cache ++ [ptr] }
    d.ringLoad h n

/-- A burst of at most 16 pointers from the ring, none across its last place. -/
def Dev.ringBurst (d : Dev) (h : Nat) : Dev :=
  let r := d.ring h
  let n := min 16 (min r.count (d.ringSize h - r.head))
  if n = 0 then d else (d.hbmNow h 3 false (d.ringBase h + 4 * r.head) (4 * n)).ringLoad h n

/-- The oldest `n` pointers of the free cache go to the ring's tail. -/
def Dev.ringStore (d : Dev) (h n : Nat) : Dev :=
  let r := d.ring h
  let tail := (r.head + r.count) % d.ringSize h
  let n := min n (d.ringSize h - tail)
  if n = 0 then d
  else (d.hbmWrite h 3 (d.ringBase h + 4 * tail) ((r.freed.take n).flatMap (leBytes 4))).setRing h
    { r with count := r.count + n, freed := r.freed.drop n }

/-- The page caches move bursts of 16: the free cache to the ring where it holds 16, or all of it while the ring holds fewer;
then the ring to the allocation cache where that holds fewer than 16 (R202, log entry 155). -/
def Dev.pageCaches (d : Dev) (h : Nat) : Dev :=
  let held := (d.ring h).freed.length
  let d := if held ≥ 16 then d.ringStore h 16 else if (d.ring h).count < 16 ∧ held ≠ 0 then d.ringStore h held else d
  if (d.ring h).cache.length < 16 then d.ringBurst h else d

/-- One page pointer from a stack's allocation cache; `fuel` bounds the bursts that pointers failing their checks cost. -/
def Dev.ringTake (d : Dev) (h : Nat) : Nat → Option Nat × Dev
  | 0 => (none, d)
  | fuel + 1 =>
    let d := d.pageCaches h
    match (d.ring h).cache with
    | [] => if (d.ring h).count = 0 ∧ (d.ring h).freed = [] then (none, d) else d.ringTake h fuel
    | ptr :: rest =>
      let d := d.setRing h { d.ring h with cache := rest }
      if d.pageTaken ptr then (d.dropPointer h ptr 5).ringTake h fuel
      else (some ptr, (d.setTaken ptr true).setPgFree h (d.pgFree h - 1))

/-- A new page from the ready stack of the die with the most free pages (R208). -/
def Dev.takePage (d : Dev) (die : Nat) : Option Nat × Dev :=
  let hs := [2 * die, 2 * die + 1].filter fun h => d.stackReady h && decide (d.pgFree h > 0)
  let best := (hs.map d.pgFree).foldl max 0
  match d.grant (Rr.stack die) 4 (hs.filter fun h => d.pgFree h = best) with
  | (none, d) => (none, d)
  | (some h, d) => d.ringTake h 64

/-- A page of a die returns through the page free cache, checked (R206 codes 3 and 6). -/
def Dev.freePage (d : Dev) (die ptr : Nat) : Dev :=
  let h := ptr / 2 ^ 23 % 4
  if !d.domOn (14 + h) then d
  else if d.pageBad die ptr then d.ptrBad (bpmPage die) ptr 3
  else if !d.pageTaken ptr then d.ptrBad (bpmPage die) ptr 6
  else
    let d := (d.setTaken ptr false).setPgFree h (d.pgFree h + 1)
    (d.setRing h { d.ring h with freed := (d.ring h).freed ++ [ptr] }).pageCaches h

/-! Queue entries as words (R213) -/

/-- Words 1–3 of a queue entry, with its FIRST as given. -/
def QEnt.words (e : QEnt) (first : Nat) : List Nat :=
  [first + b2n e.ce * 2 ^ 19 + e.color % 4 * 2 ^ 20 + b2n e.shared * 2 ^ 22 + b2n e.final * 2 ^ 23 + b2n e.ct * 2 ^ 24,
   e.enqNs + e.srcDie * 2 ^ 30,
   e.owner + e.inPort % 128 * 2 ^ 19 + e.prio * 2 ^ 26 + b2n e.pfc * 2 ^ 29]

/-- A queue entry read from a page: its packet has cells of its own again. -/
def QEnt.ofWords (len w1 w2 w3 : Nat) : QEnt where
  first := 0
  len := len
  owner := 0
  color := bits w1 20 2
  enqNs := bits w2 0 30
  srcDie := bits w2 30 1
  inPort := bits w3 19 7
  prio := bits w3 26 3
  ce := bit w1 19
  shared := false
  final := false
  ct := false
  pfc := bit w3 29
  cells := 0
  lead := []
  skip := 0
  ctl := false

/-! The page image (R207) -/

def pageAddr (ptr : Nat) : Nat := ptr % 2 ^ 23 * 4096
def pageStack (ptr : Nat) : Nat := ptr / 2 ^ 23 % 4

/-- The 4,096 bytes of a page. -/
def Page.image (g : Page) (next : Nat) : List Byte :=
  let recs := g.recs.flatMap fun r => ((r.slot + r.ent.len * 2 ^ 4) :: r.ent.words 0).flatMap (leBytes 4)
  slice (leBytes 4 next ++ leBytes 1 g.slots ++ leBytes 1 g.recs.length ++ List.replicate 10 0 ++ recs) 0 256 ++ slice g.data 0 3840

/-- The records of an image. -/
def imageRecs (img : List Byte) : List PageRec :=
  (List.range (leNat (slice img 5 1))).map fun i =>
    let w (k : Nat) : Nat := leNat (slice img (16 + 16 * i + 4 * k) 4)
    ⟨w 0 % 16, QEnt.ofWords (bits (w 0) 4 14) (w 1) (w 2) (w 3)⟩

/-! The writer (R209) -/

/-- The last page of a queue's segment is written to HBM; a write aimed at a lost domain is discarded (R395). -/
def Dev.closePage (d : Dev) (q : Nat) : Dev :=
  let x := d.queue q
  match x.seg.getLast? with
  | none => d
  | some g =>
    if g.written then d
    else if !d.domOn (14 + pageStack g.ptr) then
      d.setQueue q { x with seg := x.seg.dropLast ++ [{ g with written := true, lost := true, data := [] }] }
    else
      let d := d.hbmWrite (pageStack g.ptr) 1 (pageAddr g.ptr) (g.image 0)
      let d := d.setQueue q { x with seg := x.seg.dropLast ++ [{ g with written := true, data := [] }] }
      d.cnt (bpmPage (q / 65536)) F.BPM_CNT_COUNT 3

/-- The segment has an open page with a free slot, a new one where needed; the page before then names it in NEXT. -/
def Dev.openPage (d : Dev) (q : Nat) : Bool × Dev :=
  let x := d.queue q
  match x.seg.getLast? with
  | some g =>
    if !g.written ∧ g.slots < 15 ∧ !g.recalling then (true, d)
    else
      match d.takePage (q / 65536) with
      | (none, d) => (false, d)
      | (some ptr, d) =>
        let d := d.closePage q
        let d := if !d.domOn (14 + pageStack g.ptr) then d else d.hbmWrite (pageStack g.ptr) 1 (pageAddr g.ptr) (leBytes 4 ptr)
        let x := d.queue q
        (true, d.setQueue q { x with seg := x.seg ++ [⟨ptr, 0, [], [], false, false, false⟩] })
  | none =>
    match d.takePage (q / 65536) with
    | (none, d) => (false, d)
    | (some ptr, d) => (true, d.setQueue q { x with seg := [⟨ptr, 0, [], [], false, false, false⟩] })

/-- Changes the last page of a segment. -/
def Dev.editLast (d : Dev) (q : Nat) (f : Page → Page) : Dev :=
  let x := d.queue q
  match x.seg.getLast? with
  | none => d
  | some g => d.setQueue q { x with seg := x.seg.dropLast ++ [f g] }

/-- One slot of packet bytes; a full page is written. -/
def Dev.putSlot (d : Dev) (q : Nat) (b : List Byte) (rec : Option QEnt) : Dev :=
  let (_, d) := d.openPage q
  let d := d.editLast q fun g =>
    { g with slots := g.slots + 1, data := g.data ++ slice b 0 256
             recs := match rec with | some e => g.recs ++ [⟨g.slots, e⟩] | none => g.recs }
  match ((d.queue q).seg.getLast?).map (·.slots) with
  | some 15 => d.closePage q
  | _ => d

/-- The slots of a packet in order; the first carries its record. -/
def Dev.putSlots (d : Dev) (q : Nat) (e : QEnt) : List (List Byte) → Bool → Dev
  | [], _ => d
  | b :: r, first => (d.putSlot q b (if first then some e else none)).putSlots q e r false

/-- The frame of a packet is still arriving (R14). -/
def Dev.arriving (d : Dev) (owner : Nat) : Bool :=
  d.rx.any fun x => match x.2 with | some f => f.owner = owner | none => false

/-- A frame of the packet has ended with a bad FCS. -/
def Dev.isBad (d : Dev) (owner : Nat) : Bool := Map.rd 0 d.badFrames owner != 0

/-- A packet that has not begun transmission and whose FCS proves bad: counted at its ingress port and freed (R14). -/
def Dev.fcsDrop (d : Dev) (inport : Nat) : Dev :=
  if inport < 128 then d.bump (portPage inport) (F.PG_CNT_COUNT.at (0x20 * (inport % 8) + 4)) else d

/-- A packet whose frame ended bad is dropped: counted at the port it came through (R14). -/
def Dev.badDrop (d : Dev) (owner : Nat) : Dev :=
  match Map.rd 0 d.badFrames owner with
  | 0 => d
  | p + 1 => d.fcsDrop p

/-- A holder lets go of a queued packet, and its cells leave CNT (R199, R214). -/
def Dev.dropEnt (d : Dev) (q : Nat) (e : QEnt) : Dev := (d.cntSub e.srcDie q e.cells).letGoEnt e

/-- The free slots of the open page. -/
def Queue.room (x : Queue) : Nat :=
  match x.seg.getLast? with
  | some g => if !g.written && !g.recalling then 15 - g.slots else 0
  | none => 0

/-- Packets waiting in the writer are written to pages in order, once their frames have ended and pages are free (R209).
`ecc` is what the first packet's cells read as: an uncorrectable one is dropped (R394). -/
def Dev.pumpWriter (d : Dev) (q : Nat) (ecc : Ecc) : Nat → Dev
  | 0 => d
  | fuel + 1 =>
    let x := d.queue q
    let die := q / 65536
    match x.writer with
    | [] => d
    | e :: rest =>
      if d.arriving e.owner then d
      else if d.isBad e.owner then
        (((d.setQueue q { x with writer := rest }).badDrop e.owner).dropEnt q e).pumpWriter q ecc fuel
      else
        let need := cdiv e.len 256 - x.room
        let have_ := 15 * ([2 * die, 2 * die + 1].map fun h => if d.stackReady h then d.pgFree h else 0).sum
        if need > have_ then d
        else if ecc = .bad then
          let d := (d.eccCount 0 (cellDie e.first) ecc).event (portPage (d.qPort q)) 3 1 e.first (d.qPort q) 0
          ((d.setQueue q { x with writer := rest }).dropEnt q e).pumpWriter q .clean fuel
        else
          let d := d.eccCount 0 (cellDie e.first) ecc
          let d := d.putSlots q e (pieces chainFuel ((d.chainBytes e.first).take e.len)) true
          let x := d.queue q
          let d := (d.setQueue q { x with writer := x.writer.drop 1 }).dropEnt q e
          let d := d.cnt (bpmPage die) F.BPM_CNT_COUNT 2
          let d := if e.shared then d.cnt (bpmPage die) F.BPM_CNT_COUNT 6 else d
          d.pumpWriter q .clean fuel

/-- Every writer of a die that waits for pages tries again. -/
def Dev.pumpWriters (d : Dev) (die : Nat) : Dev :=
  (d.tm.queues.filter fun x => x.1 / 65536 = die && !x.2.writer.isEmpty).foldl (fun d x => d.pumpWriter x.1 .clean 4096) d

/-- OPEN_PAGE_TIMEOUT: the open page is written (R209). -/
def Dev.openPageTimeout (d : Dev) (q : Nat) : Dev :=
  match (d.queue q).seg.getLast? with
  | some g => if !g.written ∧ g.slots > 0 then d.closePage q else d
  | none => d

/-! Recall (R209, R210) -/

/-- The packets of a page in order, from its image: those whole by now, and the one that runs on; each with the first slot it
has in the page and its bytes there. `left` is the packet the pages before began; one already dropped is marked by `ctl`. -/
def pagePkts (slots : Nat) (recs : List PageRec) (data : List Byte) (left : Option (QEnt × List Byte)) :
    List (QEnt × List Byte × Nat × Nat) × Option (QEnt × List Byte × Nat × Nat) :=
  let body (from_ n : Nat) : List Byte := slice data (256 * from_) n
  let start := match left with
    | none => []
    | some (e, b) => let n := min (e.len - b.length) (256 * slots); [(e, b ++ body 0 n, 0, n)]
  let rest := recs.map fun r =>
    let n := min r.ent.len (256 * (slots - r.slot))
    (r.ent, body r.slot n, r.slot, n)
  let all := start ++ rest
  match all.getLast? with
  | none => ([], none)
  | some (e, b, f, t) => if b.length < e.len then (all.dropLast, some (e, b, f, t)) else (all, none)

/-- Packets rebuilt in full cells of requester 11 and appended on chip; false, with nothing taken, where a cell is refused. -/
def Dev.rebuild (d : Dev) (q : Nat) : List (QEnt × List Byte) → Bool × List QEnt × Dev
  | [] => (true, [], d)
  | (e, b) :: r =>
    match d.newChain (q / 65536) 11 (b.take e.len) with
    | (none, d) => (false, [], d)
    | (some c, d) =>
      let e' := { e with first := c, owner := c, cells := (d.chain c).length }
      let (ok, l, d) := d.rebuild q r
      if ok then (true, e' :: l, d) else (false, [], d.freeChain c)

/-- The records of a page's image, with the drops that befell its packets while they were in it (R302). -/
def Page.marked (g : Page) (recs : List PageRec) : List PageRec :=
  ((List.range recs.length).zip recs).map fun x =>
    { x.2 with ent := { x.2.ent with ctl := (g.recs[x.1]?).any (·.ent.ctl) } }

/-- The page at the front of the segment has been read, `bad` the words of it that are uncorrectable: its packets return on chip,
those with a byte in a bad word are dropped, and the page is freed (R209, R210). A bad word of the header, whose fields place
every packet, costs them all (log entry 87). -/
def Dev.takePageBack (d : Dev) (q : Nat) (g : Page) (bad : List Nat) : Dev :=
  let die := q / 65536
  let x := d.queue q
  let img := d.hbmRead (pageStack g.ptr) (pageAddr g.ptr) 4096
  let (slots, recs, data) := if g.written && !g.lost then (leNat (slice img 4 1) % 16, g.marked (imageRecs img), img.drop 256) else (g.slots, g.recs, g.data)
  let (pk, left) := pagePkts slots recs data x.partly
  let hurt (s n : Nat) : Bool := bad.any fun w => decide (w < 64) || overlap (4 * w) 4 (256 + 256 * s) n
  let whole := pk.filter fun y => !y.1.ctl
  let good := whole.filter fun y => !hurt y.2.2.1 y.2.2.2
  let cut : Bool := match left with | some (e, _, f, t) => !e.ctl && hurt f t | none => false
  let lost := whole.length - good.length + b2n cut
  let left := left.map fun y => ({ y.1 with ctl := y.1.ctl || cut }, y.2.1)
  match d.rebuild q (good.map fun y => (y.1, y.2.1)) with
  | (false, _, d) => d.waitCell die 11 (.recall q bad)
  | (true, es, d) =>
    let d := d.setQueue q { d.queue q with seg := (d.queue q).seg.drop 1, ents := (d.queue q).ents ++ es, partly := left }
    let d := es.foldl (fun d e => d.cntAdd e.srcDie q e.cells) d
    let d := if lost = 0 then d else (d.bump (bpmPage die) (F.BPM_CNT_COUNT.at 20) lost).int (bpmPage die) 3
    let d := (if g.lost then d else d.freePage die g.ptr).cnt (bpmPage die) F.BPM_CNT_COUNT 4
    (d.pumpWriters die).touchQueue q

/-- RECALL: the first page not yet recalled is read while Q is below RECALL * 16, at most 4 outstanding; the open page
comes from the writer, and the packets of a lost page are dropped without a read (R298). -/
def Dev.recall (d : Dev) (q : Nat) : Dev :=
  let x := d.queue q
  let die := q / 65536
  let low := decide (d.qCells q < 16 * d.get (bpmPage die) (F.BPM_SPILL_PROF_RECALL.at (4 * d.qSpill q)))
  if !low ∨ (x.seg.filter (·.recalling)).length ≥ 4 then d
  else
    match x.seg.findIdx? (fun g => !g.recalling) with
    | none => if x.seg.isEmpty ∧ x.partly.isNone then
        (d.setQueue q { x with ents := x.ents ++ x.writer, writer := [] }).touchQueue q else d
    | some i =>
      match x.seg[i]? with
      | none => d
      | some g =>
        let mark := d.setQueue q { x with seg := x.seg.set i { g with recalling := true } }
        if g.lost then (if i = 0 then mark.takePageBack q g [0] else d)
        else if g.written then
          (if d.fn (hbmPage (pageStack g.ptr)) = 0 then d else mark.hbmAsk (pageStack g.ptr) 0 false (pageAddr g.ptr) 4096)
        else if i = 0 then mark.takePageBack q { g with recalling := true } [] else d

/-- RECALL_READ_DONE: the oldest recall read returns, `bad` and `corrected` naming the 32-bit words that read so (R303). -/
def Dev.recallDone (d : Dev) (q : Nat) (bad corrected : List (Fin 1024)) : Dev :=
  match (d.queue q).seg with
  | g :: _ =>
    if g.recalling ∧ g.written ∧ !g.lost then
      let h := pageStack g.ptr
      let at_ (w : Nat) : Nat := pageAddr g.ptr + 4 * w
      let (bad, corrected) := d.wordsRead h at_ bad corrected
      ((d.hbmServe h 0 (pageAddr g.ptr) 4096).countWords h at_ bad corrected).takePageBack q g bad
    else d
  | [] => d

/-! Flush (R227, R246) -/

/-- Every packet of a queue is dropped, on chip and in HBM; each counts under `LINK_DOWN` of its port. -/
def Dev.flushQueue (d : Dev) (q : Nat) : Dev :=
  let x := d.queue q
  let d := d.setQueue q { x with ents := [], seg := [], partly := none, writer := [] }
  let d := (x.ents ++ x.writer).foldl (fun d e => if e.ctl then d else (d.dropEnt q e).dropCount (d.qPort q) 2) d
  let d := (List.range x.inHbm).foldl (fun d _ => d.dropCount (d.qPort q) 2) d
  (x.seg.foldl (fun d g => if g.lost then d else d.freePage (q / 65536) g.ptr) d).touchQueue q

/-- A packet with `n` bytes beyond the page `i` of a segment, which follow in full pages, has bytes in a page among `hit`. -/
def runsInto (hit : List Nat) (i n : Nat) : Bool := hit.any fun j => decide (i < j) && decide (j ≤ i + cdiv n 3840)

/-- Every packet with bytes in a page of stack `h` is marked as dropped: the queue, and how many (R302). -/
def Queue.dropStack (x : Queue) (h : Nat) : Nat × Queue :=
  let hit := (List.range x.seg.length).filter fun i => (x.seg[i]?).any fun g => pageStack g.ptr == h && !g.lost
  let gone (i : Nat) (g : Page) (r : PageRec) : Bool := hit.contains i || runsInto hit i (r.ent.len - 256 * (g.slots - r.slot))
  let mark (i : Nat) (g : Page) : Page :=
    let g := { g with recs := g.recs.map fun r => if gone i g r then { r with ent := { r.ent with ctl := true } } else r }
    if hit.contains i then { g with data := [], written := true, recalling := false, lost := true } else g
  let partly := x.partly.map fun y => if hit.any fun j => decide (j < cdiv (y.1.len - y.2.length) 3840) then ({ y.1 with ctl := true }, y.2) else y
  let y := { x with seg := ((List.range x.seg.length).zip x.seg).map fun e => mark e.1 e.2, partly := partly }
  (x.inHbm - y.inHbm, y)

/-- The packets still in a stopping stack's pages are dropped and counted, and the pages freed (R302). -/
def Dev.dropStackPages (d : Dev) (h : Nat) : Dev :=
  let mine (g : Page) : Bool := pageStack g.ptr == h && !g.lost
  (d.tm.queues.filter fun (e : Nat × Queue) => e.2.seg.any mine).foldl (fun d e =>
    let x := d.queue e.1
    let (n, y) := x.dropStack h
    let d := (d.setQueue e.1 y).bump (hbmPage h) (F.HBM_CNT_COUNT.at 32) n
    (x.seg.filter mine).foldl (fun d g => d.freePage (e.1 / 65536) g.ptr) d) d

/-- A queue still holds a page of a stack. -/
def Dev.stackHeld (d : Dev) (h : Nat) : Bool :=
  d.tm.queues.any fun (e : Nat × Queue) => e.2.seg.any fun g => pageStack g.ptr == h && !g.lost

end Sys2Proof.Machine
end

