-- ==== Sys2Proof/Machine/Transmit.lean ====
section
/-! DEFINITION. The frame as it is sent: the CE mark (R218), PTP event messages (R321), shim, padding and FCS (R82, R263–R266). -/

namespace Sys2Proof.Machine

/-- The offset of the EtherType after the Ethernet header and up to two tags (R218, R321). -/
def etherAt (b : List Byte) : Nat :=
  let tag (o : Nat) : Bool := beAt b o 2 == 0x8100 || beAt b o 2 == 0x88A8
  if tag 12 then (if tag 16 then 20 else 16) else 12

/-- One's complement addition of two 16-bit values. -/
def add1c (a b : Nat) : Nat := (a + b) % 65536 + (a + b) / 65536

/-- A checksum after one 16-bit word changed from `m` to `n`, by RFC 1624. -/
def sumUpdate (c m n : Nat) : Nat := 65535 - add1c (add1c (65535 - c) (65535 - m)) n

/-- Writes a big-endian field. -/
def putBe (b : List Byte) (o n v : Nat) : List Byte := splice b o (beBytes n v)

/-- The CE mark of R218: the bytes, and 0 marked or no change needed, 1 Not-ECT, 2 another EtherType. -/
def markCe (b : List Byte) : List Byte × Nat :=
  let o := etherAt b
  let t := beAt b o 2
  if t = 0x0800 then
    let w := beAt b (o + 2) 2
    let e := w % 4
    if e = 0 then (b, 1)
    else if e = 3 then (b, 0)
    else (putBe (putBe b (o + 2) 2 (w - e + 3)) (o + 12) 2 (sumUpdate (beAt b (o + 12) 2) w (w - e + 3)), 0)
  else if t = 0x86DD then
    let w := beAt b (o + 2) 2
    let e := w / 16 % 4
    if e = 0 then (b, 1) else if e = 3 then (b, 0) else (putBe b (o + 2) 2 (w - 16 * e + 48), 0)
  else (b, 2)

/-- The PTP header of an event message and, for UDP, the offset of its UDP header (R321). -/
def Dev.ptpAt (d : Dev) (port : Nat) (b : List Byte) : Option (Nat × Option Nat) :=
  let p := 8 + port / 64
  let n := 8 * (port % 64)
  let o := etherAt b
  let t := beAt b o 2
  let msg (h : Nat) : Bool := beAt b (h + 1) 1 % 16 == 2 && decide (beAt b h 1 % 16 ≤ 3) && decide (h + 34 ≤ b.length)
  let pick (h : Nat) (u : Option Nat) : Option (Nat × Option Nat) := if msg h then some (h, u) else none
  if t = 0x88F7 then (if d.get p (F.TIME_PORT_TS_L2.at n) = 1 then pick (o + 2) none else none)
  else if t = 0x0800 then
    if d.get p (F.TIME_PORT_TS_UDP4.at n) = 1 ∧ beAt b (o + 2) 1 = 0x45 ∧ beAt b (o + 11) 1 = 17 ∧ beAt b (o + 24) 2 = 319 then
      pick (o + 30) (some (o + 22)) else none
  else if t = 0x86DD then
    if d.get p (F.TIME_PORT_TS_UDP6.at n) = 1 ∧ beAt b (o + 8) 1 = 17 ∧ beAt b (o + 44) 2 = 319 then
      pick (o + 50) (some (o + 42)) else none
  else none

/-- Replaces 16-bit words, keeping a non-zero checksum at `c` right (R321). -/
def replaceWords (c : Option Nat) (b : List Byte) (o : Nat) : List Nat → List Byte
  | [] => b
  | w :: r =>
    let b' := match c with
      | some c => if beAt b c 2 = 0 then b else putBe b c 2 (sumUpdate (beAt b c 2) (beAt b o 2) w)
      | none => b
    replaceWords c (putBe b' o 2 w) (o + 2) r

/-- A frame's PTP handling as it starts: a one-step Sync takes its timestamp, every other event message is recorded. -/
def Dev.ptpSend (d : Dev) (port : Nat) (b : List Byte) : List Byte × Dev :=
  let p := 8 + port / 64
  let mode := d.get p (F.TIME_PORT_TS_TX_MODE.at (8 * (port % 64)))
  if mode = 0 ∨ d.isMember port then (b, d)
  else
    match d.ptpAt port b with
    | none => (b, d)
    | some (h, u) =>
      let ty := beAt b h 1 % 16
      let t := d.txStamp port
      if mode = 2 ∧ ty = 0 ∧ bit (beAt b (h + 6) 1) 1 = false then
        if d.running p then
          let s := t / 1000000000
          let ns := t % 1000000000
          (replaceWords (u.map (· + 6)) b (h + 34) [s / 2 ^ 32 % 65536, s / 2 ^ 16 % 65536, s % 65536, ns / 65536, ns % 65536], d)
        else (b, d)
      else (b, d.txRecord port t ty (beAt b (h + 30) 2) (beAt b (h + 4) 1))

/-- The bytes of an entry's packet with its CE mark (R218); the mark's counters are those of the port's SWC. -/
def Dev.entBytes (d : Dev) (die : Nat) (e : QEnt) : List Byte × Dev :=
  let b := (d.chainBytes e.first).take e.len
  if e.ce then
    let (b, r) := markCe b
    (b, if r = 1 then d.cnt (swcPage die) F.SWC_CNT_COUNT 0 else if r = 2 then d.cnt (swcPage die) F.SWC_CNT_COUNT 1 else d)
  else (b, d)

/-- A member frame: shim bytes 0–6, CHK, message body or residue, padding and FCS (R263, R265, R266). -/
def memberFrame (lead residue : List Byte) : List Byte :=
  let shim := lead.take 7
  let res := lead.drop 7 ++ residue
  let chk := crc8 (shim ++ res.take 16)
  let pad := 64 - (8 + res.length + 4)
  let f := shim ++ [BitVec.ofNat 8 chk] ++ res ++ (if pad = 0 then [] else List.replicate (pad - 1) 0 ++ [BitVec.ofNat 8 pad])
  f ++ fcsOf f

/-- The frame that a port sends for an entry. -/
def Dev.buildFrame (d : Dev) (port : Nat) (e : QEnt) : List Byte × Dev :=
  if e.ctl then (memberFrame e.lead [], d)
  else
    let (b, d) := d.entBytes (port / 64) e
    if e.lead.isEmpty then
      let (b, d) := d.ptpSend port b
      let b := b ++ List.replicate (60 - b.length) 0
      (b ++ fcsOf b, d)
    else (memberFrame e.lead (b.drop e.skip), d)

/-- A frame ended with its FCS inverted (R14). -/
def invertFcs (f : List Byte) : List Byte := f.take (f.length - 4) ++ (f.drop (f.length - 4)).map (fun b => ~~~b)

end Sys2Proof.Machine
end

