-- ==== Sys2Proof/Machine/Switch.lean ====
section
/-! DEFINITION. The switch core (R212–R229): hand-on, admission, ECN, the transfer scheduler, the direct path, transmission,
PFC and port state; with a frame's end (R14). -/

namespace Sys2Proof.Machine

def Dev.setSwc (d : Dev) (s : Swc) : Dev := { d with swc := s }

/-- The function runs or completes what it holds, and its domain is ON. -/
def Dev.active (d : Dev) (p : Nat) : Bool := decide (d.fn p ≥ 2) && d.pageOn p

/-! Hand-on (R106, R216, R249, R359, R375) -/

/-- The offers of a source to a die's SWC. -/
def Dev.offers (d : Dev) (die src : Nat) : List Offer := Map.rd [] d.swc.offers (3 * die + src)

/-- How many packets a source offers in one cycle (R216). -/
def offerCap (src : Nat) : Nat := if src = 0 then 12 else if src = 1 then 2 else 4

/-- The SWC can take one more packet of this source. -/
def Dev.canOffer (d : Dev) (die src : Nat) : Bool := d.active (swcPage die) && decide ((d.offers die src).length < offerCap src)

/-- A packet is offered to a die's SWC. -/
def Dev.offer (d : Dev) (die src : Nat) (o : Offer) : Dev :=
  d.setSwc { d.swc with offers := d.swc.offers.wr [] (3 * die + src) (d.offers die src ++ [o]) }

/-- The QMAP range that holds a local queue: device, remote queue, virtual channel (R375). -/
def Dev.ulxMap (d : Dev) (die q : Nat) : Option (Nat × Nat × Nat) :=
  let p := ulxPage die
  let hit (k : Nat) : Bool :=
    let b := d.live p (F.ULX_QMAP_BASE.at (16 * k))
    d.live p (F.ULX_QMAP_EN.at (16 * k)) == 1 && decide (b ≤ q) && decide (q < b + d.live p (F.ULX_QMAP_SIZE.at (16 * k)))
  ((List.range 8).find? hit).map fun k =>
    (d.live p (F.ULX_QMAP_DEV.at (16 * k)),
     d.live p (F.ULX_QMAP_RBASE.at (16 * k)) + (q - d.live p (F.ULX_QMAP_BASE.at (16 * k))),
     d.live p (F.ULX_QMAP_VC.at (16 * k)))

/-- The Ulux transmit queue of a die for (device, destination die). -/
def Dev.ulxQueue (d : Dev) (die dev dd : Nat) : List UlxPkt := Map.rd [] d.ulx.queues (8 * die + 2 * dev + dd)

/-- A packet joins a Ulux transmit queue; one for a device whose hold has expired (R379), or that finds ULX not RUNNING
(R385), is freed and counted. -/
def Dev.ulxEnqueue (d : Dev) (die dev : Nat) (u : UlxPkt) : Dev :=
  if Map.rd false d.ulx.lost dev || !d.running (ulxPage die) then
    (d.letGo u.pkt.first u.pkt.owner u.shared u.final).tally (ulxPage die) (F.ULX_PEER_CNT_COUNT.at (32 * dev + 16))
  else
    let dd := u.queue / 65536
    { d with ulx := { d.ulx with queues := d.ulx.queues.wr [] (8 * die + 2 * dev + dd) (d.ulxQueue die dev dd ++ [u]) } }

/-- A packet for a unicast queue leaves its source: to a peer's transmit queue or to admission. None: it is held. -/
def Dev.handUnicast (d : Dev) (die src : Nat) (o : Offer) : Option Dev :=
  match d.ulxMap die o.queue with
  | some (dev, rq, vc) =>
    if (d.ulxQueue die dev (rq / 65536)).length ≥ 256 then none
    else some (d.ulxEnqueue die dev ⟨rq, vc, o.color, o.pkt, o.shared, o.final, 0, false⟩)
  | none => if d.canOffer die src then some (d.offer die src o) else none

def Dev.peal (d : Dev) (die : Nat) : Peal := Map.rd Peal.init d.peals die
def Dev.setPeal (d : Dev) (die : Nat) (x : Peal) : Dev := { d with peals := d.peals.wr Peal.init die x }

/-- A Peal engine's queue and what PEAL_QUEUE shows of it. -/
def Dev.setPealQueue (d : Dev) (die : Nat) (l : List McPkt) : Dev :=
  let d := d.setPeal die { d.peal die with queue := l }
  (d.set (pealPage die) F.PEAL_QUEUE_DEPTH l.length).peak (pealPage die) F.PEAL_QUEUE_PEAK l.length

/-- A multicast packet leaves its ORD for the Peal engine of the die (R248, R249). None: the queue is full. -/
def Dev.handMulticast (d : Dev) (die group : Nat) (p : Pkt) : Option Dev :=
  if !d.running (pealPage die) then some ((d.freePkt p).tally (pealPage die) (F.PEAL_CNT_COUNT.at 40))
  else
    let l := (d.peal die).queue
    if l.length ≥ 256 then none
    else
      let d := d.setPealQueue die (l ++ [⟨group, p⟩])
      some (if l.length = 255 then d.int (pealPage die) 2 else d)

/-- A packet goes to the host path for a DMA channel. -/
def Dev.handPunt (d : Dev) (p : Punt) : Dev := { d with hif := { d.hif with punts := d.hif.punts ++ [p] } }

/-! Admission (R214–R217) -/

/-- The scheduling port of a trunk that is disabled (R261). -/
def Dev.trunkOff (d : Dev) (port : Nat) : Bool :=
  decide (128 ≤ port ∧ port < 144) && match d.trunkHome (port - 128) with
    | some die => Map.rd 0 d.car.verdicts (16 * die + (port - 128)) == 2 || Map.rd false d.car.bad (16 * die + (port - 128))
    | none => false

/-- The queue takes nothing: its port is FLUSHING, DOWN or DISABLED, its node unattached, its entry FAULTED, or a unicast
packet names a member's queue (R215, R226, R233, R261, R262, R394). -/
def Dev.queueClosed (d : Dev) (q : Nat) (unicast : Bool) : Bool :=
  let m := d.qNode q
  let p := d.nPort m
  !d.attached m || (d.queue q).faulted || (d.node m).faulted || d.trunkOff p ||
    (decide (p < 128) && (d.portState p == 0 || decide (d.portState p ≥ 3) || (unicast && d.isMember p)))

/-- CAP_BIT (R215). -/
def Dev.capBit (d : Dev) (die q : Nat) : Bool :=
  let c := d.adm die q F.SWC_ADM_PROF_PAGE_CAP
  decide (c ≠ 0) && decide ((d.queue q).seg.length ≥ c * 64)

/-- The decision of R215: 0 ADMIT, 1 THRESHOLD, 2 CAP, 3 LINK_DOWN. -/
def Dev.admissionCode (d : Dev) (die q c k : Nat) (unicast : Bool) : Nat :=
  if d.queueClosed q unicast then 3
  else if d.capBit die q then 2
  else
    let n := d.cntOf die q
    let mn := d.adm die q F.SWC_ADM_PROF_MIN
    let after := n + c - mn
    let add := after - (n - mn)
    if add = 0 then 0
    else
      let f := d.sharedFree die
      let code := d.adm die q (if k = 0 then F.SWC_ADM_PROF_ALPHA_G else if k = 1 then F.SWC_ADM_PROF_ALPHA_Y else F.SWC_ADM_PROF_ALPHA_R)
      let t := if code = 0 then 0 else f * 2 ^ (code - 1) / 2 ^ 7
      if after > t ∨ add > f then 1 else 0

/-- The next value of the ECN generator: one step of the register of x^16 + x^14 + x^13 + x^11 + 1 (R217), in the form and the
direction that the device has (log entry 21). -/
def ecnStep (form : Fin 4) (w : BitVec 16) : BitVec 16 :=
  match form with
  | 0 => (w >>> 1) ||| (((w ^^^ (w >>> 2) ^^^ (w >>> 3) ^^^ (w >>> 5)) &&& 1) <<< 15)
  | 1 => (w <<< 1) ||| (((w >>> 15) ^^^ (w >>> 13) ^^^ (w >>> 12) ^^^ (w >>> 10)) &&& 1)
  | 2 => if w.getLsbD 0 then (w >>> 1) ^^^ 0xB400 else w >>> 1
  | _ => if w.getLsbD 15 then (w <<< 1) ^^^ 0x6801 else w <<< 1

/-- Whether an admitted packet is marked, `n` the count before its charge (R217). -/
def Dev.ecnMark (d : Dev) (die q n : Nat) : Bool × Dev :=
  let lo := d.adm die q F.SWC_ADM_PROF_ECN_MIN
  let hi := d.adm die q F.SWC_ADM_PROF_ECN_MAX
  if d.adm die q F.SWC_ADM_PROF_ECN_EN = 0 then (false, d)
  else if d.adm die q F.SWC_ADM_PROF_ECN_SPILL = 1 ∧ (d.queue q).spilled then (true, d)
  else if n ≥ hi then (true, d)
  else if n ≤ lo then (false, d)
  else
    let r := (ecnStep Config.ecnForm (BitVec.ofNat 16 (Map.rd 0 d.swc.lfsr die))).toNat
    (decide (r < 65536 * (d.adm die q F.SWC_ADM_PROF_PMAX + 1) * (n - lo) / (16 * (hi - lo))),
     d.setSwc { d.swc with lfsr := d.swc.lfsr.wr 0 die r })

def Dev.ep (d : Dev) (i : Nat) : Endpoint := Map.rd Endpoint.init d.swc.endpoints i
def Dev.setEp (d : Dev) (i : Nat) (e : Endpoint) : Dev := d.setSwc { d.swc with endpoints := d.swc.endpoints.wr Endpoint.init i e }

/-- The endpoint of a scheduling port (R222). -/
def portEp (port : Nat) : Nat := if port < 128 then port / 8 else 16

/-- The frame in transmission on a port. -/
def Dev.tx (d : Dev) (port : Nat) : Option Tx := Map.rd none d.swc.tx port
def Dev.setTx (d : Dev) (port : Nat) (t : Option Tx) : Dev := d.setSwc { d.swc with tx := d.swc.tx.wr none port t }

/-- PFC pause is in force on a port. -/
def Dev.pfcPaused (d : Dev) (port : Nat) : Bool := d.get (swcPage (port / 64)) (F.SWC_PFC_STAT_PAUSED.at (4 * (port % 64))) != 0

/-- A packet of frame length `f` for this queue enters by the direct path (R225): its class's gate is open, the frame fits the
window, and the port does not wait for a window's close (R241, R242). -/
def Dev.direct (d : Dev) (q f : Nat) : Bool :=
  let m := d.qNode q
  let p := d.nPort m
  let e := d.ep (portEp p)
  decide (p < 128) && d.portState p == 1 && (d.queue q).pkts == 0 && !(e.sel ++ e.staged).any (fun x => x.port == p) &&
    decide (e.sel.length < 2) && (d.tx p).isNone && d.eligible q && d.eligible (nodeEnt m) && d.eligible (portEnt p) &&
    d.gateOpen p (d.qClass q) && (Map.rd none d.tm.blocked p).isNone && d.headFits p (d.qClass q) f &&
    !d.tooLong p (d.qClass q) f && !d.qPaused q && d.running (tmPage (p / 64))

/-- A unicast packet on the direct path is transmitted by cut-through (R225). -/
def Dev.cutThrough (d : Dev) (q : Nat) (k : Pkt) : Bool :=
  let p := d.qPort q
  d.arriving k.owner && decide (k.inport < 128) &&
    bit (d.get (swcPage (p / 64)) (F.SWC_CT_EN_EN.at (4 * (p % 64 / 32)))) (p % 32) &&
    decide (d.ethRate p ≤ d.ethRate k.inport) && !d.isMember p && (d.gate p).isNone && !d.pfcPaused p && !d.pfcPaused k.inport

/-- An entry goes to its port's endpoint. -/
def Dev.toEndpoint (d : Dev) (port q : Nat) (e : QEnt) (direct : Bool) : Dev :=
  let i := portEp port
  let x := d.ep i
  if e.ctl then d.setEp i { x with staged := x.staged ++ [⟨port, q, e, [], 0, direct, false⟩] }
  else d.setEp i { x with sel := x.sel ++ [⟨port, q, e, d.chain e.first, 0, direct, false⟩] }

/-- Placement of an admitted packet (R209, R225); `n` is the queue's on-chip count before its charge. -/
def Dev.placeEnt (d : Dev) (q n : Nat) (e : QEnt) (ecc : Ecc) : Dev :=
  let x := d.queue q
  let home := q / 65536
  let f := 4 * d.qSpill q
  let spill := d.get (bpmPage home) (F.BPM_SPILL_PROF_EN.at f) == 1 &&
    decide (n + e.cells > 16 * d.get (bpmPage home) (F.BPM_SPILL_PROF_SPILL.at f)) &&
    (d.stackReady (2 * home) || d.stackReady (2 * home + 1))
  if x.spilled || spill then (d.setQueue q { x with writer := x.writer ++ [e] }).pumpWriter q ecc 4096
  else if d.direct q e.frameLen then
    let ct := !e.shared && d.cutThrough q ⟨e.first, e.owner, e.len, 0, e.inPort, 0, 0, 0, false⟩
    let p := swcPage (d.qPort q / 64)
    let d := d.cnt p F.SWC_CNT_COUNT 5
    let d := if ct then d.cnt p F.SWC_CNT_COUNT 4 else d
    d.toEndpoint (d.qPort q) q { e with ct := ct } true
  else (d.setQueue q { x with ents := x.ents ++ [e] }).touchQueue q

/-- Group counting of a replica's decision (R256). -/
def Dev.pealReason (d : Dev) (die base k f : Nat) : Dev :=
  let d := d.cnt (pealPage die) F.PEAL_CNT_COUNT (1 + k)
  if base = 0 then d else d.postCounter (base - 1 + k) 1 f

/-- The source whose packet is decided next (R216): once more than 16 packets wait, the one whose turn it is by R17, else the
one that the command names (log entry 156). -/
def Dev.admitSource (d : Dev) (die src : Nat) : Nat × Dev :=
  if ((List.range 3).map fun s => (d.offers die s).length).sum ≤ 16 then (src, d)
  else match d.grant (Rr.swc die) 3 ((List.range 3).filter fun s => !(d.offers die s).isEmpty) with
    | (some s, d) => (s, d)
    | (none, d) => (src, d)

/-- The SWC decides on the oldest packet of a source; the home TM must be able to take its entry (R215, R216). -/
def Dev.admitFrom (d : Dev) (die src : Nat) (ecc : Ecc) : Dev :=
  match d.offers die src with
  | [] => d
  | o :: rest =>
    let q := o.queue
    let home := q / 65536
    if !d.active (swcPage die) || !d.active (tmPage home) || (die != home && !d.domOn 27) then d
    else
      let d := d.setSwc { d.swc with offers := d.swc.offers.wr [] (3 * die + src) rest }
      let p := o.pkt
      let cells := (d.chain p.first).length
      let k := min o.color 2
      let why := d.admissionCode die q cells k (src ≠ 1 && !o.shared)
      let port := d.qPort q
      let f := max 64 (p.len + 4)
      let d := if src = 1 then d.pealReason die o.cntBase why f else d
      if why ≠ 0 then
        let d := if src ≠ 1 ∧ d.attached (d.qNode q) ∧ d.isMember port then d.cnt (carPage die) F.CAR_GLB_CNT_COUNT 0 else d
        (d.dropCount port (why - 1)).letGo p.first p.owner o.shared o.final
      else
        let n := d.cntOf die q
        let nAll := d.qCells q
        let (ce, d) := d.ecnMark die q n
        let d := if ce then d.dropCount port 3 else d
        let d := if o.shared then d else d.setOwners p.owner p.first 0
        let d := (d.cntAdd die q cells).cnt (swcPage die) F.SWC_CNT_COUNT 7
        d.placeEnt q nAll ⟨p.first, p.len, p.owner, o.color, d.time.ns, die, p.inport % 128, p.prio, ce, o.shared, o.final, false,
          p.pfc, cells, [], 0, false⟩ ecc

/-- ADMISSION. -/
def Dev.admission (d : Dev) (die src : Nat) (ecc : Ecc) : Dev :=
  let (s, d') := d.admitSource die src
  d'.admitFrom die s ecc

/-! Transfer (R222, R223) -/

/-- The die of an endpoint. -/
def epDie (i : Nat) : Nat := if i < 8 ∨ i = 16 then 0 else 1

/-- Cells in an endpoint's staging buffer, of 64. -/
def Endpoint.used (e : Endpoint) : Nat := (e.sel.map (·.staged)).sum + (e.staged.map (·.staged)).sum
def HostIf.used (h : HostIf) : Nat := (h.path.map (·.staged)).sum + (h.staged.map (·.staged)).sum

/-- The dies an endpoint requests for the cells still to come of its packets, current first: that of the current packet's next
cell, and that of the next packet's first cell, if that is the other (R222). Second component: the request is for the next packet. -/
def cellWants : List (List Nat × Nat) → List (Nat × Bool)
  | (c :: _, _) :: (c' :: _, 0) :: _ => (cellDie c, false) :: if cellDie c' ≠ cellDie c then [(cellDie c', true)] else []
  | (c :: _, _) :: _ => [(cellDie c, false)]
  | _ => []

/-- The requests of endpoint `i`: 16 is the host path. -/
def Dev.epWants (d : Dev) (i : Nat) : List (Nat × Bool) :=
  if i = 16 then (if d.hif.used ≥ 64 then [] else cellWants (d.hif.path.map fun x => (x.cells, x.staged)))
  else let e := d.ep i; if e.used ≥ 64 then [] else cellWants (e.sel.map fun x => (x.cells, x.staged))

/-- The endpoints of a list in cyclic order from `g`. -/
def cyclic (g : Nat) (l : List Nat) : List Nat := l.filter (g ≤ ·) ++ l.filter (· < g)

/-- Grants of one buffer half: up to 12 in cyclic order, crossings while the allowance lasts; those skipped for want of it. -/
def grantHalf (die slots : Nat) : Nat → List Nat → List Nat × Nat
  | 0, _ => ([], 0)
  | _, [] => ([], 0)
  | n + 1, i :: r =>
    if epDie i = die then let (l, s) := grantHalf die slots n r; (i :: l, s)
    else if slots = 0 then let (l, s) := grantHalf die slots (n + 1) r; (l, s + 1)
    else let (l, s) := grantHalf die (slots - 1) n r; (i :: l, s)

/-- The crossing allowance left to a die in this cycle (R223). -/
def Dev.crossLeft (d : Dev) (die : Nat) : Nat :=
  if d.domOn 27 then min 6 (375 - ((Map.rd [] d.swc.crossed die).take 63).sum) else 0

/-- The first cell of a direct packet reaches staging: the TM records the selection and charges it as one (R225, R231). A
cut-through packet is charged when its frame ends (R234). -/
def Dev.recordDirect (d : Dev) (x : Sel) : Dev :=
  let p := tmPage (x.port / 64)
  let d := d.cnt p F.TM_CNT_COUNT 1
  let d := d.bump p (F.TM_PORT_CNT_COUNT.at (16 * (x.port % 64)))
  if x.ent.ct then d
  else d.chargeDirect x.port x.queue x.ent.frameLen

/-- Packets at the front of an endpoint whose cells are all in staging move on in TM order. -/
def Dev.settleEp (d : Dev) (i : Nat) : Nat → Dev
  | 0 => d
  | n + 1 =>
    let e := d.ep i
    match e.sel with
    | a :: r => if a.cells.isEmpty then (d.setEp i { e with sel := r, staged := e.staged ++ [a] }).settleEp i n else d
    | [] => d

/-! The host path, endpoint 16 (R222, R360): punts are its requester 0, packets selected on host ports its requester 1. -/

def Dev.setHif (d : Dev) (h : HostIf) : Dev := { d with hif := h }

/-- A packet selected on a host port, as the host path takes it. -/
def Dev.hostPunt (d : Dev) (x : Sel) : Punt :=
  ⟨d.get 0x05 (F.HIF_HPORT_CHAN.at (4 * (x.port - 144))), 3, 0, [], x.port - 144,
    ⟨x.ent.first, x.ent.owner, x.ent.len, 0, x.ent.inPort, 0, 0, x.ent.prio, x.ent.pfc⟩, some (x.queue, x.ent)⟩

/-- The host path takes up packets until it holds its two, by R17 where both requesters have one. -/
def Dev.loadHost (d : Dev) : Nat → Dev
  | 0 => d
  | n + 1 =>
    if d.hif.path.length ≥ 2 then d
    else
      let join (d : Dev) (p : Punt) : Dev := d.setHif { d.hif with path := d.hif.path ++ [⟨p, d.chain p.pkt.first, 0⟩] }
      match d.hif.punts, (d.ep 16).sel with
      | [], [] => d
      | p :: r, [] => (join (d.setHif { d.hif with punts := r }) p).loadHost n
      | [], x :: r => (join (d.setEp 16 { d.ep 16 with sel := r }) (d.hostPunt x)).loadHost n
      | p :: r, x :: r' =>
        let (g, d) := d.grant Rr.hostPath 2 [0, 1]
        (if g = some 0 then join (d.setHif { d.hif with punts := r }) p
          else join (d.setEp 16 { d.ep 16 with sel := r' }) (d.hostPunt x)).loadHost n

/-- Packets at the front of the host path whose cells are all in staging wait there for delivery. -/
def Dev.settleHost (d : Dev) : Nat → Dev
  | 0 => d
  | n + 1 =>
    match d.hif.path with
    | a :: r => if a.cells.isEmpty then (d.setHif { d.hif with path := r, staged := d.hif.staged ++ [a] }).settleHost n else d
    | [] => d

/-- One accepted cell moves into an endpoint's staging: of its next packet with `second`, else of its current one. -/
def Dev.moveCell (d : Dev) (i : Nat) (second : Bool) : Dev :=
  let k := if second then 1 else 0
  if i = 16 then
    match d.hif.path[k]? with
    | none => d
    | some a => (d.setHif { d.hif with path := d.hif.path.set k { a with cells := a.cells.drop 1, staged := a.staged + 1 } }).settleHost 3
  else
    let e := d.ep i
    match e.sel[k]? with
    | none => d
    | some a =>
      let d := if a.direct ∧ a.staged = 0 then d.recordDirect a else d
      (d.setEp i { e with sel := e.sel.set k { a with cells := a.cells.drop 1, staged := a.staged + 1 } }).settleEp i 3

/-- CELL_TRANSFER: one cycle of request, grant and accept over both buffer halves (R222). -/
def Dev.cellTransfer (d : Dev) : Dev :=
  let d := d.loadHost 2
  let wants := (List.range 17).map fun i => (i, d.epWants i)
  let req (die : Nat) : List Nat := (wants.filter fun w => w.2.any (·.1 = die)).map (·.1)
  let grants (die : Nat) : List Nat × Nat :=
    if !d.active (swcPage die) then ([], 0)
    else grantHalf die (d.crossLeft die) 12 (cyclic (Map.rd 0 d.rr (Rr.transfer die)) (req die))
  let g0 := grants 0
  let g1 := grants 1
  let granted (die i : Nat) : Bool := if die = 0 then g0.1.contains i else g1.1.contains i
  let accept (i : Nat) : Option (Nat × Bool) :=
    match (((wants.find? (·.1 = i)).map (·.2)).getD []).filter fun w => granted w.1 i with
    | [] => none
    | a :: r => some (((a :: r).find? (fun w => !w.2)).getD a)
  let took (die : Nat) (l : List Nat) : List Nat := l.filter fun i => match accept i with | some (x, _) => x = die | none => false
  let half (d : Dev) (die : Nat) (g : List Nat × Nat) : Dev :=
    let t := took die g.1
    let x := (t.filter fun i => epDie i ≠ die).length
    let old := Map.rd [] d.swc.crossed die
    let d := d.setSwc { d.swc with crossed := d.swc.crossed.wr [] die (x :: old.take 62) }
    let d := match t.getLast? with | some i => { d with rr := d.rr.wr 0 (Rr.transfer die) ((i + 1) % 17) } | none => d
    let d := if g.2 = 0 then d else d.bump (swcPage die) (F.SWC_CNT_COUNT.at 24) g.2
    let w := ((d.word (swcPage die) 0x130).toNat + 2 ^ 32 * (d.word (swcPage die) 0x134).toNat + x) % 2 ^ 64
    (d.setWord (swcPage die) 0x130 (BitVec.ofNat 32 w)).setWord (swcPage die) 0x134 (BitVec.ofNat 32 (w / 2 ^ 32))
  let d := half (half d 0 g0) 1 g1
  (List.range 17).foldl (fun d i => match accept i with | some (_, s) => d.moveCell i s | none => d) d

/-! Transmission (R82, R14, R394) -/

/-- The packet a port may start: the first of its port in staging whose frame has ended, or a cut-through one. -/
def Dev.nextTx (d : Dev) (port : Nat) : Option Sel :=
  let e := d.ep (portEp port)
  match e.staged.find? (·.port = port) with
  | some x => if x.ent.ctl || x.ent.ct || !d.arriving x.ent.owner then some x else none
  | none => (e.sel.find? (·.port = port)).filter fun x => x.ent.ct && decide (x.staged > 0)

/-- Removes an entry from an endpoint. -/
def Endpoint.remove (e : Endpoint) (x : Sel) : Endpoint := ⟨e.sel.filter (· ≠ x), e.staged.filter (· ≠ x)⟩

/-- Marks an entry as begun on the wire. -/
def Endpoint.begin (e : Endpoint) (x : Sel) : Endpoint := { e with sel := e.sel.map fun y => if y = x then { y with onWire := true } else y }

/-- The entry whose transmission on a port has begun while its cells still come leaves the endpoint. -/
def Dev.dropOnWire (d : Dev) (port : Nat) : Dev :=
  let e := d.ep (portEp port)
  let off (l : List Sel) : List Sel := l.filter fun x => !(x.port == port && x.onWire)
  d.setEp (portEp port) ⟨off e.sel, off e.staged⟩

/-- FRAME_TRANSMIT_START: the transmit MAC starts a frame; an uncorrectable cell drops it (R394). A cut-through frame whose cells
are not all in staging keeps its place in the endpoint until they are (R222). -/
def Dev.transmitStart (d : Dev) (port : Nat) (ecc : Ecc) : Dev :=
  if d.portState port ≠ 1 ∨ (d.tx port).isSome then d
  else match d.nextTx port with
    | none => d
    | some x =>
      let i := portEp port
      let part := !x.cells.isEmpty
      let d := d.setEp i (if part ∧ ecc ≠ .bad then (d.ep i).begin x else (d.ep i).remove x)
      let d := if x.ent.ctl then d else d.eccCount 0 (cellDie x.ent.first) ecc
      if ecc = .bad ∧ !x.ent.ctl then (d.event (portPage port) 3 1 x.ent.first port 0).dropEnt x.queue x.ent
      else
        let (b, d) := d.buildFrame port x.ent
        d.setTx port (some ⟨x.ent, x.queue, b, d.clk + d.wireNs port b.length⟩)

/-- A frame that ends with its FCS inverted counts at the egress port (R14). -/
def Dev.endInverted (d : Dev) (port : Nat) : Dev := d.bump (portPage port) (F.PG_CNT_COUNT.at (0x20 * (port % 8) + 4))

/-- A cut-through frame that ends on the wire while its ingress frame still arrives is charged then (R225, R234). -/
def Dev.chargeEnded (d : Dev) (port : Nat) (t : Tx) : Dev :=
  if !t.ent.ctl ∧ t.ent.ct ∧ d.arriving t.ent.owner then d.chargeDirect port t.queue t.ent.frameLen else d

/-- FRAME_TRANSMIT_END: the frame is on the wire and its holder lets go; a cut-through frame that outran its cells, whether they
have still to arrive or to reach staging, ends with its FCS inverted, as one does whose ingress frame has proved bad. -/
def Dev.transmitEnd (d : Dev) (port : Nat) : Dev :=
  match d.tx port with
  | none => d
  | some t =>
    let outran := !t.ent.ctl && (d.arriving t.ent.owner || (d.ep (portEp port)).sel.any fun x => x.port == port && x.onWire)
    let d := (d.chargeEnded port t).setTx port none
    let d := d.dropOnWire port
    let d := if outran && !d.isBad t.ent.owner then (d.endInverted port).emit (.frame port (invertFcs t.bytes))
      else d.emit (.frame port t.bytes)
    if t.ent.ctl then d else d.dropEnt t.queue t.ent

/-! A frame's end (R14) -/

/-- Entries of a bad frame's packet leave a list; how many did. -/
def Dev.purgeList (d : Dev) (q owner : Nat) (l : List QEnt) : List QEnt × Nat × Dev :=
  let gone := l.filter fun e => !e.ctl && e.owner = owner
  (l.filter (fun e => !(!e.ctl && e.owner = owner)), gone.length, gone.foldl (fun d e => d.dropEnt q e) d)

/-- Packets of a bad frame leave the host path, punts and host-port packets alike; how many did. -/
def Dev.purgeHost (d : Dev) (owner : Nat) : Nat × Dev :=
  let hit (p : Punt) : Bool := match p.held with | some (_, e) => e.owner == owner | none => p.pkt.owner == owner
  let h := d.hif
  let gone := h.punts.filter hit ++ ((h.path ++ h.staged).map (·.punt)).filter hit
  let d := d.setHif { h with
    punts := h.punts.filter fun p => !hit p
    path := h.path.filter fun x => !hit x.punt
    staged := h.staged.filter fun x => !hit x.punt }
  (gone.length, gone.foldl (fun d p => match p.held with | some (q, e) => d.dropEnt q e | none => d.freePkt p.pkt) d)

/-- A frame that proves bad leaves every queue, offer, staging buffer and the host path; a cut-through frame is ended inverted. -/
def Dev.purgeBad (d : Dev) (owner inport : Nat) : Dev :=
  let (n, d) := d.tm.queues.foldl (fun (acc : Nat × Dev) x =>
    let (n, d) := acc
    let (es, k, d) := d.purgeList x.1 owner (d.queue x.1).ents
    let (ws, j, d) := d.purgeList x.1 owner (d.queue x.1).writer
    if k + j = 0 then (n, d)
    else (n + k + j, (d.setQueue x.1 { d.queue x.1 with ents := es, writer := ws }).touchQueue x.1)) (0, d)
  let (n, d) := (List.range 17).foldl (fun (acc : Nat × Dev) i =>
    let (n, d) := acc
    let e := d.ep i
    let hit := (e.sel ++ e.staged).filter fun x => !x.ent.ctl && !x.onWire && x.ent.owner = owner
    (n + hit.length, hit.foldl (fun d x => (d.setEp i ((d.ep i).remove x)).dropEnt x.queue x.ent) d)) (n, d)
  let (n, d) := (List.range 6).foldl (fun (acc : Nat × Dev) k =>
    let (n, d) := acc
    let l := Map.rd [] d.swc.offers k
    let hit := l.filter fun o => o.pkt.owner = owner
    (n + hit.length, hit.foldl (fun d o => d.letGo o.pkt.first o.pkt.owner o.shared o.final)
      (d.setSwc { d.swc with offers := d.swc.offers.wr [] k (l.filter fun o => o.pkt.owner ≠ owner) }))) (n, d)
  let (h, d) := d.purgeHost owner
  let n := n + h
  let d := (List.range 128).foldl (fun d port => match d.tx port with
    | some t => if !t.ent.ctl ∧ t.ent.ct ∧ t.ent.owner = owner then
        (d.endInverted port).setTx port (some { t with bytes := invertFcs t.bytes }) else d
    | none => d) d
  if n = 0 then d else d.fcsDrop inport

/-- The charges of a cut-through packet, made when its frame ends (R234). -/
def Dev.chargeCt (d : Dev) (owner : Nat) : Dev :=
  (List.range 128).foldl (fun d port =>
    let e := d.ep (portEp port)
    let hits := ((e.sel ++ e.staged).filter fun x => x.port = port && x.ent.ct && !x.onWire && x.ent.owner = owner).map
      fun x => (x.queue, x.ent)
    let hits := match d.tx port with
      | some t => if t.ent.ct ∧ t.ent.owner = owner then (t.queue, t.ent) :: hits else hits
      | none => hits
    hits.foldl (fun d h => d.chargeDirect port h.1 h.2.frameLen) d) d

/-- FRAME_END: a port's frame ends and its FCS result becomes known (R14). -/
def Dev.frameEnd (d : Dev) (port : Nat) (ecc : Ecc) : Dev :=
  match Map.rd none d.rx port with
  | none => d
  | some f =>
    let d := { d with rx := d.rx.wr none port none }
    let d := d.chargeCt f.owner
    let d := if f.bad then ({ d with badFrames := d.badFrames.wr 0 f.owner (port + 1) }).purgeBad f.owner port else d
    (d.tm.queues.filter fun x => x.2.writer.any (·.owner = f.owner)).foldl (fun d x => d.pumpWriter x.1 ecc 4096) d

/-! PFC (R220, R221) -/

/-- PFC_REFRESH: the frame is sent again while the count stays at or above XON. -/
def Dev.pfcRefresh (d : Dev) (port prio : Nat) : Dev :=
  let p := swcPage (port / 64)
  if bit (d.get p (F.SWC_PFC_STAT_XOFF.at (4 * (port % 64)))) prio ∧ d.pfcEnabled port prio ∧
      d.pfcCount port prio ≥ d.get p F.SWC_PFC_THR_XON then
    d.sendPfc port prio (d.get p (F.SWC_PFC_CFG_QUANTA.at (4 * (port % 64))))
  else d

/-- A change of a priority's pause: the shapers of the queues it holds pause or resume (R221, R238). -/
def Dev.setPaused (d : Dev) (port prio : Nat) (on : Bool) : Dev :=
  let p := swcPage (port / 64)
  let f := F.SWC_PFC_STAT_PAUSED.at (4 * (port % 64))
  let d := d.set p f (if on then setBit (d.get p f) prio else clrBit (d.get p f) prio)
  let qs := (d.portQueues port).filter fun q => d.qPfcEn q && d.qPrio q == prio
  qs.foldl (fun d q => (d.syncPause q).touchQueue q) d

/-- A received PFC frame: the enabled priorities' times (R221). -/
def Dev.pfcReceive (d : Dev) (port en : Nat) (times : List Nat) : Dev :=
  let p := swcPage (port / 64)
  if d.get p (F.SWC_PFC_CFG_RX_EN.at (4 * (port % 64))) = 0 then d
  else (setBits 8 en).foldl (fun d i => d.setPaused port i (decide (times.getD i 0 ≠ 0))) (d.cnt p F.SWC_CNT_COUNT 3)

/-! Port state (R226–R228) -/

def Dev.setPortState (d : Dev) (port st : Nat) : Dev :=
  let p := swcPage (port / 64)
  (d.set p (F.SWC_PORT_STATE_STATE.at (4 * (port % 64))) st).int p 0

def Dev.setUpPending (d : Dev) (port v : Nat) : Dev := d.set (swcPage (port / 64)) (F.SWC_PORT_STATE_UP_PENDING.at (4 * (port % 64))) v
/-- The hold timer of a port: HOLD_LEFT as it starts or ends, and when it started. -/
def Dev.setHoldLeft (d : Dev) (port v : Nat) : Dev :=
  let d := d.setSwc { d.swc with holdAt := d.swc.holdAt.wr 0 port (if v = 0 then 0 else d.power.clock) }
  d.set (swcPage (port / 64)) (F.SWC_PORT_STATE_HOLD_LEFT.at (4 * (port % 64))) v

/-- The port's shapers follow its state: they pause in HOLD and resume on return (R238). -/
def Dev.holdShapers (d : Dev) (port : Nat) : Dev := (d.portEnts port).foldl (fun d e => d.syncPause e) d

/-- A port's state follows its link coming up. -/
def Dev.stateUp (d : Dev) (port : Nat) : Dev :=
  let st := d.portState port
  if st = 2 then (((d.setPortState port 1).setHoldLeft port 0).holdShapers port).touchPort port
  else if st = 3 then d.setUpPending port 1
  else if st = 0 ∨ st = 4 then (d.setPortState port 1).touchPort port
  else d

/-- A port's state follows its link going down: a frame in transmission ends, counted and let go (R226, R227). -/
def Dev.stateDown (d : Dev) (port : Nat) : Dev :=
  let d := match d.tx port with
    | some t =>
      let d := (((d.chargeEnded port t).setTx port none).dropOnWire port).dropCount port 2
      if t.ent.ctl then d else d.dropEnt t.queue t.ent
    | none => d
  if d.portState port ≠ 1 then d
  else
    let us := d.get (portPage port) (F.PG_PORT_HOLD_US.at (4 * (port % 8)))
    if us = 0 then d.setPortState port 3
    else ((d.setPortState port 2).setHoldLeft port us).holdShapers port

/-- The link counts as down: in FLUSHING the mark of a link that came up goes (R226). -/
def Dev.linkLost (d : Dev) (port : Nat) : Dev := if d.portState port = 3 then d.setUpPending port 0 else d.stateDown port

/-- Every packet of a port's queues and staging is dropped and counted under `LINK_DOWN` (R227). -/
def Dev.flushPort (d : Dev) (port : Nat) : Dev :=
  let i := portEp port
  let e := d.ep i
  let mine := (e.sel ++ e.staged).filter fun x => x.port == port && !x.onWire
  let d := d.setEp i ⟨e.sel.filter (!mine.contains ·), e.staged.filter (!mine.contains ·)⟩
  let d := mine.foldl (fun d x => if x.ent.ctl then d else (d.dropEnt x.queue x.ent).dropCount port 2) d
  (d.portQueues port).foldl (fun d q => d.flushQueue q) d

/-- SWC STARTING: the ECN generator is loaded; a seed of 0 as 1 (R217). -/
def Dev.startSwc (d : Dev) (die : Nat) : Dev :=
  let s := d.get (swcPage die) F.SWC_ECN_SEED_SEED
  d.setSwc { d.swc with lfsr := d.swc.lfsr.wr 0 die (if s = 0 then 1 else s) }

end Sys2Proof.Machine
end

