-- ==== Sys2Proof/Machine/Elision.lean ====
section
/-! DEFINITION. Trunk entries, distribution (R260–R270), header elision (R276, R277), context messages on the sending side
(R279, R280, R287) and the context miner (R283). -/

namespace Sys2Proof.Machine

/-! Entries (R286). Trunk entry k = 0, member entries k = 1–16. -/

def Dev.trunkF (d : Dev) (die t w lsb wd : Nat) : Nat := bits (d.carWord die t 0 w) lsb wd
def orDefault (v x : Nat) : Nat := if v = 0 then x else v
def Dev.peerTrk (d : Dev) (die t : Nat) : Nat := d.trunkF die t 0 1 4
def Dev.intakePg (d : Dev) (die t : Nat) : Nat := d.trunkF die t 0 5 4
def Dev.actLane (d : Dev) (die t : Nat) : Nat := d.trunkF die t 0 9 3
def Dev.elideEn (d : Dev) (die t : Nat) : Bool := d.trunkF die t 0 12 1 == 1
def Dev.autoEn (d : Dev) (die t : Nat) : Bool := d.trunkF die t 0 13 1 == 1
def Dev.skewUs (d : Dev) (die t : Nat) : Nat := orDefault (d.trunkF die t 0 14 7) 50
def Dev.reorderQuota (d : Dev) (die t : Nat) : Nat := orDefault (d.trunkF die t 1 0 19) 32768
def Dev.mqLimit (d : Dev) (die t : Nat) : Nat := orDefault (d.trunkF die t 1 19 12) 32
def Dev.msgRetries (d : Dev) (die t : Nat) : Nat := orDefault (d.trunkF die t 2 16 4) 8

def Dev.memEn (d : Dev) (die t m : Nat) : Bool := bit (d.carWord die t (m + 1) 0) 0
def Dev.memPort (d : Dev) (die t m : Nat) : Nat := bits (d.carWord die t (m + 1) 0) 1 7
def Dev.memQueue (d : Dev) (die t m : Nat) : Nat := bits (d.carWord die t (m + 1) 0) 8 17
def Dev.memHoldOut (d : Dev) (die t m : Nat) : Bool := bit (d.carWord die t (m + 1) 0) 25

def Dev.setCar (d : Dev) (c : Carillon) : Dev := { d with car := c }

/-- Where the state of trunk `t` stands: in the CAR of its home die. -/
def Dev.trunkKey (d : Dev) (t : Nat) : Nat := 16 * (d.trunkHome t).getD 0 + t
def Dev.trunk (d : Dev) (t : Nat) : Trunk := Map.rd Trunk.init d.car.trunks (d.trunkKey t)
def Dev.setTrunk (d : Dev) (t : Nat) (x : Trunk) : Dev := d.setCar { d.car with trunks := d.car.trunks.wr Trunk.init (d.trunkKey t) x }
def Dev.member (d : Dev) (t m : Nat) : Member := Map.rd Member.init d.car.members (16 * d.trunkKey t + m)
def Dev.setMember (d : Dev) (t m : Nat) (x : Member) : Dev :=
  d.setCar { d.car with members := d.car.members.wr Member.init (16 * d.trunkKey t + m) x }
def Dev.txCtx (d : Dev) (die t c : Nat) : TxCtx := Map.rd TxCtx.init d.car.tx (65536 * die + 4096 * t + c)
def Dev.setTxCtx (d : Dev) (die t c : Nat) (x : TxCtx) : Dev := d.setCar { d.car with tx := d.car.tx.wr TxCtx.init (65536 * die + 4096 * t + c) x }
def Dev.rxCtx (d : Dev) (die t c : Nat) : RxCtx := Map.rd RxCtx.init d.car.rx (65536 * die + 4096 * t + c)
def Dev.setRxCtx (d : Dev) (die t c : Nat) (x : RxCtx) : Dev := d.setCar { d.car with rx := d.car.rx.wr RxCtx.init (65536 * die + 4096 * t + c) x }
def Dev.miner (d : Dev) (die : Nat) : Miner := Map.rd Miner.init d.car.miners die
def Dev.setMiner (d : Dev) (die : Nat) (x : Miner) : Dev := d.setCar { d.car with miners := d.car.miners.wr Miner.init die x }

def Dev.carCnt (d : Dev) (die t k : Nat) : Dev := d.bump (carPage die) (F.CAR_CNT_COUNT.at (32 * t + 4 * k))
def Dev.eliCnt (d : Dev) (die t k : Nat) (n : Nat := 1) : Dev := d.bump (eliPage die) (F.ELI_CNT_COUNT.at (32 * t + 4 * k)) n

/-- The trunk is enabled on its home die (R261, R394). -/
def Dev.trunkOn (d : Dev) (t : Nat) : Bool := (d.trunkHome t).isSome && Map.rd 0 d.car.verdicts (d.trunkKey t) != 2 && !Map.rd false d.car.bad (d.trunkKey t)

/-- The trunk and member index of a network port, on a trunk that is defined (R87, R260). -/
def Dev.memberOf (d : Dev) (port : Nat) : Option (Nat × Nat) :=
  ((List.range 256).find? fun k => match d.trunkHome (k / 16) with
    | some die => d.memEn die (k / 16) (k % 16) && d.memPort die (k / 16) (k % 16) == port
    | none => false).map fun k => (k / 16, k % 16)

/-! Members (R267, R268) -/

/-- A member's weight. -/
def Dev.memWeight (d : Dev) (die t m : Nat) : Nat := min 64 (d.rateInForce (d.memPort die t m) / 25000000)

/-- The conditions of R268 but for rejoining. -/
def Dev.memReady (d : Dev) (die t m : Nat) : Bool :=
  d.memEn die t m && !d.memHoldOut die t m && d.portState (d.memPort die t m) == 1 && decide (d.memWeight die t m ≥ 1) &&
    decide (d.qCells (d.memQueue die t m) < 16 * d.mqLimit die t)

/-- A member is eligible for distribution. -/
def Dev.memEligible (d : Dev) (die t m : Nat) : Bool := d.memReady die t m && (d.member t m).joined

/-- Members are withdrawn and rejoin (R268). -/
def Dev.checkMembers (d : Dev) (t : Nat) : Dev :=
  match d.trunkHome t with
  | none => d
  | some die =>
    if !d.active (carPage die) then d
    else (List.range 16).foldl (fun d m =>
      let x := d.member t m
      let gone := d.portState (d.memPort die t m) ≠ 1 || d.memHoldOut die t m
      if x.joined && gone then (d.setMember t m { x with joined := false }).int (carPage die) 2
      else if !x.joined && d.memReady die t m && (d.queue (d.memQueue die t m)).pkts == 0 then
        (d.setMember t m { x with joined := true }).int (carPage die) 2
      else d) d

/-- A trunk whose member this port is looks at its members again, as the port's state or its queue has changed (R268). -/
def Dev.memberMoved (d : Dev) (port : Nat) : Dev :=
  match d.memberOf port with
  | some (t, _) => d.checkMembers t
  | none => d

/-! The outer run (R276) -/

/-- The length of IPv6 extension headers that belong to a run: Hop-by-Hop, Routing and Destination Options. -/
def extRun (b : List Byte) (lim : Nat) : Nat → Nat → Nat → Option Nat
  | 0, _, _ => none
  | n + 1, nh, o =>
    if nh = 0 ∨ nh = 43 ∨ nh = 60 then
      if o + 8 > lim then none
      else extRun b lim n (beAt b o 1) (o + (beAt b (o + 1) 1 + 1) * 8)
    else if o ≤ lim then some o else none

/-- The end of the IP header run that begins at `o`. -/
def ipRun (b : List Byte) (lim o : Nat) : Option Nat :=
  let v := beAt b o 1 / 16
  if v = 4 then
    let n := beAt b o 1 % 16 * 4
    if o + 20 > lim ∨ n < 20 ∨ o + n > lim then none else some (o + n)
  else if v = 6 then (if o + 40 > lim then none else extRun b lim 17 (beAt b (o + 6) 1) (o + 40))
  else none

/-- The end of a label stack at `o`. -/
def labelRun (b : List Byte) (lim : Nat) : Nat → Nat → Option Nat
  | 0, _ => none
  | n + 1, o => if o + 4 > lim then none else if beAt b (o + 2) 1 % 2 = 1 then some (o + 4) else labelRun b lim n (o + 4)

/-- The run that begins at `o` with the header NXT names: where its IP header lies, if it has one, and its end. -/
def outerRunAt (b : List Byte) (lim nxt o : Nat) : Option (Option Nat × Nat) :=
  let ip (i : Nat) : Option (Option Nat × Nat) := (ipRun b lim i).map fun e => (some i, e)
  if nxt = 1 then
    match labelRun b lim 33 o with
    | none => none
    | some e =>
      let v := beAt b e 1 / 16
      if e < lim ∧ (v = 4 ∨ v = 6) then ip e else some (none, e)
  else if nxt = 2 then (if beAt b o 1 / 16 = 4 then ip o else none)
  else if nxt = 3 then (if beAt b o 1 / 16 = 6 then ip o else none)
  else none

/-- NXT of a packet with its MAC header (R276). -/
def nxtOf (b : List Byte) : Nat :=
  let t := beAt b 12 2
  if t = 0x8847 ∨ t = 0x8848 then 1 else if t = 0x0800 then 2 else if t = 0x86DD then 3 else 0

/-- A run with its length and checksum fields zero; `ip` is the offset of its IP header in the run. -/
def maskRun (r : List Byte) (ip : Option Nat) : List Byte :=
  match ip with
  | none => r
  | some o => if beAt r o 1 / 16 = 4 then putBe (putBe r (o + 2) 2 0) (o + 10) 2 0 else putBe r (o + 4) 2 0

/-- A run with its length and checksum fields set for a packet of `n` bytes that begins with it (R278). -/
def fillRun (r : List Byte) (ip : Option Nat) (n : Nat) : List Byte :=
  match ip with
  | none => r
  | some o =>
    if beAt r o 1 / 16 = 4 then
      let r := putBe (putBe r (o + 2) 2 (n - o)) (o + 10) 2 0
      putBe r (o + 10) 2 (ipChecksum (slice r o (beAt r o 1 % 16 * 4)))
    else putBe r (o + 4) 2 (n - o - 40)

/-- The length fields of a run agree with the packet's end, and its IPv4 checksum holds (R277). -/
def runConsistent (b : List Byte) (ip : Option Nat) : Bool :=
  match ip with
  | none => true
  | some o =>
    if beAt b o 1 / 16 = 4 then beAt b (o + 2) 2 == b.length - o && ipSumOk (slice b o (beAt b o 1 % 16 * 4))
    else beAt b (o + 4) 2 == b.length - o - 40

/-- The hash of a template (R276). -/
def runHash (r : List Byte) : Nat := crc32c 0xFFFFFFFF r

/-! The miner (R283) -/

/-- A sample of a packet's outer run. -/
def Dev.sample (d : Dev) (die t nxt : Nat) (run : List Byte) : Dev :=
  let p := eliPage die
  if d.get p F.ELI_MINE_EN = 0 then d
  else
    let n := 2 ^ d.get p F.ELI_MINE_SAMPLE
    let x := d.miner die
    if x.count + 1 < n then d.setMiner die { x with count := x.count + 1 }
    else
      let gain := run.length * n
      match List.find? (fun (c : Nat × Cand) => c.2.used && c.2.trunk = t && c.2.template = run) x.cands with
      | some (i, c) => d.setMiner die { x with count := 0, cands := x.cands.wr Cand.init i { c with saved := c.saved + gain } }
      | none =>
        let saved (i : Nat) : Nat := (Map.rd Cand.init x.cands i).saved
        let i := (argMin (fun i => saved i) (List.range 1024)).getD 0
        d.setMiner die { x with count := 0, cands := x.cands.wr Cand.init i ⟨true, t, nxt, run, saved i + gain, saved i⟩ }

/-! eli_decide (R277): the shim's lead bytes and the leading packet bytes that the member frame leaves out -/

/-- Shim bytes 0–6 (R263). -/
def shimLead (seq ctx flg trk epo elen : Nat) : List Byte :=
  beBytes 7 (seq % 2 ^ 24 * 2 ^ 32 + ctx * 2 ^ 20 + flg * 2 ^ 16 + trk * 2 ^ 12 + epo * 2 ^ 8 + elen)

/-- PAD of a member frame whose residue has `n` bytes (R266). -/
def padFlag (n : Nat) : Nat := if 8 + n + 4 < 64 then 4 else 0

/-- The transmit context that a packet's run uses. -/
def Dev.activeCtx (d : Dev) (die t nxt : Nat) (run : List Byte) : Option Nat :=
  let lo := 65536 * die + 4096 * t
  let ok (x : Nat × TxCtx) : Bool := decide (lo ≤ x.1) && decide (x.1 < lo + 4096) && x.2.state == 2 && x.2.nxt == nxt &&
    decide (x.2.len = run.length) && decide (x.2.template.take x.2.len = run)
  (List.find? ok d.car.tx).map fun x => x.1 - lo

/-- Decides how a trunk packet is sent under sequence number `seq`. -/
def Dev.eliDecide (d : Dev) (die t seq : Nat) (e : QEnt) : List Byte × Nat × Dev :=
  let b := (d.chainBytes e.first).take e.len
  let nxt := nxtOf b
  let trk := d.peerTrk die t
  let plain (skip : Nat) (d : Dev) : List Byte × Nat × Dev := (shimLead seq 0 (nxt + padFlag (e.len - skip)) trk 0 0, skip, d)
  if nxt = 0 then plain 0 d
  else if !d.elideEn die t || !d.running (eliPage die) then plain 14 d
  else
    match outerRunAt b b.length nxt 14 with
    | none => plain 14 d
    | some (ip, stop) =>
      if stop - 14 > 128 then plain 14 d
      else
        let run := maskRun (slice b 14 (stop - 14)) (ip.map (· - 14))
        let d := d.sample die t nxt run
        match d.activeCtx die t nxt run with
        | none => plain 14 d
        | some c =>
          if e.ce then plain 14 d
          else if !runConsistent b ip then plain 14 (d.eliCnt die t 4)
          else
            let x := d.txCtx die t c
            let d := d.setTxCtx die t c { x with pkts := (x.pkts + 1) % 2 ^ 32 }
            let d := (d.eliCnt die t 0).eliCnt die t 1 (run.length / 2)
            (shimLead seq c (nxt + padFlag (e.len - stop)) trk x.epo (run.length / 2), stop, d)

/-! Distribution (R269) -/

/-- An entry joins a member's queue, by the direct path when it is idle (R225). -/
def Dev.memberEnqueue (d : Dev) (q : Nat) (e : QEnt) : Dev :=
  let d := d.cntAdd e.srcDie q e.cells
  if !e.ctl ∧ d.direct q e.frameLen then (d.cnt (swcPage (d.qPort q / 64)) F.SWC_CNT_COUNT 5).toEndpoint (d.qPort q) q e true
  else
    let x := d.queue q
    (d.setQueue q { x with ents := x.ents ++ [e] }).touchQueue q

/-- The member with the greatest credit among those eligible; ties by R17. -/
def Dev.pickMember (d : Dev) (die t : Nat) (ok : Nat → Bool) : Option Nat × Dev :=
  let el := (List.range 16).filter fun m => d.memEligible die t m && ok m
  let best := (el.map fun m => (d.member t m).credit).foldl max (-(2 ^ 40))
  d.grant (Rr.member t) 16 (el.filter fun m => (d.member t m).credit = best)

/-- A credit clamped to ±32,768 bytes. -/
def clampCredit (c : Int) : Int := max (-(32768 * 65536)) (min (32768 * 65536) c)

/-- The credits after a member frame of `f` bytes on member `m`. -/
def Dev.chargeMembers (d : Dev) (die t m f : Nat) : Dev :=
  let el := (List.range 16).filter (d.memEligible die t)
  let wsum := (el.map (d.memWeight die t)).sum
  let d := el.foldl (fun d i =>
    let x := d.member t i
    d.setMember t i { x with credit := clampCredit (x.credit + (f * 65536 * d.memWeight die t i / max 1 wsum : Nat)) }) d
  let x := d.member t m
  d.setMember t m { x with credit := clampCredit (x.credit - (f * 65536 : Nat)) }

/-- distribute: a selected trunk packet takes a sequence number and a member. -/
def Dev.distribute (d : Dev) (die t q : Nat) (e : QEnt) : Dev :=
  match d.pickMember die t (fun _ => true) with
  | (none, d) => d
  | (some m, d) =>
    let x := d.trunk t
    let d := d.setTrunk t { x with txSeq := (x.txSeq + 1) % 2 ^ 24 }
    let (lead, skip, d) := d.eliDecide die t x.txSeq e
    let e' := { e with lead := lead, skip := skip }
    let d := (d.chargeMembers die t m e'.frameLen).cntSub e.srcDie q e.cells
    (d.memberEnqueue (d.memQueue die t m) e').carCnt die t 0

/-! Messages (R270, R279) -/

/-- A queue entry that holds a marker or a message. -/
def ctlEnt (lead : List Byte) : QEnt := ⟨0, 0, 0, 0, 0, 0, 0, 0, false, false, false, false, false, 0, lead, 0, true⟩

/-- Message slots in use on a member's queue. -/
def Dev.slotsUsed (d : Dev) (q : Nat) : Nat := ((d.queue q).ents.filter (·.ctl)).length

/-- The body of a message (R279). -/
def msgBody (ty code ctx epo len nxt : Nat) (template : List Byte) : List Byte :=
  [BitVec.ofNat 8 ty, BitVec.ofNat 8 code] ++ beBytes 2 (ctx + epo * 2 ^ 12) ++ [BitVec.ofNat 8 len, BitVec.ofNat 8 nxt, 0, 0] ++ template

/-- A message is sent on the trunk; a sequenced one takes a sequence number and a member as R269 does. One that finds no
eligible member with a free message slot is not sent. -/
def Dev.sendMessage (d : Dev) (die t : Nat) (sequenced : Bool) (body : List Byte) : Dev :=
  if !d.trunkOn t || !d.active (carPage die) then d
  else
    match d.pickMember die t (fun m => decide (d.slotsUsed (d.memQueue die t m) < 32)) with
    | (none, d) => d
    | (some m, d) =>
      let x := d.trunk t
      let seq := if sequenced then x.txSeq else 0
      let e := ctlEnt (shimLead seq 0 (8 + padFlag body.length) (d.peerTrk die t) 0 0 ++ body)
      let d := if sequenced then (d.setTrunk t { x with txSeq := (x.txSeq + 1) % 2 ^ 24 }).chargeMembers die t m e.frameLen else d
      (d.memberEnqueue (d.memQueue die t m) e).eliCnt die t 6

/-- MARKER_SEND: a marker in each UP member's queue that holds none (R270). -/
def Dev.markerSend (d : Dev) (t : Nat) : Dev :=
  match d.trunkHome t with
  | none => d
  | some die =>
    if !d.trunkOn t || !d.running (carPage die) then d
    else (List.range 16).foldl (fun d m =>
      let q := d.memQueue die t m
      let isMarker (e : QEnt) : Bool := e.ctl && beAt e.lead 7 1 == 6
      if d.memEn die t m && d.portState (d.memPort die t m) == 1 && !(d.queue q).ents.any isMarker && decide (d.slotsUsed q < 32) then
        let body := msgBody 6 0 0 0 0 0 []
        let e := ctlEnt (shimLead (d.trunk t).txSeq 0 (8 + padFlag body.length) (d.peerTrk die t) 0 0 ++ body)
        (d.memberEnqueue q e).carCnt die t 1
      else d) d

/-! Transmit contexts (R280, R287) -/

/-- A context changes state. -/
def Dev.setCtxState (d : Dev) (die t c : Nat) (x : TxCtx) : Dev := (d.setTxCtx die t c x).int (eliPage die) 1

/-- INSTALL from a state that allows it: the next epoch, and the message. -/
def Dev.startInstall (d : Dev) (die t c len nxt : Nat) (template : List Byte) (auto : Bool) (cand : Nat) : Dev :=
  let x := d.txCtx die t c
  let epo := (x.epo + 1) % 16
  let d := d.setCtxState die t c
    { x with state := 1, epo := epo, autoSet := auto, len := len, nxt := nxt, tries := 1, cand := cand, template := slice template 0 128 }
  d.sendMessage die t true (msgBody 1 0 c epo len nxt (template.take len))

/-- WITHDRAW: use stops and the message is sent. -/
def Dev.startWithdraw (d : Dev) (die t c : Nat) : Dev :=
  let x := d.txCtx die t c
  let d := d.setCtxState die t c { x with state := 3, tries := 1 }
  d.sendMessage die t true (msgBody 4 0 c x.epo 0 0 [])

/-- The extractor of R276 spans a template exactly, and its length follows R279: 0 good, 1 malformed, 2 bad LEN. -/
def templateCode (len nxt : Nat) (template : List Byte) : Nat :=
  if len < 4 ∨ len > 128 ∨ len % 4 ≠ 0 then 2
  else match outerRunAt template len nxt 0 with
    | some (_, e) => if e = len then 0 else 1
    | none => 1

/-- An INSTALLING or ACTIVE context of the trunk has this template. -/
def Dev.ctxTaken (d : Dev) (die t nxt : Nat) (run : List Byte) : Bool :=
  let lo := 65536 * die + 4096 * t
  (d.car.tx : List (Nat × TxCtx)).any fun x => decide (lo ≤ x.1) && decide (x.1 < lo + 4096) && (x.2.state == 1 || x.2.state == 2) && x.2.nxt == nxt &&
    decide (x.2.template.take x.2.len = run)

/-- A refused command (R287). -/
def Dev.ctxBad (d : Dev) (die : Nat) : Nat × Dev := (3, d.err (eliPage die) 0x21)

/-- CMD 1: INSTALL of LEN, NXT and TEMPLATE, and its CODE. -/
def Dev.ctxInstall (d : Dev) (die t c len nxt : Nat) (template : List Byte) : Nat × Dev :=
  let x := d.txCtx die t c
  let run := slice template 0 len
  if x.state ≠ 0 ∨ templateCode len nxt run ≠ 0 ∨ d.ctxTaken die t nxt run then d.ctxBad die
  else (0, d.startInstall die t c len nxt run false x.cand)

/-- CMD 3: CAND is written, and the miner's candidate of that number installed. -/
def Dev.ctxInstallCand (d : Dev) (die t c cand : Nat) : Nat × Dev :=
  let d := d.setTxCtx die t c { d.txCtx die t c with cand := cand }
  let k := Map.rd Cand.init (d.miner die).cands cand
  if !k.used then d.ctxBad die else d.ctxInstall die t c k.template.length k.nxt k.template

/-- CMD 2: WITHDRAW. -/
def Dev.ctxWithdraw (d : Dev) (die t c : Nat) : Nat × Dev :=
  let s := (d.txCtx die t c).state
  if s = 1 ∨ s = 2 then (0, d.startWithdraw die t c) else d.ctxBad die

/-- A context reaches FREE: an install of the miner that waits for it goes out (R283). -/
def Dev.ctxFree (d : Dev) (die t c : Nat) : Dev :=
  let d := d.setCtxState die t c { d.txCtx die t c with state := 0, autoSet := false, tries := 0 }
  let x := d.miner die
  match x.pending.find? (fun y => y.1 = t && y.2.1 = c) with
  | none => d
  | some (_, _, k) =>
    let d := d.setMiner die { x with pending := x.pending.filter fun y => !(y.1 = t && y.2.1 = c) }
    let k' := Map.rd Cand.init x.cands k
    if k'.used ∧ k'.trunk = t ∧ !d.ctxTaken die t k'.nxt k'.template then
      (d.startInstall die t c k'.template.length k'.nxt k'.template true k).bump (eliPage die) (F.ELI_GLB_CNT_COUNT.at 8)
    else d

/-- MESSAGE_RETRY: RETRY_US passes without a reply (R280). -/
def Dev.messageRetry (d : Dev) (t c : Nat) : Dev :=
  match d.trunkHome t with
  | none => d
  | some die =>
    let x := d.txCtx die t c
    if !d.running (eliPage die) then d
    else if x.state = 1 then
      if x.tries < d.msgRetries die t then
        (d.setTxCtx die t c { x with tries := x.tries + 1 }).sendMessage die t true (msgBody 1 0 c x.epo x.len x.nxt (x.template.take x.len))
      else ((d.eliCnt die t 7).int (eliPage die) 2).ctxFree die t c
    else if x.state = 3 then
      if x.tries < d.msgRetries die t then
        (d.setTxCtx die t c { x with tries := x.tries + 1 }).sendMessage die t true (msgBody 4 0 c x.epo 0 0 [])
      else d.ctxFree die t c
    else d

/-- A message that matches nothing, or is malformed (R279, R280). -/
def Dev.strayMessage (d : Dev) (die : Nat) (bad : Bool) : Dev :=
  let d := d.cnt (eliPage die) F.ELI_GLB_CNT_COUNT 0
  if bad then d.err (eliPage die) 0x22 else d

/-- The replies and notices of R280, acted on at arrival. -/
def Dev.replyMessage (d : Dev) (die t ty c epo : Nat) : Dev :=
  let x := d.txCtx die t c
  if ty = 2 ∧ x.state = 1 ∧ x.epo = epo then d.setCtxState die t c { x with state := 2 }
  else if ty = 3 ∧ x.state = 1 ∧ x.epo = epo then ((d.eliCnt die t 7).int (eliPage die) 2).ctxFree die t c
  else if ty = 5 ∧ x.state = 3 ∧ x.epo = epo then d.ctxFree die t c
  else if ty = 7 ∧ x.state = 2 ∧ x.epo = epo then d.startInstall die t c x.len x.nxt (x.template.take x.len) x.autoSet x.cand
  else d.strayMessage die false

/-! The miner's interval (R283) -/

/-- Shows the oldest proposal (R289). -/
def Dev.showProps (d : Dev) (die : Nat) : Dev :=
  let x := d.miner die
  let d := d.set (eliPage die) F.ELI_PROP_DEPTH_COUNT x.props.length
  match x.props with
  | [] => d.showRec (eliPage die) 0x110 4 []
  | (t, len, nxt, k, h, s) :: _ =>
    d.showRec (eliPage die) 0x110 4 [BitVec.ofNat 32 (t + len * 2 ^ 4 + nxt * 2 ^ 12 + k * 2 ^ 16), BitVec.ofNat 32 h,
      BitVec.ofNat 32 s, BitVec.ofNat 32 (s / 2 ^ 32)]

/-- A proposal joins the FIFO, or is lost. -/
def Dev.propose (d : Dev) (die k : Nat) (c : Cand) : Dev :=
  let x := d.miner die
  let p := eliPage die
  let d := d.cnt p F.ELI_GLB_CNT_COUNT 1
  if x.props.length ≥ 64 then d.bump p F.ELI_PROP_DEPTH_LOST
  else
    let d := (d.setMiner die { x with props := x.props ++ [(c.trunk, c.template.length, c.nxt, k, runHash c.template, c.saved)] }).showProps die
    if x.props.isEmpty then d.int p 0 else d

/-- The lowest FREE context of a trunk that no waiting install has been promised. -/
def Dev.freeCtx (d : Dev) (die t : Nat) : Option Nat :=
  (List.range 4096).find? fun c => (d.txCtx die t c).state = 0 && !(d.miner die).pending.any (fun y => y.1 = t && y.2.1 = c)

/-- The SAVED of the candidate that equals a context; 0 where none does. -/
def Dev.ctxSaved (d : Dev) (die t : Nat) (x : TxCtx) : Nat :=
  match List.find? (fun (k : Nat × Cand) => k.2.used && k.2.trunk = t && k.2.template = x.template.take x.len) (d.miner die).cands with
  | some (_, k) => k.saved
  | none => 0

/-- AUTO = 1: the candidate is installed in the lowest FREE context, or waits for that of the least-saving ACTIVE one. -/
def Dev.autoInstall (d : Dev) (die k : Nat) (c : Cand) : Dev :=
  let t := c.trunk
  match d.freeCtx die t with
  | some x => (d.startInstall die t x c.template.length c.nxt c.template true k).bump (eliPage die) (F.ELI_GLB_CNT_COUNT.at 8)
  | none =>
    let act := (List.range 4096).filter fun i => let x := d.txCtx die t i; x.state = 2 && !x.pin
    match argMin (fun i => (d.ctxSaved die t (d.txCtx die t i) : Nat)) act with
    | none => d
    | some i =>
      if d.ctxSaved die t (d.txCtx die t i) < c.saved - c.err then
        let d := (d.startWithdraw die t i).cnt (eliPage die) F.ELI_GLB_CNT_COUNT 3
        d.setMiner die { d.miner die with pending := (d.miner die).pending ++ [(t, i, k)] }
      else d

/-- Candidates in descending order of SAVED − ERR. -/
def candOrder : Nat → List (Nat × Cand) → List (Nat × Cand)
  | 0, _ => []
  | n + 1, l =>
    match argMax (fun i => match l[i]? with | some (_, c) => (c.saved : Int) - c.err | none => 0) (List.range l.length) with
    | none => []
    | some i => match l[i]? with
      | none => []
      | some x => x :: candOrder n (l.eraseIdx i)

/-- The candidates of an interval in turn; `done` holds the trunks of the installs made. -/
def Dev.mine (d : Dev) (die : Nat) : List (Nat × Cand) → List Nat → Dev
  | [], _ => d
  | (k, c) :: r, done =>
    let p := eliPage die
    let forbidden := (List.range 256).any fun i =>
      d.get p (F.ELI_FORBID_V.at (8 * i)) == 1 && d.get p (F.ELI_FORBID_TRK.at (8 * i)) == c.trunk &&
        d.get p (F.ELI_FORBID_HASH.at (8 * i)) == runHash c.template
    if forbidden || d.ctxTaken die c.trunk c.nxt c.template then d.mine die r done
    else
      let d := d.propose die k c
      if d.autoEn die c.trunk && decide ((done.filter (· = c.trunk)).length < 8) then (d.autoInstall die k c).mine die r (c.trunk :: done)
      else d.mine die r done

/-- MINER_INTERVAL. -/
def Dev.minerInterval (d : Dev) (die : Nat) : Dev :=
  let p := eliPage die
  if !d.running p || d.get p F.ELI_MINE_EN = 0 then d
  else
    let thr := d.get p F.ELI_MINE_THR_MIN_SAVE
    let l := (d.miner die).cands.filter fun c => c.2.used && decide (c.2.saved - c.2.err ≥ thr)
    let d := d.mine die (candOrder l.length l) []
    let x := d.miner die
    d.setMiner die { x with cands := x.cands.map fun c => (c.1, { c.2 with saved := c.2.saved / 2, err := c.2.err / 2 }) }

/-- ELI_PROP_POP (R289). -/
def Dev.propPop (d : Dev) (die : Nat) : Dev :=
  let x := d.miner die
  (d.setMiner die { x with props := x.props.drop 1 }).showProps die

/-- ELI STARTING: the miner's table is cleared (R285). -/
def Dev.startEli (d : Dev) (die : Nat) : Dev := d.setMiner die { d.miner die with cands := [], count := 0, pending := [] }

/-! Entry windows 0x05 and 0x06 (R287) -/

/-- Words of a 128-byte template. -/
def templateWords (b : List Byte) : List Word := (List.range 32).map fun k => BitVec.ofNat 32 (leNat (slice b (4 * k) 4))

def Dev.txCtxRead (d : Dev) (die t c : Nat) : List Word :=
  let x := d.txCtx die t c
  [BitVec.ofNat 32 (x.state + x.epo * 2 ^ 2 + b2n x.pin * 2 ^ 6 + b2n x.autoSet * 2 ^ 7 + x.len * 2 ^ 8 + x.nxt * 2 ^ 16 + x.tries * 2 ^ 18),
   BitVec.ofNat 32 x.pkts, BitVec.ofNat 32 x.cand, BitVec.ofNat 32 (runHash (x.template.take x.len))] ++ templateWords x.template

def Dev.rxCtxRead (d : Dev) (die t c : Nat) : List Word :=
  let x := d.rxCtx die t c
  [BitVec.ofNat 32 (b2n x.valid + x.epo * 2 + x.len * 2 ^ 5 + x.nxt * 2 ^ 13), BitVec.ofNat 32 x.pkts] ++ templateWords x.template

/-- A transmit WRITE: PIN and CAND at once, then CMD; and its CODE. -/
def Dev.txCtxWrite (d : Dev) (die t c : Nat) (w : List Word) : Nat × Dev :=
  let w0 := (w.getD 0 0).toNat
  let cand := bits (w.getD 2 0).toNat 0 10
  let d := d.setTxCtx die t c { d.txCtx die t c with pin := bit w0 6, cand := cand }
  let template := (List.range 32).flatMap fun k => leBytes 4 (w.getD (4 + k) 0).toNat
  match bits w0 29 3 with
  | 0 => (0, d)
  | 1 => d.ctxInstall die t c (bits w0 8 8) (bits w0 16 2) template
  | 2 => d.ctxWithdraw die t c
  | 3 => d.ctxInstallCand die t c cand
  | _ => d.ctxBad die

/-- A receive WRITE may only clear VALID: one that leaves it set, or that changes another word, ends with CODE 3 (R287). -/
def Dev.rxCtxWrite (d : Dev) (die t c : Nat) (w : List Word) : Nat × Dev :=
  let d' := d.setRxCtx die t c { d.rxCtx die t c with valid := false }
  if w = d'.rxCtxRead die t c then (0, d') else (3, d)

end Sys2Proof.Machine
end

