-- ==== Sys2Proof/Machine/Carillon.lean ====
section
/-! DEFINITION. The receiving side of a Carillon trunk: the shim (R263–R266), the resequencer (R271–R275), restoration
(R278) and the messages acted on there (R279–R281); CAR starting and stopping (R261, R285); its entries (R286). -/

namespace Sys2Proof.Machine

/-! The shim -/

/-- A field of the shim that begins a member frame. -/
def shimField (b : List Byte) (lsb wd : Nat) : Nat := bits (beAt b 0 8) lsb wd
def shimSeq (b : List Byte) : Nat := shimField b 40 24
def shimFlg (b : List Byte) : Nat := shimField b 24 4
def shimTrk (b : List Byte) : Nat := shimField b 20 4

/-- The bytes between the shim and the FCS, padding included. -/
def memberBody (b : List Byte) : List Byte := (b.drop 8).take (b.length - 12)

/-- The residue: the body less its padding; none where the count is 0 or larger than the body (R266). -/
def unpad (flg : Nat) (body : List Byte) : Option (List Byte) :=
  if !bit flg 2 then some body
  else
    let n := (body.getLastD 0).toNat
    if n = 0 ∨ n > body.length then none else some (body.take (body.length - n))

/-- CHK holds (R265). Where the padding count is invalid the body is taken as it stands. -/
def chkOk (b : List Byte) : Bool :=
  let body := memberBody b
  crc8 (b.take 7 ++ ((unpad (shimFlg b) body).getD body).take 16) == shimField b 0 8

/-- A member frame's shim is bad: its CHK, or a TRK that is not the port's trunk (R87). -/
def Dev.shimBad (d : Dev) (port : Nat) (b : List Byte) : Bool :=
  match d.memberOf port with
  | some (t, _) => !chkOk b || shimTrk b != t
  | none => true

/-! Modular sequence numbers -/

/-- How far `a` lies beyond `b`, modulo 2 ^ 24. -/
def seqDist (a b : Nat) : Nat := (a + 2 ^ 24 - b % 2 ^ 24) % 2 ^ 24

/-- `a` is later than `b` (R272). -/
def seqLater (a b : Nat) : Bool := decide (0 < seqDist a b) && decide (seqDist a b < 2 ^ 23)

/-- FLOOR moves forward only (R271). -/
def Dev.setFloor (d : Dev) (t m v : Nat) : Dev :=
  let x := d.member t m
  if !x.floorV || seqLater v x.floor then d.setMember t m { x with floor := v % 2 ^ 24, floorV := true } else d

/-! Charges of held cells (R274) -/

/-- A cell's charge moves to requester `r` of its BPM. -/
def Dev.rechargeCell (d : Dev) (r ptr : Nat) : Dev :=
  let e := d.cell ptr
  let die := cellDie ptr
  let d := d.set (bpmPage die) (F.BPM_USED_USED.at (4 * e.req)) (d.used die e.req - 1)
  let d := d.set (bpmPage die) (F.BPM_USED_USED.at (4 * r)) (d.used die r + 1)
  d.setCell ptr { e with req := r }

/-- The cells move to requester 10, or none does where R204 refuses one; the refusal counts in BPM_REFUSE[10]. -/
def Dev.takeCells (d : Dev) (l : List Nat) : Bool × Dev :=
  let go := l.foldl (fun (a : Option Nat × Dev) c =>
    if a.1.isSome then a else if a.2.mayTake (cellDie c) 10 then (none, a.2.rechargeCell 10 c) else (some c, a.2)) (none, d)
  match go.1 with
  | none => (true, go.2)
  | some c => (false, d.bump (bpmPage (cellDie c)) (F.BPM_REFUSE_COUNT.at 40))

/-- The cells of a held frame. -/
def Dev.heldCells (d : Dev) (h : Held) : Nat := (d.chain h.pkt.first).length

/-- Cells in a trunk's hold (HELD), and those it has charged to its QUOTA. -/
def Dev.holdCells (d : Dev) (t : Nat) : Nat := ((d.trunk t).hold.map d.heldCells).sum
def Dev.quotaCells (d : Dev) (t : Nat) : Nat :=
  let x := d.trunk t
  d.holdCells t + ((x.released.filter (·.recharged)).map d.heldCells).sum +
    ((x.restored.filter (·.2.2.2)).map (·.2.2.1)).sum

/-- take_into_hold, and whether it takes the frame: not where the QUOTA would be exceeded or requester 10 is refused. -/
def Dev.takeIntoHold (d : Dev) (die t : Nat) (h : Held) : Bool × Dev :=
  if d.quotaCells t + d.heldCells h > d.reorderQuota die t then (false, d)
  else
    match d.takeCells (d.chain h.pkt.first) with
    | (false, d) => (false, d)
    | (true, d) =>
      let x := d.trunk t
      (true, d.setTrunk t { x with hold := x.hold ++ [{ h with recharged := true, time := d.power.clock }] })

/-- A held frame's cells are charged to their original requester again. -/
def Dev.giveBack (d : Dev) (h : Held) : Dev :=
  if h.recharged then ((d.chain h.pkt.first).filter fun c => (d.cell c).req = 10).foldl (fun d c => d.rechargeCell h.req c) d else d

/-- A frame of the resequencer is dropped and its cells freed. -/
def Dev.dropHeld (d : Dev) (h : Held) : Dev := d.freePkt h.pkt

/-! Restoration (R278) -/

/-- A dropped frame's cause: FORMAT. -/
def Dev.formatDrop (d : Dev) (die t : Nat) (h : Held) : Dev := (d.eliCnt die t 5).dropHeld h

/-- A dropped frame's cause: STALE; its notice is sent at most once per context per 100 µs (R281). -/
def Dev.staleDrop (d : Dev) (die t : Nat) (h : Held) : Dev :=
  let d := ((d.eliCnt die t 3).int (eliPage die) 3).dropHeld h
  let x := d.rxCtx die t h.ctx
  if !d.running (eliPage die) || (decide (x.noticed ≠ 0) && decide (d.power.clock < x.noticed - 1 + 100000)) then d
  else
    (d.setRxCtx die t h.ctx { x with noticed := d.power.clock + 1 }).sendMessage die t false (msgBody 7 0 h.ctx h.epo 0 0 [])

/-- The restored head and packet, once its leading bytes stand in the chain. -/
def Dev.restoredHead (d : Dev) (die t : Nat) (h : Held) (first : Nat) (bytes : List Byte) : Dev :=
  let (w, d) := d.free
  let k : Pkt := { h.pkt with first := first, owner := first, len := bytes.length, flen := bytes.length + 4, inport := 128 + t, pg := d.intakePg die t, lane := d.actLane die t }
  let raw : RawHead := ⟨k, slice (bytes ++ leBytes 4 w.toNat) 0 256, h.sec, h.ns, some (h.flg % 4)⟩
  let x := d.trunk t
  d.setTrunk t { x with restored := x.restored ++ [(raw, h.req, d.heldCells { h with pkt := k }, h.recharged)] }

/-- The template with its length and checksum fields set, then the residue (R278). -/
def restoreBytes (x : RxCtx) (residue : List Byte) : List Byte :=
  let run := x.template.take x.len
  let ip : Option Nat := match outerRunAt run run.length x.nxt 0 with
    | some (i, _) => i
    | none => none
  fillRun run ip (run.length + residue.length) ++ residue

/-- Restores one released data frame; none while requester 14 has no cell for it. -/
def Dev.restore (d : Dev) (die t : Nat) (h : Held) : Option Dev × Dev :=
  match unpad h.flg h.residue with
  | none => (some (d.formatDrop die t h), d)
  | some res =>
    if h.elen = 1 ∨ (h.elen = 0 ∧ (h.ctx ≠ 0 ∨ h.epo ≠ 0)) then (some (d.formatDrop die t h), d)
    else
      let x := d.rxCtx die t h.ctx
      if h.elen ≥ 2 ∧ !(d.running (eliPage die) && x.valid && x.epo == h.epo && x.len == 2 * h.elen && x.nxt == h.flg % 4) then
        (some (d.staleDrop die t h), d)
      else
        let bytes := if h.elen = 0 then res else restoreBytes x res
        let lead := bytes.take (2 * h.elen + min 248 res.length)
        -- a restored packet of no bytes keeps the frame's cells (log entry 102)
        match if lead = [] then (some h.pkt.first, d) else d.placeLead 14 h.pkt.first lead with
        | (none, d) => (none, d)
        | (some first, d) =>
          let d := if h.elen = 0 then d else d.setRxCtx die t h.ctx { x with pkts := (x.pkts + 1) % 2 ^ 32 }
          (some ((d.eliCnt die t 2).restoredHead die t h first bytes), d)

/-! Messages acted on at the receiver (R279, R281) -/

/-- An INSTALL or WITHDRAW reached in release order; while ELI is not RUNNING receive elision is disabled (R279, log entry 103). -/
def Dev.actSequenced (d : Dev) (die t : Nat) (body : List Byte) : Dev :=
  let ty := beAt body 0 1
  let ctx := beAt body 2 2 % 4096
  let epo := beAt body 2 2 / 4096
  let len := beAt body 4 1
  let nxt := beAt body 5 1 % 4
  let x := d.rxCtx die t ctx
  let on := d.running (eliPage die)
  if !on ∧ ty ≠ 1 then d.strayMessage die false
  else if ty = 1 then
    let run := slice body 8 len
    let code := if on then templateCode len nxt run else 3
    if body.length ≠ 8 + len then d.strayMessage die true
    else if code ≠ 0 then d.sendMessage die t false (msgBody 3 code ctx epo 0 0 [])
    else
      let same := x.valid ∧ x.epo = epo ∧ x.len = len ∧ x.nxt = nxt ∧ x.template.take len = run
      let d := if same then d else d.setRxCtx die t ctx ⟨true, epo, len, nxt, x.pkts, slice run 0 128, x.noticed⟩
      d.sendMessage die t false (msgBody 2 0 ctx epo 0 0 [])
  else if body.length ≠ 8 then d.strayMessage die true
  else
    let d := if x.epo = epo then d.setRxCtx die t ctx { x with valid := false } else d
    d.sendMessage die t false (msgBody 5 0 ctx epo 0 0 [])

/-- An unsequenced message acted on at arrival; a marker sets FLOOR (R270, R271). -/
def Dev.actAtArrival (d : Dev) (die t m seq : Nat) (body : List Byte) : Dev :=
  let ty := beAt body 0 1
  if ty = 6 then (if body.length = 8 then d.setFloor t m seq else d.strayMessage die true)
  else if !(ty = 2 ∨ ty = 3 ∨ ty = 5 ∨ ty = 7) ∨ body.length ≠ 8 then d.strayMessage die true
  else if !d.running (eliPage die) then d.strayMessage die false
  else d.replyMessage die t ty (beAt body 2 2 % 4096) (beAt body 2 2 / 4096)

/-! Release (R272, R275) -/

/-- One released frame is acted on or restored; none where it waits for a cell. -/
def Dev.actReleased (d : Dev) (die t : Nat) (h : Held) : Option Dev × Dev :=
  if bit h.flg 3 then
    match unpad h.flg h.residue with
    | none => (some (d.formatDrop die t h), d)
    | some body => (some ((d.actSequenced die t body).dropHeld h), d)
  else d.restore die t h

/-- Released frames in order, as far as cells of requester 14 reach. -/
def Dev.pumpReleased (d : Dev) (die t : Nat) : List Held → Dev
  | [] => d.setTrunk t { d.trunk t with released := [] }
  | h :: r =>
    match d.actReleased die t h with
    | (some d, _) => d.pumpReleased die t r
    | (none, d) => (d.setTrunk t { d.trunk t with released := h :: r }).waitCell (cellDie h.pkt.first) 14 (.restore t)

/-- release: the frame leaves the resequencer in order. -/
def Dev.release (d : Dev) (die t : Nat) (h : Held) : Dev :=
  let x := d.trunk t
  let d := (d.setTrunk t { x with lateRun := 0, released := x.released ++ [h] }).carCnt die t 2
  if x.released.isEmpty then d.pumpReleased die t (d.trunk t).released else d

/-- advance: NEXT moves on by one. -/
def Dev.advanceNext (d : Dev) (t : Nat) : Dev := d.setTrunk t { d.trunk t with next := ((d.trunk t).next + 1) % 2 ^ 24 }

/-- drain: the held frames that follow NEXT without a gap are released. Of copies held in LEARN the first is released and the
others are dropped as DUP (log entry 160). -/
def Dev.drain (d : Dev) (die t : Nat) : Nat → Dev
  | 0 => d
  | n + 1 =>
    let x := d.trunk t
    match x.hold.filter (·.seq = x.next) with
    | [] => d
    | h :: copies =>
      let d := d.setTrunk t { x with hold := x.hold.filter (·.seq ≠ x.next) }
      let d := copies.foldl (fun d c => (d.carCnt die t 4).dropHeld c) d
      ((d.release die t h).advanceNext t).drain die t n

def Dev.drainAll (d : Dev) (die t : Nat) : Dev := d.drain die t ((d.trunk t).hold.length)

/-- The held sequence number nearest beyond NEXT. -/
def Dev.lowestHeld (d : Dev) (t : Nat) : Option Nat :=
  let x := d.trunk t
  ((argMin (fun i => (seqDist ((x.hold.map (·.seq)).getD i 0) x.next : Int)) (List.range x.hold.length)).map fun i => (x.hold.map (·.seq)).getD i 0)

/-- skip_gap: NEXT moves to the lowest held SEQ, or to `lim` where that comes first; the gap counts once under `k`. -/
def Dev.skipGap (d : Dev) (die t k : Nat) (lim : Option Nat) : Dev :=
  let x := d.trunk t
  let goal : Option Nat := match d.lowestHeld t, lim with
    | some a, some b => some (if seqDist a x.next ≤ seqDist b x.next then a else b)
    | some a, none => some a
    | none, b => b
  match goal with
  | none => d
  | some n => ((d.setTrunk t { x with next := n }).carCnt die t k).drainAll die t

/-- Gaps are skipped under QUOTA until NEXT is the arriving frame's SEQ. -/
def Dev.skipTo (d : Dev) (die t seq : Nat) : Nat → Dev
  | 0 => d
  | n + 1 => if (d.trunk t).next = seq then d else ((d.skipGap die t 7 (some seq)).int (carPage die) 1).skipTo die t seq n

/-! LEARN (R273) -/

/-- LEARN ends: NEXT becomes the lowest held SEQ, by the frame held first, and the hold drains. -/
def Dev.endLearn (d : Dev) (die t : Nat) : Dev :=
  let x := d.trunk t
  let base := ((x.hold.head?).map (·.seq)).getD x.next
  let low (a b : Nat) : Nat := if seqLater a b then b else a
  let d := d.setTrunk t { x with learn := false, learnSince := none, next := (x.hold.map (·.seq)).foldl low base }
  d.drainAll die t

/-- A re-entry of LEARN. -/
def Dev.enterLearn (d : Dev) (die t : Nat) : Dev :=
  let x := d.trunk t
  ((d.setTrunk t { x with learn := true, learnSince := none, lateRun := 0 }).cnt (carPage die) F.CAR_GLB_CNT_COUNT 3).int (carPage die) 3

/-! Arrival (R271, R272) -/

/-- arrive outside LEARN. -/
def Dev.arriveInOrder (d : Dev) (die t m : Nat) (h : Held) : Dev :=
  let x := d.trunk t
  let dist := seqDist h.seq x.next
  if dist ≥ 2 ^ 23 then
    let d := ((d.setTrunk t { x with lateRun := x.lateRun + 1 }).carCnt die t 3).dropHeld h
    if x.lateRun + 1 ≥ d.get (carPage die) F.CAR_CFG_LATE_RESYNC then d.enterLearn die t else d
  else
    let d := d.setFloor t m (h.seq + 1)
    if dist ≠ 0 ∧ x.hold.any (·.seq = h.seq) then (d.carCnt die t 4).dropHeld h
    else if dist = 0 then ((d.release die t h).advanceNext t).drainAll die t
    else
      match d.takeIntoHold die t h with
      | (true, d) => d
      | (false, d) =>
        let d := d.skipTo die t h.seq (x.hold.length + 1)
        ((d.release die t h).advanceNext t).drainAll die t

/-- RESEQUENCER_ARRIVE: a sequenced member frame arrives. -/
def Dev.arrive (d : Dev) (die t m : Nat) (h : Held) : Dev :=
  let x := d.trunk t
  if !x.learn then d.arriveInOrder die t m h
  else
    let d := d.setFloor t m (h.seq + 1)
    match d.takeIntoHold die t h with
    | (true, d) => if x.learnSince.isNone then d.setTrunk t { d.trunk t with learnSince := some d.power.clock } else d
    | (false, d) => (d.endLearn die t).arriveInOrder die t m h

/-- A member frame whose shim is good is handed to the home-die CAR (R271). `bad`: its FCS is bad. -/
def Dev.carFrame (d : Dev) (port : Nat) (b : List Byte) (k : Pkt) (sec ns : Nat) (bad : Bool) : Dev :=
  match d.memberOf port with
  | none => d.freePkt k
  | some (t, m) =>
    match d.trunkHome t with
    | none => d.freePkt k
    | some die =>
      if !d.running (carPage die) || !d.trunkOn t then (d.tally (carPage die) (F.CAR_GLB_CNT_COUNT.at 4)).freePkt k
      else
        let flg := shimFlg b
        let body := memberBody b
        let ty := beAt body 0 1
        let h : Held := ⟨shimSeq b, shimField b 28 12, flg, shimField b 16 4, shimField b 8 8, k, body, 0, sec, ns, (d.cell k.first).req, false⟩
        if bit flg 3 ∧ bad then (d.fcsDrop port).freePkt k
        else if bit flg 3 ∧ ty ≠ 1 ∧ ty ≠ 4 then
          match unpad flg body with
          | none => d.formatDrop die t h
          | some body => (d.actAtArrival die t m h.seq body).freePkt k
        else d.arrive die t m h

/-! Periodic decisions and function control -/

/-- The member's receive link is up. -/
def Dev.rxLink (d : Dev) (port : Nat) : Bool := bit (d.get (portPage port) F.PG_STAT_LINK) (port % 8)

/-- floors_passed (R272). -/
def Dev.floorsPassed (d : Dev) (die t : Nat) : Bool :=
  let up := (List.range 16).filter fun m => d.memEn die t m && d.rxLink (d.memPort die t m)
  !up.isEmpty && up.all fun m => (d.member t m).floorV && seqLater (d.member t m).floor (d.trunk t).next

/-- RESEQUENCER_CHECK: the 100 ns check of a trunk. -/
def Dev.reseqCheck (d : Dev) (t : Nat) : Dev :=
  match d.trunkHome t with
  | none => d
  | some die =>
    let x := d.trunk t
    if !d.running (carPage die) || x.learn then d
    else
      match (x.hold.map (·.time)).min? with
      | none => d
      | some o =>
        if d.power.clock ≥ o + d.skewUs die t * 1000 then d.skipGap die t 5 none
        else if d.floorsPassed die t then d.skipGap die t 6 none else d

/-- LEARN_END: SKEW_US after the first arrival in LEARN. -/
def Dev.learnEnd (d : Dev) (t : Nat) : Dev :=
  match d.trunkHome t with
  | none => d
  | some die =>
    let x := d.trunk t
    if d.running (carPage die) && x.learn && x.learnSince.isSome then d.endLearn die t else d

/-- A restored head's cells leave requester 10 as it enters intake. -/
def Dev.leaveReorder (d : Dev) (first req : Nat) (recharged : Bool) : Dev :=
  if recharged then ((d.chain first).filter fun c => (d.cell c).req = 10).foldl (fun d c => d.rechargeCell req c) d else d

/-- The conditions of R261 in order: the first that trunk `t` fails, 1–6. -/
def Dev.trunkCheck (d : Dev) (die t : Nat) : Option Nat :=
  let ms := (List.range 16).filter (d.memEn die t)
  let ports := ms.map (d.memPort die t)
  let elsewhere (p : Nat) : Bool := (List.range 32).any fun k => k ≠ 16 * die + t && bit (d.carWord (k / 16) (k % 16) 0 0) 0 &&
    (List.range 16).any fun m => d.memEn (k / 16) (k % 16) m && d.memPort (k / 16) (k % 16) m == p
  if ms.length < 2 then some 1
  else if !ports.all (fun p => d.portStarts p && d.isMember p) then some 2
  else if !ports.Nodup || ports.any elsewhere then some 3
  else if !ms.all (fun m => d.attached (d.qNode (d.memQueue die t m)) && d.qPort (d.memQueue die t m) == d.memPort die t m) then some 4
  else if d.intakePg die t / 8 ≠ die then some 5
  else if bit (d.carWord (1 - die) t 0 0) 0 then some 6
  else none

/-- CAR STARTING (R261, R285). -/
def Dev.startCar (d : Dev) (die : Nat) : Dev :=
  (List.range 16).foldl (fun d t =>
    if !bit (d.carWord die t 0 0) 0 then d
    else
      let fail := d.trunkCheck die t
      let k := 16 * die + t
      let d := d.setCar { d.car with bad := d.car.bad.wr false k false, verdicts := d.car.verdicts.wr 0 k (if fail.isSome then 2 else 1) }
      let d := if d.trunkHome t ≠ some die then d
        else
          let d := d.setTrunk t { d.trunk t with learn := true, learnSince := none, lateRun := 0, hold := [], released := [], restored := [] }
          (List.range 16).foldl (fun d m =>
            let p := d.memPort die t m
            let up := d.memEn die t m && !d.memHoldOut die t m && d.portState p == 1
            d.setMember t m ⟨0, up, false, 0, false⟩) d
      match fail with
      | none => d
      | some c => ((d.cnt (carPage die) F.CAR_GLB_CNT_COUNT 2).int (carPage die) 0).err (carPage die) 0x21 t c) d

/-- Every held frame is released in order, with gaps skipped at once and not counted (R74, R285). -/
def Dev.releaseAll (d : Dev) (die t : Nat) : Nat → Dev
  | 0 => d
  | n + 1 =>
    match d.lowestHeld t with
    | none => d
    | some s => ((d.setTrunk t { d.trunk t with next := s }).drainAll die t).releaseAll die t n

/-- CAR stopping. -/
def Dev.stopCar (d : Dev) (die : Nat) : Dev :=
  (List.range 16).foldl (fun d t =>
    if d.trunkHome t ≠ some die then d
    else
      let d := if (d.trunk t).learn then d.endLearn die t else d
      d.releaseAll die t ((d.trunk t).hold.length)) d

/-- CAR has nothing left that leaves: no released or restored frame. -/
def Dev.carIdle (d : Dev) (die : Nat) : Bool :=
  (List.range 16).all fun t => d.trunkHome t ≠ some die || ((d.trunk t).released.isEmpty && (d.trunk t).restored.isEmpty && (d.trunk t).hold.isEmpty)

/-! Entry window 0x04 (R286) -/

/-- The eight words of entry `k` of trunk `t` on a die, status included. -/
def Dev.carRead (d : Dev) (die t k : Nat) : List Word :=
  let rw (w : Nat) : Nat := d.carWord die t k w
  let mine := d.trunkHome t = some die
  if k = 0 then
    let x := d.trunk t
    let n (v : Nat) : Nat := if mine then v else 0
    ([rw 0, rw 1, rw 2, n x.txSeq, n (x.next + b2n x.learn * 2 ^ 24), n (d.holdCells t), 0, 0] : List Nat).map (BitVec.ofNat 32)
  else
    let m := k - 1
    let x := d.member t m
    let n (v : Nat) : Nat := if mine ∧ d.memEn die t m then v else 0
    ([rw 0, n (d.memWeight die t m + b2n (d.memEligible die t m) * 2 ^ 7 + b2n (d.rxLink (d.memPort die t m)) * 2 ^ 8),
      n (x.floor + b2n x.floorV * 2 ^ 24), n (ofSigned 32 (x.credit / 65536)), 0, 0, 0, 0] : List Nat).map (BitVec.ofNat 32)

/-- A WRITE of entry `k`: its CODE. -/
def Dev.carWrite (d : Dev) (die t k : Nat) (x : List Word) : Nat × Dev :=
  let put (d : Dev) (w v : Nat) : Dev := d.setCar { d.car with entries := d.car.entries.wr 0 ((512 * die + 32 * t + k) * 8 + w) (BitVec.ofNat 32 v) }
  let v (w : Nat) : Nat := (x.getD w 0).toNat
  let stopped := d.fn (carPage die) = 0
  let old := d.carWord die t k 0
  if k = 0 then
    if bits (v 0) 0 12 ≠ bits old 0 12 ∧ !stopped then (3, d)
    else
      let skew := bits (v 0) 14 7
      let w0 := putBits (bits (v 0) 0 28) 14 7 (min 100 skew)
      let d := ((put d 0 w0) |> fun d => put d 1 (bits (v 1) 0 31)) |> fun d => put d 2 (bits (v 2) 0 20)
      (0, if skew > 100 then d.err (carPage die) 0x20 else d)
  else if bits (v 0) 0 25 ≠ bits old 0 25 ∧ !stopped then (3, d)
  else
    let d := put d 0 (bits (v 0) 0 26)
    (0, d.checkMembers t)

end Sys2Proof.Machine
end

