-- ==== Sys2Proof/Machine/Select.lean ====
section
/-! DEFINITION. One selection of an egress scheduler (R230, R231), with its window test and oversize drops (R241, R242). -/

namespace Sys2Proof.Machine

/-- The scheduler that serves a scheduling port (R230). -/
def Dev.schedOf (d : Dev) (die port : Nat) : Nat :=
  if port < 128 then port / 8
  else
    let s := d.live (tmPage die) (F.TM_PORT_CFG_SCHED.at (4 * port))
    if s / 8 = die then s else 8 * die

/-- Free descriptors of a DMA channel (R357, R360). -/
def Dev.chFree (d : Dev) (ch : Nat) : Nat :=
  (d.get 0x06 (F.DMA_CH_IDX_TAIL.at (16 * ch)) + 65536 - d.get 0x06 (F.DMA_CH_IDX_HEAD.at (16 * ch))) % 65536

/-- Host port 144 + i is enabled and its channel RUNNING with at least MIN_BUF free descriptors (R360). -/
def Dev.hportReady (d : Dev) (i : Nat) : Bool :=
  let ch := d.get 0x05 (F.HIF_HPORT_CHAN.at (4 * i))
  d.get 0x05 (F.HIF_HPORT_EN.at (4 * i)) == 1 && d.get 0x06 (F.DMA_CH_CTL_STATE.at (16 * ch)) == 2 &&
    decide (d.chFree ch ≥ max 1 (d.get 0x05 (F.HIF_HPORT_MIN_BUF.at (4 * i))))

/-- The port may take a selection (R230). -/
def Dev.portReady (d : Dev) (die port : Nat) : Bool :=
  d.eligible (portEnt port) && (
    if port < 128 then d.portState port == 1 && decide ((d.ep (portEp port)).sel.length < 2) && (Map.rd none d.tm.blocked port).isNone
    else if port < 144 then
      d.trunkOn (port - 128) && d.running (carPage die) && (List.range 16).any (d.memEligible die (port - 128))
    else decide ((d.ep 16).sel.length + (d.hif.path.filter (·.punt.held.isSome)).length < 2) && d.hportReady (port - 144))

/-- A queue is marked FAULTED and its packets are flushed (R394). -/
def Dev.faultQueue (d : Dev) (q : Nat) : Dev := (d.setQueue q { d.queue q with faulted := true }).flushQueue q

/-- The head of a queue, once heads that fit no window have been dropped (R242). -/
def Dev.dropOversize (d : Dev) (port q : Nat) : Nat → Dev
  | 0 => d
  | n + 1 =>
    match (d.queue q).ents with
    | [] => d
    | e :: r =>
      if !d.tooLong port (d.qClass q) e.frameLen then d
      else
        let p := tmPage (port / 64)
        let d := ((d.setQueue q { d.queue q with ents := r }).dropEnt q e).bump p (F.TM_PORT_CNT_COUNT.at (16 * (port % 64) + 4))
        ((d.int p 2).touchQueue q).dropOversize port q n

/-- Oversize heads of every queue of a gated port are dropped. -/
def Dev.dropAllOversize (d : Dev) (port : Nat) : Dev :=
  if (d.gate port).isNone then d
  else (d.portQueues port).foldl (fun d q => d.dropOversize port q ((d.queue q).ents.length)) d

/-- The head of queue `q` is taken, charged and handed on: to its endpoint, or for a trunk to distribution. -/
def Dev.takeHead (d : Dev) (die port m k q : Nat) (e : QEnt) : Dev :=
  let p := tmPage die
  let d := d.setQueue q { d.queue q with ents := (d.queue q).ents.tail }
  let d := (d.chargeSelection port m k q e.frameLen).cnt p F.TM_CNT_COUNT 0
  let d := if port < 128 then d.bump p (F.TM_PORT_CNT_COUNT.at (16 * (port % 64))) else d
  let d := (d.touchQueue q).touchPort port
  if 128 ≤ port ∧ port < 144 then (d.distribute die (port - 128) q e).checkMembers (port - 128)
  else (d.toEndpoint port q e false).memberMoved port

/-- A selection for a ready port. The state of the queue it comes to is read: one that proves uncorrectable is FAULTED (R394). -/
def Dev.selectPort (d : Dev) (die port : Nat) (ecc : Ecc) : Dev :=
  let gated := decide (port < 128) && (d.gate port).isSome
  let window := gated && d.gapFill port
  match d.choose port (fun q => d.qSelectable q window) with
  | (none, d) => d
  | (some (m, k, q), d') =>
    match (d.queue q).ents with
    | [] => d
    | e :: _ =>
      let d := d.eccCount 6 die ecc
      let d' := d'.eccCount 6 die ecc
      if ecc = .bad then d.faultQueue q
      else if gated && !window && !d.headFits port k e.frameLen then
        d'.setTm { d'.tm with blocked := d'.tm.blocked.wr none port (some k) }
      else
        let best : Option (Nat × Nat × Nat) := if window then (d.choose port (fun q => d.qSelectable q false)).1 else some (m, k, q)
        let d := if best = some (m, k, q) then d' else d'.bump (tmPage die) (F.TM_PORT_CNT_COUNT.at (16 * (port % 64) + 8))
        d.takeHead die port m k q e

/-- SELECTION: one selection of the scheduler of PG `pg`. -/
def Dev.selection (d : Dev) (pg : Nat) (ecc : Ecc) : Dev :=
  let die := pg / 8
  if !d.running (tmPage die) then d
  else
    let mine := (List.range 152).filter fun p => d.portHome p = some die && d.schedOf die p == pg && d.portReady die p
    let d := (mine.filter (· < 128)).foldl (fun d p => d.dropAllOversize p) d
    let asks := mine.filter fun p => (d.portQueues p).any fun q => d.qSelectable q (decide (p < 128) && d.gapFill p)
    match d.grant (Rr.ports pg) 152 asks with
    | (none, d) => d
    | (some p, d) => d.selectPort die p ecc

end Sys2Proof.Machine
end

