-- ==== Sys2Proof/Machine/Ports.lean ====
section
/-! DEFINITION. Receive MAC, head intake, the parser's run and the default actions of a port group (R80–R94). -/

namespace Sys2Proof.Machine

def Dev.pg (d : Dev) (n : Nat) : PortGroup := Map.rd PortGroup.init d.pgs n

/-- A counter of PG_CNT for a lane of a page (R94); those of a lane that starts no port read 0 (R79). -/
def Dev.pgCnt (d : Dev) (pg lane k : Nat) : Dev :=
  if laneStarts (d.live (pgPage pg) F.PG_CFG_MODE) lane then d.bump (pgPage pg) (F.PG_CNT_COUNT.at (0x20 * lane + 4 * k)) else d

/-- Places taken in a port group's intake queue (R84). -/
def PortGroup.depth (x : PortGroup) : Nat := x.parsing.length + x.intake.length

/-- Writes a port group's queues and shows its depth. -/
def Dev.setPg (d : Dev) (n : Nat) (x : PortGroup) : Dev :=
  let d := { d with pgs := d.pgs.wr PortGroup.init n x }
  (d.set (pgPage n) F.PG_INTAKE_DEPTH x.depth).peak (pgPage n) F.PG_INTAKE_PEAK x.depth

/-- An enabled port of a RUNNING port group with its link up. -/
def Dev.portOpen (d : Dev) (port : Nat) : Bool :=
  d.running (portPage port) && d.portStarts port && bit (d.live (portPage port) F.PG_PORT_EN_EN) (port % 8) && d.rxLink port

/-- A transition is under way (R73). -/
def Dev.modeBusy (d : Dev) : Bool := d.get 0x01 F.SVC_MODE_BUSY == 1

/-- Receive admission is open: in FORWARD, once a transition there has started the traffic set, and on a port in loopback (R61,
R73, R94). -/
def Dev.admits (d : Dev) (port : Nat) : Bool := (d.mode == 2 && !d.modeBusy) || d.loops port

/-- A frame's FCS is right. -/
def fcsGood (b : List Byte) : Bool := decide (b.drop (b.length - 4) = fcsOf (b.take (b.length - 4)))

/-- A MAC control frame: PFC is acted on, every other opcode is discarded (R82, R221). -/
def Dev.macControl (d : Dev) (port : Nat) (b : List Byte) : Dev :=
  let d := d.pgCnt (port / 8) (port % 8) 5
  if beAt b 14 2 = 0x0101 then d.pfcReceive port (beAt b 16 2 % 256) ((List.range 8).map fun i => beAt b (18 + 2 * i) 2) else d

/-- The PFC priority of a received frame (R220). -/
def Dev.rxPrio (d : Dev) (port : Nat) (b : List Byte) : Nat :=
  let tagged := !d.isMember port && (beAt b 12 2 == 0x8100 || beAt b 12 2 == 0x88A8)
  if tagged then beAt b 14 1 / 32 else d.get (swcPage (port / 64)) (F.SWC_PFC_CFG_DEF_PRIO.at (4 * (port % 64)))

/-- A complete head takes its place in intake, or its frame is dropped (R84, R15). -/
def Dev.takeIntake (d : Dev) (lane : Nat) (r : RawHead) : Dev :=
  let x := d.pg r.pkt.pg
  if x.depth ≥ 1024 then ((d.freePkt r.pkt).pgCnt r.pkt.pg lane 4).int (pgPage r.pkt.pg) 2
  else d.setPg r.pkt.pg { x with parsing := x.parsing ++ [r] }

/-- The frame is written to cells as it arrives and its head goes on (R84, R87, R197, R203); `bad` as R82 found it. -/
def Dev.storeFrame (d : Dev) (port : Nat) (b : List Byte) (bad : Bool) : Dev :=
  let die := port / 64
  let r := port / 8 % 8
  let (cs, ok, d) := d.writePieces die r (pieces chainFuel b)
  let d := if ok then d else d.cnt (bpmPage die) F.BPM_RX_DROP_COUNT r
  match cs with
  | [] => d
  | c :: _ =>
    let d := d.linkCells cs none
    let b := if ok then b else b.take (256 * cs.length)
    let bad := bad || !ok
    let prio := d.rxPrio port b
    let pfc := d.pfcEnabled port prio
    let d := if pfc then cs.foldl (fun d c => d.pfcCharge c port prio) d else d
    let (sec, ns) := d.rxStamp port
    let k : Pkt := ⟨c, c, b.length - 4, b.length, port, port / 8, port % 8, prio, pfc⟩
    let d := { d with rx := d.rx.wr none port (some ⟨c, bad⟩) }
    if d.isMember port && !d.shimBad port b then d.carFrame port b k sec ns bad
    else d.takeIntake (port % 8) ⟨k, slice b 0 256, sec, ns, none⟩

/-- A MAC control frame is still arriving on the port. -/
def Dev.macArriving (d : Dev) (port : Nat) : Bool := (d.pg (port / 8)).macFrames.any fun x => x.1 == port % 8

/-- A MAC control frame waits for its end, when its FCS result and FEC marks are known (R81, R82). -/
def Dev.macPend (d : Dev) (port : Nat) (frame : List Byte) : Dev :=
  let x := d.pg (port / 8)
  d.setPg (port / 8) { x with macFrames := x.macFrames ++ [(port % 8, frame, !fcsGood frame)] }

/-- The receive MAC takes a frame (R61, R82). A frame longer than MTU is OVERSIZE whatever its EtherType (log entry 157). A PG
that is not RUNNING takes and counts none. -/
def Dev.macReceive (d : Dev) (port : Nat) (frame : List Byte) : Dev :=
  let g := port / 8
  let n := port % 8
  if !d.portOpen port || (Map.rd none d.rx port).isSome || d.macArriving port then d
  else if !d.admits port then d.pgCnt g n 0
  else if frame.length < 64 then d.pgCnt g n 2
  else
    let mtu := d.portCfg port F.PG_PORT_CFG_MTU
    if frame.length > mtu then (d.pgCnt g n 3).storeFrame port (frame.take (mtu + 1)) true
    else if !d.isMember port && beAt frame 12 2 == 0x8808 then d.macPend port frame
    else d.storeFrame port frame (!fcsGood frame)

/-- FRAME_RECEIVE: a frame of the link partner; a port in loopback takes none. -/
def Dev.frameReceive (d : Dev) (port : Nat) (frame : List Byte) : Dev :=
  if d.loops port then d else d.macReceive port frame

/-- The frame of a port among the newest things that left the block. -/
def sentFrame (port : Nat) : List Out → Option (List Byte)
  | [] => none
  | .frame p b :: r => if p = port then some b else sentFrame port r
  | _ :: r => sentFrame port r

/-- FRAME_TRANSMIT_END, with the looped stream received on the same port (R94). -/
def Dev.frameSent (d : Dev) (port : Nat) : Dev :=
  let n := d.out.length
  let d := d.transmitEnd port
  match sentFrame port (d.out.take (d.out.length - n)) with
  | some b => if d.loops port then d.macReceive port b else d
  | none => d

/-- FRAME_END: a MAC control frame is acted on, or dropped as bad; any other frame's FCS result becomes known (R14, R82). -/
def Dev.frameFinish (d : Dev) (port : Nat) (ecc : Ecc) : Dev :=
  let x := d.pg (port / 8)
  match x.macFrames.find? (fun f => f.1 = port % 8) with
  | some f =>
    let d := d.setPg (port / 8) { x with macFrames := x.macFrames.filter fun f => f.1 ≠ port % 8 }
    if f.2.2 then d.fcsDrop port else d.macControl port f.2.1
  | none => d.frameEnd port ecc

/-- FEC_UNCORRECTABLE: an uncorrectable codeword; the frame it overlaps is marked bad (R81). -/
def Dev.fecUncorrectable (d : Dev) (port : Nat) : Dev :=
  if !d.portOpen port then d
  else
    let d := d.bump (portPage port) (F.PG_FEC_UNCORR_COUNT.at (8 * (port % 8)))
    let d := d.int (portPage port) 1
    let x := d.pg (port / 8)
    let d := d.setPg (port / 8) { x with macFrames := x.macFrames.map fun f => if f.1 = port % 8 then (f.1, f.2.1, true) else f }
    match Map.rd none d.rx port with
    | some f => { d with rx := d.rx.wr none port (some { f with bad := true }) }
    | none => d

/-- The codewords that the FEC of an up link has corrected since the count was last read: a free value (R81, log entry 109). -/
def Dev.fecSeen (d : Dev) (p o : Nat) : Dev :=
  let n := (o - 0x0300) / 8
  if pageKind p = .pg ∧ 0x0300 ≤ o ∧ o < 0x0340 ∧ o % 8 = 0 ∧ d.running p ∧ bit (d.get p F.PG_STAT_LINK) n then
    let (w, d) := d.free
    d.bump p (F.PG_FEC_CORR_COUNT.at (8 * n)) w.toNat
  else d

/-! The parser's run (R85–R93) -/

/-- The settings a head is parsed with: those in force of its page and lane. -/
def Dev.parseCfg (d : Dev) (pg lane : Nat) : ParseCfg :=
  let p := pgPage pg
  ⟨d.live p (F.PG_PORT_CFG_PW_ETH.at (4 * lane)) == 1, d.live p F.PG_UDP_PORT_VXLAN, d.live p F.PG_UDP_PORT_GENEVE,
    d.live p F.PG_HASH_CFG_L4 == 1, d.live p F.PG_HASH_CFG_FLOWLBL == 1, d.live p F.PG_HASH_CFG_EL == 1, d.live p F.PG_HASH_CFG_SEED⟩

/-- The parse of a head: its walk and whether its shim is bad (only such heads of member ports come to the parser). -/
def Dev.parseHead (d : Dev) (r : RawHead) : Walk × Bool :=
  let k := r.pkt
  let member := d.isMember k.inport
  let start : NextHdr := match r.nxt with
    | some n => byNxt n
    | none => if member then .shim else .eth
  (parseWalk (d.parseCfg k.pg k.lane) r.bytes k.flen 40 (Walk.init start), member)

/-- The action of R93 for a class of PG_PORT_ACT. -/
def Dev.portAct (d : Dev) (pg lane cls : Nat) : Nat :=
  bits (d.get (pgPage pg) (F.PG_PORT_ACT_ACT.at (4 * lane))) (2 * cls) 2

/-- Classes that a parse sets: DEEP, LEN, CSUM, SHIM. -/
def flagClasses (flags : Nat) : List Nat := setBits 4 flags

/-- The most severe action for the classes set, and the lowest class whose action equals it (R93). -/
def Dev.defaultAction (d : Dev) (pg lane : Nat) (cls : List Nat) : Nat × Nat :=
  let act := (cls.map (d.portAct pg lane)).foldl max 0
  (act, ((cls.filter fun c => d.portAct pg lane c = act).headD 0))

/-- A packet dropped or punted by PG_PORT_ACT; a punt with EN = 0 is a drop (R93). -/
def Dev.actDrop (d : Dev) (k : Pkt) : Dev := (d.freePkt k).pgCnt k.pg k.lane 6
def Dev.actPunt (d : Dev) (src reason : Nat) (record : List Byte) (k : Pkt) : Dev :=
  let p := pgPage k.pg
  if d.get p F.PG_PUNT_CH_EN = 0 then d.actDrop k
  else (d.handPunt ⟨d.get p F.PG_PUNT_CH_CHAN, src, reason, record, 0, k, none⟩).pgCnt k.pg k.lane 7

/-- PARSE_DONE: the first head in parsing gets its record, and the default actions are applied. -/
def Dev.parseDone (d : Dev) (n : Nat) : Dev :=
  let x := d.pg n
  match x.parsing with
  | [] => d
  | r :: rest =>
    let (w, bad) := d.parseHead r
    let rec_ := parseRecord (d.parseCfg r.pkt.pg r.pkt.lane) r.bytes w r.pkt.inport r.pkt.flen r.sec r.ns bad
    let (act, cls) := d.defaultAction n r.pkt.lane (flagClasses (walkFlags r.bytes w bad))
    if act = 0 then d.setPg n { x with parsing := rest, intake := x.intake ++ [⟨r.pkt, r.bytes, rec_, 0, 0, 0, 0, 0, false, 0⟩] }
    else
      let d := d.setPg n { x with parsing := rest }
      if act = 1 then d.actPunt 0 cls rec_ r.pkt else d.actDrop r.pkt

/-! Restored heads (R275) -/

/-- Restored heads of a trunk enter intake as far as there is room. -/
def Dev.takeRestored (d : Dev) (t : Nat) : List (RawHead × Nat × Nat × Bool) → Dev
  | [] => d.setTrunk t { d.trunk t with restored := [] }
  | (r, req, n, re) :: rest =>
    if (d.pg r.pkt.pg).depth ≥ 1024 then d.setTrunk t { d.trunk t with restored := (r, req, n, re) :: rest }
    else ((d.leaveReorder r.pkt.first req re).takeIntake r.pkt.lane r).takeRestored t rest

/-- RESTORED_HEAD_INTAKE: the restored heads of the trunks homed on a die, in release order. -/
def Dev.restoredIntake (d : Dev) (die : Nat) : Dev :=
  (List.range 16).foldl (fun d t =>
    if d.trunkHome t = some die ∧ d.active (pgPage (d.intakePg die t)) then d.takeRestored t (d.trunk t).restored else d) d

/-! Port state (R60, R81, R226): its members follow it (R228, R268) -/

/-- LINK and LOCK of a port. -/
def Dev.setLink (d : Dev) (port : Nat) (on : Bool) : Dev :=
  let p := portPage port
  let n := port % 8
  let put (v i : Nat) : Nat := if on then setBit v i else clrBit v i
  let lock := (List.range (8 / 2 ^ d.live p F.PG_CFG_MODE)).foldl (fun v i => put v (n + i)) (d.get p F.PG_STAT_LOCK)
  ((d.set p F.PG_STAT_LINK (put (d.get p F.PG_STAT_LINK) n)).set p F.PG_STAT_LOCK lock).int p 0

/-- PORT_LINK_UP: an enabled port of a RUNNING PG (R81, R226). -/
def Dev.linkUp (d : Dev) (port : Nat) : Dev :=
  let p := portPage port
  let n := port % 8
  if !d.running p || !d.portStarts port || !bit (d.live p F.PG_PORT_EN_EN) n || bit (d.get p F.PG_STAT_LINK) n then d
  else ((d.setLink port true).stateUp port).memberMoved port

/-- PORT_LINK_DOWN. -/
def Dev.linkDown (d : Dev) (port : Nat) : Dev :=
  if !bit (d.get (portPage port) F.PG_STAT_LINK) (port % 8) then d
  else ((d.setLink port false).linkLost port).memberMoved port

/-- HOLD_TIMER_EXPIRE: a port in HOLD enters FLUSHING. -/
def Dev.holdExpire (d : Dev) (port : Nat) : Dev :=
  if d.portState port = 2 then (((d.setPortState port 3).setHoldLeft port 0).holdShapers port).memberMoved port else d

/-- FLUSH_DONE: the flush of a FLUSHING port completes. -/
def Dev.flushDone (d : Dev) (port : Nat) : Dev :=
  if d.portState port ≠ 3 then d
  else
    let p := swcPage (port / 64)
    let up := d.get p (F.SWC_PORT_STATE_UP_PENDING.at (4 * (port % 64))) = 1
    let d := (d.flushPort port).setUpPending port 0
    let d := d.setPortState port (if !d.portStarts port then 0 else if up then 1 else 4)
    (d.int p 3).memberMoved port

/-- A port that ceases to start a port under an applied MODE (R226). -/
def Dev.portCeases (d : Dev) (port : Nat) : Dev := if d.portState port = 1 then (d.stateDown port).memberMoved port else d

/-! Function control -/

/-- What a lane is trained with: MODE, its PG_PORT_EN bit, MEDIUM and PG_LANE_CFG, as they are in force. -/
def Dev.laneSig (d : Dev) (n l : Nat) : List Nat :=
  let p := pgPage n
  [d.live p F.PG_CFG_MODE, b2n (bit (d.live p F.PG_PORT_EN_EN) l), d.live p (F.PG_PORT_CFG_MEDIUM.at (4 * l)),
    (d.liveWord p (R.PG_LANE_CFG + 4 * l)).toNat]

/-- At an apply the link of a port trains again where what its lanes are trained with has changed; other links stay trained
(R60, R80, log entry 67). -/
def Dev.relink (d : Dev) (n : Nat) : Dev :=
  let old := (d.pg n).trained
  let lanes := 8 / 2 ^ ((old.headD 0))
  let new := (List.range 8).flatMap (d.laneSig n)
  let same (l : Nat) : Bool := (old.drop (4 * l)).take (4 * lanes) == (new.drop (4 * l)).take (4 * lanes)
  let d := (List.range 8).foldl (fun d l =>
    if bit (d.get (pgPage n) F.PG_STAT_LINK) l && !same l then
      let p := pgPage n
      ((d.set p F.PG_STAT_LINK (clrBit (d.get p F.PG_STAT_LINK) l)).set p F.PG_STAT_LOCK
        ((List.range lanes).foldl (fun v i => clrBit v (l + i)) (d.get p F.PG_STAT_LOCK))).int p 0
    else d) d
  d.setPg n { d.pg n with trained := new }

/-- The counters of lanes that start no port return to 0 (R79). -/
def Dev.clearLanes (d : Dev) (n : Nat) : Dev :=
  let p := pgPage n
  ((List.range 8).filter fun l => !laneStarts (d.live p F.PG_CFG_MODE) l).foldl (fun d l =>
    let d := (List.range 8).foldl (fun d k => d.set p (F.PG_CNT_COUNT.at (0x20 * l + 4 * k)) 0) d
    (d.set p (F.PG_FEC_CORR_COUNT.at (8 * l)) 0).set p (F.PG_FEC_UNCORR_COUNT.at (8 * l)) 0) d

/-- PG STARTING: PG_PORT_EN bits whose lane starts no port are cleared (R80). -/
def Dev.startPg (d : Dev) (n : Nat) : Dev :=
  let p := pgPage n
  let en := d.get p F.PG_PORT_EN_EN
  let bad := (List.range 8).filter fun l => bit en l && !laneStarts (d.live p F.PG_CFG_MODE) l
  let d := (List.range 8).foldl (fun d l => if laneStarts (d.live p F.PG_CFG_MODE) l then d else d.portCeases (8 * n + l)) d
  let d := if bad.isEmpty then d else ((d.set p F.PG_PORT_EN_EN (en - ofBits bad)).int p 3).err p 0x22 (ofBits bad)
  (d.clearLanes n).relink n

/-- PG RUNNING: the link of a port that stayed trained counts as up again (R60, R226). -/
def Dev.pgRunning (d : Dev) (n : Nat) : Dev :=
  (List.range 8).foldl (fun d l =>
    if bit (d.get (pgPage n) F.PG_STAT_LINK) l && bit (d.live (pgPage n) F.PG_PORT_EN_EN) l then
      (d.stateUp (8 * n + l)).memberMoved (8 * n + l)
    else d) d

/-- PG stopping: every port of the group counts as link down, while its link stays trained (R60, R226). -/
def Dev.stopPg (d : Dev) (n : Nat) : Dev :=
  (List.range 8).foldl (fun d l =>
    if bit (d.get (pgPage n) F.PG_STAT_LINK) l then (d.linkLost (8 * n + l)).memberMoved (8 * n + l) else d) d

end Sys2Proof.Machine
end

