-- ==== Sys2Proof/Machine/HostIf.lean ====
section
/-! DEFINITION. The PCIe function: tags, reads, completions and timeouts (R347–R350), link power (R352) and link state (R346). -/

namespace Sys2Proof.Machine

def dmaPage : Nat := 0x06


/-! The link -/

/-- Any request, doorbell or punt takes the link from L1 back to L0 (R352). -/
def Dev.wakeLink (d : Dev) : Dev := if 2 ≤ d.lstate ∧ d.lstate ≤ 4 then d.set hifPage F.HIF_LINK_STAT_LSTATE 0 else d

/-- A posted write to host memory; `data` writes carry packet data (R351). -/
def Dev.postHost (d : Dev) (addr : Nat) (b : List Byte) (data : Bool) : Dev :=
  d.wakeLink.emit (.hostWrite addr b (data && d.get hifPage F.HIF_ORD_RO_DATA == 1 && d.hif.roEn)
    (d.get hifPage F.HIF_ORD_IDO == 1 && d.hif.idoEn))

/-! Tags (R347) -/

/-- The tag values the device uses. -/
def HostIf.values (h : HostIf) : List Nat := if h.tenBit then (List.range 768).map (· + 256) else List.range 256

/-- The first free tag. -/
def HostIf.freeTag (h : HostIf) : Option Nat :=
  h.values.find? fun t => (Map.rd none h.tags t).isNone && !Map.rd false h.quarantined t

/-- HIF_TAGS shows the tags outstanding and quarantined. -/
def Dev.showTags (d : Dev) : Dev :=
  (d.set hifPage F.HIF_TAGS_USED d.hif.tags.length).set hifPage F.HIF_TAGS_QUAR d.hif.quarantined.length

def Dev.setReadTag (d : Dev) (t : Nat) (x : Option ReadTag) : Dev := (d.setHif { d.hif with tags := d.hif.tags.wr none t x }).showTags
def Dev.quarantine (d : Dev) (t : Nat) (b : Bool) : Dev :=
  (d.setHif { d.hif with quarantined := d.hif.quarantined.wr false t b }).showTags

def Dev.chan (d : Dev) (ch : Nat) : Chan := Map.rd Chan.init d.hif.chans ch
def Dev.setChan (d : Dev) (ch : Nat) (x : Chan) : Dev := d.setHif { d.hif with chans := d.hif.chans.wr Chan.init ch x }

/-- Reads that wait take free tags, channels in turn (R347). -/
def Dev.issueReads (d : Dev) : Nat → Dev
  | 0 => d
  | n + 1 =>
    if d.hostShut then d
    else match d.hif.freeTag with
      | none => d
      | some t =>
        match d.grant Rr.tags 1024 (d.hif.waiting.map (·.1)).dedup with
        | (none, _) => d
        | (some ch, d) =>
          match d.hif.waiting.find? (·.1 = ch) with
          | none => d
          | some w =>
            let d := d.setHif { d.hif with waiting := d.hif.waiting.erase w }
            match (d.chan ch).job.bind fun j => j.pieces[w.2]? with
            | none => d.issueReads n
            | some p =>
              let d := (d.setReadTag t (some ⟨ch, w.2, p.len, []⟩)).cnt hifPage F.HIF_CNT_COUNT 0
              (d.wakeLink.emit (.hostRead t p.addr p.len)).issueReads n

/-- Every waiting read is tried. -/
def Dev.pumpReads (d : Dev) : Dev := d.issueReads d.hif.waiting.length

/-- The reads of a span: at most Max Read Request Size each, none across a 4 KB boundary. -/
def splitRead (maxRead : Nat) : Nat → Nat → Nat → List Piece
  | 0, _, _ => []
  | n + 1, addr, len =>
    if len = 0 then []
    else
      let k := min len (min maxRead (4096 - addr % 4096))
      ⟨addr, k, none⟩ :: splitRead maxRead n (addr + k) (len - k)

/-- A channel begins a job that reads these spans. -/
def Dev.startJob (d : Dev) (ch kind : Nat) (spans : List (Nat × Nat)) : Dev :=
  let m := max 128 (min d.hif.maxRead 4096)
  let ps := (spans.map fun s => splitRead m (s.2 + 1) s.1 s.2).flatten
  let d := d.setChan ch { d.chan ch with job := some ⟨kind, ps⟩ }
  (d.setHif { d.hif with waiting := d.hif.waiting ++ (List.range ps.length).map fun i => (ch, i) }).pumpReads

/-- A channel's job is given up: its waiting reads go, and those outstanding serve nobody. -/
def Dev.dropJob (d : Dev) (ch : Nat) : Dev :=
  let d := d.setChan ch { d.chan ch with job := none }
  let tags : Map (Option ReadTag) := d.hif.tags
  let tags := List.map (fun (e : Nat × Option ReadTag) => match e.2 with
    | some r => if r.ch = ch then (e.1, some { r with piece := 65535 }) else e
    | none => e) tags
  d.setHif { d.hif with tags := tags, waiting := d.hif.waiting.filter (·.1 ≠ ch) }

/-- Every piece of a job has come. -/
def Job.whole (j : Job) : Bool := j.pieces.all (·.data.isSome)

/-- The bytes of a job in order. -/
def Job.bytes (j : Job) : List Byte := (j.pieces.map fun p => p.data.getD []).flatten

/-! Timeouts (R348, R350) -/

/-- 4 × RECOV.MS above CPL_TMO.MS: the block with the timeout raised (R350, R399). -/
def Dev.recovRaise (d : Dev) : Option Dev :=
  let r := 4 * d.get hifPage F.HIF_RECOV_MS
  if r > d.get hifPage F.HIF_CPL_TMO_MS then some (d.set hifPage F.HIF_CPL_TMO_MS r) else none

def Dev.recovCheck (d : Dev) : Dev := d.inconsistent d.recovRaise hifPage 0x21

/-- CTO_VALUE_WRITE: the Device Control 2 field loads HIF_CPL_TMO (R348). -/
def Dev.ctoWrite (d : Dev) (code : Nat) : Dev :=
  if !d.domOn 29 then d
  else
    let ms : Option Nat := if code = 0 then some 50 else if code = 5 then some 55 else if code = 6 then some 210
      else if code = 9 then some 900 else if code = 10 then some 3500 else none
    match ms with
    | some v => (d.set hifPage F.HIF_CPL_TMO_MS v).recovCheck
    | none => d.err hifPage 0x20

/-! Link power and state (R346, R352) -/

/-- PERST_RELEASE: PCIE_PERST_N is released; training begins once PD29 is ON. -/
def Dev.perstRelease (d : Dev) : Dev :=
  if d.hif.perst then d.setHif { d.hif with perst := false, training := d.domOn 29 } else d

/-- PCIE_LINK_UP: the link reaches L0 as negotiated (R345). -/
def Dev.linkUpPcie (d : Dev) (speed width : Nat) (flit : Bool) : Dev :=
  if d.hif.perst || !d.domOn 29 || !(d.hif.training || d.lstate == 5) then d
  else
    let low := decide (speed < 4) || decide (width < 8)
    let w := speed % 16 + width % 16 * 16 + b2n flit * 256 + b2n low * 512 + d.get hifPage F.HIF_LINK_STAT_DSTATE * 2 ^ 13
    ((d.setWord hifPage 0x0100 (BitVec.ofNat 32 w)).setHif { d.hif with training := false, lanes := width }).pumpReads.sendPending

/-- L0P_CHANGE: in FLIT mode the link narrows one step, or widens again, up to its negotiated lanes. -/
def Dev.l0pChange (d : Dev) (up : Bool) : Dev :=
  let w := d.get hifPage F.HIF_LINK_STAT_WIDTH
  if d.get hifPage F.HIF_LINK_STAT_FLIT = 0 ∨ d.lstate > 1 ∨ !d.domOn 29 then d
  else
    let w' := if up then (if w < d.hif.lanes then 2 * w else w) else if w > 2 then w / 2 else w
    (d.set hifPage F.HIF_LINK_STAT_WIDTH w').set hifPage F.HIF_LINK_STAT_LSTATE (if w' < d.hif.lanes then 1 else 0)

/-- L1_ENTRY: no TLP is pending and no channel holds work in hand; the link enters L1, L1.1 or L1.2, a free choice that the other
end takes part in. A link in one of them already only moves among them (log entry 167). -/
def Dev.l1Entry (d : Dev) : Dev :=
  let busy := !d.hif.tags.isEmpty || !d.hif.waiting.isEmpty || (List.any d.hif.chans fun (x : Nat × Chan) => x.2.job.isSome)
  if busy || d.lstate == 5 || !d.domOn 29 then d
  else
    let (w, d) := d.free
    let d' := d.set hifPage F.HIF_LINK_STAT_LSTATE (2 + w.toNat % 3)
    if d.lstate < 2 then d'.cnt hifPage F.HIF_CNT_COUNT 6 else d'

/-- QUARANTINE_END (R349). -/
def Dev.quarantineEnd (d : Dev) (t : Nat) : Dev :=
  if Map.rd false d.hif.quarantined t then (d.quarantine t false).pumpReads else d

end Sys2Proof.Machine
end

