-- ==== Sys2Proof/Machine/Dma.lean ====
section
/-! DEFINITION. DMA channels (R354–R364): state, contexts, rings, interrupts, packets to and from the host, errors; with
completions (R349) and resets of the host interface (R350, R353). -/

namespace Sys2Proof.Machine

/-! Registers of a channel -/

def Dev.chState (d : Dev) (ch : Nat) : Nat := d.get dmaPage (F.DMA_CH_CTL_STATE.at (16 * ch))
def Dev.chPending (d : Dev) (ch : Nat) : Bool := d.get dmaPage (F.DMA_CH_CTL_PENDING.at (16 * ch)) == 1
def Dev.setChPending (d : Dev) (ch : Nat) (b : Bool) : Dev := d.set dmaPage (F.DMA_CH_CTL_PENDING.at (16 * ch)) (b2n b)
def Dev.chHead (d : Dev) (ch : Nat) : Nat := d.get dmaPage (F.DMA_CH_IDX_HEAD.at (16 * ch))

/-- Writes a channel's state; DMA_CH_ACTIVE counts those not STOPPED. -/
def Dev.setChState (d : Dev) (ch st : Nat) : Dev :=
  let old := d.chState ch
  let n := d.get dmaPage F.DMA_CH_ACTIVE_COUNT
  let n := if old = 0 ∧ st ≠ 0 then n + 1 else if old ≠ 0 ∧ st = 0 then n - 1 else n
  (d.set dmaPage (F.DMA_CH_CTL_STATE.at (16 * ch)) st).set dmaPage F.DMA_CH_ACTIVE_COUNT n

/-! Interrupts (R364) -/

/-- The channel's message is sent: it disarms and clears E. -/
def Dev.chSend (d : Dev) (ch : Nat) : Dev :=
  let x := d.chan ch
  match x.ctx with
  | some c => if c.intEn ∧ x.armed then (d.setChan ch { x with armed := false, unsig := 0 }).sendMsix c.vector else d
  | none => d

/-- A completion counts in E; at COAL_CNT, or with INT, the message is sent. -/
def Dev.chCount (d : Dev) (ch : Nat) (int : Bool) : Dev :=
  let x := d.chan ch
  let d := d.setChan ch { x with unsig := x.unsig + 1 }
  match x.ctx with
  | some c => if int ∨ x.unsig + 1 ≥ max 1 c.coalCnt then d.chSend ch else d
  | none => d

/-- COAL_TIMEOUT: COAL_US has passed since the first completion counted in E. -/
def Dev.coalTimeout (d : Dev) (ch : Nat) : Dev :=
  let x := d.chan ch
  match x.ctx with
  | some c => if x.unsig > 0 ∧ c.coalUs ≠ 0 then d.chSend ch else d
  | none => d

/-! Contexts (R355, R356) -/

/-- Writes back bytes 32–63 of a context. -/
def Dev.ctxBack (d : Dev) (ch : Nat) : Dev :=
  if d.lstate = 5 then d
  else
    let x := d.chan ch
    let base := (d.liveWord dmaPage 0x0100).toNat + (d.liveWord dmaPage 0x0104).toNat * 2 ^ 32
    let e := d.get dmaPage (F.DMA_CH_ERR_CODE.at (16 * ch))
    let i := d.get dmaPage (F.DMA_CH_ERR_IDX.at (16 * ch))
    d.postHost (base + 64 * ch + 32) (leBytes 4 (d.word dmaPage (0x4004 + 16 * ch)).toNat ++ leBytes 2 (e + i % 256 * 256) ++ [0, 0] ++
      leBytes 8 x.units ++ leBytes 8 x.bytes ++ leBytes 8 x.drops) false

/-- An entry leaves the cache, its device-owned bytes written back. -/
def Dev.dropCtx (d : Dev) (ch : Nat) : Dev := (d.ctxBack ch).setHif { d.hif with cached := d.hif.cached.filter (· ≠ ch) }

/-- Room for one more entry: the least recently used one with no descriptor in hand leaves. -/
def Dev.evict (d : Dev) : Option Dev :=
  if d.hif.cached.length < 128 then some d
  else (d.hif.cached.find? fun c => (d.chan c).job.isNone).map d.dropCtx

/-- The 64-byte entry of a channel is read (job kind 0 at a start, else 1). -/
def Dev.readCtx (d : Dev) (ch kind : Nat) : Dev :=
  let base := (d.liveWord dmaPage 0x0100).toNat + (d.liveWord dmaPage 0x0104).toNat * 2 ^ 32
  let miss := !d.hif.cached.contains ch
  match if d.d3hot then none else if miss then d.evict else some d with
  | none => d
  | some d =>
    let d := if miss then d.cnt dmaPage F.DMA_CNT_COUNT 5 else d
    let d := d.setHif { d.hif with cached := d.hif.cached.filter (· ≠ ch) ++ [ch] }
    d.startJob ch kind [(base + 64 * ch, 64)]

/-- The context is cached; where it is not, its read begins. -/
def Dev.needCtx (d : Dev) (ch : Nat) : Bool × Dev :=
  if (d.chan ch).job.isSome then (d.hif.cached.contains ch, d)
  else if d.hif.cached.contains ch then (true, d.setHif { d.hif with cached := d.hif.cached.filter (· ≠ ch) ++ [ch] })
  else (false, d.readCtx ch 1)

/-- A context as its bytes hold it. -/
def ctxOf (b : List Byte) : Ctx :=
  let n (o k : Nat) : Nat := leNat (slice b o k)
  ⟨n 0 8, n 8 1 % 4, bit (n 8 1) 2, n 9 1 % 16, n 9 1 / 16, n 10 2 % 2048, n 12 2, n 14 2, n 16 1 % 16, n 16 1 / 16 % 8, n 17 1 % 8⟩

/-- The first check of R355 that a context fails at STARTING, 0 for none. -/
def Dev.ctxCheck (d : Dev) (ch : Nat) (c : Ctx) : Nat :=
  let clash := List.any d.hif.chans fun (x : Nat × Chan) => match x.2.ctx with
    | some o => x.1 != ch && d.chState x.1 != 0 && o.typ == 2 && o.inport == c.inport && o.pg != c.pg
    | none => false
  if c.ring % 64 ≠ 0 then 1 else if c.typ = 0 then 2 else if c.ringLog < 4 then 3 else if c.bufLog > 6 then 4
  else if c.typ = 2 ∧ clash then 5 else 0

/-! Channel control (R354) -/

/-- A START that is ignored with CH_STATE (R354). -/
def Dev.chStartBad (d : Dev) (ch : Nat) : Bool := d.chState ch == 4 || (d.chState ch == 0 && !d.running dmaPage)

/-- CHANNEL_START. -/
def Dev.chStart (d : Dev) (ch : Nat) : Dev :=
  match d.chState ch with
  | 0 =>
    if !d.running dmaPage then d
    else
      let d := (d.set dmaPage (F.DMA_CH_ERR_CODE.at (16 * ch)) 0).setChState ch 1
      (d.setChan ch { d.chan ch with ctx := none, descs := [], unsig := 0, armed := false }).readCtx ch 0
  | 1 => d.setChPending ch false
  | 3 => d.setChPending ch true
  | _ => d

/-- CHANNEL_STOP. -/
def Dev.chStop (d : Dev) (ch : Nat) : Dev :=
  match d.chState ch with
  | 1 => d.setChPending ch true
  | 2 | 4 => d.setChState ch 3
  | 3 => d.setChPending ch false
  | _ => d

/-- CHANNEL_START_DONE: the context has been read and is checked. -/
def Dev.chStartDone (d : Dev) (ch : Nat) : Dev :=
  match d.chState ch, (d.chan ch).job with
  | 1, none => d.readCtx ch 0
  | 1, some j =>
    if j.kind ≠ 0 ∨ !j.whole then d
    else
      let c := ctxOf j.bytes
      let code := d.ctxCheck ch c
      let d := d.setChan ch { d.chan ch with ctx := some c, job := none, armed := c.intEn, unsig := 0, descs := [] }
      let pend := d.chPending ch
      let d := d.setChPending ch false
      if code ≠ 0 then
        let d := (d.set dmaPage (F.DMA_CH_ERR_CODE.at (16 * ch)) 3).set dmaPage (F.DMA_CH_ERR_IDX.at (16 * ch)) code
        ((d.setChState ch 0).err dmaPage 0x21).int dmaPage 2
      else
        let d := (d.setWord dmaPage (0x4004 + 16 * ch) 0).setChState ch 2
        if pend then d.setChState ch 3 else d
  | _, _ => d

/-- Ends a cached entry's wait for invalidation once nothing is in hand; BUSY clears when none is left (R356). -/
def Dev.settleInval (d : Dev) : Dev :=
  if d.get dmaPage F.DMA_CTX_INVAL_BUSY = 0 ∨ d.d3hot then d
  else
    let due := (d.hif.chans.filter fun (x : Nat × Chan) => x.2.inval).map (·.1)
    let d := due.foldl (fun d ch => if (d.chan ch).job.isSome then d
      else (d.setChan ch { d.chan ch with inval := false }).dropCtx ch) d
    if due.any fun ch => (d.chan ch).inval then d else (d.set dmaPage F.DMA_CTX_INVAL_BUSY 0).int dmaPage 0

/-- POWER_STATE_CHANGE: D3hot or D0; at a return to D0 what waited goes on (R352). -/
def Dev.powerState (d : Dev) (d3 : Bool) : Dev :=
  if !d.domOn 29 then d else (d.set hifPage F.HIF_LINK_STAT_DSTATE (if d3 then 3 else 0)).pumpReads.sendPending.settleInval

/-- DMA_CTX_INVAL.GO, the register written (R356). -/
def Dev.ctxInval (d : Dev) : Dev :=
  let all := d.get dmaPage F.DMA_CTX_INVAL_ALL = 1
  let ch := d.get dmaPage F.DMA_CTX_INVAL_CHAN
  let d := d.set dmaPage F.DMA_CTX_INVAL_BUSY 1
  let hit := d.hif.cached.filter fun c => all ∨ c = ch
  (hit.foldl (fun d c => d.setChan c { d.chan c with inval := true }) d).settleInval

/-! Descriptors (R358, R359) -/

/-- The device finishes the descriptor at HEAD: one 16-byte write, and HEAD advances. -/
def Dev.descDone (d : Dev) (ch len code dw1 : Nat) (sop eop err : Bool) : Dev :=
  let x := d.chan ch
  let h := d.chHead ch
  match x.ctx with
  | none => d
  | some c =>
    let flags := 1 + b2n sop * 2 + b2n eop * 4 + b2n err * 8
    let int := match x.descs.head? with | some e => bit e.flags 2 && c.typ != 1 | none => false
    let d := d.postHost (c.ring + 16 * (h % 2 ^ c.ringLog)) (leBytes 2 len ++ leBytes 1 flags ++ leBytes 1 code ++ leBytes 4 dw1 ++ leBytes 8 0) false
    let d := d.set dmaPage (F.DMA_CH_IDX_HEAD.at (16 * ch)) ((h + 1) % 65536)
    (d.setChan ch { d.chan ch with descs := x.descs.drop 1 }).chCount ch int

/-- The descriptors at the front that one FROM_HOST packet takes, and whether it keeps the limits of R361. None: its last
descriptor has not been read. -/
def packetSpan (l : List Desc) : Option (Nat × Bool) :=
  let sop (e : Desc) : Bool := bit e.flags 0
  let eop (e : Desc) : Bool := bit e.flags 1
  match l with
  | [] => none
  | a :: r =>
    let n := (r.takeWhile fun e => !sop e && !eop e).length
    let span : Option (Nat × Bool) :=
      if eop a then some (1, sop a)
      else match r[n]? with
        | none => if n + 1 > 16 then some (n + 1, false) else none
        | some e => if sop e then some (n + 1, false) else some (n + 2, sop a)
    span.map fun s =>
      let lens : List Nat := (l.take s.1).map (·.len)
      (s.1, s.2 && decide (s.1 ≤ 16) && lens.all (fun x => decide (1 ≤ x) && decide (x ≤ 16384)) && decide (60 ≤ lens.sum) && decide (lens.sum ≤ 15996))

/-- FROM_HOST descriptors are taken (R361, R74). -/
def Dev.injectOpen (d : Dev) (c : Ctx) : Bool := (d.mode == 2 || d.mode == 5) && d.running (pgPage c.pg)

/-- A channel goes on to read what its front descriptors name (R361, R362); those that break a limit complete with BAD_LEN. -/
def Dev.nextData (d : Dev) (ch : Nat) : Nat → Dev
  | 0 => d
  | fuel + 1 =>
    let x := d.chan ch
    if x.job.isSome ∨ d.chState ch ≠ 2 ∨ d.hostShut then d
    else match x.ctx, x.descs with
      | some c, e :: _ =>
        if c.typ = 2 then
          if !d.injectOpen c then d
          else match packetSpan x.descs with
          | none => d
          | some (n, true) => d.startJob ch 3 ((x.descs.take n).map fun e => (e.addr, e.len))
          | some (n, false) =>
            ((x.descs.take n).foldl (fun d e => d.descDone ch 0 3 0 (bit e.flags 0) (bit e.flags 1) true) d).nextData ch fuel
        else if c.typ = 3 then
          if e.len % 8 = 0 ∧ 8 ≤ e.len ∧ e.len ≤ 65528 then d.startJob ch 3 [(e.addr, e.len)]
          else (d.descDone ch 0 3 0 false false true).nextData ch fuel
        else d
      | _, _ => d

/-- The channel goes on with the descriptors it has read, each of which leaves or starts a job. -/
def Dev.goOn (d : Dev) (ch : Nat) : Dev := d.nextData ch ((d.chan ch).descs.length + 1)

/-- DESCRIPTOR_FETCH: a batch of up to 8 descriptors is read, after the context where it is not cached (R356, R358). -/
def Dev.descFetch (d : Dev) (ch : Nat) : Dev :=
  let x := d.chan ch
  if d.chState ch ≠ 2 ∨ x.job.isSome ∨ d.hostShut then d
  else match d.needCtx ch, x.ctx with
    | (true, d), some c =>
      let at_ := (d.chHead ch + x.descs.length) % 65536
      let ready := d.chFree ch - x.descs.length
      let size := 2 ^ c.ringLog
      let n := min 8 (min ready (size - at_ % size))
      if n = 0 ∨ (c.typ = 2 ∧ !d.injectOpen c) then d.goOn ch
      else d.startJob ch 2 [(c.ring + 16 * (at_ % size), 16 * n)]
    | (_, d), _ => d

/-- The descriptors of a batch. -/
def descsOf (b : List Byte) : List Desc :=
  (List.range (b.length / 16)).map fun i =>
    ⟨leNat (slice b (16 * i) 8), leNat (slice b (16 * i + 8) 2), leNat (slice b (16 * i + 10) 1)⟩

/-- A job whose last piece has come: a context or a batch is taken in at once. -/
def Dev.jobDone (d : Dev) (ch : Nat) : Dev :=
  let x := d.chan ch
  match x.job with
  | none => d
  | some j =>
    if !j.whole then d
    else if j.kind = 1 then (d.setChan ch { x with job := none, ctx := some (ctxOf j.bytes) }).settleInval
    else if j.kind = 2 then ((d.setChan ch { x with job := none, descs := x.descs ++ descsOf j.bytes }).goOn ch).settleInval
    else d

/-! Errors (R363) -/

/-- The channel no longer waits for a cell. -/
def Dev.unwaitInject (d : Dev) (ch : Nat) : Dev :=
  (List.range 2).foldl (fun d die => d.setBpm die { d.bpm die with waits := (d.bpm die).waits.filter fun w => w.2 ≠ .inject ch }) d

/-- A read for a channel has failed, or the link went down under its work (`code` 4). -/
def Dev.chError (d : Dev) (ch code : Nat) : Dev :=
  let x := d.chan ch
  let st := d.chState ch
  let hand := match x.job with | some j => j.kind == 3 | none => false
  let d := (d.dropJob ch).unwaitInject ch
  let d := (d.set dmaPage (F.DMA_CH_ERR_CODE.at (16 * ch)) code).set dmaPage (F.DMA_CH_ERR_IDX.at (16 * ch)) (d.chHead ch)
  let d := match x.descs.head? with
    | some e => if hand ∧ !d.hostShut then d.descDone ch 0 code 0 (bit e.flags 0) (bit e.flags 1) true else d
    | none => d
  let d := d.setChan ch { d.chan ch with descs := [] }
  let d := if st = 3 then d else (d.setChState ch 4).setChPending ch false
  ((d.int dmaPage 1).chSend ch).settleInval

/-- A read ends with an error: its tag serves nobody any more, and its channel stops on it. -/
def Dev.readFails (d : Dev) (r : ReadTag) (code : Nat) : Dev := if r.piece = 65535 then d else d.chError r.ch code

/-- COMPLETION: data, or an error, for a tag (R349). -/
def Dev.completion (d : Dev) (t : Nat) (ok : Bool) (data : List Byte) : Dev :=
  if !d.domOn 29 then d
  else match Map.rd none d.hif.tags t with
    | none =>
      if Map.rd false d.hif.quarantined t then (d.cnt hifPage F.HIF_CNT_COUNT 2).int hifPage 1
      else d.cnt hifPage F.HIF_CNT_COUNT 3
    | some r =>
      if !ok then (((d.setReadTag t none).cnt hifPage F.HIF_CNT_COUNT 4).readFails r 1).pumpReads
      else if r.got.length + data.length < r.len then d.setReadTag t (some { r with got := r.got ++ data })
      else
        let d := d.setReadTag t none
        if r.piece = 65535 then d.pumpReads
        else
          let x := d.chan r.ch
          match x.job with
          | none => d.pumpReads
          | some j =>
            let ps := match j.pieces[r.piece]? with
              | some p => j.pieces.set r.piece { p with data := some ((r.got ++ data).take r.len) }
              | none => j.pieces
            ((d.setChan r.ch { x with job := some { j with pieces := ps } }).jobDone r.ch).pumpReads

/-- COMPLETION_TIMEOUT: the read ends with TIMEOUT, and its tag is quarantined (R348, R349). -/
def Dev.completionTimeout (d : Dev) (t : Nat) : Dev :=
  match Map.rd none d.hif.tags t with
  | none => d
  | some r =>
    let d := ((d.setReadTag t none).quarantine t true).cnt hifPage F.HIF_CNT_COUNT 1
    let d := ((d.int hifPage 0).emit (.aer 0x4000)).event hifPage 7 5 t r.ch 0
    (d.readFails r 2).pumpReads

/-- Every outstanding read ends and its tag is quarantined; how many there were. -/
def Dev.endReads (d : Dev) : Nat × Dev :=
  let ts := List.map (·.1) d.hif.tags
  (ts.length, ts.foldl (fun d t => (d.setReadTag t none).quarantine t true) d)

/-- PCIE_DOWN: the link is declared down (R350, R363). -/
def Dev.pcieDown (d : Dev) : Dev :=
  if !d.domOn 29 ∨ d.lstate = 5 then d
  else
    let d := (d.set hifPage F.HIF_LINK_STAT_LSTATE 5).cnt hifPage F.HIF_CNT_COUNT 7
    let d := (d.cnt hifPage F.HIF_CNT_COUNT 5).int hifPage 2
    let (n, d) := d.endReads
    let d := d.event hifPage 8 5 n 0 0
    ((List.filter (fun (x : Nat × Chan) => x.2.job.isSome) d.hif.chans).map (·.1)).foldl (fun d ch => d.chError ch 4) d

/-- A page's registers return to reset, its common header apart (R353). -/
def Dev.resetBody (d : Dev) (p : Nat) : Dev :=
  let lo := csrKey p 0x100
  let hi := csrKey (p + 1) 0
  { d with csr := ⟨d.csr.words.dropRange lo hi, d.csr.inForce.dropRange lo hi, d.csr.latches.dropRange lo hi, d.csr.held.dropRange lo hi⟩ }

/-- FUNCTION_LEVEL_RESET (R353). -/
def Dev.flr (d : Dev) : Dev :=
  if !d.domOn 29 then d
  else
    let link := d.word hifPage 0x0100
    let d := (List.range 2).foldl (fun d die =>
      d.setBpm die { d.bpm die with waits := (d.bpm die).waits.filter fun w => match w.2 with | .inject _ => false | _ => true }) d
    let (_, d) := d.endReads
    let d := d.setHif { d.hif with chans := [], cached := [], waiting := [], tenBit := false, maxRead := 512, roEn := true, idoEn := false }
    let d := ((d.resetBody hifPage).resetBody dmaPage).setWord hifPage 0x0100 link
    let d := (d.set hifPage F.HIF_LINK_STAT_DSTATE 0).showTags
    let d := { d with msix := ⟨[], []⟩ }
    (d.setFn dmaPage 0 0).setFn hifPage 2 0

/-- HOT_RESET: acts as FLR and takes the link down; `perst` where PCIE_PERST_N is asserted (R353). -/
def Dev.hotReset (d : Dev) (perst : Bool) : Dev :=
  let d := d.flr
  if !d.domOn 29 then d.setHif { d.hif with perst := d.hif.perst || perst }
  else (d.set hifPage F.HIF_LINK_STAT_LSTATE 5).setHif { d.hif with perst := d.hif.perst || perst, training := !(d.hif.perst || perst) }

/-- CHANNEL_STOP_DONE: the descriptor in hand is finished, and the channel goes to STOPPED (R354). -/
def Dev.chStopDone (d : Dev) (ch : Nat) : Dev :=
  if d.chState ch ≠ 3 ∨ d.d3hot then d
  else
    let x := d.chan ch
    let busy := match x.job, x.ctx with
      | some j, some c => j.kind = 3 && !(c.typ == 2 && !d.injectOpen c)
      | _, _ => false
    if busy then d
    else
      let d := (d.dropJob ch).unwaitInject ch
      let d := ((d.setChan ch { d.chan ch with descs := [] }).ctxBack ch).setChState ch 0
      let d := d.settleInval
      if d.chPending ch then (if d.chStartBad ch then (d.setChPending ch false).err dmaPage 0x23 else (d.setChPending ch false).chStart ch) else d

/-- The DMA function stops: every channel does (R354). -/
def Dev.stopDma (d : Dev) : Dev :=
  (List.range 1024).foldl (fun d ch => match d.chState ch with
    | 1 => d.setChPending ch true
    | 2 | 4 => d.setChState ch 3
    | 3 => d.setChPending ch false
    | _ => d) d

/-! Doorbells (R357, R364) -/

/-- The kind that a doorbell write of `v` is ignored with: CH_STATE, or DB_OVER for a TAIL past the ring (R357). -/
def Dev.bellBad (d : Dev) (ch v : Nat) (tail : Bool) : Option Nat :=
  let size := match (d.chan ch).ctx with | some c => 2 ^ c.ringLog | none => 0
  if d.chState ch ≠ 2 then some 0x23
  else if tail ∧ (v + 65536 - d.chHead ch) % 65536 > size then some 0x22
  else none

/-- DB_TAIL. -/
def Dev.dbTail (d : Dev) (ch v : Nat) : Dev :=
  if (d.bellBad ch v true).isSome then d else d.set dmaPage (F.DMA_CH_IDX_TAIL.at (16 * ch)) v

/-- DB_ARM: the channel re-arms; completions the host has not seen send the message at once (R364). -/
def Dev.dbArm (d : Dev) (ch v : Nat) : Dev :=
  if (d.bellBad ch v false).isSome then d
  else
    let d := d.setChan ch { d.chan ch with armed := true }
    if d.chHead ch ≠ v then d.chSend ch else d

/-! Packets to the host (R360) -/

/-- A packet for a channel is dropped: a punt, or a host-port packet, whose holder lets go. -/
def Dev.puntDrop (d : Dev) (p : Punt) : Dev :=
  let d := d.setChan p.ch { d.chan p.ch with drops := (d.chan p.ch).drops + 1 }
  match p.held with
  | some (q, e) => (d.cnt dmaPage F.DMA_CNT_COUNT 4).dropEnt q e
  | none => ((d.tally dmaPage (F.DMA_CNT_COUNT.at 12)).tally dmaPage (F.DMA_CH_DROP_COUNT.at (16 * p.ch))).freePkt p.pkt

/-- Pieces of `n` bytes. -/
def chunks (n : Nat) : Nat → List Byte → List (List Byte)
  | 0, _ => []
  | k + 1, l => if l.length ≤ n then [l] else l.take n :: chunks n k (l.drop n)

/-- The holder of a host-path packet lets go of it (R199). -/
def Dev.puntLetGo (d : Dev) (p : Punt) : Dev :=
  match p.held with
  | some (q, e) => d.dropEnt q e
  | none => d.freePkt p.pkt

/-- PUNT_DELIVERY: the packet that leaves the host path's staging next, where it is this channel's, is delivered or dropped; it
waits for its frame's end, and one that proves bad is dropped under R14. -/
def Dev.puntDelivery (d : Dev) (ch : Nat) : Dev :=
  match d.hif.staged with
  | [] => d
  | h :: rest =>
    let p := h.punt
    if p.ch ≠ ch ∨ !d.domOn 29 then d
    else
      let gone := d.setHif { d.hif with staged := rest }
      let x := d.chan ch
      if d.arriving p.pkt.owner then d
      else if d.isBad p.pkt.owner then (gone.badDrop p.pkt.owner).puntLetGo p
      else if d.chState ch ≠ 2 ∨ d.d3hot then gone.puntDrop p
      else if d.lstate = 5 then d
      else match d.needCtx ch, x.ctx with
        | (true, _), some c =>
          if c.typ ≠ 1 then gone.puntDrop p
          else
            let (body, g) := match p.held with
              | some (_, e) => gone.entBytes 0 e
              | none => ((gone.chainBytes p.pkt.first).take p.pkt.len, gone)
            let all := p.record ++ body
            let size := 2 ^ (c.bufLog + 8)
            let n := cdiv all.length size
            if d.chFree ch < n then gone.puntDrop p
            else if x.descs.length < n then d
            else
              let g := g.setHif { g.hif with cached := g.hif.cached.filter (· ≠ ch) ++ [ch] }
              let bufs := (x.descs.take n).zip (chunks size n all)
              let g := bufs.foldl (fun g y => g.postHost y.1.addr y.2 true) g
              let dw := p.src + p.reason % 64 * 8 + p.pkt.inport % 256 * 512 + p.hport * 2 ^ 17
              let g := (List.range n).foldl (fun g i =>
                g.descDone ch ((bufs.getD i (⟨0, 0, 0⟩, [])).2.length) 0 dw (i = 0) (i + 1 = n) false) g
              let g := g.setChan ch { g.chan ch with units := (g.chan ch).units + 1, bytes := (g.chan ch).bytes + all.length }
              (g.cnt dmaPage F.DMA_CNT_COUNT 0).puntLetGo p
        | (_, d), _ => d

/-! Packets from the host (R361) -/

/-- INJECT: the packet whose bytes have come is written to cells and its head placed in the PG's intake queue. -/
def Dev.inject (d : Dev) (ch : Nat) : Dev :=
  let x := d.chan ch
  match x.ctx, x.job, packetSpan x.descs with
  | some c, some j, some (n, true) =>
    let die := c.pg / 8
    let waits := (List.range 2).any fun die => (d.bpm die).waits.any fun w => w.2 = .inject ch
    if (d.chState ch ≠ 2 ∧ d.chState ch ≠ 3) ∨ d.hostShut ∨ c.typ ≠ 2 ∨ j.kind ≠ 3 ∨ !j.whole ∨ !d.injectOpen c ∨ waits ∨ (d.pg c.pg).depth ≥ 1024 then d
    else
      let b := j.bytes
      match d.newChain die 12 b with
      | (none, d) => d.waitCell die 12 (.inject ch)
      | (some f, d) =>
        let k : Pkt := ⟨f, f, b.length, b.length + 4, 144 + c.inport, c.pg, c.lane, 0, false⟩
        let d := d.takeIntake c.lane ⟨k, slice b 0 256, d.time.sec, d.time.ns, none⟩
        let d := d.setChan ch { d.chan ch with job := none }
        let d := (x.descs.take n).foldl (fun d e => d.descDone ch e.len 0 0 (bit e.flags 0) (bit e.flags 1) false) d
        let d := d.setChan ch { d.chan ch with units := (d.chan ch).units + 1, bytes := (d.chan ch).bytes + b.length }
        ((d.cnt dmaPage F.DMA_CNT_COUNT 1).goOn ch).settleInval
  | _, _, _ => d

/-- A cell is granted to a channel that waited: its inject runs again (R203). -/
def Dev.injectGranted (d : Dev) (ch : Nat) : Dev := d.inject ch

end Sys2Proof.Machine
end

