-- ==== Sys2Proof/Machine/Fabric.lean ====
section
/-! DEFINITION. The engine fabric: from intake to a thread (R98), stealing (R101–R103, R148), tickets, completion and
retirement (R100, R104–R110), rule epochs (R155, R156) and the ORD's function control (R111). -/

namespace Sys2Proof.Machine

/-! Threads, local queues and ordering units -/

def Dev.setEng (d : Dev) (e : Engine) : Dev := { d with eng := e }
def Dev.thread (d : Dev) (t : Nat) : Thread := Map.rd Thread.init d.eng.threads t
def Dev.setThread (d : Dev) (t : Nat) (x : Thread) : Dev := d.setEng { d.eng with threads := d.eng.threads.wr Thread.init t x }
def Dev.engQueue (d : Dev) (c : Nat) : List Head := Map.rd [] d.eng.queues c
def Dev.ord (d : Dev) (die : Nat) : Ord := Map.rd Ord.init d.eng.ords die

/-- A cluster's local queue, with what ENG_QUEUE shows of it. -/
def Dev.setEngQueue (d : Dev) (c : Nat) (l : List Head) : Dev :=
  let d := d.setEng { d.eng with queues := d.eng.queues.wr [] c l }
  (d.set (engPage c) F.ENG_QUEUE_DEPTH l.length).peak (engPage c) F.ENG_QUEUE_PEAK l.length

/-- An ordering unit, with what ORD_READY and ORD_SLOTS show of it. -/
def Dev.setOrd (d : Dev) (die : Nat) (o : Ord) : Dev :=
  let d := d.setEng { d.eng with ords := d.eng.ords.wr Ord.init die o }
  let p := ordPage die
  ((d.set p F.ORD_READY_DEPTH o.ready.length).set p F.ORD_SLOTS_USED o.slots.length).peak p F.ORD_SLOTS_PEAK o.slots.length

def Ord.domain (o : Ord) (k : Nat) : Domain := Map.rd ⟨0, 0⟩ o.domains k
def Ord.setDomain (o : Ord) (k : Nat) (x : Domain) : Ord := { o with domains := o.domains.wr ⟨0, 0⟩ k x }
def Ord.slot (o : Ord) (s : Nat) : Slot := Map.rd Slot.init o.slots s
def Ord.setSlot (o : Ord) (s : Nat) (x : Slot) : Ord := { o with slots := o.slots.wr Slot.init s x }
def Dev.setSlot (d : Dev) (die s : Nat) (x : Slot) : Dev := d.setOrd die ((d.ord die).setSlot s x)
def Dev.ordCnt (d : Dev) (die k : Nat) (n : Nat := 1) : Dev := d.bump (ordPage die) (F.ORD_CNT_COUNT.at (4 * k)) n
def Dev.engCnt (d : Dev) (c k : Nat) (n : Nat := 1) : Dev := d.bump (engPage c) (F.ENG_CNT_COUNT.at (4 * k)) n

/-- The slot of a domain's ticket. -/
def Ord.find (o : Ord) (dom ticket : Nat) : Option Nat :=
  (List.find? (fun (x : Nat × Slot) => x.2.state ≠ 0 && x.2.dom = dom && x.2.ticket = ticket) o.slots).map (·.1)

/-- The lowest slot not in use. -/
def freeSlot : Nat → Map Slot → Nat
  | n, [] => n
  | n, (k, _) :: r => if k = n then freeSlot (n + 1) r else n

/-- A domain whose oldest outstanding ticket is DONE or VOID joins the ready list (R106). -/
def Dev.joinReady (d : Dev) (die dom : Nat) : Dev :=
  let o := d.ord die
  match o.find dom (o.domain dom).nextRetire with
  | none => d
  | some s =>
    if (o.slot s).state ≥ 2 ∧ !o.ready.contains dom then d.setOrd die { o with ready := o.ready ++ [dom] } else d

/-! From intake to a thread -/

/-- Heads in flight of an epoch (R155). -/
def Dev.epochAdd (d : Dev) (die e : Nat) : Dev :=
  let f := F.ORD_EPOCH_INFL_COUNT.at (4 * e)
  d.set (ordPage die) f (d.get (ordPage die) f + 1)

/-- A ticket of the epoch retires; INT_STAT.BLK bit 4 when the non-current epoch drains (R156). -/
def Dev.epochSub (d : Dev) (die e : Nat) : Dev :=
  let p := ordPage die
  let n := d.get p (F.ORD_EPOCH_INFL_COUNT.at (4 * e)) - 1
  let d := d.set p (F.ORD_EPOCH_INFL_COUNT.at (4 * e)) n
  if n = 0 ∧ e ≠ d.get p F.ORD_EPOCH_CUR then d.int p 4 else d

/-- The ORD that issues a packet's ticket (R100). -/
def Dev.issuingOrd (d : Dev) (k : Pkt) : Nat :=
  if k.inport < 128 then k.inport / 64 else if k.inport < 144 then (d.trunkHome (k.inport - 128)).getD (k.pg / 8) else k.pg / 8

/-- A head takes a ticket and a slot, held by cluster `c`; none while every slot is in use (R100, R155). -/
def Dev.takeTicket (d : Dev) (c : Nat) (h : Head) : Option (Head × Dev) :=
  let die := d.issuingOrd h.pkt
  let o := d.ord die
  if o.slots.length ≥ 32768 then none
  else
    let dom := h.pkt.inport * 4096 + leNat (slice h.md 8 4) % 4096
    let x := o.domain dom
    let s := freeSlot 0 o.slots
    let e := d.get (ordPage die) F.ORD_EPOCH_CUR
    let o := (o.setDomain dom { x with nextIssue := (x.nextIssue + 1) % 65536 }).setSlot s ⟨1, dom, x.nextIssue, e, false, c, h.pkt, none⟩
    let d := ((d.setOrd die o).ordCnt die 0).epochAdd die e
    let d := if o.slots.length = 32768 then d.int (ordPage die) 1 else d
    some ({ h with ord := die, slot := s, dom := dom, ticket := x.nextIssue, epoch := e }, d)

/-- The RUNNING home cluster of a PG with the shortest local queue that has room (R98). -/
def Dev.pickHome (d : Dev) (pg : Nat) : Option Nat × Dev :=
  let cs := (List.range 4).map (4 * pg + ·) |>.filter fun c => d.running (engPage c) && decide ((d.engQueue c).length < 32)
  let least := (cs.map fun c => (d.engQueue c).length).foldl min 32
  d.grant (Rr.homeCluster pg) 64 (cs.filter fun c => (d.engQueue c).length = least)

/-- The cluster that holds a head is recorded in its slot (R395). -/
def Dev.noteCluster (d : Dev) (h : Head) (c : Nat) : Dev :=
  let x := (d.ord h.ord).slot h.slot
  if x.state = 1 ∧ x.dom = h.dom ∧ x.ticket = h.ticket then d.setSlot h.ord h.slot { x with cluster := c } else d

/-- A head reaches a home cluster's local queue. -/
def Dev.handHead (d : Dev) (c : Nat) (h : Head) : Dev := (d.setEngQueue c (d.engQueue c ++ [h])).engCnt c 0

/-- HEAD_DISPATCH: the next head of a PG goes to a home cluster; recirculated heads first (R98, R110). -/
def Dev.headDispatch (d : Dev) (pg : Nat) (ecc : Ecc) : Dev :=
  let x := d.pg pg
  if !d.active (pgPage pg) then d
  else match d.pickHome pg with
    | (none, _) => d
    | (some c, d') =>
      match x.recirc, x.intake with
      | h :: r, _ => ((d'.setPg pg { x with recirc := r }).noteCluster h c).handHead c h
      | [], [] => d
      | [], h :: r =>
        let d' := d'.eccCount 8 (pg / 8) ecc
        if ecc = .bad then ((d'.setPg pg { x with intake := r, heldCounted := false }).event (pgPage pg) 13 1 h.pkt.inport 0 0).freePkt h.pkt
        else
          match d'.takeTicket c h with
          | none =>
            if x.heldCounted then d else (d.setPg pg { x with heldCounted := true }).ordCnt (d.issuingOrd h.pkt) 8
          | some (h, d') => (d'.setPg pg { x with intake := r, heldCounted := false }).handHead c h

/-- FREE threads of an engine of a cluster. -/
def Dev.freeOf (d : Dev) (c e : Nat) : List Nat := (List.range 8).filter fun t => (d.thread (128 * c + 8 * e + t)).st = 0

/-- FREE threads of a cluster. -/
def Dev.freeThreads (d : Dev) (c : Nat) : Nat := ((List.range 16).map fun e => (d.freeOf c e).length).sum

/-- HEAD_TO_THREAD: the first head of a local queue goes to the engine with the most FREE threads (R98). -/
def Dev.headToThread (d : Dev) (c : Nat) : Dev :=
  match d.engQueue c with
  | [] => d
  | h :: r =>
    let most := ((List.range 16).map fun e => (d.freeOf c e).length).foldl max 0
    if most = 0 ∨ !d.active (engPage c) then d
    else
      match d.grant (Rr.engine c) 16 ((List.range 16).filter fun e => (d.freeOf c e).length = most) with
      | (none, _) => d
      | (some e, d) =>
        let t := 128 * c + 8 * e + (d.freeOf c e).headD 0
        (d.setEngQueue c r).setThread t { Thread.init with st := 1, head := some h }

/-- THREAD_LOAD_DONE: the thread is READY at its pass's entry (R115, R154). -/
def Dev.threadLoadDone (d : Dev) (t : Nat) : Dev :=
  let x := d.thread t
  match x.head with
  | none => d
  | some h =>
    if x.st ≠ 1 then d
    else
      let p := engPage (t / 128)
      d.setThread t { x with st := 2, upc := d.get p (if h.pass2 then F.ENG_IMG_ENTRY_ENTRY2 else F.ENG_IMG_ENTRY_ENTRY1) }

/-! Work stealing -/

/-- VALID, and the image tag of a cluster (R147, R148). -/
def Dev.imageOf (d : Dev) (c : Nat) : Option (Word × Word) :=
  if d.get (engPage c) F.ENG_IMG_STAT_VALID = 1 then some (d.word (engPage c) 0x408, d.word (engPage c) 0x40C) else none

/-- A cluster is a thief (R101, R148). -/
def Dev.isThief (d : Dev) (c : Nat) : Bool :=
  d.running (engPage c) && d.get (engPage c) F.ENG_CFG_STEAL_EN == 1 && (d.engQueue c).isEmpty &&
    decide (d.freeThreads c ≥ d.get (engPage c) F.ENG_CFG_MIN_FREE) && (d.imageOf c).isSome

/-- The victims of a thief on die `die`, `f` naming the threshold. -/
def Dev.victims (d : Dev) (c die : Nat) (f : Fld) : List Nat :=
  ((List.range 32).map (32 * die + ·)).filter fun v => v ≠ c && d.running (engPage v) &&
    decide ((d.engQueue v).length ≥ d.get (engPage v) f) && decide (d.imageOf v = d.imageOf c)

/-- The victim with the deepest queue; ties by R17. -/
def Dev.pickVictim (d : Dev) (c : Nat) (vs : List Nat) : Option Nat × Dev :=
  let deep := (vs.map fun v => (d.engQueue v).length).foldl max 0
  d.grant (Rr.victim c) 64 (vs.filter fun v => (d.engQueue v).length = deep)

/-- `n` heads move from the tail of the victim's queue to the thief's (R102); `k` is the thief's count. -/
def Dev.moveHeads (d : Dev) (c v n k : Nat) : Dev :=
  let q := d.engQueue v
  let got := q.drop (q.length - n)
  let d := (d.setEngQueue v (q.take (q.length - n))).setEngQueue c (d.engQueue c ++ got)
  ((got.foldl (fun d h => d.noteCluster h c) d).engCnt c k n).engCnt v 3 n

/-- Heads a steal takes: BATCH, and always one less than the victim holds. -/
def Dev.stealSize (d : Dev) (c v : Nat) : Nat := min (d.get (engPage c) F.ENG_CFG_BATCH) ((d.engQueue v).length - 1)

/-- NEAR_STEAL. -/
def Dev.nearSteal (d : Dev) (c : Nat) : Dev :=
  if !d.isThief c then d
  else match d.pickVictim c (d.victims c (c / 32) F.ENG_STEAL_THR_NEAR) with
    | (none, _) => d
    | (some v, d) => d.moveHeads c v (d.stealSize c v) 1

/-- FAR_STEAL: only where no near victim exists, and under the allowance of R103. The allowance and ORD_CNT[9] are in
heads (log entry 78). -/
def Dev.farSteal (d : Dev) (c : Nat) : Dev :=
  let die := c / 32
  let o := d.ord die
  let cap := d.get (ordPage die) F.ORD_FAR_CAP_HEADS
  let vs := d.victims c (1 - die) F.ENG_STEAL_THR_FAR
  if !d.isThief c || !(d.victims c die F.ENG_STEAL_THR_NEAR).isEmpty || d.get (engPage c) F.ENG_CFG_FAR_EN = 0 ||
      o.farRefused.contains c || cap = 0 || vs.isEmpty || !d.domOn 27 then d
  else if o.farUsed ≥ cap then (d.setOrd die { o with farRefused := o.farRefused ++ [c] }).ordCnt die 10
  else match d.pickVictim c vs with
    | (none, _) => d
    | (some v, d) =>
      let n := min (d.stealSize c v) (cap - o.farUsed)
      ((d.setOrd die { d.ord die with farUsed := o.farUsed + n }).ordCnt die 9 n).moveHeads c v n 2

/-- FAR_ALLOWANCE_RESET: a 1 µs interval of the nanosecond count begins. -/
def Dev.farReset (d : Dev) (die : Nat) : Dev := d.setOrd die { d.ord die with farUsed := 0, farRefused := [] }

/-! Completion (R106, R109) -/

/-- A pass's completion report leaves for the issuing ORD. -/
def Dev.sendReport (d : Dev) (h : Head) (e : Ending) : Dev :=
  let o := d.ord h.ord
  d.setOrd h.ord { o with reports := o.reports ++ [⟨h.slot, h.dom, h.ticket, false, e⟩] }

/-- The head's slot still waits for its pass. -/
def Dev.slotWaits (d : Dev) (h : Head) : Bool :=
  let x := (d.ord h.ord).slot h.slot
  x.state == 1 && x.dom == h.dom && x.ticket == h.ticket

/-- A report for a slot that no longer waits is discarded and its cells are freed (R109, R395). The head of a RECIRCULATE report
has gone on to its second pass, whose end is the orphan report of the packet (log entry 158). -/
def Dev.orphan (d : Dev) (die : Nat) (r : Report) : Dev :=
  if r.lost then d.bump 0x04 (F.ERR_MISC_CNT_COUNT.at 12)
  else if r.ending.kind = 4 then d
  else ((d.freePkt r.ending.pkt).ordCnt die 7).int (ordPage die) 2

/-- The punt of an ending goes to the host path. -/
def Dev.puntEnding (d : Dev) (die : Nat) (e : Ending) : Dev :=
  (d.handPunt ⟨e.arg, e.src, e.reason, e.md, 0, e.pkt, none⟩).ordCnt die 3

/-- complete (R106): a report for a PENDING slot. -/
def Dev.complete (d : Dev) (die s : Nat) (e : Ending) : Dev :=
  let x := (d.ord die).slot s
  if e.kind = 4 then (d.setSlot die s { x with pass2 := true }).ordCnt die 5
  else if e.kind = 2 then (((d.freePkt e.pkt).ordCnt die 2).setSlot die s { x with state := 3 }).joinReady die x.dom
  else if e.kind = 3 ∧ d.live (ordPage die) F.ORD_CFG_PUNT_ORDER = 0 then
    ((d.puntEnding die e).setSlot die s { x with state := 3 }).joinReady die x.dom
  else (d.setSlot die s { x with state := 2, pkt := e.pkt, ending := some e }).joinReady die x.dom

/-- COMPLETION_REPORT: the first report on its way for a slot arrives. -/
def Dev.completionReport (d : Dev) (die s : Nat) : Dev :=
  let o := d.ord die
  match o.reports.find? (·.slot = s) with
  | none => d
  | some r =>
    let d := d.setOrd die { o with reports := o.reports.erase r }
    let x := o.slot s
    if x.state = 1 ∧ x.dom = r.dom ∧ x.ticket = r.ticket then d.complete die s r.ending else d.orphan die r

/-! Retirement (R14, R106) -/

/-- hand_on; none while the taker is full. -/
def Dev.handOn (d : Dev) (die : Nat) (e : Ending) : Option Dev :=
  if e.kind = 3 then some (d.puntEnding die e)
  else if d.isBad e.pkt.owner then some (((d.badDrop e.pkt.owner).freePkt e.pkt).ordCnt die 4)
  else
    let r : Option Dev := if e.kind = 1 then d.handMulticast die e.arg e.pkt
      else d.handUnicast die 0 ⟨e.arg, e.color, e.pkt, false, false, 0⟩
    r.map fun d => d.ordCnt die 1

/-- The front domain's ticket leaves its slot; the domain rejoins at the tail. -/
def Dev.passTicket (d : Dev) (die dom s : Nat) : Dev :=
  let o := d.ord die
  let x := o.slot s
  let n := o.domain dom
  let o := (({ o with ready := o.ready.erase dom }).setSlot s Slot.init).setDomain dom { n with nextRetire := (n.nextRetire + 1) % 65536 }
  ((d.setOrd die o).epochSub die x.epoch).joinReady die dom

/-- TICKET_RETIRE: the ticket at the front of the ready list. -/
def Dev.ticketRetire (d : Dev) (die : Nat) : Dev :=
  let o := d.ord die
  if !d.active (ordPage die) then d
  else match o.ready with
    | [] => d
    | dom :: _ =>
      match o.find dom (o.domain dom).nextRetire with
      | none => d
      | some s =>
        let x := o.slot s
        let gone : Option Dev := match x.state, x.ending with
          | 2, some e => d.handOn die e
          | _, _ => some d
        match gone with
        | none => d
        | some d => d.passTicket die dom s

/-- A PENDING slot becomes VOID (R109). -/
def Dev.voidSlot (d : Dev) (die s : Nat) : Dev :=
  let x := (d.ord die).slot s
  (d.setSlot die s { x with state := 3 }).joinReady die x.dom

/-- TICKET_AGED: the oldest outstanding ticket of a domain is still PENDING at the limit. -/
def Dev.ticketAged (d : Dev) (die s : Nat) : Dev :=
  let o := d.ord die
  let x := o.slot s
  if x.state = 1 ∧ (o.domain x.dom).nextRetire = x.ticket then ((d.voidSlot die s).ordCnt die 6).int (ordPage die) 0 else d

/-- SLOT_UE: an uncorrectable ticket slot; its packet is treated as aged, but for the count (R109, R394). -/
def Dev.slotUe (d : Dev) (die s : Nat) : Dev :=
  let x := (d.ord die).slot s
  let d := d.eccCount 5 die .bad
  if x.state = 0 then d
  else
    let d := if x.state = 2 then d.freePkt x.pkt else d
    let d := if x.state = 3 then d else (d.voidSlot die s).int (ordPage die) 0
    ((d.ordCnt die 11).int (ordPage die) 3).err (ordPage die) 0x21 s

/-! Recirculation (R110) -/

/-- The head of a RECIRCULATE outcome joins its PG's recirculation queue; where its ticket has been voided, its report ends the
packet, as one of a drop would (R109). -/
def Dev.enqueueRecirc (d : Dev) (pg : Nat) (h : Head) : Dev :=
  let x := d.pg pg
  if d.slotWaits h then
    (d.setPg pg { x with recirc := x.recirc ++ [{ h with pass2 := true }] }).sendReport h ⟨4, pg, 0, 0, 0, h.pkt, h.md⟩
  else d.sendReport h ⟨2, pg, 0, 0, 0, h.pkt, h.md⟩

/-- RECIRC_ENQUEUE: a thread in HOLD_RECIRC finds a place. -/
def Dev.recircEnqueue (d : Dev) (t : Nat) : Dev :=
  let x := d.thread t
  match x.head, x.ended with
  | some h, some e =>
    if x.st ≠ 4 ∨ (d.pg e.arg).recirc.length ≥ 64 then d else (d.setThread t Thread.init).enqueueRecirc e.arg h
  | _, _ => d

/-! Rule epochs and function control -/

/-- EPOCH_FLIP (R156). -/
def Dev.epochFlip (d : Dev) (die : Nat) : Dev :=
  let p := ordPage die
  let e := 1 - d.get p F.ORD_EPOCH_CUR
  if d.get p (F.ORD_EPOCH_INFL_COUNT.at (4 * e)) = 0 then d.set p F.ORD_EPOCH_CUR e else d

/-- ORD stopping: packets still in recirculation queues are voided as aged and discarded (R111). -/
def Dev.stopOrd (d : Dev) (die : Nat) : Dev :=
  (List.range 16).foldl (fun d pg =>
    let x := d.pg pg
    let gone := x.recirc.filter (·.ord = die)
    let d := d.setPg pg { x with recirc := x.recirc.filter (·.ord ≠ die) }
    gone.foldl (fun d h =>
      let d := if d.slotWaits h then ((d.voidSlot die h.slot).ordCnt die 6).int (ordPage die) 0 else d
      ((d.freePkt h.pkt).ordCnt die 7).int (ordPage die) 2) d) d

/-- The count of an epoch returns to 0; INT_STAT.BLK bit 4 where it was the non-current one's and not 0 (R156). -/
def Dev.epochZero (d : Dev) (die e : Nat) : Dev :=
  let p := ordPage die
  let f := F.ORD_EPOCH_INFL_COUNT.at (4 * e)
  let d' := d.set p f 0
  if d.get p f ≠ 0 ∧ e ≠ d.get p F.ORD_EPOCH_CUR then d'.int p 4 else d'

/-- ORD starting (R111). -/
def Dev.startOrd (d : Dev) (die : Nat) : Dev := ((d.setOrd die Ord.init).epochZero die 0).epochZero die 1

/-- The ORD flushes its slots in a flushing stop: each leaves the count of its epoch (R75, R155). -/
def Dev.voidSlots (d : Dev) (die : Nat) : Dev :=
  let o := d.ord die
  let d := d.setOrd die { o with
    slots := [], ready := [], reports := [],
    domains := o.domains.foldl (fun m e => Map.wr ⟨0, 0⟩ m e.1 { e.2 with nextRetire := e.2.nextIssue }) o.domains }
  o.slots.foldl (fun d e => d.epochSub die e.2.epoch) d

/-- ENG starting: threads FREE and the local queue empty (R111). -/
def Dev.startEng (d : Dev) (c : Nat) : Dev :=
  let d := d.setEng { d.eng with threads := d.eng.threads.dropRange (128 * c) (128 * c + 128) }
  d.setEngQueue c []

/-- An ENG cluster holds no head. -/
def Dev.engIdle (d : Dev) (c : Nat) : Bool := (d.engQueue c).isEmpty && d.freeThreads c == 128

/-! Entry window 0x08 (R114) -/

/-- The tickets of an INPORT are another ORD's (R100): a trunk homed elsewhere, or an inject port whose channel names a PG of the
other die. -/
def Dev.foreignInport (d : Dev) (die i : Nat) : Bool :=
  if i < 128 then i / 64 != die
  else if i < 144 then d.trunkHome (i - 128) != some die
  else d.hif.chans.any fun e => match e.2.ctx with
    | some c => c.typ == 2 && 144 + c.inport == i && c.pg / 8 != die
    | none => false

/-- The three words of a domain; those of an INPORT whose tickets this ORD does not issue read 0. -/
def Dev.domainRead (d : Dev) (die i : Nat) : List Word :=
  let o := d.ord die
  let x := o.domain i
  if d.foreignInport die (i / 4096) then [0, 0, 0]
  else
    let s := o.find i x.nextRetire
    let sl := o.slot (s.getD 0)
    let has (v : Nat) : Nat := if s.isSome then v else 0
    ([x.nextIssue + x.nextRetire * 2 ^ 16,
      (x.nextIssue + 65536 - x.nextRetire) % 65536 + has sl.state * 2 ^ 16 + has (b2n sl.pass2) * 2 ^ 18 + b2n (o.ready.contains i) * 2 ^ 19,
      s.getD 0] : List Nat).map (BitVec.ofNat 32)

end Sys2Proof.Machine
end

