-- ==== Sys2Proof/Machine/Lookup.lean ====
section
/-! DEFINITION. Lookup quadrants: descriptors (R161–R163, R183, R189), hash tables and their update engine (R165–R171),
longest-prefix and rule lookups (R184–R192), learning and ageing (R173–R180). -/

namespace Sys2Proof.Machine

/-! Memory -/

/-- The page whose descriptors, commands and memory serve quadrant `q` (R159). -/
def Dev.lkStore (d : Dev) (q : Nat) : Nat := if d.flam (q / 2) then q / 2 * 2 else q

/-- Bytes of a quadrant or gang (R159). -/
def Dev.lkBytes (d : Dev) (q : Nat) : Nat := if d.flam (q / 2) then 160 * 2 ^ 20 else 80 * 2 ^ 20

/-- `n` words of a memory from word `a` on, least significant first. -/
def memNat (m : Map Word) (a : Nat) : Nat → Nat
  | 0 => 0
  | n + 1 => (Map.rd 0 m a).toNat + 2 ^ 32 * memNat m (a + 1) n

/-- `n` words written from word `a` on. -/
def memPut (m : Map Word) (a : Nat) : Nat → Nat → Map Word
  | 0, _ => m
  | n + 1, v => memPut (m.wr 0 a (BitVec.ofNat 32 v)) (a + 1) n (v / 2 ^ 32)

/-- The word index of byte `b` of store `q`. -/
def lkWord (q b : Nat) : Nat := q * 2 ^ 26 + b / 4

def Dev.setMem (d : Dev) (m : Map Word) : Dev := { d with lkp := { d.lkp with mem := m } }

/-- The engine of a page. -/
def Dev.engine (d : Dev) (q : Nat) : Lkp := Map.rd Lkp.init d.lkp.engines q
def Dev.setEngine (d : Dev) (q : Nat) (e : Lkp) : Dev := { d with lkp := { d.lkp with engines := d.lkp.engines.wr Lkp.init q e } }

/-! Descriptors -/

/-- The committed words of descriptor `t` of page `q`; descriptor 0 is RSV and reads 0 (R161). -/
def Dev.desc (d : Dev) (q t : Nat) : List Word := (List.range 8).map fun k => d.word (lkpPage q) (0x8000 + 32 * t + 4 * k)

/-- A field of a descriptor. -/
def df (w : List Word) (k lsb wd : Nat) : Nat := bits (w.getD k 0).toNat lsb wd

def dType (w : List Word) : Nat := df w 0 0 4
def dKb (w : List Word) : Nat := df w 0 8 9
def dRb (w : List Word) : Nat := df w 0 17 9
def dNb (w : List Word) : Nat := df w 0 26 5
def dLearn (w : List Word) : Bool := df w 0 6 1 = 1
def dBase (w : List Word) : Nat := df w 1 0 22 * 64

/-- Bytes of a HASH bucket (R166). -/
def bucketBytes (w : List Word) : Nat := 8 * cdiv (4 * (4 + dKb w + dRb w)) 64

/-- Bytes of a DIRECT entry (R168). -/
def directBytes (w : List Word) : Nat := 8 * cdiv (dRb w) 64

/-- LPM fields (R183). -/
def dCw (w : List Word) : Nat := df w 2 0 5
def dAb (w : List Word) : Nat := df w 2 5 8
def dLd (w : List Word) : Nat := df w 3 0 10

/-- Bytes of a rule (R191). -/
def ruleBytes (w : List Word) : Nat := 8 * cdiv (16 + 2 * dKb w + dRb w) 64

/-- The extent of a table in bytes (R165, R168, R183, R189). -/
def extent (w : List Word) : Nat :=
  if dType w = 1 then 2 ^ (dNb w + 1) * bucketBytes w
  else if dType w = 2 then df w 6 0 26 * directBytes w
  else if dType w = 3 then 2 ^ (dKb w - dAb w + dCw w) * 16
  else df w 2 0 22 * 64

/-- Bits of words 0–7 that are RSV for the descriptor's TYPE (R161, R183, R189). -/
def descRsv (w : List Word) : Bool :=
  let z (k lsb wd : Nat) : Bool := df w k lsb wd ≠ 0
  z 0 7 1 || z 0 31 1 || z 5 0 32 || z 7 16 16 ||
  (if dType w = 1 then z 6 0 32
   else if dType w = 2 then z 6 26 6
   else if dType w = 3 then z 2 13 19 || z 3 10 22 || z 6 0 32
   else z 2 22 10 || z 3 0 32 || z 6 0 32)

/-- The check of the new TYPE that fails (R162 checks 2 and 3, R189). -/
def typeCheck (t : Nat) (w : List Word) : Option Nat :=
  let kb := dKb w
  let rb := dRb w
  if dType w = 1 then
    if 1 ≤ kb ∧ kb ≤ 256 ∧ rb ≤ 256 ∧ kb + rb ≤ 508 ∧ 4 ≤ dNb w ∧ dNb w ≤ 23 ∧ (dLearn w → 17 ≤ rb) then none else some 2
  else if dType w = 2 then
    if 1 ≤ kb ∧ kb ≤ 32 ∧ 1 ≤ rb ∧ rb ≤ 256 ∧ 1 ≤ df w 6 0 26 ∧ ¬ dLearn w then none else some 3
  else if dType w = 3 then
    if ¬ (1 ≤ dAb w ∧ dAb w ≤ 128 ∧ dAb w ≤ kb ∧ kb - dAb w ≤ 128) then some 51
    else if ¬ (dCw w < dAb w ∧ kb - dAb w + dCw w ≤ 22) then some 52
    else if ¬ (1 ≤ rb ∧ rb ≤ 23 ∧ ¬ dLearn w) then some 53
    else if ¬ (1 ≤ dLd w ∧ dLd w + dAb w - dCw w - 1 ≤ 1023 ∧ (t < dLd w ∨ dLd w + dAb w - dCw w - 1 < t)) then some 54
    else none
  else
    if ¬ (1 ≤ kb ∧ kb ≤ 511 ∧ 1 ≤ rb ∧ rb ≤ 256 ∧ 16 + 2 * kb + rb ≤ 1024 ∧ ¬ dLearn w) then some 55
    else if df w 2 0 22 = 0 then some 56 else none

/-- The first failing check of a descriptor commit, in the order of R162. -/
def descCheck (limit t : Nat) (w : List Word) : Option Nat :=
  if dType w = 0 ∨ dType w > 4 then none
  else if df w 0 4 1 = 1 ∧ t > 511 then some 1
  else match typeCheck t w with
    | some n => some n
    | none => if descRsv w then some 6 else if dBase w + extent w > limit then some 4 else none

/-- The key of a held descriptor word. -/
def heldKey (q t k : Nat) : Nat := 8192 * q + 8 * t + k

/-- A write to words 0–6 is held (R162). -/
def Dev.holdDesc (d : Dev) (q t k : Nat) (v : Word) : Dev :=
  { d with lkp := { d.lkp with held := d.lkp.held.wr none (heldKey q t k) (some v) } }

/-- A write to word 7 commits the held and stored words, or refuses them with DESC_BAD (R162). -/
def Dev.commitDesc (d : Dev) (q t : Nat) (v : Word) (req : Nat) : Dev :=
  let w := (List.range 7).map (fun k => (Map.rd none d.lkp.held (heldKey q t k)).getD (d.word (lkpPage q) (0x8000 + 32 * t + 4 * k))) ++ [v]
  let d := { d with lkp := { d.lkp with held := d.lkp.held.dropRange (heldKey q t 0) (heldKey q t 8) } }
  match descCheck (d.lkBytes q) t w with
  | some n => d.capture { page := lkpPage q, kinds := [0x21], off := 0x8000 + 32 * t + 28, data := v.toNat, write := true, req := req, d5 := t, d6 := n }
  | none => d.showRec (lkpPage q) (0x8000 + 32 * t) 8 w

/-! Hash tables -/

/-- H_s of a key (R165). -/
def hashOf (w : List Word) (s key : Nat) : Nat := crc32c (df w (2 + s) 0 32) (beBytes (cdiv (dKb w) 8) key)

/-- The key's candidate bucket in set `s`, counted from the table's start: s × 2^NB + i (R165). -/
def candidate (w : List Word) (key s : Nat) : Nat := s * 2 ^ dNb w + hashOf w s key % 2 ^ dNb w

/-- The entry at position `p`, as a number of EW bits (R166). -/
def entryAt (m : Map Word) (q : Nat) (w : List Word) (p : Nat) : Nat :=
  let ew := 4 + dKb w + dRb w
  bits (memNat m (lkWord q (dBase w + p / 4 * bucketBytes w)) (bucketBytes w / 4)) (p % 4 * ew) ew

/-- Writes the entry at position `p`; the bucket's bits above its four entries are written 0 (R166). -/
def putEntry (m : Map Word) (q : Nat) (w : List Word) (p e : Nat) : Map Word :=
  let ew := 4 + dKb w + dRb w
  let a := lkWord q (dBase w + p / 4 * bucketBytes w)
  let b := memNat m a (bucketBytes w / 4) % 2 ^ (4 * ew)
  memPut m a (bucketBytes w / 4) (putBits b (p % 4 * ew) ew e)

def eKey (w : List Word) (e : Nat) : Nat := bits e 4 (dKb w)
def eRes (w : List Word) (e : Nat) : Nat := bits e (4 + dKb w) (dRb w)

/-- Builds an entry (R166). -/
def mkEntry (w : List Word) (v a s l : Bool) (key res : Nat) : Nat :=
  b2n v + b2n a * 2 + b2n s * 4 + b2n l * 8 + key % 2 ^ dKb w * 16 + res % 2 ^ dRb w * 2 ^ (4 + dKb w)

/-- The positions searched for a key: set 0 ways 0–3, then set 1 ways 0–3 (R167). -/
def places (w : List Word) (key : Nat) : List Nat :=
  [0, 1].flatMap fun s => (List.range 4).map fun j => candidate w key s * 4 + j

/-- The positions that hold the key. -/
def hitsOf (m : Map Word) (q : Nat) (w : List Word) (key : Nat) : List Nat :=
  (places w key).filter fun p => bit (entryAt m q w p) 0 && eKey w (entryAt m q w p) = key

/-- The lowest free way of a bucket (R170). -/
def freeWay (m : Map Word) (q : Nat) (w : List Word) (b : Nat) : Option Nat :=
  (List.range 4).find? fun j => !bit (entryAt m q w (b * 4 + j)) 0

/-- R170's choice of a way of `cur` that is no source of the path yet, and the victim pointer after it. -/
def pickWay (path : List (Nat × Nat)) (cur : Nat) : Nat → Nat → Nat → Option Nat × Nat
  | 0, _, vp => (none, vp)
  | n + 1, w, vp =>
    if path.any (fun x => x.1 = cur * 4 + w) then
      if (List.range 4).all (fun j => path.any (fun x => x.1 = cur * 4 + j)) then (none, (vp + 1) % 4)
      else pickWay path cur n vp ((vp + 1) % 4)
    else (some w, vp)

/-- R170's search: whether it ends at a bucket with a free way, the path of (source position, destination bucket), the last
one first, and the victim pointer after it. -/
def placePath (m : Map Word) (q : Nat) (w : List Word) : Nat → List (Nat × Nat) → Nat → Nat → Bool × List (Nat × Nat) × Nat
  | 0, path, _, vp => (false, path, vp)
  | n + 1, path, cur, vp =>
    match pickWay path cur 6 vp ((vp + 1) % 4) with
    | (none, vp) => (false, path, vp)
    | (some j, vp) =>
      let e := entryAt m q w (cur * 4 + j)
      let alt := candidate w (eKey w e) (if cur < 2 ^ dNb w then 1 else 0)
      let path := (cur * 4 + j, alt) :: path
      if (freeWay m q w alt).isSome then (true, path, vp) else placePath m q w n path alt vp

/-- The copies and clears of a path, from its free end on, with the way each copy takes (R170). -/
def movePath (q : Nat) (w : List Word) : List (Nat × Nat) → Nat → Map Word → Map Word
  | [], _, m => m
  | (src, dst) :: r, way, m =>
    let m := putEntry m q w (dst * 4 + way) (entryAt m q w src)
    movePath q w r (src % 4) (putEntry m q w src 0)

/-- R170: places a new entry. The position written and the moves made, or none (INSERT_FAIL); the memory; the victim pointer. -/
def placeEntry (m : Map Word) (q : Nat) (w : List Word) (key new vp : Nat) : Option (Nat × Nat) × Map Word × Nat :=
  let b0 := candidate w key 0
  let b1 := candidate w key 1
  match freeWay m q w b0, freeWay m q w b1 with
  | some j, _ => (some (b0 * 4 + j, 0), putEntry m q w (b0 * 4 + j) new, vp)
  | none, some j => (some (b1 * 4 + j, 0), putEntry m q w (b1 * 4 + j) new, vp)
  | none, none =>
    match placePath m q w 8 [] b0 vp with
    | (false, _, vp) => (none, m, vp)
    | (true, path, vp) =>
      let way := match path with
        | (_, dst) :: _ => (freeWay m q w dst).getD 0
        | [] => 0
      let m := movePath q w path way m
      let p := (path.getLast?.getD (0, 0)).1
      (some (p, path.length), putEntry m q w p new, vp)

/-! Lookups -/

/-- What a table access returns: HIT, status bit 2, the result, and whether the walk faulted (offset, R192). -/
structure LkOut where
  hit : Bool
  flag : Bool
  res : Nat
  fault : Option Nat
  /-- Filter slots ignored (R184). -/
  ignored : Nat
  /-- Position of a HASH hit, and how often the key was found. -/
  pos : Nat
  found : Nat
  deriving DecidableEq, Repr

/-- A miss: MISS_RES, zero-extended (R164). -/
def missOf (w : List Word) : LkOut := ⟨false, false, df w 4 0 32, none, 0, 0, 0⟩

/-- A HASH access (R167). -/
def hashAccess (m : Map Word) (q : Nat) (w : List Word) (key : Nat) : LkOut :=
  match hitsOf m q w key with
  | [] => missOf w
  | p :: r =>
    let e := entryAt m q w p
    ⟨true, bit e 2, eRes w e, none, 0, p, r.length + 1⟩

/-- A DIRECT access (R168). -/
def directAccess (m : Map Word) (q : Nat) (w : List Word) (key : Nat) : LkOut :=
  if key < df w 6 0 26 then
    ⟨true, false, memNat m (lkWord q (dBase w + key * directBytes w)) (directBytes w / 4) % 2 ^ dRb w, none, 0, 0, 1⟩
  else { missOf w with flag := true }

/-- The length table of length `l` and its validity (R183, R185). -/
def Dev.lenTable (d : Dev) (q : Nat) (w : List Word) (l : Nat) : List Word := d.desc q (dLd w + l - dCw w - 1)

def lenValid (w t : List Word) (l : Nat) : Bool :=
  dType t = 1 && dKb t = dKb w - dAb w + l && dRb t = dRb w && !dLearn t && df t 0 5 1 = 0

/-- The lengths of a filter entry that count (R184), lowest slot first, and how many slots were ignored. -/
def Dev.countedSlots (d : Dev) (q : Nat) (w : List Word) : List Nat → List Nat → List Nat × Nat
  | [], seen => (seen, 0)
  | l :: r, seen =>
    if l = 0 then d.countedSlots q w r seen
    else if dCw w + 1 ≤ l ∧ l ≤ dAb w ∧ l ∉ seen ∧ lenValid w (d.lenTable q w l) l then d.countedSlots q w r (seen ++ [l])
    else let (x, n) := d.countedSlots q w r seen; (x, n + 1)

/-- An LPM access (R186). -/
def Dev.lpmAccess (d : Dev) (m : Map Word) (q : Nat) (w : List Word) (key : Nat) : LkOut :=
  let vrf := key / 2 ^ dAb w
  let addr := key % 2 ^ dAb w
  let f := memNat m (lkWord q (dBase w + (vrf * 2 ^ dCw w + addr / 2 ^ (dAb w - dCw w)) * 16)) 4
  let (lens, ign) := d.countedSlots q w ((List.range 8).map fun i => bits f (8 * i) 8) []
  let probe (l : Nat) : LkOut :=
    let t := d.lenTable q w l
    hashAccess m q t ((vrf * 2 ^ l + addr / 2 ^ (dAb w - l)) % 2 ^ dKb t)
  match argMax (fun l => (l : Int)) (lens.filter fun l => (probe l).hit) with
  | some l => ⟨true, false, (probe l).res, none, ign, 0, 1⟩
  | none =>
    if bit f 64 then ⟨true, true, bits f 72 23 % 2 ^ dRb w, none, ign, 0, 1⟩ else { missOf w with ignored := ign }

/-- Rule `i` of a leaf matches (R191): its flag and result. -/
def ruleAt (m : Map Word) (q : Nat) (w : List Word) (ptr key i : Nat) : Option (Bool × Nat) :=
  let r := memNat m (lkWord q (dBase w + ptr * 8 + i * ruleBytes w)) (ruleBytes w / 4)
  let kb := dKb w
  if bit r 0 ∧ Nat.land (Nat.xor key (bits r 16 kb)) (bits r (kb + 16) kb) = 0 then
    some (bit r 1, bits r (2 * kb + 16) (dRb w))
  else none

/-- A TREE walk from offset `off` (R192). -/
def treeWalk (m : Map Word) (q : Nat) (w : List Word) (key : Nat) : Nat → Nat → LkOut
  | 0, off => { missOf w with fault := some off }
  | n + 1, off =>
    let nd := memNat m (lkWord q (dBase w + off * 8)) 2
    let ext := df w 2 0 22 * 8
    let kind := bits nd 0 2
    let ptr := bits nd 32 24
    let nr := bits nd 56 5
    if kind = 0 then missOf w
    else if kind = 2 then
      if nr = 0 ∨ nr > 16 ∨ ptr * 8 + nr * ruleBytes w > ext * 8 then { missOf w with fault := some off }
      else match (List.range nr).findSome? (ruleAt m q w ptr key) with
        | some (f, r) => ⟨true, f, r, none, 0, 0, 1⟩
        | none => missOf w
    else if kind = 3 ∨ bits nd 11 4 = 0 ∨ bits nd 2 9 + bits nd 11 4 > dKb w then { missOf w with fault := some off }
    else
      let off' := ptr + bits key (bits nd 2 9) (bits nd 11 4)
      if off' ≥ ext then { missOf w with fault := some off' } else treeWalk m q w key n off'

/-- The lines that hold `n` bytes from byte `a` on, by the byte address of each. -/
def span (a n : Nat) : List Nat := (List.range (cdiv (a % 64 + n) 64)).map fun i => (a / 64 + i) * 64

/-- The lines of some buckets of a HASH table. -/
def bucketLines (w : List Word) (bs : List Nat) : List Nat := bs.flatMap fun b => span (dBase w + b * bucketBytes w) (bucketBytes w)

/-- The lines of both candidate buckets of a key (R167). -/
def keyLines (w : List Word) (key : Nat) : List Nat := bucketLines w [candidate w key 0, candidate w key 1]

/-- The lines of a DIRECT entry; an index at or above COUNT reads none (R168). -/
def directLines (w : List Word) (key : Nat) : List Nat :=
  if key < df w 6 0 26 then span (dBase w + key * directBytes w) (directBytes w) else []

/-- The lines of both accesses of an LPM lookup: the filter's, then both candidate buckets of every counted length (R186). -/
def Dev.lpmLines (d : Dev) (m : Map Word) (q : Nat) (w : List Word) (key : Nat) : List Nat :=
  let vrf := key / 2 ^ dAb w
  let addr := key % 2 ^ dAb w
  let a := dBase w + (vrf * 2 ^ dCw w + addr / 2 ^ (dAb w - dCw w)) * 16
  let f := memNat m (lkWord q a) 4
  span a 16 ++ (d.countedSlots q w ((List.range 8).map fun i => bits f (8 * i) 8) []).1.flatMap fun l =>
    let t := d.lenTable q w l
    keyLines t ((vrf * 2 ^ l + addr / 2 ^ (dAb w - l)) % 2 ^ dKb t)

/-- The lines of the nodes and the leaf a TREE walk reads (R192). -/
def treeLines (m : Map Word) (q : Nat) (w : List Word) (key : Nat) : Nat → Nat → List Nat
  | 0, _ => []
  | n + 1, off =>
    let nd := memNat m (lkWord q (dBase w + off * 8)) 2
    let ptr := bits nd 32 24
    let nr := bits nd 56 5
    let ext := df w 2 0 22 * 8
    let off' := ptr + bits key (bits nd 2 9) (bits nd 11 4)
    span (dBase w + off * 8) 8 ++
      if bits nd 0 2 = 2 then
        if nr = 0 ∨ nr > 16 ∨ ptr * 8 + nr * ruleBytes w > ext * 8 then [] else span (dBase w + ptr * 8) (nr * ruleBytes w)
      else if bits nd 0 2 ≠ 1 ∨ bits nd 11 4 = 0 ∨ bits nd 2 9 + bits nd 11 4 > dKb w ∨ off' ≥ ext then []
      else treeLines m q w key n off'

/-- The lines a lookup's access reads. -/
def Dev.accessLines (d : Dev) (m : Map Word) (q : Nat) (w : List Word) (key : Nat) : List Nat :=
  if dType w = 1 then keyLines w key else if dType w = 2 then directLines w key
  else if dType w = 3 then d.lpmLines m q w key else treeLines m q w key 16 0

/-- The lines a host command reads: its entry's or its candidate buckets', and those of the buckets INSERT searches (R170). -/
def Dev.cmdLines (d : Dev) (q : Nat) (w : List Word) (op key : Nat) : List Nat :=
  let m := d.lkp.mem
  if dType w = 2 then directLines w key
  else keyLines w key ++
    if op = 1 ∧ hitsOf m q w key = [] ∧ freeWay m q w (candidate w key 0) = none ∧ freeWay m q w (candidate w key 1) = none then
      bucketLines w ((placePath m q w 8 [] (candidate w key 0) (d.engine q).vp).2.1.map fun x => x.2)
    else []

/-- Which of the lines read is the uncorrectable one: any of them, by a free value. -/
def Dev.badLine (d : Dev) (lines : List Nat) : Nat × Dev :=
  let (v, d) := d.free
  (lines.getD (v.toNat % lines.length) 0, d)

/-- `n` words from word `a` on are read as free values. -/
def Dev.freeWords (d : Dev) (m : Map Word) (a : Nat) : Nat → Map Word × Dev
  | 0 => (m, d)
  | n + 1 =>
    let (v, d) := d.free
    d.freeWords (m.wr 0 a v) (a + 1) n

/-- A lookup's table access by type (R163, R164). -/
def Dev.access (d : Dev) (m : Map Word) (q : Nat) (w : List Word) (key : Nat) : LkOut :=
  if dType w = 1 then hashAccess m q w key else if dType w = 2 then directAccess m q w key
  else if dType w = 3 then d.lpmAccess m q w key else treeWalk m q w key 16 0

/-- An uncorrectable line of lookup memory is counted and recorded (R167, R391). -/
def Dev.bucketUe (d : Dev) (q line : Nat) : Dev := ((d.eccCount 2 (q / 2) .bad).int (lkpPage q) 2).err (lkpPage q) 0x22 line

/-! Learn queue and events -/

/-- Learn requests queued. -/
def Lkp.learns (e : Lkp) : Nat := (e.ops.filter fun o => match o with | .learn .. => true | _ => false).length

/-- Writes the engine of a page and shows its queue depth (R182). -/
def Dev.putEngine (d : Dev) (q : Nat) (e : Lkp) : Dev :=
  let d := d.setEngine q e
  let d := d.set (lrnPage q) F.LRN_QUEUE_DEPTH e.learns
  d.peak (lrnPage q) F.LRN_QUEUE_PEAK e.learns

/-- Shows the oldest event record (R179, R182). -/
def Dev.showEvts (d : Dev) (q : Nat) : Dev :=
  let l := (d.engine q).evts
  (d.set (lrnPage q) F.LRN_EVT_DEPTH_COUNT l.length).showRec (lrnPage q) F.LRN_EVT_WORD.off 4 (l.headD [])

/-- Raises a learn event of an enabled type (R179). -/
def Dev.learnEvent (d : Dev) (q ty table pos key : Nat) : Dev :=
  let p := lrnPage q
  let e := d.engine q
  if !bit (d.get p F.LRN_EVT_EN_EN) (ty - 1) then d
  else if e.evts.length ≥ 512 then (d.bump p F.LRN_EVT_DEPTH_LOST).int p 3
  else
    let r : List Word := [BitVec.ofNat 32 (ty + table * 8), BitVec.ofNat 32 pos, BitVec.ofNat 32 key, BitVec.ofNat 32 (key / 2 ^ 32)]
    let d := (d.setEngine q { e with evts := e.evts ++ [r] }).showEvts q
    if e.evts.isEmpty then d.int p 0 else d

/-- The oldest learn event is removed; a pop of an empty FIFO is ignored (R179). -/
def Dev.popEvt (d : Dev) (q : Nat) : Dev :=
  let e := d.engine q
  (d.setEngine q { e with evts := e.evts.drop 1 }).showEvts q

/-- LRN stops: queued learn requests are discarded and counted (R182), and the ager with its visits stops. -/
def Dev.stopLrn (d : Dev) (q : Nat) : Dev :=
  let s := d.lkStore q
  if s ≠ q then d
  else
    let e := d.engine q
    let n := e.learns
    let d := d.putEngine q { e with ops := e.ops.filter fun o => match o with | .learn .. => false | _ => true, visits := [] }
    d.bump (lrnPage q) (F.LRN_CNT_COUNT.at 4) n

/-- A lookup result raises a learn request (R173). -/
def Dev.learnRequest (d : Dev) (q table : Nat) (move : Bool) (key data : Nat) : Dev :=
  let p := lrnPage q
  let e := d.engine q
  if e.learns ≥ 1024 ∨ !d.running p ∨ d.get p F.LRN_CFG_HOLD = 1 then d.tally p (F.LRN_CNT_COUNT.at 4)
  else (d.putEngine q { e with ops := e.ops ++ [.learn table move key data] }).cnt p F.LRN_CNT_COUNT 0

/-- What a lookup returns to its thread: the status nibble of R127, the result and its width, and the EPOCH condition. -/
structure LkRet where
  status : Nat
  res : Nat
  rb : Nat
  epoch : Bool
  deriving DecidableEq, Repr

/-- The memory as an access reads it: with an uncorrectable line, which is any line of the access, the words of that line are
free values, and the error is counted and recorded with its byte address (R167, R186, R192). -/
def Dev.readLines (d : Dev) (q : Nat) (lines : List Nat) (ecc : Ecc) : Map Word × Dev :=
  if lines = [] then (d.lkp.mem, d)
  else if ecc = .bad then
    let (line, d) := d.badLine lines
    d.freeWords d.lkp.mem (lkWord q line) 16 |> fun x => (x.1, (x.2.bucketUe q line).cnt (lkpPage q) F.LKP_CNT_COUNT 5)
  else (d.lkp.mem, d.eccCount 2 (q / 2) ecc)

/-- A request's return (R163, R167, R168, R186, R192): counters, activity, learning and the result. -/
def Dev.lookupReturn (d : Dev) (sl : LkSlot) (ecc : Ecc) : LkRet × Dev :=
  let q := sl.quad
  let p := lkpPage q
  let w := sl.desc
  if sl.fate = 1 then (⟨0, 0, 0, true⟩, d)
  else if sl.fate = 2 then (⟨8, 0, dRb w, false⟩, d)
  else
    let lines := d.accessLines d.lkp.mem q w sl.key
    let ue : Bool := decide (ecc = .bad ∧ lines ≠ [])
    let (m, d) := d.readLines q lines ecc
    let o := d.access m q w sl.key
    let d := d.cnt p F.LKP_CNT_COUNT (if o.hit then 1 else 2)
    let d := if o.found ≥ 2 then d.cnt p F.LKP_CNT_COUNT 8 else d
    let d := if dType w = 3 then
        let d := (d.cnt p F.LKP_RT_CNT_COUNT 0).bump p (F.LKP_RT_CNT_COUNT.at 8) o.ignored
        if o.hit ∧ o.flag then d.cnt p F.LKP_RT_CNT_COUNT 1 else d
      else if dType w = 4 then d.cnt p F.LKP_RT_CNT_COUNT 3 else d
    let d := match o.fault with
      | some off =>
        let d := ((d.cnt p F.LKP_RT_CNT_COUNT 4).int p 3).err p 0x23 sl.table off
        if ue then d else d.cnt p F.LKP_CNT_COUNT 5
      | none => d
    -- activity (R177) and learning (R173)
    let d := if dLearn w ∧ dType w = 1 ∧ o.hit ∧ sl.flg ≠ 2 then
        d.setMem (putEntry d.lkp.mem q w o.pos (setBit (entryAt d.lkp.mem q w o.pos) 1))
      else d
    let d := if sl.learns then
        if !o.hit then d.learnRequest q sl.table false sl.key sl.learn
        else if o.res % 2 ^ (dRb w - 16) = sl.learn then d
        else if o.flag then d.cnt (lrnPage q) F.LRN_CNT_COUNT 7
        else d.learnRequest q sl.table true sl.key sl.learn
      else d
    (⟨b2n o.hit + b2n (ue || o.fault.isSome) * 2 + b2n o.flag * 4, o.res, dRb w, false⟩, d)

/-- LSTATE of an entry (R166, R174). -/
def entryState (w : List Word) (e : Nat) : Nat := bits (eRes w e) (dRb w - 16) 16

/-! Ageing -/

/-- The new entry and whether it has aged out, at a visit (R176). -/
def visit (limit : Nat) (ageEn : Bool) (w : List Word) (e : Nat) : Nat × Bool :=
  let ls := putBits (entryState w e) 0 4 0
  let frz := bits ls 4 4 - 1
  let ls := putBits ls 4 4 frz
  let back (e ls : Nat) : Nat := putBits e (4 + dKb w + (dRb w - 16)) 16 ls
  if bit e 1 then (back (clrBit e 1) (putBits ls 8 8 0), false)
  else if bit e 3 ∧ !bit e 2 ∧ ageEn then
    let age := min 255 (bits ls 8 8 + 1)
    let e' := back e (putBits ls 8 8 age)
    if age ≥ limit ∧ frz = 0 then (clrBit e' 0, true) else (e', false)
  else (back e ls, false)

/-- The ager's turn at one position of a LEARN table (R176); a table committed away since then has none. -/
def Dev.visitAt (d : Dev) (q table pos : Nat) : Dev :=
  let p := lrnPage q
  let w := d.desc q table
  let x := entryAt d.lkp.mem q w pos
  if ¬ (dType w = 1 ∧ dLearn w) ∨ pos ≥ 2 ^ (dNb w + 3) ∨ !bit x 0 then d
  else
    let (x', aged) := visit (d.get p F.LRN_SWEEP_AGE_LIMIT) (d.get p F.LRN_SWEEP_AGE_EN = 1) w x
    let d := d.setMem (putEntry d.lkp.mem q w pos x')
    if aged then (d.cnt p F.LRN_CNT_COUNT 8).learnEvent q 4 table pos (eKey w x) else d

/-- The ager's turns (R169): every visit that waits, when nothing else does; one of them after fifteen operations in a row. -/
def Dev.ageTurns (d : Dev) (q : Nat) : Dev :=
  let e := d.engine q
  match e.visits with
  | [] => d
  | v :: r =>
    if e.ops = [] then e.visits.foldl (fun d v => d.visitAt q v.1 v.2) (d.setEngine q { e with visits := [], turns := 0 })
    else if e.turns ≥ 15 then (d.setEngine q { e with visits := r, turns := 0 }).visitAt q v.1 v.2
    else d

/-- AGEING_VISIT (R169, R176): a visit of one position of a LEARN table falls due, and waits for the ager's turn. -/
def Dev.ageingVisit (d : Dev) (q table pos : Nat) : Dev :=
  let w := d.desc q table
  let e := d.engine q
  if d.lkStore q ≠ q ∨ !d.running (lrnPage q) ∨ ¬ (dType w = 1 ∧ dLearn w) ∨ pos ≥ 2 ^ (dNb w + 3) then d
  else (d.setEngine q { e with visits := e.visits ++ [(table, pos)] }).ageTurns q

/-! The update engine -/

/-- The key and result registers of the command (R181). -/
def Dev.cmdNat (d : Dev) (p : Nat) (f : Fld) : Nat := ((List.range 8).map fun k => d.get p (f.at (4 * k)) * 2 ^ (32 * k)).sum

/-- LKP_CMD_GO: BUSY sets, DONE clears, and the command joins its engine's queue (R169, R181). -/
def Dev.lkpGo (d : Dev) (q : Nat) : Dev :=
  let p := lkpPage q
  let d := (d.set p F.LKP_CMD_STAT_BUSY 1).set p F.LKP_CMD_STAT_DONE 0
  d.putEngine q { d.engine q with ops := (d.engine q).ops ++ [.cmd] }

/-- A command ends (R169). -/
def Dev.cmdEnd (d : Dev) (q code moves : Nat) : Dev :=
  let p := lkpPage q
  let w := BitVec.ofNat 32 (2 + code * 4 + moves * 64 + d.get p F.LKP_CMD_STAT_CTL * 1024)
  (d.setWord p F.LKP_CMD_STAT_CODE.off w).int p 0

/-- The result to be stored: on a LEARN table LSTATE takes `ls` (R169). -/
def withLstate (w : List Word) (res ls : Nat) : Nat :=
  if dLearn w then res % 2 ^ (dRb w - 16) + ls * 2 ^ (dRb w - 16) else res % 2 ^ dRb w

/-- A host command on a HASH table (R169–R171). -/
def Dev.hashCmd (d : Dev) (q : Nat) (w : List Word) (op key res : Nat) : Dev :=
  let p := lkpPage q
  let m := d.lkp.mem
  let st := d.get p F.LKP_CMD_CTL_STATIC = 1
  match hitsOf m q w key with
  | [] =>
    if op ≠ 1 then d.cmdEnd q 2 0
    else
      let new := mkEntry w true false st (d.get p F.LKP_CMD_CTL_LEARNED = 1) key (withLstate w res 0)
      match placeEntry m q w key new (d.engine q).vp with
      | (some (pos, n), m, vp) =>
        let d := (d.setMem m).setEngine q { d.engine q with vp := vp }
        ((d.bump p (F.LKP_CNT_COUNT.at 24) n).set p F.LKP_CMD_POS_POS pos).cmdEnd q 0 n
      | (none, _, vp) =>
        let d := d.setEngine q { d.engine q with vp := vp }
        ((d.cnt p F.LKP_CNT_COUNT 7).int p 1).cmdEnd q 3 0
  | pos :: _ =>
    let e := entryAt m q w pos
    let d := d.set p F.LKP_CMD_POS_POS pos
    if op = 1 then d.cmdEnd q 1 0
    else if op = 2 then
      (d.setMem (putEntry m q w pos (mkEntry w true (bit e 1) st (bit e 3) key (withLstate w res (entryState w e))))).cmdEnd q 0 0
    else if op = 3 then (d.setMem (putEntry m q w pos (clrBit e 0))).cmdEnd q 0 0
    else
      let d := d.showRec p F.LKP_CMD_RES_RES.off 8 ((List.range 8).map fun k => BitVec.ofNat 32 (eRes w e / 2 ^ (32 * k)))
      (d.set p F.LKP_CMD_STAT_CTL (e % 16)).cmdEnd q 0 0

/-- A host command on a DIRECT table (R169). -/
def Dev.directCmd (d : Dev) (q : Nat) (w : List Word) (op key res : Nat) : Dev :=
  let p := lkpPage q
  let a := lkWord q (dBase w + key * directBytes w)
  let n := directBytes w / 4
  let d := d.set p F.LKP_CMD_POS_POS key
  if op = 4 then
    let v := memNat d.lkp.mem a n % 2 ^ dRb w
    (d.showRec p F.LKP_CMD_RES_RES.off 8 ((List.range 8).map fun k => BitVec.ofNat 32 (v / 2 ^ (32 * k)))).cmdEnd q 0 0
  else (d.setMem (memPut d.lkp.mem a n (if op = 3 then 0 else res % 2 ^ dRb w))).cmdEnd q 0 0

/-- The host command at the head of the engine's queue is carried out (R169): CODE 4 needs no line read, CODE 5 any line the
command reads. -/
def Dev.runCmd (d : Dev) (q : Nat) (ecc : Ecc) : Dev :=
  let p := lkpPage q
  let op := d.get p F.LKP_CMD_CTL_OP
  let w := d.desc q (d.get p F.LKP_CMD_CTL_TABLE)
  let key := d.cmdNat p F.LKP_CMD_KEY_KEY % 2 ^ dKb w
  let res := d.cmdNat p F.LKP_CMD_RES_RES
  let d := d.set p F.LKP_CMD_STAT_CTL 0
  if d.lkStore q ≠ q ∨ op = 0 ∨ op > 4 ∨ ¬ (dType w = 1 ∨ dType w = 2) then d.cmdEnd q 4 0
  else if dType w = 2 ∧ key ≥ df w 6 0 26 then d.cmdEnd q 4 0
  else if ecc = .bad then
    let (line, d) := d.badLine (d.cmdLines q w op key)
    (d.bucketUe q line).cmdEnd q 5 0
  else
    let d := d.eccCount 2 (q / 2) ecc
    if dType w = 1 then d.hashCmd q w op key res else d.directCmd q w op key res

/-- The engine takes the operation at the head of its queue. -/
def Dev.takeOp (d : Dev) (q : Nat) : Dev :=
  let e := d.engine q
  d.putEngine q { e with ops := e.ops.drop 1, turns := e.turns + 1 }

/-- LKP_COMMAND_DONE (R169): the host command ends, where it is the engine's next operation. -/
def Dev.lkpCommandDone (d : Dev) (q : Nat) (ecc : Ecc) : Dev :=
  match (d.engine q).ops with
  | .cmd :: _ => ((d.takeOp q).runCmd q ecc).ageTurns q
  | _ => d

/-- A learned entry is placed (R175, first row). -/
def Dev.learnNew (d : Dev) (q table : Nat) (w : List Word) (key data : Nat) : Dev :=
  let p := lrnPage q
  match placeEntry d.lkp.mem q w key (mkEntry w true true false true key (withLstate w data 0)) (d.engine q).vp with
  | (some (pos, n), m, vp) =>
    let d := (d.setMem m).setEngine q { d.engine q with vp := vp }
    ((d.bump (lkpPage q) (F.LKP_CNT_COUNT.at 24) n).cnt p F.LRN_CNT_COUNT 2).learnEvent q 1 table pos key
  | (none, _, vp) =>
    let d := d.setEngine q { d.engine q with vp := vp }
    (((d.cnt p F.LRN_CNT_COUNT 9).learnEvent q 5 table 0 key).int p 2)

/-- A present entry's data is overwritten, and frozen when it flaps (R175, last row). -/
def Dev.learnMove (d : Dev) (q table : Nat) (w : List Word) (key data pos : Nat) : Dev :=
  let p := lrnPage q
  let ls := entryState w (entryAt d.lkp.mem q w pos)
  let moves := min 15 (ls % 16 + 1)
  let flap := moves > d.get p F.LRN_CFG_FLAP_MOVES
  let ls := putBits ls 0 4 moves
  let ls := if flap then putBits ls 4 4 (d.get p F.LRN_CFG_FREEZE) else ls
  let d := d.setMem (putEntry d.lkp.mem q w pos (mkEntry w true true false true key (withLstate w data ls)))
  let d := (d.cnt p F.LRN_CNT_COUNT 4).learnEvent q 2 table pos key
  if flap then ((d.cnt p F.LRN_CNT_COUNT 5).learnEvent q 3 table pos key).int p 1 else d

/-- A learn request is executed by the first matching row of R175. -/
def Dev.runLearn (d : Dev) (q table key data : Nat) : Dev :=
  let p := lrnPage q
  let w := d.desc q table
  if ¬ (dType w = 1 ∧ dLearn w) then d.cnt p F.LRN_CNT_COUNT 1
  else match hitsOf d.lkp.mem q w key with
    | [] => d.learnNew q table w key data
    | pos :: _ =>
      let e := entryAt d.lkp.mem q w pos
      if eRes w e % 2 ^ (dRb w - 16) = data then
        (d.setMem (putEntry d.lkp.mem q w pos (setBit e 1))).cnt p F.LRN_CNT_COUNT 3
      else if bit e 2 then d.cnt p F.LRN_CNT_COUNT 7
      else if bits (entryState w e) 4 4 > 0 then d.cnt p F.LRN_CNT_COUNT 6
      else d.learnMove q table w key data pos

/-- LEARN_NEW and LEARN_MOVE (R175): the engine's next operation is a request of that kind. -/
def Dev.engineLearn (d : Dev) (q : Nat) (move : Bool) (ecc : Ecc) : Dev :=
  match (d.engine q).ops with
  | .learn t mv key data :: _ =>
    if mv ≠ move then d
    else
      let d := (d.takeOp q).eccCount 7 (q / 2) ecc
      (if ecc = .bad then d.cnt (lrnPage q) F.LRN_CNT_COUNT 1 else d.runLearn q t key data).ageTurns q
  | _ => d

/-! Entry-window space 0x07 (R180) -/

/-- The descriptor the window reaches. -/
def Dev.lrnEwDesc (d : Dev) (q : Nat) : List Word := d.desc q (d.get (lrnPage q) F.LRN_EW_TABLE_TABLE)

/-- CODE of a window operation before it is made: 0, 1 for a high index, 3 for another table. -/
def Dev.lrnEwCode (d : Dev) (q i : Nat) : Nat :=
  let w := d.lrnEwDesc q
  if ¬ (dType w = 1 ∧ dLearn w) then 3 else if i ≥ 2 ^ (dNb w + 3) then 1 else 0

/-- The eighteen words of an entry. -/
def Dev.lrnEwRead (d : Dev) (q i : Nat) : List Word :=
  let w := d.lrnEwDesc q
  let e := entryAt d.lkp.mem q w i
  let data := eRes w e % 2 ^ (dRb w - 16)
  let ls := entryState w e
  [BitVec.ofNat 32 (e % 16 + ls % 256 * 16 + ls / 256 * 4096), 0] ++
    ((List.range 8).map fun k => BitVec.ofNat 32 (eKey w e / 2 ^ (32 * k))) ++
    ((List.range 8).map fun k => BitVec.ofNat 32 (data / 2 ^ (32 * k)))

/-- A WRITE: it may clear V, change S, clear FRZ or change the data; CODE 3 otherwise (R180). -/
def Dev.lrnEwWrite (d : Dev) (q i : Nat) (x : List Word) : Nat × Dev :=
  let w := d.lrnEwDesc q
  let e := entryAt d.lkp.mem q w i
  let num (a : Nat) : Nat := ((List.range 8).map fun k => (x.getD (a + k) 0).toNat * 2 ^ (32 * k)).sum
  let w0 := (x.getD 0 0).toNat
  let ls := entryState w e
  let frz := bits w0 8 4
  if !bit e 0 ∨ num 2 ≠ eKey w e ∨ (frz ≠ 0 ∧ frz ≠ bits ls 4 4) then (3, d)
  else
    let ls := putBits ls 4 4 frz
    (0, d.setMem (putEntry d.lkp.mem q w i
      (mkEntry w (bit w0 0) (bit e 1) (bit w0 2) (bit e 3) (eKey w e) (withLstate w (num 10) ls))))

end Sys2Proof.Machine
end

