-- ==== Sys2Proof/Machine/Microword.lean ====
section
/-! DEFINITION. The microword's fields (R116), its ALUs (R121–R124), the head and context port (R125), condition groups
(R120) and illegal field combinations (R133). -/

namespace Sys2Proof.Machine

/-! Fields (R116) -/

abbrev Mw := BitVec 192
def Mw.f (w : Mw) (lsb wd : Nat) : Nat := bits w.toNat lsb wd
def Mw.next (w : Mw) : Nat := w.f 178 14
def Mw.bmask (w : Mw) : Nat := w.f 174 4
def Mw.csel (w : Mw) : Nat := w.f 168 6
def Mw.seq (w : Mw) : Nat := w.f 164 4
def Mw.imm (w : Mw) : Nat := w.f 4 32
def Mw.cbump (w : Mw) : Nat := w.f 2 2
def Mw.te (w : Mw) : Bool := w.f 1 1 == 1
def Mw.brk (w : Mw) : Bool := w.f 0 1 == 1

/-- The fields of one ALU: opcode, destination, sources, shift and mask control. -/
structure AluF where
  op : Nat
  dst : Nat
  srcA : Nat
  srcB : Nat
  shm : Nat
  deriving DecidableEq, Repr

/-- ALU A or ALU B of a microword. -/
def Mw.alu (w : Mw) (b : Bool) : AluF :=
  let o := if b then 84 else 124
  ⟨w.f (o + 34) 6, w.f (o + 28) 6, w.f (o + 22) 6, w.f (o + 16) 6, w.f o 16⟩

/-- The head port's fields: offset, length, direction, register, flags. -/
structure HpF where
  off : Nat
  len : Nat
  dir : Nat
  reg : Nat
  flg : Nat
  deriving DecidableEq, Repr

def Mw.hp (w : Mw) : HpF := ⟨w.f 76 8, w.f 72 4, w.f 70 2, w.f 64 6, w.f 60 4⟩

/-- The lookup port's fields: table, key select, result register, flags, TE. -/
structure LkF where
  table : Nat
  ksel : Nat
  rreg : Nat
  flg : Nat
  te : Bool
  deriving DecidableEq, Repr

def Mw.lk (w : Mw) : LkF := ⟨w.f 50 10, w.f 44 6, w.f 38 6, w.f 36 2, w.te⟩

/-! Thread values -/

def Thread.reg (x : Thread) (n : Nat) : Nat := (Map.rd 0 x.regs n).toNat
def Thread.setReg (x : Thread) (n v : Nat) : Thread := { x with regs := x.regs.wr 0 n (BitVec.ofNat 64 v) }
def Thread.md (x : Thread) : List Byte := match x.head with | some h => h.md | none => []
def Thread.hb (x : Thread) : List Byte := match x.head with | some h => h.bytes | none => []
def Thread.setMd (x : Thread) (l : List Byte) : Thread := { x with head := x.head.map fun h => { h with md := l } }
def Thread.setHb (x : Thread) (l : List Byte) : Thread := { x with head := x.head.map fun h => { h with bytes := l } }
def Thread.mdWord (x : Thread) (k : Nat) : Nat := leNat (slice x.md (4 * k) 4)
def Thread.mdDouble (x : Thread) (k : Nat) : Nat := leNat (slice x.md (8 * k) 8)
def Thread.issues (x : Thread) : Nat := match x.head with | some h => h.issues | none => 0
def Thread.pass2 (x : Thread) : Bool := match x.head with | some h => h.pass2 | none => false
def Thread.inTrap (x : Thread) : Bool := bit x.frame.toNat 32

/-- FAR: thread `t` runs on the other die from its packet's ORD. -/
def Thread.far (x : Thread) (t : Nat) : Bool := match x.head with | some h => t / 4096 != h.ord | none => false

/-- Operand 0x26, PASS. -/
def Thread.passWord (x : Thread) (t : Nat) : Nat :=
  x.issues + b2n x.pass2 * 2 ^ 16 + t / 128 * 2 ^ 17 + t / 8 % 16 * 2 ^ 23 + t % 8 * 2 ^ 27 + b2n (x.far t) * 2 ^ 30

/-! ALUs (R121–R124) -/

/-- An operand code as a source. -/
def Thread.src (x : Thread) (t imm code : Nat) : Nat :=
  if code < 0x20 then x.reg code
  else if code = 0x20 then imm
  else if code = 0x21 then ofSigned 64 (toSigned 32 imm)
  else if code = 0x22 then imm * 2 ^ 32
  else if code = 0x23 then 0
  else if code = 0x24 then 2 ^ 64 - 1
  else if code = 0x25 then x.frame.toNat
  else if code = 0x26 then x.passWord t
  else x.mdDouble (code - 0x28)

def srcLegal (code : Nat) : Bool := decide (code ≤ 0x26) || (decide (0x28 ≤ code) && decide (code ≤ 0x2F))
def dstLegal (code : Nat) : Bool := decide (code < 0x20) || (decide (0x28 ≤ code) && decide (code ≤ 0x2F)) || code == 0x3F

/-- Sources an opcode uses (R123). -/
def usesA (op : Nat) : Bool := !([0x01, 0x0E, 0x0F, 0x11].contains op)
def usesB (op : Nat) : Bool := op != 0x09

/-- An ALU's fields are illegal (R133). -/
def AluF.illegal (a : AluF) : Bool :=
  a.op != 0 && (decide (a.op > 0x12) || (usesA a.op && !srcLegal a.srcA) || (usesB a.op && !srcLegal a.srcB) || !dstLegal a.dst ||
    ((a.op == 0x0A || a.op == 0x0B) && a.dst != 0x3F))

def m64 : Nat := 2 ^ 64

/-- Source B shifted (R122). -/
def shifted (b sh sht : Nat) : Nat :=
  if sht = 0 then b * 2 ^ sh % m64
  else if sht = 1 then b / 2 ^ sh
  else if sht = 2 then ofSigned 64 (toSigned 64 b / (2 ^ sh : Nat))
  else (b / 2 ^ sh + b % 2 ^ sh * 2 ^ (64 - sh)) % m64

def shmSh (m : Nat) : Nat := bits m 0 6
def shmMw (m : Nat) : Nat := if bits m 8 6 = 0 then 64 else bits m 8 6
def shmPos (m : Nat) : Bool := bit m 14
def shmFe (m : Nat) : Bool := bit m 15

/-- Leading zeros of a 64-bit value. -/
def clz64 (v : Nat) : Nat := (((List.range 64).map fun i => 63 - i).takeWhile fun i => !bit v i).length

/-- The four 16-bit lanes summed with end-around carry. -/
def fold16 (v : Nat) : Nat := onesSum [bits v 0 16, bits v 16 16, bits v 32 16, bits v 48 16]

/-- Signed overflow of a + b and of a − b, with `r` the 64-bit result. -/
def addOvf (a b r : Nat) : Bool := bit a 63 == bit b 63 && bit r 63 != bit a 63
def subOvf (a b r : Nat) : Bool := bit a 63 != bit b 63 && bit r 63 != bit a 63

/-- The 64-bit operation: its result, C and V (R123, R124). -/
def aluRaw (op a b shm : Nat) : Nat × Bool × Bool :=
  let sh := shmSh shm
  let mw := shmMw shm
  let s := shifted b sh (bits shm 6 2)
  let b' := if shmPos shm then s else s % 2 ^ mw
  let sub := (a + m64 - b') % m64
  match op with
  | 0x01 => (b', false, false)
  | 0x02 => let r := (a + b') % m64; (r, decide (a + b' ≥ m64), addOvf a b' r)
  | 0x03 => (sub, decide (a ≥ b'), subOvf a b' sub)
  | 0x04 => (Nat.land a b', false, false)
  | 0x05 => (Nat.lor a b', false, false)
  | 0x06 => (Nat.xor a b', false, false)
  | 0x07 => (Nat.land a (m64 - 1 - b'), false, false)
  | 0x08 => (putBits a sh mw b % m64, false, false)
  | 0x09 => (a / 2 ^ sh % 2 ^ mw, false, false)
  | 0x0A => (sub, decide (a ≥ b'), subOvf a b' sub)
  | 0x0B => (Nat.land a b', false, false)
  | 0x0C => (min a b', false, false)
  | 0x0D => (max a b', false, false)
  | 0x0E => (clz64 b', false, false)
  | 0x0F => ((setBits 64 b').length, false, false)
  | 0x10 => (onesSum [a % 65536, b' % 65536], false, false)
  | 0x11 => (fold16 b', false, false)
  | 0x12 => (if a ≥ b' then sub else 0, decide (a ≥ b'), subOvf a b' sub)
  | _ => (0, false, false)

/-- The value written and the flag nibble V, C, N, Z (R122, R124). -/
def aluOut (op a b shm : Nat) : Nat × Nat :=
  let (r, c, v) := aluRaw op a b shm
  let pos := shmPos shm && op != 0x08 && op != 0x09
  let mw := if pos then shmMw shm else 64
  let r := r % 2 ^ mw
  (r, b2n v * 8 + b2n c * 4 + b2n (bit r (mw - 1)) * 2 + b2n (r = 0))

/-- Writes a destination code. -/
def Thread.write (x : Thread) (dst v : Nat) : Thread :=
  if dst < 0x20 then x.setReg dst v
  else if dst = 0x3F then x
  else x.setMd (splice x.md (8 * (dst - 0x28)) (leBytes 8 v))

/-- One ALU acts: operands from `old`, the value from before the microword; effects into `x`. -/
def Thread.aluAct (x old : Thread) (t imm : Nat) (side : Bool) (a : AluF) : Thread :=
  if a.op = 0 then x
  else
    let (r, f) := aluOut a.op (old.src t imm a.srcA) (old.src t imm a.srcB) a.shm
    let x := if a.op = 0x0A ∨ a.op = 0x0B then x else x.write a.dst r
    if shmFe a.shm || a.op == 0x0A || a.op == 0x0B then (if side then { x with flagsB := f } else { x with flagsA := f }) else x

/-! The head and context port (R125) -/

def HpF.write (p : HpF) : Bool := p.dir % 2 == 1
def HpF.mdata (p : HpF) : Bool := decide (p.dir ≥ 2)

/-- Registers a transfer names. -/
def HpF.regs (p : HpF) : List Nat := if p.len = 0 ∨ p.reg ≥ 0x20 then [] else if p.len = 9 then [p.reg, p.reg + 1] else [p.reg]

/-- The head port's fields are illegal. -/
def HpF.illegal (p : HpF) : Bool :=
  p.len != 0 && (decide (p.len ≥ 10) || (p.len == 9 && (p.reg % 2 == 1 || decide (p.reg ≥ 0x20))) ||
    (decide (p.reg ≥ 0x20) && !(p.reg == 0x3F && p.write && decide (p.len ≤ 8))) || (bit p.flg 3 && (p.write || p.len == 9)))

/-- The byte offset of a transfer. -/
def HpF.offset (p : HpF) (old : Thread) : Nat :=
  p.off + (if bit p.flg 0 then old.reg (if bit p.flg 1 then 31 else 30) % 512 else 0)

/-- One register's bytes as read, and as written. -/
def hpLoad (flg : Nat) (b : List Byte) : Nat :=
  let v := if bit flg 2 then leNat b else beNat b
  if bit flg 3 then ofSigned 64 (toSigned (8 * b.length) v) else v
def hpStore (flg n v : Nat) : List Byte := if bit flg 2 then leBytes n v else beBytes n v

/-- The head port acts. -/
def Thread.hpAct (x old : Thread) (imm : Nat) (p : HpF) : Thread :=
  if p.len = 0 then x
  else
    let o := p.offset old
    let mem := if p.mdata then old.md else old.hb
    let size := if p.mdata then 64 else 256
    let rd (i n : Nat) : List Byte := slice (mem.take size) (o + i) n
    if !p.write then
      if p.len = 9 then (x.setReg p.reg (hpLoad p.flg (rd 0 8))).setReg (p.reg + 1) (hpLoad p.flg (rd 8 8))
      else x.setReg p.reg (hpLoad p.flg (rd 0 p.len))
    else
      let v := if p.reg = 0x3F then imm else old.reg p.reg
      let b := if p.len = 9 then hpStore p.flg 8 v ++ hpStore p.flg 8 (old.reg (p.reg + 1)) else hpStore p.flg p.len v
      if p.mdata then x.setMd ((splice x.md o b).take 64) else x.setHb ((splice x.hb o b).take 256)

/-! Condition groups (R120) -/

def Thread.slot (x : Thread) (k : Nat) : LkSlot := Map.rd LkSlot.init x.slots k
def Thread.setLk (x : Thread) (k : Nat) (s : LkSlot) : Thread := { x with slots := x.slots.wr LkSlot.init k s }

def Thread.cond (x : Thread) (t csel : Nat) : Nat :=
  let four (b : Nat) (i : Nat) : Nat := ((List.range 4).map fun k => b2n (bit (x.slot (b + k)).status i) * 2 ^ k).sum
  if csel = 0 then 0
  else if csel = 1 then x.flagsA
  else if csel = 2 then x.flagsB
  else if csel = 3 then b2n (bit x.flagsB 2) * 8 + b2n (bit x.flagsA 2) * 4 + b2n (bit x.flagsB 0) * 2 + b2n (bit x.flagsA 0)
  else if csel ≤ 7 then bits (x.mdWord 1) (4 * csel) 4
  else if csel = 8 then (if x.launched = 0 then 0 else (x.slot ((x.launched - 1) % 8)).status)
  else if csel ≤ 0x10 then (x.slot (csel - 9)).status
  else if csel = 0x11 then four 0 0
  else if csel = 0x12 then four 4 0
  else if csel = 0x13 then four 0 1
  else if csel = 0x14 then four 4 1
  else if csel = 0x15 then bits (x.mdWord 1) 9 4
  else if csel = 0x16 then b2n (x.stack.length = 4) * 8 + b2n x.inTrap * 4 + b2n (x.far t) * 2 + b2n x.pass2
  else if csel = 0x17 then x.latch
  else if csel < 0x20 then 0
  else x.reg (csel - 0x20) % 16

/-- The formed address (R119). -/
def formed (w : Mw) (nib : Nat) : Nat := Nat.lor w.next (Nat.land nib w.bmask)

/-! The lookup port (R126) -/

/-- The LKP page, by quadrant, that serves a cluster (R10, R159). -/
def Dev.quadOf (d : Dev) (c : Nat) : Nat := d.lkStore (c / 16)

/-- The descriptor index a launch uses, after epoch redirection (R163). -/
def Dev.lkIndex (d : Dev) (q table epoch : Nat) : Nat :=
  if epoch = 1 ∧ table ≤ 511 ∧ df (d.desc q table) 0 4 1 = 1 then table + 512 else table

def Thread.epoch (x : Thread) : Nat := match x.head with | some h => h.epoch | none => 0

/-- Registers a launch reads its key from, and those its result goes to. -/
def keyRegs (w : List Word) (ksel : Nat) : List Nat := if ksel < 32 then (List.range (cdiv (dKb w) 64)).map (ksel + ·) else []
def resRegs (w : List Word) (rreg : Nat) : List Nat := if rreg < 32 then (List.range (cdiv (dRb w) 64)).map (rreg + ·) else []

/-- The lookup port's fields are illegal for a descriptor. -/
def LkF.illegal (l : LkF) (w : List Word) : Bool :=
  let kn := cdiv (dKb w) 64
  l.table != 0 && (decide (l.ksel ≥ 40) || (decide (l.ksel < 32) && decide (l.ksel + kn > 32)) || (decide (32 ≤ l.ksel) && decide (l.ksel - 32 + kn > 8)) ||
    (decide (0x20 ≤ l.rreg) && l.rreg != 0x3F) || (decide (l.rreg < 0x20) && decide (l.rreg + cdiv (dRb w) 64 > 32)) || l.flg == 3)

/-! Illegal combinations (R133) -/

/-- An ALU's destination where it writes one. -/
def AluF.dest (a : AluF) : List Nat := if a.op = 0 ∨ a.dst = 0x3F then [] else [a.dst]

/-- A microword is illegal for a thread; `w0` is the descriptor its lookup would use. -/
def Mw.illegal (w : Mw) (x : Thread) (w0 : List Word) : Bool :=
  let a := w.alu false
  let b := w.alu true
  let p := w.hp
  let l := w.lk
  let dests := a.dest ++ b.dest
  let res := if l.table = 0 then [] else resRegs w0 l.rreg
  let rd := if p.write then [] else p.regs
  decide (w.seq ≥ 0xD) || (w.seq == 3 && x.stack.isEmpty) || (w.seq == 2 && decide (x.stack.length ≥ 4)) || (w.seq == 4 && !x.inTrap) ||
  (w.seq == 0xB && x.pass2) || (w.bmask != 0 && decide (0x18 ≤ w.csel) && decide (w.csel < 0x20)) ||
  a.illegal || b.illegal || (!a.dest.isEmpty && a.dest == b.dest) || p.illegal ||
  rd.any (fun r => dests.contains r || res.contains r) || (p.len != 0 && p.write && p.mdata && dests.any (· ≥ 0x28)) ||
  l.illegal w0 || res.any dests.contains ||
  (w.te && (l.table == 0 || w.seq != 6 || w.cbump != 0)) || w.cbump == 3

/-- Registers that the fields of a unit read or write (R132). -/
def AluF.touches (a : AluF) : List Nat := if a.op = 0 then [] else
  ((if usesA a.op then [a.srcA] else []) ++ (if usesB a.op then [a.srcB] else []) ++ a.dest).filter (· < 0x20)
def HpF.touches (p : HpF) : List Nat := p.regs ++ if p.len ≠ 0 ∧ bit p.flg 0 then [if bit p.flg 1 then 31 else 30] else []
def LkF.touches (l : LkF) (w0 : List Word) : List Nat := if l.table = 0 then [] else keyRegs w0 l.ksel ++ resRegs w0 l.rreg
def bumpTouches (sel : Nat) : List Nat := if sel = 2 then [29] else []

/-- Registers a microword reads or writes (R132). -/
def Mw.touches (w : Mw) (w0 : List Word) : List Nat :=
  (w.alu false).touches ++ (w.alu true).touches ++ w.hp.touches ++ w.lk.touches w0 ++ bumpTouches w.cbump ++
    (if w.seq ≠ 6 ∧ w.csel ≥ 0x20 then [w.csel - 0x20] else [])

/-- Registers that lookups of a thread have yet to write. -/
def Thread.awaited (x : Thread) : List Nat := (x.slots.filter (·.2.busy)).flatMap fun s => resRegs s.2.desc s.2.rreg

/-- One of these registers is awaited. -/
def Thread.awaits (x : Thread) (l : List Nat) : Bool := l.any x.awaited.contains

/-- A lookup of the thread is outstanding. -/
def Thread.outstanding (x : Thread) : Bool := x.slots.any (·.2.busy)

end Sys2Proof.Machine
end

