-- ==== Sys2Proof/Machine/Engine.lean ====
section
/-! DEFINITION. Threads at work: issue (R139), lookups (R126, R127, R131, R163), counter bumps (R128), micro-traps
(R134–R138), the end of a pass (R104, R151, R152, R198) and debug access (R140). -/

namespace Sys2Proof.Machine

/-- Adds to a 64-bit wrapping count held in two words (R6). -/
def Dev.bump64 (d : Dev) (p off n : Nat) : Dev :=
  let v := ((d.word p off).toNat + (d.word p (off + 4)).toNat * 2 ^ 32 + n) % 2 ^ 64
  (d.setWord p off (BitVec.ofNat 32 v)).setWord p (off + 4) (BitVec.ofNat 32 (v / 2 ^ 32))

/-- The microword at an address of a cluster's control store. -/
def Dev.csWord (d : Dev) (c a : Nat) : Mw := Map.rd 0 d.cs.words (16384 * c + a % 16384)

/-- Trap base of a cluster. -/
def Dev.trapBase (d : Dev) (c : Nat) : Nat := d.get (engPage c) F.ENG_IMG_TRAP_BASE

/-! The end of a pass -/

/-- The geometry of R152 as a pass leaves it: START, LEN and CUT. -/
def Thread.geometry (x : Thread) (flen : Nat) : Nat × Nat × Nat :=
  let dlen := flen - 4
  if bit (x.mdWord 15) 31 then (bits (x.mdWord 14) 0 8, bits (x.mdWord 14) 8 9, bits (x.mdWord 14) 17 9)
  else (0, min 256 dlen, min 256 dlen)

/-- The geometry is valid (R152). -/
def geometryOk (flen : Nat) (g : Nat × Nat × Nat) : Bool :=
  let dlen := flen - 4
  decide (g.1 + g.2.1 ≤ 256) && decide (g.2.2 ≤ min 256 dlen) && decide (g.2.1 + dlen - g.2.2 ≥ 14)

/-- The rewritten bytes replace cell 0 (R198): the packet as it goes on, or none while requester 8 has no cell. -/
def Dev.rewrite (d : Dev) (x : Thread) (k : Pkt) : Option Pkt × Dev :=
  let (s, l, c) := x.geometry k.flen
  let dlen := k.flen - 4
  let lead := slice x.hb s l ++ (slice (d.cellBytes k.first) c (min 256 dlen - c))
  match d.placeLead 8 k.first lead with
  | (none, d) => (none, d)
  | (some f, d) => (some { k with first := f, owner := f, len := l + dlen - c }, d)

/-- A pass that has ended leaves its thread once its lookups have returned and its cell is granted (R138, R198). -/
def Dev.leave (d : Dev) (t : Nat) : Dev :=
  let x := d.thread t
  match x.head, x.ended with
  | some h, some e =>
    let waits := (List.range 2).any fun die => (d.bpm die).waits.any fun w => w.2 = .rewrite t
    if x.outstanding || waits then d.setThread t { x with st := 3 }
    else if e.kind = 4 then
      if (d.pg e.arg).recirc.length ≥ 64 then d.setThread t { x with st := 4 }
      else (d.setThread t Thread.init).enqueueRecirc e.arg h
    else (d.setThread t Thread.init).sendReport h e
  | _, _ => d

/-- A pass ends with this ending. -/
def Dev.endPass (d : Dev) (t : Nat) (e : Ending) : Dev :=
  (d.setThread t { d.thread t with ended := some e, st := 3, waitWord := none, held := none, frame := 0 }).leave t

/-- A record of TRAP_END or THREAD_UE, at most one per cluster and microsecond (R390, R396). -/
def Dev.trapRecord (d : Dev) (t cause : Nat) (abort ue : Bool) (act : Nat) (h : Head) : Dev :=
  let x := d.thread t
  let c := t / 128
  let us := d.time.sec * 1000000 + d.time.ns / 1000 + 1
  let d0 := x.upc + cause * 2 ^ 14 + b2n abort * 2 ^ 17 + t / 8 % 16 * 2 ^ 18 + t % 8 * 2 ^ 22 + c * 2 ^ 25
  let d1 := h.ticket + h.pkt.inport * 2 ^ 16
  let d2 := h.dom % 4096 + act * 2 ^ 12 + b2n h.pass2 * 2 ^ 14 + h.ord * 2 ^ 15
  let cls := if ue then 1 else 6
  if Map.rd 0 d.log.trapUs c = us then d.bump 0x04 (F.ERR_CNT_COUNT.at (4 * cls))
  else
    ({ d with log := { d.log with trapUs := d.log.trapUs.wr 0 c us } }).event (engPage c) (if ue then 1 else 2) cls d0 d1 d2

/-- The pass ends as a trap that cannot resume, with the TRAP action of R93, which counts it in ACT_PUNT or ACT_DROP (R104, R138). -/
def Dev.endByTrap (d : Dev) (t cause : Nat) (abort ue : Bool) : Dev :=
  let x := d.thread t
  match x.head with
  | none => d
  | some h =>
    let c := t / 128
    let k := h.pkt
    let punt := d.portAct k.pg k.lane 4 = 1 ∧ d.get (pgPage k.pg) F.PG_PUNT_CH_EN = 1
    let d := d.pgCnt k.pg k.lane (if punt then 7 else 6)
    let d := ((d.engCnt c 4).engCnt c 6).int (engPage c) 1
    let d := if cause = 3 then (d.engCnt c 5).int (engPage c) 0 else d
    let d := d.trapRecord t cause abort ue (if punt then 1 else 2) h
    d.endPass t (if punt then ⟨3, d.get (pgPage k.pg) F.PG_PUNT_CH_CHAN, 0, cause, 2, k, h.md⟩ else ⟨2, 0, 0, 0, 0, k, h.md⟩)

/-- A pass ends with FORWARD or PUNT: its geometry is judged and its bytes are placed (R151, R152, R198). -/
def Dev.endPlaced (d : Dev) (t : Nat) (e : Ending) : Dev :=
  let x := d.thread t
  if !geometryOk e.pkt.flen (x.geometry e.pkt.flen) then d.endByTrap t 5 false false
  else
    match d.rewrite x e.pkt with
    | (some k, d) => d.endPass t { e with pkt := k }
    | (none, d) =>
      let die := cellDie e.pkt.first
      ((d.cnt (bpmPage die) F.BPM_CNT_COUNT 8).waitCell die 8 (.rewrite t)).endPass t e

/-- The outcomes of R104 that a microword's SEQ asks for (R151). -/
def Dev.endBySeq (d : Dev) (t seq : Nat) : Dev :=
  let x := d.thread t
  match x.head with
  | none => d
  | some h =>
    let k := h.pkt
    let w := x.mdWord 15
    let end_ (kind arg color reason src : Nat) : Ending := ⟨kind, arg, color, reason, src, k, h.md⟩
    if seq = 7 then d.endPlaced t (end_ 0 (bits w 0 17) (min 2 (bits w 17 2)) 0 0)
    else if seq = 8 then d.endPlaced t (end_ 1 (bits w 0 16) 0 0 0)
    else if seq = 9 then d.endPass t (end_ 2 0 0 0 0)
    else if seq = 0xA then
      if bit w 16 then
        if d.get (pgPage k.pg) F.PG_PUNT_CH_EN = 0 then
          (if geometryOk k.flen (x.geometry k.flen) then d.endPass t (end_ 2 0 0 0 0) else d.endByTrap t 5 false false)
        else d.endPlaced t (end_ 3 (d.get (pgPage k.pg) F.PG_PUNT_CH_CHAN) 0 (bits w 10 6) 1)
      else d.endPlaced t (end_ 3 (bits w 0 10) 0 (bits w 10 6) 1)
    else if !d.running (pgPage (bits w 0 4)) then d.endByTrap t 5 false false
    else (d.engCnt (t / 128) 7).endPass t (end_ 4 (bits w 0 4) 0 0 0)

/-! Lookups -/

/-- Requests of a descriptor outstanding in a quadrant or gang. -/
def Dev.requestsOut (d : Dev) (q table : Nat) : Nat :=
  (d.eng.threads.map fun x => ((x.2.slots : List (Nat × LkSlot)).filter fun s => s.2.busy && s.2.fate = 0 && s.2.quad = q && s.2.table = table).length).sum

/-- Values of consecutive operands, the first most significant. -/
def joinRegs (l : List Nat) : Nat := l.foldl (fun a v => a * 2 ^ 64 + v) 0

/-- A lookup leaves the thread (R126, R127, R163, R173). `old`: the thread from before the microword. -/
def Dev.launch (d : Dev) (t : Nat) (old : Thread) (l : LkF) : Dev :=
  if l.table = 0 then d
  else
    let q := d.quadOf (t / 128)
    let i := d.lkIndex q l.table old.epoch
    let w := d.desc q i
    let n := cdiv (dKb w) 64
    let key := joinRegs ((List.range n).map fun j => if l.ksel < 32 then old.reg (l.ksel + j) else old.mdDouble (l.ksel - 32 + j)) % 2 ^ dKb w
    let learns := l.flg = 1 ∧ dLearn w ∧ dType w = 1 ∧ l.rreg ≠ 0x3F
    let val := joinRegs ((resRegs w l.rreg).map old.reg) % 2 ^ (dRb w - 16)
    let quota := df w 1 22 10
    let fate := if df w 0 5 1 = 1 ∨ dType w = 0 ∨ dType w ≥ 5 then 1 else if quota ≠ 0 ∧ d.requestsOut q i ≥ quota then 2 else 0
    let d := d.cnt (lkpPage q) F.LKP_CNT_COUNT 0
    let d := if fate = 1 then d.cnt (lkpPage q) F.LKP_CNT_COUNT 4 else if fate = 2 then d.cnt (lkpPage q) F.LKP_CNT_COUNT 3 else d
    let x := d.thread t
    d.setThread t { (x.setLk (x.launched % 8) ⟨true, 0, l.te, l.rreg, i, q, w, fate, key, l.flg, if learns then val else 0, decide learns, old.upc⟩) with
      launched := x.launched + 1 }

/-- The descriptor a lookup port's fields would use. -/
def Dev.lkDesc (d : Dev) (t : Nat) (x : Thread) (l : LkF) : List Word :=
  let q := d.quadOf (t / 128)
  d.desc q (d.lkIndex q l.table x.epoch)

/-- CBUMP: one packet and FRAME_LEN bytes to a counter pair (R128). -/
def Dev.counterBump (d : Dev) (old : Thread) (sel imm : Nat) : Dev :=
  if sel = 1 then d.postCounter (imm % 2 ^ 24) 1 (bits (old.mdWord 0) 8 14)
  else if sel = 2 then d.postCounter (old.reg 29 % 2 ^ 24) 1 (bits (old.mdWord 0) 8 14)
  else d

/-! Issue (R139) -/

/-- What a thread's next issue slot holds. -/
inductive IssueKind where
  | epoch | trap | budget | halt | brk | csUe | illegal (w : Mw) | word (w : Mw) | hazard
  deriving DecidableEq, Repr

/-- The microword at an address of a cluster is known to be uncorrectable (R117). -/
def Dev.csBad (d : Dev) (c a : Nat) : Bool := Map.rd false d.cs.bad (16384 * c + a % 16384)

/-- The next microword of a thread reads or writes a register that a lookup of it has yet to write (R132). -/
def Dev.hazard (d : Dev) (t : Nat) : Bool :=
  let x := d.thread t
  let w := d.csWord (t / 128) x.upc
  !d.csBad (t / 128) x.upc && x.awaits (w.touches (d.lkDesc t x w.lk))

/-- The issue slot of a READY thread by the order of R139; R132 holds a microword back. -/
def Dev.issueKind (d : Dev) (t : Nat) : IssueKind :=
  let x := d.thread t
  let c := t / 128
  if x.epochFail then .epoch
  else if x.held.isSome && !x.inTrap then .trap
  else if x.issues ≥ d.live (engPage c) F.ENG_BUDGET_ISSUES then .budget
  else if x.haltReq && !x.inTrap then .halt
  else
    let w := d.csWord c x.upc
    let w0 := d.lkDesc t x w.lk
    if d.csBad c x.upc then .csUe
    else if d.hazard t || (w.lk.table != 0 && (x.slot (x.launched % 8)).busy) then .hazard
    else if w.brk && d.get (engPage c) F.ENG_DBG_CTL_BRK_EN == 1 && !x.inTrap && !x.skipBrk then .brk
    else if w.illegal x w0 then .illegal w else .word w

/-- The thread may issue: READY with a head, its cluster's domain ON. -/
def Dev.mayIssue (d : Dev) (t : Nat) : Bool := (d.thread t).st == 2 && (d.thread t).head.isSome && d.pageOn (engPage (t / 128))

/-- The threads of an engine that R96 chooses among: READY, with an issue that R132 does not hold back. -/
def Dev.candidates (d : Dev) (e : Nat) : List Nat :=
  (List.range 8).filter fun i => d.mayIssue (8 * e + i) && decide (d.issueKind (8 * e + i) ≠ .hazard)

/-- The engine chooses this thread, by R17 among its candidates (R96); none where it chooses another. -/
def Dev.pickThread (d : Dev) (t : Nat) : Option Dev :=
  match d.grant (Rr.thread (t / 8)) 8 (d.candidates (t / 8)) with
  | (some i, d') => if i = t % 8 then some d' else none
  | (none, _) => none

/-- A thread whose next microword waits for a lookup result is in WAIT_LOOKUP, and READY once it does not (R96, R132). -/
def Dev.settleThread (d : Dev) (t : Nat) : Dev :=
  let x := d.thread t
  if x.head.isSome ∧ x.ended.isNone ∧ x.waitWord.isNone ∧ (x.st = 2 ∨ x.st = 3) then
    let st := if d.hazard t then 3 else 2
    if x.st = st then d else d.setThread t { x with st := st }
  else d

/-- The effects of a microword's ALUs, head port, lookup and counter fields (R130). -/
def Dev.unitsAct (d : Dev) (t : Nat) (w : Mw) : Dev :=
  let old := d.thread t
  let x := old.aluAct old t w.imm false (w.alu false)
  let x := x.aluAct old t w.imm true (w.alu true)
  let x := x.hpAct old w.imm w.hp
  (((d.setThread t x).launch t old w.lk).counterBump old w.cbump w.imm)

/-- TRET and RESUME 1: what the trap frame restores (R136). -/
def Thread.resumeFrame (x : Thread) : Thread :=
  let f := x.frame.toNat
  { x with flagsA := bits f 18 4, flagsB := bits f 22 4, latch := bits f 14 4, upc := bits f 0 14, frame := BitVec.ofNat 64 (clrBit f 32) }

/-- A legal microword issues: its units act, then its SEQ (R139). -/
def Dev.issueWord (d : Dev) (t : Nat) (w : Mw) : Dev :=
  let old := d.thread t
  let nib := old.cond t w.csel
  let d := (d.bump64 (engPage (t / 128)) 0x120 1).unitsAct t w
  let x := d.thread t
  let x := { x with skipBrk := false, head := x.head.map fun h => { h with issues := h.issues + 1 } }
  let x := if w.seq = 6 then x else { x with latch := nib }
  let next := (old.upc + 1) % 16384
  match w.seq with
  | 0 => d.setThread t { x with upc := next }
  | 1 => d.setThread t { x with upc := formed w nib }
  | 2 => d.setThread t { x with stack := next :: x.stack, upc := formed w nib }
  | 3 => d.setThread t { x with stack := x.stack.tail, upc := x.stack.headD 0 }
  | 4 => d.setThread t x.resumeFrame
  | 5 => d.setThread t { x with upc := formed w nib }
  | 6 =>
    if x.outstanding then d.setThread t { x with st := 3, waitWord := some (w, old.upc) }
    else d.setThread t { x with latch := nib, upc := formed w nib }
  | 12 => (d.setThread t x).endByTrap t 5 true false
  | s => (d.setThread t x).endBySeq t s

/-- An illegal microword ends the pass; a second RECIRCULATE is also noted (R110, R133). -/
def Dev.issueIllegal (d : Dev) (t : Nat) (w : Mw) : Dev :=
  let d := if w.seq = 0xB ∧ (d.thread t).pass2 = true then d.int (engPage (t / 128)) 2 else d
  d.endByTrap t 5 false false

/-- Corrected words of a fetch are counted (R117, R391). -/
def Dev.csCorrected (d : Dev) (c n : Nat) : Dev :=
  let d := d.bump (engPage c) F.ENG_CS_CNT_CORR n
  (d.bump 0x04 (F.ERR_CE_COUNT.at (24 + 4 * (c / 32))) n).bump 0x04 (F.ERR_CNT_COUNT.at 0) n

/-- A fetch is uncorrectable: the pass ends, and every fetch of the microword fails until the host rewrites it (R117). -/
def Dev.failFetch (d : Dev) (t : Nat) : Dev :=
  let c := t / 128
  let a := (d.thread t).upc
  let d : Dev := { d with cs := { d.cs with bad := d.cs.bad.wr false (16384 * c + a % 16384) true } }
  let d := ((d.bump (engPage c) F.ENG_CS_CNT_UNCORR).eccCount 3 (c / 32) .bad).int (engPage c) 4
  (d.err (engPage c) 0x22 a).endByTrap t 5 false false

/-- An issue attempt as the command of SEQ `seq` describes it: `chk` of 0–6 counts corrected control-store words, 7 says that a
thread-state word read as uncorrectable (R394). CONT stands for the SEQ codes that have no name. -/
def Dev.issue (d : Dev) (t seq chk : Nat) : Dev :=
  match d.pickThread t with
  | none => d
  | some d' =>
    let mine (w : Mw) : Bool := w.seq == seq || (seq == 0 && decide (w.seq ≥ 0xD))
    match d.issueKind t with
    | .epoch => d'.endByTrap t 1 false false
    | .csUe => d'.failFetch t
    | .illegal w => if mine w then (d'.csCorrected (t / 128) (chk % 7)).issueIllegal t w else d
    | .word w =>
      if !mine w then d
      else if chk = 7 then (d'.eccCount 4 (t / 4096) .bad).endByTrap t 5 false true
      else ((d'.csCorrected (t / 128) chk).issueWord t w).settleThread t
    | _ => d

/-- BUDGET: the issue finds the count at or above the budget (R97). -/
def Dev.issueBudget (d : Dev) (t : Nat) : Dev :=
  match d.pickThread t, d.issueKind t with
  | some d, .epoch => d.endByTrap t 1 false false
  | some d, .budget => d.endByTrap t 3 false false
  | _, _ => d

/-- CS_UE: the fetch of the issue is uncorrectable (R117). -/
def Dev.issueCsUe (d : Dev) (t : Nat) : Dev :=
  match d.pickThread t, d.issueKind t with
  | none, _ => d
  | some d, .epoch => d.endByTrap t 1 false false
  | some _, .trap | some _, .budget | some _, .halt => d
  | some d, _ => d.failFetch t

/-- The trap frame of R135. -/
def Thread.frameOf (x : Thread) (upc cause slot : Nat) : BitVec 64 :=
  BitVec.ofNat 64 (upc + x.latch * 2 ^ 14 + x.flagsA * 2 ^ 18 + x.flagsB * 2 ^ 22 + cause * 2 ^ 26 + slot * 2 ^ 29 + 2 ^ 32)

/-- TRAP_ENTER: a held resumable trap takes the issue slot (R135). -/
def Dev.trapEnter (d : Dev) (t : Nat) : Dev :=
  let x := d.thread t
  let c := t / 128
  match d.pickThread t, d.issueKind t, x.held with
  | some d, .epoch, _ => d.endByTrap t 1 false false
  | some d, .trap, some (cause, upc, slot) =>
    ((d.setThread t { x with held := none, frame := x.frameOf upc cause slot, upc := (d.trapBase c + 16 * cause) % 16384 }).engCnt c 4).settleThread t
  | _, _, _ => d

/-- A thread halts: its frame is saved with cause 4 and it is in DEBUG (R140). -/
def Dev.haltThread (d : Dev) (t : Nat) : Dev :=
  let x := d.thread t
  let c := t / 128
  ((d.setThread t { x with st := 5, haltReq := false, frame := x.frameOf x.upc 4 0 }).engCnt c 4).int (engPage c) 3

/-- THREAD_HALTED: a pending halt is taken at the next issue. -/
def Dev.threadHalted (d : Dev) (t : Nat) : Dev :=
  match d.pickThread t, d.issueKind t with
  | some d, .epoch => d.endByTrap t 1 false false
  | some d, .halt => d.haltThread t
  | _, _ => d

/-- DEBUG_BREAK: a microword with BRK halts its thread instead of issuing; `chk` words of its fetch are corrected. -/
def Dev.debugBreak (d : Dev) (t chk : Nat) : Dev :=
  match d.pickThread t, d.issueKind t with
  | some d, .epoch => d.endByTrap t 1 false false
  | some d, .brk => (d.csCorrected (t / 128) chk).haltThread t
  | some d, .csUe => d.failFetch t
  | _, _ => d

/-! A lookup returns (R127, R131) -/

/-- The slot of a failed TE = 1 lookup, with the cause it raises. -/
def Thread.failedSlot (x : Thread) : Option (Nat × Nat) :=
  ((List.range 8).find? fun k => (x.slot k).te && (bit (x.slot k).status 1 || bit (x.slot k).status 3)).map fun k =>
    (k, if bit (x.slot k).status 1 then 0 else 2)

/-- A failed TE = 1 lookup raises its trap, with the address of the microword that launched it (R127, R134). -/
def Thread.raise (x : Thread) : Option Thread :=
  x.failedSlot.map fun (k, cause) => { (x.setLk k { x.slot k with te := false }) with held := some (cause, (x.slot k).upc, k) }

/-- wake (R139): the WAIT is resolved once no lookup is outstanding. A thread that does not WAIT goes on with the trap held. -/
def Thread.wake (x : Thread) (t : Nat) : Thread :=
  match x.waitWord with
  | none => if x.held.isSome then x else x.raise.getD x
  | some ((w : Mw), _) =>
    if x.outstanding then x
    else
      let y := { x with st := 2, waitWord := none }
      match y.raise with
      | some y => y
      | none =>
        let nib := x.cond t (Mw.csel w)
        { y with latch := nib, upc := formed w nib }

/-- Result registers from `r` on, the first most significant (R164). -/
def Thread.putResult (x : Thread) (r : Nat) : Nat → Nat → Thread
  | 0, _ => x
  | n + 1, v => (x.setReg r (v / 2 ^ (64 * n))).putResult (r + 1) n v

/-- LOOKUP_RESULT. -/
def Dev.lookupResult (d : Dev) (t k : Nat) (ecc : Ecc) : Dev :=
  let sl := (d.thread t).slot k
  if !sl.busy then d
  else
    let (r, d) := d.lookupReturn sl ecc
    let x := d.thread t
    let x := x.setLk k { sl with busy := false, status := r.status }
    if x.ended.isSome then (d.setThread t x).leave t
    else
      let x := if r.epoch then { x with epochFail := true }
        else if sl.rreg = 0x3F then x else x.putResult sl.rreg (cdiv r.rb 64) r.res
      (d.setThread t (x.wake t)).settleThread t

/-! One unit alone -/

/-- An ALU executes on a READY thread with the operands of the command (R121–R124). -/
def Dev.aluRow (d : Dev) (t : Nat) (side : Bool) (op dst srcA srcB shm imm : Nat) : Dev :=
  let a : AluF := ⟨op, dst, srcA, srcB, shm⟩
  let x := d.thread t
  if !d.mayIssue t || x.awaits a.touches then d
  else if a.illegal then d.endByTrap t 5 false false
  else d.setThread t (x.aluAct x t imm side a)

/-- The head port moves bytes on a READY thread with the operands of the command (R125). -/
def Dev.hpRow (d : Dev) (t off len dir reg flg imm : Nat) : Dev :=
  let p : HpF := ⟨off, len, dir, reg, flg⟩
  let x := d.thread t
  if !d.mayIssue t || x.awaits p.touches then d
  else if p.illegal then d.endByTrap t 5 false false
  else d.setThread t (x.hpAct x imm p)

/-- A READY thread launches a lookup with the operands of the command (R126); it waits while its slot is in use or a register it
names is awaited (R132). -/
def Dev.lkRow (d : Dev) (t table ksel rreg flg : Nat) (te : Bool) : Dev :=
  let l : LkF := ⟨table, ksel, rreg, flg, te⟩
  let x := d.thread t
  if !d.mayIssue t || (x.slot (x.launched % 8)).busy || x.awaits (l.touches (d.lkDesc t x l)) then d
  else if l.illegal (d.lkDesc t x l) then d.endByTrap t 5 false false
  else d.launch t x l

/-- A READY thread posts a counter update with the operands of the command (R128). -/
def Dev.bumpRow (d : Dev) (t sel imm : Nat) : Dev :=
  if !d.mayIssue t || (d.thread t).awaits (bumpTouches sel) then d
  else if sel = 3 then d.endByTrap t 5 false false
  else d.counterBump (d.thread t) sel imm

/-! Debug access (R140) -/

/-- A halt request, held while the thread is in a trap or in DEBUG; discarded for a thread that holds no packet. -/
def Dev.haltRequest (d : Dev) (t : Nat) : Dev :=
  let x := d.thread t
  if x.st = 0 ∨ x.head.isNone then d else d.setThread t { x with haltReq := true }

/-- HALT_ALL. -/
def Dev.haltAll (d : Dev) (c : Nat) : Dev := (List.range 128).foldl (fun d i => d.haltRequest (128 * c + i)) d

/-- RESUME of a thread in DEBUG: 1 continue, 2 the vector, 3 abort. -/
def Dev.resume (d : Dev) (t how : Nat) : Dev :=
  let x := d.thread t
  if how = 1 then (d.setThread t { x.resumeFrame with st := 2, skipBrk := true }).settleThread t
  else if how = 2 then (d.setThread t { x with st := 2, upc := (d.trapBase (t / 128) + 64) % 16384 }).settleThread t
  else if how = 3 then d.endByTrap t 5 true false
  else d

/-- The thread that ENG_DBG_CTL selects. -/
def Dev.dbgThread (d : Dev) (c : Nat) : Nat :=
  128 * c + 8 * d.get (engPage c) F.ENG_DBG_CTL_ENGINE + d.get (engPage c) F.ENG_DBG_CTL_THREAD

/-- Units in each space of ENG_DBG_ADDR. -/
def dbgUnits (space : Nat) : Nat := if space = 2 then 8 else if space = 3 then 1 else 32

/-- ENG_DBG_DATA can be reached: the selected thread is in DEBUG and INDEX is in range. -/
def Dev.dbgOpen (d : Dev) (c : Nat) : Bool :=
  let p := engPage c
  (d.thread (d.dbgThread c)).st == 5 && decide (d.get p F.ENG_DBG_ADDR_INDEX < dbgUnits (d.get p F.ENG_DBG_ADDR_SPACE))

/-- The 64 bits ENG_DBG_DATA shows. -/
def Dev.dbgRead (d : Dev) (c : Nat) : Nat :=
  let p := engPage c
  let x := d.thread (d.dbgThread c)
  let i := d.get p F.ENG_DBG_ADDR_INDEX
  match d.get p F.ENG_DBG_ADDR_SPACE with
  | 0 => x.reg i
  | 1 => leNat (slice x.hb (8 * i) 8)
  | 2 => x.mdDouble i
  | _ => x.frame.toNat

/-- A write of ENG_DBG_DATA. -/
def Dev.dbgWrite (d : Dev) (c v : Nat) : Dev :=
  let p := engPage c
  let t := d.dbgThread c
  let x := d.thread t
  let i := d.get p F.ENG_DBG_ADDR_INDEX
  match d.get p F.ENG_DBG_ADDR_SPACE with
  | 0 => d.setThread t (x.setReg i v)
  | 1 => d.setThread t (x.setHb (splice x.hb (8 * i) (leBytes 8 v)))
  | 2 => d.setThread t (x.setMd (splice x.md (8 * i) (leBytes 8 v)))
  | _ => d.setThread t { x with frame := BitVec.ofNat 64 v }

/-! Waiting cells -/

/-- A cell is granted to the pass that waits for its rewrite cell (R198). -/
def Dev.rewriteGranted (d : Dev) (t : Nat) : Dev :=
  let x := d.thread t
  match x.ended with
  | none => d
  | some e =>
    match d.rewrite x e.pkt with
    | (some k, d) => (d.setThread t { x with ended := some { e with pkt := k } }).leave t
    | (none, d) => d.waitCell (cellDie e.pkt.first) 8 (.rewrite t)

end Sys2Proof.Machine
end

