-- ==== Sys2Proof/Machine/Peal.lean ====
section
/-! DEFINITION. Multicast replication (R248–R259): groups, lists, edits, the walk, the fence and the memory commands. -/

namespace Sys2Proof.Machine

/-- LIST_BASE, COUNT, CNT_BASE and CNT_EN of a group. -/
def Dev.group (d : Dev) (die g : Nat) : Nat × Nat × Nat × Bool := Map.rd (0, 0, 0, false) d.pealMem.groups (65536 * die + g)
def Dev.listEntry (d : Dev) (die i : Nat) : BitVec 64 := Map.rd 0 d.pealMem.lists (524288 * die + i)
def Dev.editEntry (d : Dev) (die e : Nat) : Edit := Map.rd Edit.init d.pealMem.edits (4096 * die + e)

/-- Words of the Peal memories that read as uncorrectable until they are rewritten, by kind: 0 group, 1 list, 2 edit. -/
def pealBadKey (kind die i : Nat) : Nat := 1100000 * kind + (if kind = 0 then 65536 else if kind = 1 then 524288 else 4096) * die + i
def Dev.pealBad (d : Dev) (kind die i : Nat) : Bool := Map.rd false d.pealMem.bad (pealBadKey kind die i)
def Dev.setPealBad (d : Dev) (kind die i : Nat) (v : Bool) : Dev :=
  { d with pealMem := { d.pealMem with bad := d.pealMem.bad.wr false (pealBadKey kind die i) v } }

/-- An uncorrectable group or list entry is counted and recorded (R255). -/
def Dev.listUe (d : Dev) (die i : Nat) : Dev := ((d.cnt (pealPage die) F.PEAL_CNT_COUNT 11).int (pealPage die) 1).err (pealPage die) 0x21 i

/-- An entry is read by a walk as its `n`th: whether it is uncorrectable, and what its code counts (R255, R391). `bad` and
`corr` number the entries that the walk finds so: 0 the group's, 2 k + 1 list entry k, 2 k + 2 the edit of list entry k. -/
def Dev.pealRead (d : Dev) (die kind i n : Nat) (bad corr : List Nat) : Bool × Dev :=
  let d := if bad.contains n then d.setPealBad kind die i true else d
  let ue := d.pealBad kind die i
  (ue, d.eccCount 7 die (if ue then .bad else if corr.contains n then .corrected else .clean))

/-- The wait of an engine's walk for an edit cell of a BPM, and its end. -/
def Dev.editWaits (d : Dev) (bpm die : Nat) : Bool := (d.bpm bpm).waits.contains (9, .edit die)
def Dev.endEditWait (d : Dev) (bpm die : Nat) : Dev :=
  d.setBpm bpm { d.bpm bpm with waits := (d.bpm bpm).waits.filter fun w => w != (9, .edit die) }

/-- The bytes of the edited leading cell; none for an invalid edit (R252). -/
def Dev.editedLead (d : Dev) (p : Pkt) (e : Edit) : Option (List Byte) :=
  let l := (d.cell p.first).vb + 1
  if e.off + e.del > l ∨ l - e.del + e.ins > 256 ∨ p.len + e.ins < 14 + e.del then none
  else
    let b := d.cellBytes p.first
    some (slice b 0 e.off ++ e.template.take e.ins ++ slice b (e.off + e.del) (l - e.off - e.del))

/-- The holder of a replica that is not made lets go (R253). -/
def Dev.releaseOrFinal (d : Dev) (owner : Nat) (final : Bool) : Dev := if final then d.ownFinal owner else d.ownRelease owner

/-- The walk takes the packet at the front of the queue and reads its group entry (R253, R255). -/
def Dev.walkStart (d : Dev) (die : Nat) (bad corr : List Nat) : Dev :=
  let x := d.peal die
  match x.queue with
  | [] => d
  | k :: rest =>
    let p := pealPage die
    let d := (d.setPealQueue die rest).cnt p F.PEAL_CNT_COUNT 0
    if d.isBad k.pkt.owner then (d.badDrop k.pkt.owner).freePkt k.pkt
    else
      let (ue, d) := d.pealRead die 0 k.group 0 bad corr
      if ue then (d.listUe die k.group).freePkt k.pkt
      else
        let g := d.group die k.group
        if g.2.1 = 0 then (d.freePkt k.pkt).cnt p F.PEAL_CNT_COUNT 9
        else
          let d := d.setOwners k.pkt.owner k.pkt.first (g.2.1 - 1)
          d.setPeal die { d.peal die with walk := some (k, g, 0) }

/-- One list entry's decision. None: the walk is held, for an edit cell or by admission. -/
def Dev.walkStep (d : Dev) (die : Nat) (k : McPkt) (g : Nat × Nat × Nat × Bool) (i : Nat) (bad corr : List Nat) : Option Dev × Dev :=
  let p := pealPage die
  let (base, count, cntBase, cntEn) := g
  let final := decide (i + 1 = count)
  let pk := k.pkt
  let cb := if cntEn then cntBase + 1 else 0
  let f := max 64 (pk.len + 4)
  let skip (d : Dev) (why : Nat) : Option Dev × Dev := let d := (d.pealReason die cb why f).releaseOrFinal pk.owner final; (some d, d)
  if d.isBad pk.owner then let d := d.releaseOrFinal pk.owner final; (some d, d)
  else
    let (ue, d) := d.pealRead die 1 (base + i) (2 * i + 1) bad corr
    if ue then skip (d.listUe die (base + i)) 5
    else
      let e := (d.listEntry die (base + i)).toNat
      let q := bits e 0 17
      let edit := bits e 28 12
      if !bit e 19 then skip d 5
      else if bits e 20 8 = pk.inport then skip d 4
      else if d.attached (d.qNode q) ∧ d.isMember (d.qPort q) then skip d 7
      else if edit = 0 then
        match d.handUnicast die 1 ⟨q, bits e 17 2, pk, true, final, cb⟩ with
        | none => (none, d)
        | some d' => let d' := if (d.ulxMap die q).isSome then d'.pealReason die cb 0 f else d'; (some d', d')
      else
        let (ue, d) := d.pealRead die 2 edit (2 * i + 2) bad corr
        if ue then skip (d.listUe die (base + i)) 5
        else
          let ed := d.editEntry die edit
          match d.editedLead pk ed with
          | none => skip d 6
          | some lead =>
            let bdie := cellDie pk.first
            if ¬ ((d.ulxMap die q).isSome ∨ d.canOffer die 1) then (none, d)
            else
              let first : Option Nat × Dev :=
                if lead.isEmpty then (some (d.cell pk.first).next, d)
                else match d.allocCell bdie 9 with
                  | (none, d) =>
                    if d.editWaits bdie die then (none, d)
                    else (none, (d.waitCell bdie 9 (.edit die)).cnt p F.PEAL_CNT_COUNT 12)
                  | (some c, d) =>
                    let d := d.endEditWait bdie die
                    let o := d.cell pk.first
                    let d := d.writeCell c lead
                    (some c, d.setCell c { d.cell c with vb := lead.length - 1, last := o.last, next := o.next, sh := false })
              match first with
              | (none, d) => (none, d)
              | (some c, d) =>
                let pk' := { pk with first := c, len := pk.len + ed.ins - ed.del }
                match d.handUnicast die 1 ⟨q, bits e 17 2, pk', true, final, cb⟩ with
                | none => (none, if lead.isEmpty then d else d.freeCell c)
                | some d' =>
                  let d' := if (d.ulxMap die q).isSome then d'.pealReason die cb 0 (max 64 (pk'.len + 4)) else d'
                  (some d', d')

/-- The walk in hand goes on until it ends or is held. -/
def Dev.walkOn (d : Dev) (die : Nat) (bad corr : List Nat) : Nat → Dev
  | 0 => d
  | n + 1 =>
    match (d.peal die).walk with
    | none => d
    | some (k, g, i) =>
      match d.walkStep die k g i bad corr with
      | (none, d) => d
      | (some d, _) =>
        let x := d.peal die
        if i + 1 ≥ g.2.1 then d.setPeal die { x with walk := none, fence := if x.fence = 1 then 2 else x.fence }
        else (d.setPeal die { x with walk := some (k, g, i + 1) }).walkOn die bad corr n

/-- REPLICATION_WALK: the engine takes a packet, or continues the walk in hand; `bad` and `corr` number the entries that
read as uncorrectable or corrected (`Dev.pealRead`). -/
def Dev.replicationWalk (d : Dev) (die : Nat) (bad corr : List Nat) : Dev :=
  if !d.active (pealPage die) then d
  else
    match (d.peal die).walk with
    | some _ => d.walkOn die bad corr 4097
    | none => (d.walkStart die bad corr).walkOn die bad corr 4097

/-- EDIT_CELL_GRANTED: a walk held for an edit cell continues. -/
def Dev.editGranted (d : Dev) (die : Nat) : Dev :=
  match (d.peal die).walk with
  | none => d
  | some (k, _, _) =>
    let b := cellDie k.pkt.first
    if d.editWaits b die ∧ d.mayTake b 9 then (d.endEditWait b die).walkOn die [] [] 4097 else d

/-- PEAL_FENCE.FENCE (R257). -/
def Dev.fence (d : Dev) (die : Nat) : Dev :=
  let x := d.peal die
  (d.set (pealPage die) F.PEAL_FENCE_DONE 0).setPeal die { x with fence := if x.walk.isSome then 1 else 2 }

/-- FENCE_DONE: every walk started before the fence has ended. -/
def Dev.fenceDone (d : Dev) (die : Nat) : Dev :=
  let x := d.peal die
  if x.fence = 2 then ((d.setPeal die { x with fence := 0 }).set (pealPage die) F.PEAL_FENCE_DONE 1).int (pealPage die) 0 else d

/-- The space and index of PEAL_MEM_IDX; none outside the ranges of R259. -/
def Dev.pealIdx (d : Dev) (die : Nat) : Option (Nat × Nat) :=
  let p := pealPage die
  let s := d.get p F.PEAL_MEM_IDX_SPACE
  let i := d.get p F.PEAL_MEM_IDX_INDEX
  if s = 1 ∧ (i = 0 ∨ i > 4095) then none else some (s, i)

/-- Words of an edit entry as PEAL_MEM_DATA holds them. -/
def Edit.words (e : Edit) : List Word :=
  BitVec.ofNat 32 (e.off + e.del * 2 ^ 8 + e.ins * 2 ^ 14) ::
    (List.range 8).map fun k => BitVec.ofNat 32 (leNat (slice e.template (4 * k) 4))

/-- A PEAL_MEM_CMD of value `v` is ignored with MEM_BAD (R259). -/
def Dev.memBad (d : Dev) (die v : Nat) : Bool :=
  let w := (d.word (pealPage die) 0x120).toNat
  (bit v 0 && bit v 1) || ((bit v 0 || bit v 1) && (match d.pealIdx die with
    | none => true
    | some (s, _) => bit v 1 && s == 1 && (decide (bits w 8 6 > 32) || decide (bits w 14 6 > 32))))

/-- PEAL_MEM_CMD.READ (R259). -/
def Dev.pealMemRead (d : Dev) (die : Nat) : Dev :=
  let p := pealPage die
  match d.pealIdx die with
  | none => d
  | some (0, i) =>
    let e := d.listEntry die i
    (d.setWord p 0x120 (e.setWidth 32)).setWord p 0x124 (BitVec.ofNat 32 (e.toNat / 2 ^ 32))
  | some (_, i) => d.showRec p 0x120 9 (d.editEntry die i).words

/-- PEAL_MEM_CMD.WRITE applies the whole entry in one update (R257, R259). -/
def Dev.pealMemWrite (d : Dev) (die : Nat) : Dev :=
  let p := pealPage die
  let w (k : Nat) : Nat := (d.word p (0x120 + 4 * k)).toNat
  match d.pealIdx die with
  | none => d
  | some (0, i) =>
    let d := d.setPealBad 1 die i false
    { d with pealMem := { d.pealMem with lists := d.pealMem.lists.wr 0 (524288 * die + i) (BitVec.ofNat 64 (w 0 + w 1 * 2 ^ 32)) } }
  | some (_, i) =>
    let e : Edit := ⟨bits (w 0) 0 8, bits (w 0) 8 6, bits (w 0) 14 6, (List.range 8).flatMap fun k => leBytes 4 (w (k + 1))⟩
    if e.del > 32 ∨ e.ins > 32 then d
    else
      let d := d.setPealBad 2 die i false
      { d with pealMem := { d.pealMem with edits := d.pealMem.edits.wr Edit.init (4096 * die + i) e } }

/-- The four words of a group entry (R250). -/
def Dev.groupRead (d : Dev) (die g : Nat) : List Word :=
  let e := d.group die g
  [BitVec.ofNat 32 e.1, BitVec.ofNat 32 e.2.1, BitVec.ofNat 32 (e.2.2.1 + b2n e.2.2.2 * 2 ^ 24), 0]

/-- A WRITE of a group entry, and its CODE (R250). -/
def Dev.groupWrite (d : Dev) (die g : Nat) (x : List Word) : Nat × Dev :=
  let w (k : Nat) : Nat := (x.getD k 0).toNat
  let base := bits (w 0) 0 19
  let count := bits (w 1) 0 13
  let cb := bits (w 2) 0 24
  let en := bit (w 2) 24
  if count > 4096 ∨ base + count > 524288 ∨ (en = true ∧ cb + 7 ≥ 2 ^ 24) then (3, d)
  else
    let d := d.setPealBad 0 die g false
    (0, { d with pealMem := { d.pealMem with groups := d.pealMem.groups.wr (0, 0, 0, false) (65536 * die + g) (base, count, cb, en) } })

/-- PEAL STARTING: the input queue is emptied and PEAL_FENCE cleared (R258). -/
def Dev.startPeal (d : Dev) (die : Nat) : Dev :=
  let l := (d.peal die).queue
  let d := (d.setPealQueue die []).setPeal die { d.peal die with queue := [], walk := none, fence := 0 }
  let d := l.foldl (fun d k => d.freePkt k.pkt) ((d.endEditWait 0 die).endEditWait 1 die)
  d.set (pealPage die) F.PEAL_FENCE_DONE 0

end Sys2Proof.Machine
end

