-- ==== Sys2Proof/Machine/Ulux.lean ====
section
/-! DEFINITION. Ulux links (R367–R385): link layer, port states, streams and paths, transactions, windows and mesh time. -/

namespace Sys2Proof.Machine

def Dev.setUlx (d : Dev) (u : Ulux) : Dev := { d with ulx := u }
def Dev.uport (d : Dev) (p : Nat) : UlxPort := Map.rd UlxPort.init d.ulx.ports p
def Dev.setUport (d : Dev) (p : Nat) (x : UlxPort) : Dev := d.setUlx { d.ulx with ports := d.ulx.ports.wr UlxPort.init p x }

/-- The ULX page of a port. -/
def uPage (p : Nat) : Nat := ulxPage (p / 8)

/-- ULX_PORT_STAT[i].STATE (R371): 0 DOWN, 1 TRAIN, 2 HELLO, 3 UP, 4 MISWIRED. -/
def Dev.uState (d : Dev) (p : Nat) : Nat := d.get (uPage p) (F.ULX_PORT_STAT_STATE.at (4 * (p % 8)))
def Dev.uUp (d : Dev) (p : Nat) : Bool := d.pageOn (uPage p) && d.uState p == 3

/-- A port changes state (R371). -/
def Dev.setUState (d : Dev) (p st : Nat) : Dev :=
  if d.uState p = st then d
  else
    let d := (d.set (uPage p) (F.ULX_PORT_STAT_STATE.at (4 * (p % 8))) st).int (uPage p) 0
    if st = 1 then d.emit (.ulxTrain p) else d

/-- The device that a port's set is wired to (R368); none for the spare port. -/
def Dev.uPeer (d : Dev) (p : Nat) : Option Nat :=
  if p < 15 then some (d.live (uPage p) F.ULX_CFG_PEER / 4 ^ (p / 5) % 4) else none

/-- UP ports of the set to device `e`. -/
def Dev.portsTo (d : Dev) (e : Nat) : List Nat := (List.range 16).filter fun p => d.uUp p && d.uPeer p == some e

/-- MEMBERS as a die's ULX has it in force. -/
def Dev.isMemberDev (d : Dev) (die e : Nat) : Bool := bit (d.live (ulxPage die) F.ULX_CFG_MEMBERS) e

/-- DIRECT: devices with an UP direct port. -/
def Dev.direct4 (d : Dev) : Nat := ofBits ((List.range 4).filter fun e => !(d.portsTo e).isEmpty)

/-- Intermediate `m`, reached directly, reports an UP port to `e` (R377). -/
def Dev.reaches (d : Dev) (m e : Nat) : Bool := (d.portsTo m).any fun p => bit (d.uport p).reach e

/-- The other members between this device and `e`, lower first. -/
def Dev.between (d : Dev) (die e : Nat) : List Nat :=
  (List.range 4).filter fun m => m ≠ d.power.uxId && m ≠ e && d.isMemberDev die m

/-- ANY: devices with any path. -/
def Dev.any4 (d : Dev) (die : Nat) : Nat :=
  ofBits ((List.range 4).filter fun e => e ≠ d.power.uxId && (!(d.portsTo e).isEmpty || (d.between die e).any fun m => d.reaches m e))

/-- ULX_REACH follows the ports; a change sets INT_STAT.BLK bit 1, and a path that returns ends the loss of its device (R379). -/
def Dev.updReach (d : Dev) : Dev :=
  let d := (List.range 2).foldl (fun d die =>
    let v := d.direct4 + 16 * d.any4 die
    if !d.pageOn (ulxPage die) || (d.word (ulxPage die) 0x011C).toNat = v then d
    else (d.setWord (ulxPage die) 0x011C (BitVec.ofNat 32 v)).int (ulxPage die) 1) d
  let back := (List.range 4).filter fun e => bit (d.any4 0) e || bit (d.any4 1) e
  d.setUlx { d.ulx with lost := back.foldl (fun m e => m.wr false e false) d.ulx.lost }

/-! Cells (R370) -/

/-- The header of a cell: KIND, VC, LSEQ, ACK, the four CRED fields and REACH. -/
structure CellHdr where
  kind : Nat
  vc : Nat
  lseq : Nat
  ack : Nat
  cred : List Nat
  reach : Nat
  deriving DecidableEq, Repr

def cellHdr (b : List Byte) : CellHdr :=
  let h := beAt b 0 8
  ⟨bits h 60 4, bits h 58 2, bits h 46 12, bits h 34 12, (List.range 4).map fun v => bits h (10 + 6 * v) 6, bits h 6 4⟩

/-- The cell passes its CRC. -/
def ucellOk (b : List Byte) : Bool := b.length == 256 && beAt b 252 4 == crc32c 0xFFFFFFFF (b.take 252)

/-- Credits of a packet VC may be returned: not in DRAIN, nor while the SWC of the port's die is not RUNNING (R373, R74). -/
def Dev.credOpen (d : Dev) (p vc : Nat) : Bool := decide (vc ≥ 2) || (d.mode != 3 && d.running (swcPage (p / 8)))

/-- A cell leaves a port, carrying ACK, CRED and REACH. -/
def Dev.ulxSendCell (d : Dev) (p kind vc lseq : Nat) (payload : List Byte) : List Byte × Dev :=
  let x := d.uport p
  let give := (List.range 4).map fun v => if d.credOpen p v then min 63 (x.owed.getD v 0) else 0
  let h := kind * 2 ^ 60 + vc * 2 ^ 58 + lseq * 2 ^ 46 + x.ack * 2 ^ 34 +
    ((List.range 4).map fun v => give.getD v 0 * 2 ^ (10 + 6 * v)).sum + d.direct4 * 2 ^ 6
  let b := beBytes 8 h ++ slice payload 0 244
  let c := b ++ beBytes 4 (crc32c 0xFFFFFFFF b)
  let d := d.setUport p { x with owed := (List.range 4).map fun v => x.owed.getD v 0 - give.getD v 0 }
  (c, (d.bump (uPage p) (F.ULX_PORT_CNT_COUNT.at (16 * (p % 8)))).emit (.ulxCell p c))

/-- A cell that is not DATA. -/
def Dev.ulxSend (d : Dev) (p kind : Nat) (payload : List Byte) : Dev := (d.ulxSendCell p kind 0 0 payload).2

/-- A DATA cell takes the next LSEQ, a credit and a replay place (R372, R373). -/
def Dev.ulxSendData (d : Dev) (p vc : Nat) (payload : List Byte) : Dev :=
  let seq := ((d.uport p).lseq + 1) % 4096
  let (c, d) := d.ulxSendCell p 1 vc seq payload
  let x := d.uport p
  d.setUport p { x with lseq := seq, replay := x.replay ++ [⟨seq, c, 0⟩], cred := x.cred.set vc (x.cred.getD vc 0 - 1) }

/-- A cell leaves the receive buffer: its credit is to be returned (R373). -/
def Dev.uCredit (d : Dev) (p vc : Nat) : Dev :=
  let x := d.uport p
  d.setUport p { x with owed := x.owed.set vc (x.owed.getD vc 0 + 1) }

/-- One NAK after a CRC failure or a sequence break (R372). -/
def Dev.ulxNak (d : Dev) (p : Nat) : Dev :=
  let x := d.uport p
  if x.nak then d else (d.setUport p { x with nak := true }).ulxSend p 2 []

/-- A cell arrives: its CRC and KIND are judged, and on an UP port its ACK, CRED and REACH are taken (R370, R372). Answers
whether it is a good cell of the kind the command names. -/
def Dev.ulxArrive (d : Dev) (p : Nat) (cell : List Byte) (kind : Nat) : Bool × Dev :=
  if !d.pageOn (uPage p) || decide (d.uState p < 2) then (false, d)
  else if !ucellOk cell then
    let d := d.bump (uPage p) (F.ULX_PORT_CNT_COUNT.at (16 * (p % 8) + 4))
    (false, if d.uUp p then d.ulxNak p else d)
  else
    let h := cellHdr cell
    if h.kind > 4 then (false, d.cnt (uPage p) F.ULX_CNT_COUNT 2)
    else if h.kind ≠ kind then (false, d)
    else if kind = 3 then (true, d)
    else if !d.uUp p then (false, d)
    else
      let x := d.uport p
      let left := match x.replay.findIdx? (·.lseq = h.ack) with | some i => x.replay.drop (i + 1) | none => x.replay
      let x' := { x with replay := left, cred := (List.range 4).map fun v => x.cred.getD v 0 + h.cred.getD v 0, reach := h.reach }
      let d := d.setUport p x'
      (true, if h.reach = x.reach then d else d.updReach)

/-- A DATA cell is accepted in LSEQ order; a break discards it with a NAK (R372). -/
def Dev.ulxInOrder (d : Dev) (p : Nat) (cell : List Byte) : Bool × Dev :=
  let x := d.uport p
  let h := cellHdr cell
  if h.lseq = (x.ack + 1) % 4096 then (true, d.setUport p { x with ack := h.lseq, nak := false })
  else (false, d.ulxNak p)

/-! Packet cells (R376) -/

/-- The route header of a packet cell. -/
structure Route where
  src : Nat
  dst : Nat
  via : Nat
  viav : Bool
  ddie : Nat
  sop : Bool
  eop : Bool
  bad : Bool
  pseq : Nat
  slot : Nat
  vlen : Nat
  queue : Nat
  color : Nat
  plen : Nat
  sdie : Nat
  deriving DecidableEq, Repr

def routeOf (pl : List Byte) : Route :=
  let h := beAt pl 0 12
  ⟨bits h 94 2, bits h 92 2, bits h 90 2, bit h 89, bits h 88 1, bit h 87, bit h 86, bit h 85, bits h 69 16, bits h 63 6,
    bits h 55 8, bits h 38 17, bits h 36 2, bits h 22 14, bits h 21 1⟩

def Route.bytes (r : Route) : List Byte :=
  beBytes 12 (r.src * 2 ^ 94 + r.dst * 2 ^ 92 + r.via * 2 ^ 90 + b2n r.viav * 2 ^ 89 + r.ddie * 2 ^ 88 + b2n r.sop * 2 ^ 87 +
    b2n r.eop * 2 ^ 86 + b2n r.bad * 2 ^ 85 + r.pseq * 2 ^ 69 + r.slot * 2 ^ 63 + r.vlen * 2 ^ 55 + r.queue * 2 ^ 38 +
    r.color * 2 ^ 36 + r.plen * 2 ^ 22 + r.sdie * 2 ^ 21)

/-- A payload with another route header. -/
def reroute (pl : List Byte) (r : Route) : List Byte := r.bytes ++ pl.drop 12

/-- A counter of ULX_PEER_CNT. -/
def Dev.peerCnt (d : Dev) (die e k : Nat) : Dev := d.bump (ulxPage die) (F.ULX_PEER_CNT_COUNT.at (32 * e + 4 * k))

/-- The port that a cell for next hop `e` takes: UP, with a credit, of the sender's die where there is one (R377). -/
def Dev.pickUport (d : Dev) (die e vc : Nat) : Option Nat × Dev :=
  let ps := (d.portsTo e).filter fun p => decide ((d.uport p).cred.getD vc 0 > 0) && decide ((d.uport p).replay.length < 1024)
  let own := ps.filter fun p => p / 8 = die
  d.grant (Rr.ulux e) 16 (if own.isEmpty then ps else own)

/-- The next hop of cell `n` for device `e` (R377): the pattern's path, taken as direct where it names no intermediate that
reaches `e`; none while there is no path. -/
def Dev.nextHop (d : Dev) (die e n : Nat) : Option Nat :=
  let s := n % 64
  let ent := (d.liveWord (ulxPage die) (0x0200 + 4 * (s / 16))).toNat / 4 ^ (s % 16) % 4
  let ms := d.between die e
  let via := match ent with
    | 1 => ms[0]?
    | 2 => ms[1]?
    | _ => none
  match via.filter fun m => d.reaches m e with
  | some m => some m
  | none => if !(d.portsTo e).isEmpty then some e else ms.find? fun m => d.reaches m e

/-! Receiving (R375, R378) -/

def Dev.stream (d : Dev) (k : Nat) : Stream := Map.rd Stream.init d.ulx.streams k
def Dev.setStream (d : Dev) (k : Nat) (x : Stream) : Dev := d.setUlx { d.ulx with streams := d.ulx.streams.wr Stream.init k x }
def streamKey (die src sdie vc : Nat) : Nat := 16 * die + 4 * src + 2 * sdie + vc

/-- The packet in hand of a stream is freed and counted (R375, R378). -/
def Dev.dropBuild (d : Dev) (k : Nat) : Dev :=
  let x := d.stream k
  match x.build with
  | none => d
  | some b =>
    let d := (d.setStream k { x with build := none, dropping := true }).walkFree b.cells
    d.peerCnt (k / 16) (k / 4 % 4) 6

/-- The packet whose last cell has come is offered to the SWC as source index 2, or freed (R375, R216). -/
def Dev.offerBuild (d : Dev) (k : Nat) (b : Build) (bad : Bool) : Dev :=
  let die := k / 16
  let src := k / 4 % 4
  let d := d.setStream k { d.stream k with build := none }
  match b.cells with
  | [] => d
  | f :: _ =>
    let d := d.linkCells b.cells none
    let len := ((b.cells.map fun c => (d.cell c).vb + 1)).sum
    if bad then (d.freeChain f).peerCnt die src 6
    else (d.offer die 2 ⟨b.queue, b.color, ⟨f, f, len, len + 4, 128, 0, 0, 0, false⟩, false, false, 0⟩).peerCnt die src 1

/-- The cell NEXT of a stream is taken: `c` joins its packet, or is freed where there is none (R375, R378). -/
def Dev.takeNext (d : Dev) (k : Nat) (pl : List Byte) (c : Nat) : Dev :=
  let r := routeOf pl
  let die := k / 16
  let d := if r.sop then
      let d := d.dropBuild k
      d.setStream k { d.stream k with build := some ⟨r.queue, r.color, r.plen, []⟩, dropping := false }
    else d
  let x := d.stream k
  match x.build with
  | none =>
    let d := (if r.eop then d.setStream k { x with dropping := false } else d).walkFree [c]
    if r.eop && !x.dropping then d.peerCnt die (k / 4 % 4) 6 else d
  | some b =>
    let b := { b with cells := b.cells ++ [c] }
    if r.eop then d.offerBuild k b r.bad else d.setStream k { d.stream k with build := some b }

/-- A stream releases its held cells in PSEQ order (R378); a packet's last cell is held while the SWC cannot take the packet
(R216). -/
def Dev.releaseStream (d : Dev) (k : Nat) : Nat → Dev
  | 0 => d
  | n + 1 =>
    let x := d.stream k
    match x.held.find? (·.1 = x.next) with
    | none => d
    | some h =>
      let r := routeOf h.2.1
      if r.eop && (x.build.isSome || r.sop) && !r.bad && !d.canOffer (k / 16) 2 then d
      else
        let d := d.takeNext k h.2.1 h.2.2
        let x := d.stream k
        (d.setStream k { x with next := (x.next + 1) % 65536, held := x.held.filter (·.1 ≠ h.1) }).releaseStream k n

/-- Requester 13 of a die waits. -/
def Dev.ulxWaits (d : Dev) (die : Nat) : Bool := (d.bpm die).waits.any fun w => w.2 = .ulux

/-- A packet cell in a receive buffer for this device: it is written to a cell of requester 13 and goes to its resequencer, and its
credit is returned; it stays where it lies too far ahead or requester 13 is refused (R373, R378, R203). -/
def Dev.ulxTake (d : Dev) (p : Nat) (c : RxCell) : Bool × Dev :=
  let r := routeOf c.payload
  let k := streamKey r.ddie r.src r.sdie (c.vc % 2)
  let x := d.stream k
  let off := (r.pseq + 65536 - x.next) % 65536
  if !d.running (swcPage r.ddie) || !d.pageOn (ulxPage r.ddie) || d.ulxWaits r.ddie then (false, d)
  else if off ≥ 32768 ∨ x.held.any (·.1 = r.pseq) then (true, (d.peerCnt r.ddie r.src 7).uCredit p c.vc)
  else if off ≥ 1024 then (false, d)
  else
    match d.writePieces r.ddie 13 [slice c.payload 12 (r.vlen + 1)] with
    | (b :: _, true, d) =>
      let d := d.setStream k { x with held := x.held ++ [(r.pseq, c.payload.take 12, b)] }
      (true, (d.uCredit p c.vc).releaseStream k 1024)
    | (_, _, d) => (false, d.waitCell r.ddie 13 .ulux)

/-- The cells of a port's receive buffer that can leave it do. -/
def Dev.pumpRxPort (d : Dev) (p : Nat) : List RxCell → Dev
  | [] => d
  | c :: r =>
    if (routeOf c.payload).dst ≠ d.power.uxId then d.pumpRxPort p r
    else match d.ulxTake p c with
      | (true, d) =>
        let x := d.uport p
        (d.setUport p { x with rx := x.rx.erase c }).pumpRxPort p r
      | (false, d) => d.pumpRxPort p r

/-- Every receive buffer is looked at again, twice, since what leaves one may let another's cells pass. -/
def Dev.pumpRx (d : Dev) : Dev :=
  let once (d : Dev) : Dev := (List.range 16).foldl (fun d p => d.pumpRxPort p (d.uport p).rx) d
  once (once d)

/-- DATA: a packet cell arrives (R372, R373). -/
def Dev.ulxData (d : Dev) (p : Nat) (cell : List Byte) : Dev :=
  match d.ulxArrive p cell 1 with
  | (false, d) => d
  | (true, d) =>
    let vc := (cellHdr cell).vc
    if vc ≥ 2 then d
    else match d.ulxInOrder p cell with
      | (false, d) => d
      | (true, d) =>
        let x := d.uport p
        (d.setUport p { x with rx := x.rx ++ [⟨vc, slice cell 8 244⟩] }).pumpRx

/-- Requester 13 is granted a cell, or the SWC can take packets again: the streams of the die go on (R203, R216). -/
def Dev.uluxGranted (d : Dev) (die : Nat) : Dev :=
  let ks := (d.ulx.streams.filter fun (x : Nat × Stream) => x.1 / 16 = die).map (·.1)
  (ks.foldl (fun d k => d.releaseStream k 1024) d).pumpRx

/-- ADMISSION, after which a held Ulux packet may be offered (R216). -/
def Dev.admitNext (d : Dev) (die src : Nat) (ecc : Ecc) : Dev :=
  let d' := d.admission die src ecc
  if (d'.offers die 2).length < (d.offers die 2).length then d'.uluxGranted die else d'

/-- RSQ_TIMEOUT: NEXT moves to the lowest held PSEQ (R378). -/
def Dev.rsqTimeout (d : Dev) (die dev sdie vc : Nat) : Dev :=
  let k := streamKey die dev sdie vc
  let x := d.stream k
  match argMin (fun s => (((s + 65536 - x.next) % 65536 : Nat) : Int)) (x.held.map (·.1)) with
  | none => d
  | some s =>
    if s = x.next then d
    else
      let d := d.dropBuild k
      let d := d.setStream k { d.stream k with next := s }
      (((d.peerCnt die dev 5).int (ulxPage die) 5).releaseStream k 1024).pumpRx

/-! Sending (R375, R377) -/

/-- The head cell of a transmit queue: its payload apart from PSEQ, SLOT and path, and whether it is the last; none while its
frame has not ended. -/
def Dev.headCell (d : Dev) (u : UlxPkt) : Option (List Byte × Bool) :=
  let b := (d.chainBytes u.pkt.first).take u.pkt.len
  let last := decide (u.sent + 232 ≥ u.pkt.len)
  if last && d.arriving u.pkt.owner then none else some ((b.drop u.sent).take 232, last)

/-- The head cell of a transmit queue is sent on port `p`, where that is the port it takes. -/
def Dev.sendHead (d : Dev) (key p : Nat) : Option Dev :=
  let die := key / 8
  let dev := key / 2 % 4
  let dd := key % 2
  match Map.rd [] d.ulx.queues key with
  | [] => none
  | u :: rest =>
    match d.headCell u with
    | none => none
    | some (b, last) =>
      let n := Map.rd 0 d.ulx.count dev
      match d.nextHop die dev n with
      | none => none
      | some hop =>
        match d.pickUport die hop u.vc with
        | (none, _) => none
        | (some g, d) =>
          if g ≠ p then none
          else
            let pk := 16 * die + 4 * dev + 2 * dd + u.vc
            let seq := Map.rd 0 d.ulx.pseq pk
            let bad := last && d.isBad u.pkt.owner
            let sop := decide (u.sent = 0)
            let r : Route := ⟨d.power.uxId, dev, (if hop = dev then 0 else hop), hop != dev, dd, sop, last, bad, seq, n % 64,
              b.length - 1, (if sop then u.queue else 0), (if sop then u.color else 0), (if sop then u.pkt.len else 0), die⟩
            let d := d.setUlx { d.ulx with pseq := d.ulx.pseq.wr 0 pk ((seq + 1) % 65536), count := d.ulx.count.wr 0 dev ((n + 1) % 64) }
            let q := if last then rest else { u with sent := u.sent + 232, waited := false } :: rest
            let d := (d.setUlx { d.ulx with queues := d.ulx.queues.wr [] key q }).ulxSendData p u.vc (r.bytes ++ b)
            if last then
              let d := if bad then d.badDrop u.pkt.owner else d
              some ((d.letGo u.pkt.first u.pkt.owner u.shared u.final).peerCnt die dev 0)
            else some d

/-- Head cells that have a path and no port with a credit wait; each wait counts once (R377). -/
def Dev.countWaits (d : Dev) : Dev :=
  (List.map (·.1) d.ulx.queues).foldl (fun d key =>
    match Map.rd [] d.ulx.queues key with
    | [] => d
    | u :: rest =>
      let die := key / 8
      let dev := key / 2 % 4
      match d.headCell u, d.nextHop die dev (Map.rd 0 d.ulx.count dev) with
      | some _, some hop =>
        if u.waited ∨ (d.pickUport die hop u.vc).1.isSome then d
        else (d.setUlx { d.ulx with queues := d.ulx.queues.wr [] key ({ u with waited := true } :: rest) }).peerCnt die dev 3
      | _, _ => d) d

/-- Transit cells that can go no further are discarded (R379); the first that takes port `p` is forwarded (R377). -/
def Dev.sendTransit (d : Dev) (p : Nat) : List (Nat × RxCell) → Option Dev × Dev
  | [] => (none, d)
  | (i, c) :: r =>
    let e := (routeOf c.payload).dst
    let x := d.uport i
    let out := (d.setUport i { x with rx := x.rx.erase c }).uCredit i c.vc
    if (d.portsTo e).isEmpty then out.sendTransit p r
    else match d.pickUport (i / 8) e c.vc with
      | (some g, _) => if g = p then (some ((out.ulxSendData p c.vc c.payload).peerCnt (p / 8) e 2), d) else d.sendTransit p r
      | (none, _) => d.sendTransit p r

/-- Cells to be sent again (R379): the first that takes port `p`. -/
def Dev.sendAgain (d : Dev) (p : Nat) : List (Nat × Nat × List Byte) → Option Dev
  | [] => none
  | (hop, vc, pl) :: r =>
    match d.pickUport (p / 8) hop vc with
    | (some g, d') =>
      if g = p then some ((d'.setUlx { d'.ulx with again := d'.ulx.again.erase (hop, vc, pl) }).ulxSendData p vc pl) else d.sendAgain p r
    | (none, _) => d.sendAgain p r

/-- ULX_CELL_SEND: an UP port sends what is due: a transaction cell, a transit cell, a cell to be sent again, or the head
cell of a transmit queue; else NULL (R370, R377). -/
def Dev.ulxCellSend (d : Dev) (p : Nat) : Dev :=
  if !d.uUp p then d
  else
    let x := d.uport p
    match if x.replay.length < 1024 then x.out.find? (fun o => decide (x.cred.getD o.1 0 > 0)) else none with
    | some o => (d.setUport p { x with out := x.out.erase o }).ulxSendData p o.1 o.2
    | none =>
      let transit := ((List.range 16).map fun i => ((d.uport i).rx.filter fun c => (routeOf c.payload).dst ≠ d.power.uxId).map fun c => (i, c)).flatten
      match d.sendTransit p transit with
      | (some d, _) => d
      | (none, d) =>
        match d.sendAgain p d.ulx.again with
        | some d => d
        | none =>
          let d := d.countWaits
          match (List.map (·.1) d.ulx.queues).findSome? fun key => d.sendHead key p with
          | some d => d
          | none => d.ulxSend p 0 []

/-! Port states (R371, R379) -/

/-- A packet cell that is to be sent again towards the device `hop`: where no port joins it any more, the source takes the first
intermediate that reaches its destination, and an intermediate discards it (R377, R379). -/
def Dev.againVia (d : Dev) (die : Nat) (c : Nat × Nat × List Byte) : Option (Nat × Nat × List Byte) :=
  let r := routeOf c.2.2
  if !(d.portsTo c.1).isEmpty then some c
  else if r.src ≠ d.power.uxId then none
  else match (d.between die r.dst).find? fun m => d.reaches m r.dst with
    | some m => some (m, c.2.1, reroute c.2.2 { r with via := m, viav := true })
    | none => if (d.portsTo r.dst).isEmpty then none else some (r.dst, c.2.1, reroute c.2.2 { r with via := 0, viav := false })

/-- A port leaves UP for `st`: packet cells not acknowledged are sent again elsewhere, transaction cells are discarded. -/
def Dev.leaveUp (d : Dev) (p st : Nat) : Dev :=
  let x := d.uport p
  let pkts := (x.replay.filter fun s => (cellHdr s.cell).vc < 2).map fun s => ((d.uPeer p).getD 0, (cellHdr s.cell).vc, slice s.cell 8 244)
  let d := (d.setUport p { x with replay := [], out := [], owed := [0, 0, 0, 0], cred := [0, 0, 0, 0], reach := 0 }).setUState p st
  (d.setUlx { d.ulx with again := (d.ulx.again ++ pkts).filterMap (d.againVia (p / 8)) }).updReach

/-- ULX_PORT_LEAVE_UP: loss of lock (R371). -/
def Dev.ulxLoss (d : Dev) (p : Nat) : Dev :=
  if d.uUp p then d.leaveUp p (if d.running (uPage p) then 1 else 0) else d

/-- ULX_ALIGNED: the PCS has aligned and the FEC has locked (R371). -/
def Dev.ulxAligned (d : Dev) (p : Nat) : Dev := if d.pageOn (uPage p) ∧ d.uState p = 1 then d.setUState p 2 else d

/-- Initial credits of R386 for a VC. -/
def Dev.initCred (d : Dev) (die v : Nat) : Nat := (d.liveWord (ulxPage die) 0x0118).toNat / 256 ^ v % 256

/-- HELLO_SEND (R371). -/
def Dev.helloSend (d : Dev) (p : Nat) : Dev :=
  if !d.pageOn (uPage p) || d.uState p != 2 then d
  else
    let die := p / 8
    d.ulxSend p 3 (([d.power.uxId, p, b2n (d.uport p).restart] ++ (List.range 4).map (d.initCred die) ++
      [d.live (ulxPage die) F.ULX_CFG_MEMBERS]).map (BitVec.ofNat 8))

/-- RESTART seen from a device: the held cells of its streams are discarded and the streams begin again at 0 (R385). -/
def Dev.restartStreams (d : Dev) (dev : Nat) : Dev :=
  let ks := (d.ulx.streams.filter fun (x : Nat × Stream) => x.1 / 4 % 4 = dev).map (·.1)
  ks.foldl (fun d k => ((d.stream k).held.foldl (fun d h => d.walkFree [h.2.2]) (d.dropBuild k)).setStream k Stream.init) d

/-- HELLO: a received HELLO moves the port to UP or to MISWIRED (R371). -/
def Dev.helloReceive (d : Dev) (p : Nat) (cell : List Byte) : Dev :=
  match d.ulxArrive p cell 3 with
  | (false, d) => d
  | (true, d) =>
    let b (i : Nat) : Nat := beAt cell (8 + i) 1
    let die := p / 8
    let wired := match d.uPeer p with
      | some e => b 0 == e && b 1 == 10 - 5 * (p / 5) + p % 5
      | none => d.mode == 5 && b 0 == d.power.uxId && b 1 == 15
    if d.uState p ≠ 2 then d
    else
      let d := if bit (b 2) 0 then d.restartStreams (b 0 % 4) else d
      let f := F.ULX_PORT_STAT_PEER_DEV.at (4 * (p % 8))
      let d := (d.set (uPage p) f (b 0)).set (uPage p) (F.ULX_PORT_STAT_PEER_PORT.at (4 * (p % 8))) (b 1)
      if wired && b 7 == d.live (ulxPage die) F.ULX_CFG_MEMBERS then
        let x := d.uport p
        let d := d.setUport p { x with lseq := 4095, ack := 4095, nak := false, replay := [], restart := false, owed := [0, 0, 0, 0],
                                       cred := (List.range 4).map fun v => b (3 + v) }
        ((d.setUState p 3).updReach)
      else (d.setUState p 4).err (uPage p) 0x22 p (b 0 + b 1 * 256 + b 7 * 65536)

/-- NULL (R370). -/
def Dev.nullReceive (d : Dev) (p : Nat) (cell : List Byte) : Dev := (d.ulxArrive p cell 0).2

/-- The sender replays from ACK + 1, each cell with the ACK, CRED and REACH of its sending; a cell resent REPLAY_MAX times takes the
port to TRAIN (R370, R372). -/
def Dev.replay (d : Dev) (p : Nat) : Dev :=
  let x := d.uport p
  match x.replay with
  | [] => d
  | a :: _ =>
    if a.resends ≥ d.get (uPage p) F.ULX_LINK_REPLAY_MAX then
      let d := d.bump (uPage p) (F.ULX_PORT_CNT_COUNT.at (16 * (p % 8) + 12))
      (d.event (uPage p) 9 5 p x.replay.length 0).leaveUp p 1
    else
      let d := d.setUport p { x with replay := x.replay.map fun s => { s with resends := s.resends + 1 } }
      x.replay.foldl (fun d s =>
        ((d.bump (uPage p) (F.ULX_PORT_CNT_COUNT.at (16 * (p % 8) + 8))).ulxSendCell p 1 (cellHdr s.cell).vc s.lseq (slice s.cell 8 244)).2) d

/-- NAK (R372). -/
def Dev.nakReceive (d : Dev) (p : Nat) (cell : List Byte) : Dev :=
  match d.ulxArrive p cell 2 with
  | (true, d) => d.replay p
  | (false, d) => d

/-- ACK_TIMEOUT (R372). -/
def Dev.ackTimeout (d : Dev) (p : Nat) : Dev := if d.uUp p then d.replay p else d

/-- PORT_RETRAIN: MISWIRED ports named by the bits go to TRAIN (R371). -/
def Dev.retrain (d : Dev) (die v : Nat) : Dev :=
  (setBits 8 v).foldl (fun d i => if d.uState (8 * die + i) = 4 then d.setUState (8 * die + i) 1 else d) d

/-- Packets of a transmit queue are freed and counted (R379, R385). -/
def Dev.freeUlxQueue (d : Dev) (key : Nat) : Dev :=
  let l := Map.rd [] d.ulx.queues key
  let d := d.setUlx { d.ulx with queues := d.ulx.queues.wr [] key [] }
  l.foldl (fun d u => (d.letGo u.pkt.first u.pkt.owner u.shared u.final).peerCnt (key / 8) (key / 2 % 4) 4) d

/-- PEER_HOLD_EXPIRE: the packets queued for an unreachable device are freed (R379). -/
def Dev.peerHoldExpire (d : Dev) (dev : Nat) : Dev :=
  if bit (d.any4 0) dev || bit (d.any4 1) dev then d
  else
    let d := d.setUlx { d.ulx with lost := d.ulx.lost.wr false dev true, again := d.ulx.again.filter fun x => (routeOf x.2.2).dst ≠ dev }
    ((List.map (·.1) d.ulx.queues).filter fun k => k / 2 % 4 = dev).foldl (fun d k => d.freeUlxQueue k) d

/-! Transactions (R380) -/

def txnOff (s : Nat) : Nat := 16 * s

/-- A slot ends with this code. -/
def Dev.txnEnd (d : Dev) (die s code : Nat) (done : Bool) : Dev :=
  let w := b2n done * 2 + b2n (code ≠ 0) * 4 + code * 16
  (d.setWord (ulxPage die) (0x040C + txnOff s) (BitVec.ofNat 32 w)).int (ulxPage die) 2

/-- A transaction payload (R380). -/
def txnPayload (op src dst space status tag addr data : Nat) : List Byte :=
  ([op, src + 4 * dst, space, status].map (BitVec.ofNat 8)) ++ beBytes 2 tag ++ [0, 0] ++ beBytes 4 addr ++ beBytes 4 data

/-- GO: the request goes direct as a REQ cell. -/
def Dev.txnGo (d : Dev) (die s : Nat) : Dev :=
  let p := ulxPage die
  let o := txnOff s
  let op := d.get p (F.ULX_TXN_OP.at o)
  let addr := d.get p (F.ULX_TXN_ADDR.at o)
  let dev := d.get p (F.ULX_TXN_DEV.at o)
  if addr % 4 ≠ 0 ∨ op = 0 ∨ op = 3 ∨ !d.running p then d.setWord p (0x040C + o) (BitVec.ofNat 32 (4 + 5 * 16))
  else
    let ps := d.portsTo dev
    let own := ps.filter fun q => q / 8 = die
    match d.grant (Rr.ulux dev) 16 (if own.isEmpty then ps else own) with
    | (none, d) => d.txnEnd die s 4 false
    | (some g, d) =>
      let d := d.setWord p (0x040C + o) 1
      let pl := txnPayload op d.power.uxId dev (d.get p (F.ULX_TXN_SPACE.at o)) 0 (s + 4 * die) addr (d.get p (F.ULX_TXN_DATA.at o))
      d.setUport g { d.uport g with out := (d.uport g).out ++ [(2, pl)] }

/-- The slot's registers take no write: BUSY or quarantined (R380). -/
def Dev.txnHeld (d : Dev) (die s : Nat) : Bool :=
  d.get (ulxPage die) (F.ULX_TXN_BUSY.at (txnOff s)) == 1 || d.get (ulxPage die) (F.ULX_TXN_QUAR.at (txnOff s)) == 1

/-- TXN_TIMEOUT (R380). -/
def Dev.txnTimeout (d : Dev) (die s : Nat) : Dev :=
  if d.get (ulxPage die) (F.ULX_TXN_BUSY.at (txnOff s)) = 0 then d
  else (d.txnEnd die s 3 false).set (ulxPage die) (F.ULX_TXN_QUAR.at (txnOff s)) 1

/-- TXN_QUARANTINE_END (R380). -/
def Dev.txnQuarEnd (d : Dev) (die s : Nat) : Dev := d.set (ulxPage die) (F.ULX_TXN_QUAR.at (txnOff s)) 0

/-- RESPONSE: an RSP cell ends its slot, or is late (R380). -/
def Dev.responseReceive (d : Dev) (p : Nat) (cell : List Byte) : Dev :=
  match d.ulxArrive p cell 1 with
  | (false, d) => d
  | (true, d) =>
    if (cellHdr cell).vc ≠ 3 then d
    else match d.ulxInOrder p cell with
      | (false, d) => d
      | (true, d) =>
        let d := d.uCredit p 3
        let tag := beAt cell 12 2
        let s := tag % 4
        let die := tag / 4 % 2
        if beAt cell 8 1 ≠ 3 ∨ d.get (ulxPage die) (F.ULX_TXN_BUSY.at (txnOff s)) = 0 ∨ !d.pageOn (ulxPage die) then d.cnt (uPage p) F.ULX_CNT_COUNT 1
        else
          let d := d.setWord (ulxPage die) (0x0408 + txnOff s) (BitVec.ofNat 32 (beAt cell 20 4))
          d.txnEnd die s (beAt cell 11 1 % 4) true

/-! Windows (R381) -/

/-- GO: every window held takes effect at once. -/
def Dev.winCommit (d : Dev) (die : Nat) : Dev :=
  let d := (d.set (ulxPage die) F.ULX_WIN_COMMIT_BUSY 1).set (ulxPage die) F.ULX_WIN_COMMIT_DONE 0
  if die ≠ 0 then d
  else
    let held (w : Nat) : Window := ⟨d.word 0x3A (0x0500 + 16 * w), d.word 0x3A (0x0504 + 16 * w), d.word 0x3A (0x0508 + 16 * w)⟩
    d.setUlx { d.ulx with windows := (List.range 8).foldl (fun m w => m.wr Window.init w (held w)) d.ulx.windows }

/-- WIN_COMMIT_DONE. -/
def Dev.winCommitDone (d : Dev) (die : Nat) : Dev :=
  if d.get (ulxPage die) F.ULX_WIN_COMMIT_BUSY = 0 then d
  else ((d.set (ulxPage die) F.ULX_WIN_COMMIT_BUSY 0).set (ulxPage die) F.ULX_WIN_COMMIT_DONE 1).int (ulxPage die) 4

/-- A request's translation (R381): a BAR (0 or 2) and offset, or STATUS 1 UNMAPPED, 2 DENIED. -/
def Dev.translate (d : Dev) (src space addr : Nat) (write : Bool) : Except Nat (Nat × Nat) :=
  let hit (w : Nat) : Bool :=
    let x := Map.rd Window.init d.ulx.windows w
    let base := bits x.w1.toNat 0 13
    bit x.w0.toNat 0 && bits x.w0.toNat 1 1 == space && decide (base ≤ addr / 65536) && decide (addr / 65536 < base + bits x.w1.toNat 16 14)
  match (List.range 8).find? hit with
  | none => .error 1
  | some w =>
    let x := Map.rd Window.init d.ulx.windows w
    if !bit (bits x.w0.toNat 4 4) src || (write && !bit x.w0.toNat 2) then .error 2
    else .ok (2 * space, (addr + bits x.w2.toNat 0 13 * 65536) - bits x.w1.toNat 0 13 * 65536)

/-! Mesh time (R382) -/

/-- A TIME cell. -/
def Dev.timeCell (d : Dev) (p msg dst xseq t : Nat) : Dev :=
  d.ulxSend p 4 ([BitVec.ofNat 8 msg, BitVec.ofNat 8 (d.power.uxId + 4 * dst)] ++ beBytes 2 xseq ++ beBytes 6 (t / 1000000000) ++
    beBytes 4 (t % 1000000000))

/-- MESH_EXCHANGE: the leader sends SYNC to each follower (R382). -/
def Dev.meshExchange (d : Dev) : Dev :=
  if d.meshRole ≠ 1 ∨ !d.running 0x08 then d
  else
    let to_ := (List.range 4).filter fun e => e ≠ d.power.uxId && (d.isMemberDev 0 e || d.isMemberDev 1 e)
    let x := d.time.xseq
    let d := d.setTime { d.time with xseq := (x + 1) % 65536 }
    to_.foldl (fun d e => match (d.portsTo e).head? with
      | some p => d.timeCell p 1 e x d.now
      | none => d) d

/-- A TIME cell of this MSG that arrives: its source, XSEQ and time. -/
def Dev.timeArrive (d : Dev) (p : Nat) (cell : List Byte) (msg : Nat) : Option (Nat × Nat × Nat) × Dev :=
  match d.ulxArrive p cell 4 with
  | (false, d) => (none, d)
  | (true, d) =>
    if beAt cell 8 1 ≠ msg ∨ !d.running 0x08 then (none, d)
    else (some (beAt cell 9 1 % 4, beAt cell 10 2, beAt cell 12 6 * 1000000000 + beAt cell 18 4 % 2 ^ 30), d)

/-- SYNC: the follower records t2 and answers with DREQ at t3. -/
def Dev.syncReceive (d : Dev) (p : Nat) (cell : List Byte) : Dev :=
  match d.timeArrive p cell 1 with
  | (some (src, x, t1), d) =>
    if d.meshRole ≠ 2 ∨ src ≠ d.live 0x08 F.TIME_MESH_CFG_LEADER then d
    else (d.setTime { d.time with exchanges := d.time.exchanges ++ [⟨src, p, x, t1, d.now, d.now⟩] }).timeCell p 2 src x d.now
  | (none, d) => d

/-- DREQ: the leader returns t4 in RESP. -/
def Dev.dreqReceive (d : Dev) (p : Nat) (cell : List Byte) : Dev :=
  match d.timeArrive p cell 2 with
  | (some (src, x, _), d) => if d.meshRole ≠ 1 then d else d.timeCell p 3 src x d.now
  | (none, d) => d

/-- RESP: the follower applies R328. -/
def Dev.respReceive (d : Dev) (p : Nat) (cell : List Byte) : Dev :=
  match d.timeArrive p cell 3 with
  | (some (src, x, t4), d) =>
    match d.time.exchanges.find? fun e => e.dev = src && e.xseq = x with
    | some e =>
      let d := d.setTime { d.time with exchanges := d.time.exchanges.erase e }
      if d.meshRole = 2 then
        let d' := d.meshUpdate ((((e.t2 : Int) - e.t1) - ((t4 : Int) - e.t3)) / 2)
        if d'.now = d.now then d' else d'.placeGates
      else d
    | none => d
  | (none, d) => d

/-- TIME_EXCHANGE_ABANDON: the oldest exchange has waited 10 µs. -/
def Dev.exchangeAbandon (d : Dev) : Dev :=
  match d.time.exchanges with
  | [] => d
  | e :: r => (d.setTime { d.time with exchanges := r }).cnt (uPage e.port) F.ULX_CNT_COUNT 3

/-! Settings, stop and start (R374, R375, R385) -/

/-- REPLAY_MAX × ACK_TMO_NS above a quarter of the transaction timeout: the block with that raised (R374, R399). -/
def Dev.replayRaise (d : Dev) (die : Nat) : Option Dev :=
  let p := ulxPage die
  let n := d.get p F.ULX_LINK_REPLAY_MAX * d.get p F.ULX_LINK_ACK_TMO_NS
  if n > d.get p F.ULX_TXN_TMO_US * 250 then some (d.set p F.ULX_TXN_TMO_US (cdiv (4 * n) 1000)) else none

def Dev.replayCheck (d : Dev) (die : Nat) : Dev := d.inconsistent (d.replayRaise die) (ulxPage die) 0x21

/-- The QMAP entries that R375 disables at a start. -/
def Dev.checkQmap (d : Dev) (die : Nat) : Dev :=
  let p := ulxPage die
  let en (d : Dev) (k : Nat) : Bool := d.live p (F.ULX_QMAP_EN.at (16 * k)) == 1
  let base (k : Nat) : Nat := d.live p (F.ULX_QMAP_BASE.at (16 * k))
  let size (k : Nat) : Nat := d.live p (F.ULX_QMAP_SIZE.at (16 * k))
  (List.range 8).foldl (fun d k =>
    let dev := d.live p (F.ULX_QMAP_DEV.at (16 * k))
    let bad := dev == d.power.uxId || !d.isMemberDev die dev || decide (base k + size k > 131072) ||
      decide (d.live p (F.ULX_QMAP_RBASE.at (16 * k)) + size k > 131072) ||
      (List.range k).any fun j => en d j && decide (base j < base k + size k) && decide (base k < base j + size j)
    if en d k && bad then (d.setLive p (F.ULX_QMAP_EN.at (16 * k)) 0).err p 0x23 k else d) d

/-- STARTING, its shadow settings applied: none where the credits exceed 256 (cause 2). -/
def Dev.startUlx (d : Dev) (die : Nat) : Option Dev :=
  if ((List.range 4).map (d.initCred die)).sum > 256 then none
  else
    let d := d.checkQmap die
    let mine (pl : List Byte) : Bool := (routeOf pl).src == d.power.uxId && (routeOf pl).sdie == die
    let d := d.setUlx { d.ulx with pseq := d.ulx.pseq.dropRange (16 * die) (16 * die + 16),
                                   again := d.ulx.again.filter fun x => !mine x.2.2 }
    some (((List.range 8).foldl (fun d i =>
      let p := 8 * die + i
      let d := d.setUport p { UlxPort.init with restart := true, rx := (d.uport p).rx }
      d.setUState p 1) d).updReach)

/-- STOPPING: transactions end with TIMEOUT. -/
def Dev.stopUlx (d : Dev) (die : Nat) : Dev := (List.range 4).foldl (fun d s => d.txnTimeout die s) d

/-- What is left after the wait of R385 is freed. -/
def Dev.endUlx (d : Dev) (die : Nat) : Dev := (List.range 8).foldl (fun d k => d.freeUlxQueue (8 * die + k)) d

end Sys2Proof.Machine
end

