-- ==== Sys2Proof/Machine/Errors.lean ====
section
/-! DEFINITION. The ERR page: log reads, containment of uncorrectable words (R394), the patrol scrubber (R392), and the
pairs of bounds (R399). -/

namespace Sys2Proof.Machine

/-! The log as the host reads it (R390) -/

/-- A read of ERR_LOG_REC[k]: the word, and the latch or the ORDER record that follows. -/
def Dev.logRead (d : Dev) (k req : Nat) : Word × Dev :=
  let oldest := d.log.ring.headD []
  if k = 0 then
    (oldest.getD 0 0, if d.log.ring.isEmpty then d else { d with log := { d.log with latch := some oldest } })
  else match d.log.latch with
    | some r => (r.getD k 0, d)
    | none => (oldest.getD k 0, d.capture { page := 0x04, kinds := [0x05], off := 0x0120 + 4 * k, req := req })

/-- ERR_LOG_POP: the oldest record goes, and with it the latch. -/
def Dev.logPop (d : Dev) : Dev :=
  match d.log.ring with
  | [] => d
  | _ :: r => ({ d with log := { d.log with ring := r, latch := none } } : Dev).set 0x04 F.ERR_LOG_STAT_COUNT r.length

/-! Uncorrectable words (R394). Word addresses, by memory code, are the model's: each object of a memory has one. -/

/-- The page that owns a word of memory `m` of a die. -/
def scrubPage (m die addr : Nat) : Nat :=
  match m with
  | 0 | 1 => bpmPage die
  | 2 => lkpPage (2 * die + addr / 2 ^ 21 % 2)
  | 3 => engPage (32 * die + addr / 2 ^ 17 % 32)
  | 4 => engPage (32 * die + addr % 4096 / 128)
  | 5 => ordPage die
  | 6 => tmPage die
  | _ =>
    match addr / 2 ^ 24 % 8 with
    | 0 | 1 | 2 => pealPage die
    | 3 => carPage die
    | 4 | 5 => eliPage die
    | 6 => lrnPage (2 * die + addr / 2 ^ 23 % 2)
    | _ => hbmPage (2 * die + addr / 2 ^ 23 % 2)

/-- A ring entry that reads as uncorrectable is discarded, and its cell is lost until the BPM starts again (R206). -/
def Dev.ringEntryUe (d : Dev) (die pos : Nat) : Dev :=
  let b := d.bpm die
  let all := (List.range (262144 - b.fresh)).map (b.fresh + ·) ++ b.freed
  match all[pos]? with
  | none => d
  | some c =>
    let p := bpmPage die
    let d := d.setBpm die { b with fresh := 262144, freed := all.eraseIdx pos }
    let d := d.set p F.BPM_CELLS_FREE (d.freeCells die - 1)
    (((d.bump p F.BPM_LOST_COUNT).cnt p F.BPM_CNT_COUNT 1).int p 1).err p 0x21 c

/-- A node is marked FAULTED and the packets of its queues are flushed. -/
def Dev.faultNode (d : Dev) (m : Nat) : Dev :=
  let d := (d.setNode m { d.node m with faulted := true }).touchNode m
  (d.nodeQueues m).foldl (fun d q => d.flushQueue q) d

/-- A queued learn request is dropped and counted. -/
def Dev.dropLearn (d : Dev) (q n : Nat) : Dev :=
  let e := d.engine q
  let isLearn (o : EngOp) : Bool := match o with | .learn .. => true | _ => false
  let learns := ((List.range e.ops.length).zip e.ops).filter fun x => isLearn x.2
  match learns[n]? with
  | none => d
  | some x => (d.putEngine q { e with ops := e.ops.eraseIdx x.1 }).cnt (lrnPage q) F.LRN_CNT_COUNT 1

/-- The entry memories of code 7. -/
def Dev.containEntry (d : Dev) (die kind i : Nat) : Dev :=
  match kind with
  | 0 => (d.setPealBad 0 die (i % 65536) true).listUe die (i % 65536)
  | 1 => (d.setPealBad 1 die (i % 524288) true).listUe die (i % 524288)
  | 2 => (d.setPealBad 2 die (i % 4096) true).listUe die (i % 4096)
  | 3 => d.setCar { d.car with bad := d.car.bad.wr false (16 * die + i % 16) true }
  | 4 => let t := i / 4096 % 16; let c := i % 4096; d.setTxCtx die t c { d.txCtx die t c with state := 0 }
  | 5 => let t := i / 4096 % 16; let c := i % 4096; d.setRxCtx die t c { d.rxCtx die t c with valid := false }
  | 6 => d.dropLearn (2 * die + i / 2 ^ 23 % 2) (i % 2 ^ 23)
  | _ =>
    let h := 2 * die + i / 2 ^ 23 % 2
    let l := (d.hbm h).lines
    match l[i % 2 ^ 23 / 2]? with
    | none => d
    | some x =>
      let c := 8 * x.idx + i % 2 * 4 + h
      ((d.setHbm h ((d.hbm h).setPair c 0 0)).cnt (hbmPage h) F.HBM_CNT_COUNT 7).err (hbmPage h) 0x23 c

/-- What an uncorrectable word costs when the scrubber finds it. -/
def Dev.contain (d : Dev) (m die addr : Nat) : Dev :=
  match m with
  | 0 =>
    let c := 262144 * die + addr % 262144
    if (d.cell c).alloc then d else d.writeCell c zeroCell
  | 1 =>
    if addr < 262144 then
      let c := 262144 * die + addr
      if (d.cell c).alloc then d.setCell c { d.cell c with ue := true } else d
    else d.ringEntryUe die (addr - 262144)
  | 3 => { d with cs := { d.cs with bad := d.cs.bad.wr false (16384 * (32 * die + addr / 2 ^ 17 % 32) + addr % 16384) true } }
  | 4 =>
    let t := 4096 * die + addr % 4096
    if (d.thread t).st = 0 then d.setThread t Thread.init else d
  | 5 => d.slotUe die (addr % 32768)
  | 6 => if addr < 65536 then d.faultQueue (65536 * die + addr) else d.faultNode (8192 * die + (addr - 65536) % 8192)
  | 7 => d.containEntry die (addr / 2 ^ 24 % 8) (addr % 2 ^ 24)
  | _ => d

/-- SCRUB_VISIT (R392, R394). -/
def Dev.scrubVisit (d : Dev) (m die addr : Nat) (ecc : Ecc) : Dev :=
  let p := scrubPage m die addr
  if d.get 0x04 F.ERR_SCRUB_EN = 0 ∨ !d.pageOn p then d
  else
    let d := { d with log := { d.log with visited := true } }
    match ecc with
    | .bad =>
      let d := if m = 5 then d else d.eccCount m die .bad
      (d.event p 4 (if m = 0 ∨ m = 4 then 1 else 2) m addr (pageInst p)).contain m die addr
    | e => d.eccCount m die e

/-- A scrub period ends: a pass that visited a word is counted (R392). -/
def Dev.scrubPass (d : Dev) : Dev :=
  if d.log.visited ∧ d.power.clock % (max 1 (d.get 0x04 F.ERR_SCRUB_MS) * 1000000) = 0 then
    ({ d with log := { d.log with visited := false } } : Dev).cnt 0x04 F.ERR_MISC_CNT_COUNT 2
  else d

/-! Pairs of bounds (R399) -/

/-- RETRIES × ATTEMPT_MS of master `m` above a quarter of its TMO_MS: the block with that raised (R334). -/
def Dev.busRaise (d : Dev) (m : Nat) : Option Dev :=
  let f (x : Fld) : Fld := x.at (16 * m)
  let n := 4 * d.get modPage (f F.MOD_BUS_RETRIES) * max 1 (d.get modPage (f F.MOD_BUS_ATTEMPT_MS))
  if n > max 1 (d.get modPage (f F.MOD_BUS_TMO_MS)) then some (d.set modPage (f F.MOD_BUS_TMO_MS) n) else none

def Dev.busCheck (d : Dev) (m : Nat) : Dev := d.inconsistent (d.busRaise m) modPage 0x21

/-- The least ORD_AGE_LIMIT for the longest budgeted pass of the die's RUNNING clusters; `live` where the values in force
decide. -/
def Dev.ageNeed (d : Dev) (die : Nat) (live : Bool) : Nat :=
  let issues := ((List.range 32).map fun i =>
    let p := engPage (32 * die + i)
    if d.running p then (if live then d.live p F.ENG_BUDGET_ISSUES else d.get p F.ENG_BUDGET_ISSUES) else 0).foldl max 0
  cdiv (issues * 75) 1000000

/-- The pass budget above ORD_AGE_LIMIT; on a write the raise is a shadow write. -/
def Dev.ageRaise (d : Dev) (die : Nat) (start : Bool) : Option Dev :=
  let p := ordPage die
  let n := d.ageNeed die start
  if n > d.get p F.ORD_AGE_LIMIT_LIMIT then
    let w : Word := BitVec.ofNat 32 (putBits (d.word p 0x010C).toNat 0 14 n)
    some (if start then d.setWord p 0x010C w else d.writeShadow p 0x010C w)
  else none

def Dev.ageCheck (d : Dev) (die : Nat) (start : Bool) : Dev := d.inconsistent (d.ageRaise die start) (ordPage die) 0x23

/-- ORD_AGE_LIMIT of both ORDs above a quarter of SVC_DRAIN_LIMIT; an ORD without power has no limit. -/
def Dev.drainRaise (d : Dev) : Option Dev :=
  let limit (i : Nat) : Nat := if d.pageOn (ordPage i) then d.get (ordPage i) F.ORD_AGE_LIMIT_LIMIT else 0
  let n := 4 * max (limit 0) (limit 1)
  if n > d.get 0x01 F.SVC_DRAIN_LIMIT_LIMIT then some (d.set 0x01 F.SVC_DRAIN_LIMIT_LIMIT n) else none

def Dev.drainCheck (d : Dev) : Dev := d.inconsistent d.drainRaise 0x01 0x26

end Sys2Proof.Machine
end

