-- ==== Sys2Proof/Machine/Entries.lean ====
section
/-! DEFINITION. Entry windows (R32, R33): queue and node entries (R232, R233) and the operations on every space. -/

namespace Sys2Proof.Machine

/-! Queue and node entries -/

/-- A RATE clamped to 100 kb/s–1.6 Tb/s; 0 is unshaped (R232). -/
def clampRate (v : Nat) : Nat := if v = 0 then 0 else max 100 (min 1600000000 v)

/-- A shaper setting changes: the tokens gained so far stand, and an entity on the wheel is placed again at its new wake
time (R236, R237). -/
def Dev.reshape (d : Dev) (e : Nat) (store : Dev → Dev) : Dev :=
  let old := d.entRate e
  let lim := d.entLimit e
  let was := d.placed e
  let d := if old = 0 then d else d.setBucket e ((d.bucket e).refill old lim d.clk)
  let d := store (if was then d.unplace e else d)
  let b := d.bucket e
  let r := d.entRate e
  let t := min b.tokens (d.entLimit e : Nat)
  let d := d.setBucket e { b with tokens := t, full := decide (t ≥ (d.entLimit e : Nat)) || old == 0, last := d.clk }
  if was ∧ r ≠ 0 ∧ b.tokens < 0 then d.place e (({ b with last := d.clk } : Bucket).wake r) else d

/-- The seven words of a queue entry. -/
def Dev.queueRead (d : Dev) (q : Nat) : List Word :=
  let x := d.queue q
  [x.w0, x.w1, x.w2, x.w3, BitVec.ofNat 32 (x.pkts % 2 ^ 24), BitVec.ofNat 32 (d.qCells q % 2 ^ 19), BitVec.ofNat 32 (x.seg.length % 2 ^ 23)]

/-- A WRITE of a queue entry and its CODE (R232); it clears FAULTED (R394). -/
def Dev.queueWrite (d : Dev) (q : Nat) (v : List Word) : Nat × Dev :=
  let x := d.queue q
  let w (k : Nat) : Word := v.getD k 0
  let busy : Bool := x.pkts != 0 || d.qCells q != 0 || !x.seg.isEmpty
  if (w 0).toNat % 2 ^ 16 ≠ x.w0.toNat % 2 ^ 16 ∧ busy then (3, d)
  else
    let rate := clampRate (w 2).toNat
    let f0 := d.sharedFree 0
    let f1 := d.sharedFree 1
    let d := d.reshape q fun d => d.setQueue q { d.queue q with
      w0 := w 0, w1 := w 1 &&& 0x1FF, w2 := BitVec.ofNat 32 rate, w3 := w 3 &&& 0xFFFF, faulted := false }
    let d := (((d.freeFell 0 f0).freeFell 1 f1).syncPause q).touchQueue q
    (0, if rate ≠ (w 2).toNat then d.err (tmPage (q / 65536)) 0x20 else d)

/-- The five words of a node entry. -/
def Dev.nodeRead (d : Dev) (m : Nat) : List Word :=
  let x := d.node m
  let backlog := (d.nodeQueues m).any fun q => (d.queue q).pkts ≠ 0
  [x.w0, x.w1, x.w2, x.w3, BitVec.ofNat 32 (b2n (d.attached m) + 2 * b2n backlog)]

/-- A WRITE of a node entry and its CODE (R233); it clears FAULTED (R394). -/
def Dev.nodeWrite (d : Dev) (m : Nat) (v : List Word) : Nat × Dev :=
  let x := d.node m
  let w (k : Nat) : Word := v.getD k 0
  let backlog := (d.nodeQueues m).any fun q => (d.queue q).pkts ≠ 0
  if ((w 0).toNat % 256 ≠ x.w0.toNat % 256 ∧ backlog) ∨ bits (w 0).toNat 20 4 > 8 then (3, d)
  else
    let rate := clampRate (w 1).toNat
    let d := d.reshape (nodeEnt m) fun d => d.setNode m { d.node m with
      w0 := w 0 &&& 0xFFFFFF, w1 := BitVec.ofNat 32 rate, w2 := w 2 &&& 0xFFFF, w3 := w 3, faulted := false }
    let d := (nodeEnt m :: d.nodeQueues m).foldl (fun d e => d.syncPause e) d
    let d := d.touchNode m
    (0, if rate ≠ (w 1).toNat then d.err (tmPage (m / 8192)) 0x20 else d)

/-! The spaces (R32) -/

/-- The entry size of a space. -/
def ewBytes (space : Nat) : Nat := [0, 28, 20, 16, 32, 144, 136, 72, 12, 16].getD space 0

/-- EW_TARGET names a space and an instance that R32 gives; in flam mode space 0x07 has instances 0 and 2 alone (R180). -/
def Dev.ewNamed (d : Dev) (space inst : Nat) : Bool :=
  if space = 7 then decide (inst < 4) && !(d.flam (inst / 2) && inst % 2 == 1)
  else if space = 9 then decide (inst < 4)
  else decide (1 ≤ space) && decide (space < 9) && decide (inst < 2)

/-- The page of the block that owns a space. -/
def ewPage (space inst : Nat) : Nat :=
  match space with
  | 1 | 2 => tmPage inst
  | 3 => pealPage inst
  | 4 => carPage inst
  | 5 | 6 => eliPage inst
  | 7 => lrnPage inst
  | 8 => ordPage inst
  | _ => hbmPage inst

/-- CODE of an operation that is not made: 2 with the target's domain off, then what the space says of the index. -/
def Dev.ewRefuse (d : Dev) (space inst i : Nat) : Nat :=
  if !d.pageOn (ewPage space inst) then 2
  else match space with
    | 1 | 3 | 5 | 6 => if i > 65535 then 1 else 0
    | 2 => if i > 8191 then 1 else 0
    | 4 => if i ≥ 512 ∨ i % 32 > 16 then 1 else 0
    | 7 => d.lrnEwCode inst i
    | 8 => if i > 622591 then 1 else 0
    | _ => if i > 31 then 1 else 0

/-- The entry's words. -/
def Dev.entryRead (d : Dev) (space inst i : Nat) : List Word :=
  match space with
  | 1 => d.queueRead (65536 * inst + i)
  | 2 => d.nodeRead (8192 * inst + i)
  | 3 => d.groupRead inst i
  | 4 => d.carRead inst (i / 32) (i % 32)
  | 5 => d.txCtxRead inst (i / 4096) (i % 4096)
  | 6 => d.rxCtxRead inst (i / 4096) (i % 4096)
  | 7 => d.lrnEwRead inst i
  | 8 => d.domainRead inst i
  | _ => d.rankRead inst i

/-- A WRITE of an entry, and its CODE. -/
def Dev.entryWrite (d : Dev) (space inst i : Nat) (v : List Word) : Nat × Dev :=
  match space with
  | 1 => d.queueWrite (65536 * inst + i) v
  | 2 => d.nodeWrite (8192 * inst + i) v
  | 3 => d.groupWrite inst i v
  | 4 => d.carWrite inst (i / 32) (i % 32) v
  | 5 => d.txCtxWrite inst (i / 4096) (i % 4096) v
  | 6 => d.rxCtxWrite inst (i / 4096) (i % 4096) v
  | 7 => d.lrnEwWrite inst i v
  | 8 => (3, d)
  | _ => d.rankWrite inst i v

/-- An entry that is already known as uncorrectable: a FAULTED queue or node, a group marked bad (R255, R394). -/
def Dev.entryBad (d : Dev) (space inst i : Nat) : Bool :=
  match space with
  | 1 => (d.queue (65536 * inst + i)).faulted
  | 2 => (d.node (8192 * inst + i)).faulted
  | 3 => d.pealBad 0 inst i
  | 4 => i % 32 == 0 && Map.rd false d.car.bad (i / 32)
  | _ => false

/-- A READ meets an uncorrectable entry: it is counted, and contained as R394 says of its memory. -/
def Dev.entryUe (d : Dev) (space inst i : Nat) : Dev :=
  match space with
  | 1 => (d.eccCount 6 inst .bad).contain 6 inst i
  | 2 => (d.eccCount 6 inst .bad).contain 6 inst (65536 + i)
  | 3 => (d.eccCount 7 inst .bad).containEntry inst 0 i
  | 4 => let d := d.eccCount 7 inst .bad; if i % 32 = 0 then d.containEntry inst 3 (i / 32) else d
  | 5 => (d.eccCount 7 inst .bad).containEntry inst 4 i
  | 6 => (d.eccCount 7 inst .bad).containEntry inst 5 i
  | 7 => d.eccCount 2 (inst / 2) .bad
  | 8 => d.eccCount 5 inst .bad
  | _ => d.eccCount 7 (inst / 2) .bad

/-- The memory code of a space's entries (R391). -/
def ewMemory (space : Nat) : Nat := [7, 6, 6, 7, 7, 7, 7, 2, 5, 7].getD space 7

/-! Operations (R33) -/

def Dev.ew (d : Dev) (w : Nat) : EntryWindow := Map.rd EntryWindow.init d.ews w
def Dev.setEw (d : Dev) (w : Nat) (x : EntryWindow) : Dev := { d with ews := d.ews.wr EntryWindow.init w x }

def EntryWindow.space (x : EntryWindow) : Nat := bits x.target.toNat 0 8
def EntryWindow.inst (x : EntryWindow) : Nat := bits x.target.toNat 8 8

/-- EW_CMD with OP 1 or 2 starts an operation. -/
def Dev.ewStart (d : Dev) (w op : Nat) : Dev :=
  let x := d.ew w
  if !d.ewNamed x.space x.inst then d.setEw w { x with busy := false, done := true, error := true, code := 6, bytes := 0, op := op }
  else
    let d := d.setEw w { x with busy := true, done := false, error := false, bytes := ewBytes x.space, op := op }
    if x.space = 7 ∧ d.pageOn (lrnPage x.inst) then
      let e := d.engine x.inst
      d.putEngine x.inst { e with ops := e.ops ++ [.window w] }
    else d

/-- The operation completes with this CODE. -/
def Dev.ewEnd (d : Dev) (w code : Nat) : Dev :=
  d.setEw w { d.ew w with busy := false, done := true, error := code != 0, code := code }

/-- The operation is made: the entry is copied out, or the write applied; and its CODE. -/
def Dev.ewMake (d : Dev) (w : Nat) (ecc : Ecc) : Dev :=
  let x := d.ew w
  let i := x.index.toNat
  let r := d.ewRefuse x.space x.inst i
  if r ≠ 0 then d.ewEnd w r
  else if x.op = 1 then
    let l := d.entryRead x.space x.inst i
    let bad : Bool := ecc == .bad || d.entryBad x.space x.inst i
    let d := match ecc with
      | .bad => d.entryUe x.space x.inst i
      | e => d.eccCount (ewMemory x.space) (pageDie (ewPage x.space x.inst)) e
    let data := ((List.range l.length).zip l).foldl (fun (m : Map Word) e => Map.wr 0 m e.1 e.2) []
    (d.setEw w { d.ew w with data := data }).ewEnd w (if bad then 4 else 0)
  else
    let v := (List.range (ewBytes x.space / 4)).map fun k => Map.rd 0 x.data k
    let (code, d) := d.entryWrite x.space x.inst i v
    d.ewEnd w code

/-- EW_DONE: a response comes; a learned entry's operation waits for its turn in the update engine (R169). -/
def Dev.ewDone (d : Dev) (w : Nat) (ecc : Ecc) : Dev :=
  let x := d.ew w
  if !x.busy then d
  else if x.space = 7 ∧ d.pageOn (lrnPage x.inst) then
    match (d.engine x.inst).ops with
    | .window v :: _ => if v = w then ((d.takeOp x.inst).ewMake w ecc).ageTurns x.inst else d
    | _ => d
  else d.ewMake w ecc

/-- EW_TIMEOUT: no response within 1 ms; whether a WRITE has been applied is left open, so a free value says it. -/
def Dev.ewTimeout (d : Dev) (w : Nat) : Dev :=
  let x := d.ew w
  if !x.busy then d
  else
    let drop (d : Dev) : Dev :=
      if x.space = 7 then
        let e := d.engine x.inst
        (d.putEngine x.inst { e with ops := e.ops.filter fun o => match o with | .window v => v != w | _ => true }).ageTurns x.inst
      else d
    let (v, d) := (drop d).free
    let d := if x.op = 2 ∧ bit v.toNat 0 then d.ewMake w .clean else d
    (d.ewEnd w 5).setEw w { (d.ewEnd w 5).ew w with late := x.late + 1 }

/-- EW_LATE: a response after CODE 5 is discarded and counted, and posts its event (R33 step 4, R388). -/
def Dev.ewLate (d : Dev) (w : Nat) : Dev :=
  let x := d.ew w
  if x.late = 0 then d
  else
    let d := (d.setEw w { x with late := x.late - 1 }).cnt 0x04 F.ERR_MISC_CNT_COUNT 0
    d.event 0x05 5 5 w x.space x.index.toNat

end Sys2Proof.Machine
end

