-- ==== Sys2Proof/Machine/Power.lean ====
section
/-! DEFINITION. Inputs, the power link, telemetry, domains and their loss, clocks and reset (R37–R59, R395, R411, R412). -/

namespace Sys2Proof.Machine

/-! Order and prerequisites (R46, R47) -/

/-- The sequence order of the domains. -/
def seqOrder : List Nat :=
  [29, 28, 27, 12, 13, 14, 15, 16, 17, 8, 9, 10, 11, 24, 25, 26, 0, 1, 2, 3, 4, 5, 6, 7, 18, 19, 20, 21, 22, 23]

/-- The prerequisites of a domain. -/
def Dev.prereqs (d : Dev) (n : Nat) : List Nat :=
  let west := d.flam 0
  let east := d.flam 1
  if n < 2 then [8, 24] ++ (if west then [9] else [])
  else if n < 4 then [9, 24] ++ (if west then [8] else [])
  else if n < 6 then [10, 25, 27] ++ (if east then [11] else [])
  else if n < 8 then [11, 25, 27] ++ (if east then [10] else [])
  else if n = 10 ∨ n = 11 ∨ n = 13 then [27]
  else if n = 14 ∨ n = 15 then [12]
  else if n = 16 ∨ n = 17 then [13, 27]
  else if n = 18 then [24, 0, 1] else if n = 19 then [24, 2, 3]
  else if n = 20 then [25, 27, 4, 5] else if n = 21 then [25, 27, 6, 7]
  else if n = 22 then [24] else if n = 23 then [25, 27]
  else if n = 24 then [12] else if n = 25 then [13, 27]
  else if n = 26 then [24, 25] else []

/-- The domains that need `n`, directly or through another, in sequence order. -/
def Dev.dependents (d : Dev) (n : Nat) : List Nat :=
  seqOrder.foldl (fun l m => if (d.prereqs m).any fun p => p = n || l.contains p then l ++ [m] else l) []

/-- The rails of a domain, as rows of R41 counted from 0, its main rail among them. -/
def domRails (n : Nat) : List Nat :=
  if n < 8 then [0, 1] else if n < 14 then [1] else if n < 18 then [0, 4, 5, 6] else if n < 24 then [2, 3] else [0]

/-! State of a domain -/

def Dev.setPower (d : Dev) (p : Power) : Dev := { d with power := p }
def Dev.setDom (d : Dev) (n st : Nat) : Dev := d.set 0x02 (F.PWR_DOM_STATE_STATE.at (4 * n)) st
def Dev.domPending (d : Dev) (n : Nat) : Bool := d.get 0x02 (F.PWR_DOM_STATE_PENDING.at (4 * n)) == 1
def Dev.setDomPending (d : Dev) (n : Nat) (b : Bool) : Dev := d.set 0x02 (F.PWR_DOM_STATE_PENDING.at (4 * n)) (b2n b)

/-- The REQ bits of PD00–PD28. -/
def Dev.domReq (d : Dev) : Nat := d.get 0x02 F.PWR_DOM_REQ_REQ
def Dev.setDomReq (d : Dev) (v : Nat) : Dev := d.set 0x02 F.PWR_DOM_REQ_REQ v
def Dev.dropReq (d : Dev) (ns : List Nat) : Dev := d.setDomReq (ns.foldl clrBit d.domReq)

/-! The contents of a domain (R48): zero at INIT, gone with its power -/

/-- The entries of a lookup store that lie in one quadrant of a gang: line L in bank L mod 1,024 (R159). -/
def gangHalf (q half : Nat) (k : Nat) : Bool := decide (k / 2 ^ 26 = q) && k / 16 % 1024 / 512 == half

def Dev.wipeCluster (d : Dev) (c : Nat) : Dev :=
  let eng := { d.eng with threads := d.eng.threads.dropRange (128 * c) (128 * c + 128), queues := d.eng.queues.dropRange c (c + 1) }
  let lo := 16384 * c
  { d with eng := eng, cs := ⟨d.cs.words.dropRange lo (lo + 16384), d.cs.held.dropRange (8 * lo) (8 * lo + 8 * 16384), d.cs.latch.dropRange lo (lo + 16384),
    d.cs.bad.dropRange lo (lo + 16384)⟩ }

def Dev.wipeQuadrant (d : Dev) (q : Nat) : Dev :=
  let s := d.lkStore q
  let mem := if d.flam (q / 2) then List.filter (fun (e : Nat × Word) => !gangHalf s (q % 2) e.1) d.lkp.mem
    else d.lkp.mem.dropRange (q * 2 ^ 26) ((q + 1) * 2 ^ 26)
  { d with lkp := ⟨d.lkp.engines.dropRange s (s + 1), mem, d.lkp.held.dropRange (8192 * q) (8192 * q + 8192)⟩ }

def Dev.wipeBuffer (d : Dev) (die : Nat) : Dev :=
  let lo := 262144 * die
  { d with
    buf := d.buf.dropRange lo (lo + 262144), cells := d.cells.dropRange lo (lo + 262144), bpms := d.bpms.dropRange die (die + 1),
    rings := d.rings.dropRange (2 * die) (2 * die + 2), badFrames := d.badFrames.dropRange lo (lo + 262144),
    swc := { d.swc with pfcOf := d.swc.pfcOf.dropRange lo (lo + 262144) } }

/-- The pages that queues hold in a stack are lost with it (R298). -/
def Dev.losePages (d : Dev) (h : Nat) : Dev :=
  let mark (g : Page) : Page := if g.written ∧ pageStack g.ptr = h then { g with lost := true, recalling := false } else g
  (d.tm.queues.filter fun (e : Nat × Queue) => e.2.seg.any fun g => pageStack g.ptr = h).foldl
    (fun d e => d.setQueue e.1 { d.queue e.1 with seg := (d.queue e.1).seg.map mark }) d

def Dev.wipeHbm (d : Dev) (h : Nat) : Dev :=
  let d := d.losePages h
  { d with hbms := d.hbms.dropRange h (h + 1), hbmMem := d.hbmMem.dropRange (h * 2 ^ 33) ((h + 1) * 2 ^ 33),
           hbmBad := d.hbmBad.dropRange (h * 2 ^ 33) ((h + 1) * 2 ^ 33) }

def Dev.wipeBank (d : Dev) (b : Nat) : Dev :=
  { d with pgs := d.pgs.dropRange (4 * b) (4 * b + 4), rx := d.rx.dropRange (32 * b) (32 * b + 32) }

def Dev.wipeUlux (d : Dev) (die : Nat) : Dev :=
  let u := d.ulx
  let two : Bool := !d.domOn (if die = 0 then 23 else 22)
  ({ d with ulx := {
      ports := u.ports.dropRange (8 * die) (8 * die + 8), queues := u.queues.dropRange (8 * die) (8 * die + 8),
      pseq := u.pseq.dropRange (16 * die) (16 * die + 16), count := if two then [] else u.count,
      again := if two then [] else u.again, streams := u.streams.dropRange (16 * die) (16 * die + 16),
      lost := if two then [] else u.lost, windows := if die = 0 then [] else u.windows } } : Dev)

/-- PEER resets to the neighbours of the device's own ID (R368). -/
def Dev.resetPeers (d : Dev) (die : Nat) : Dev :=
  let id := d.power.uxId
  let v := (List.range 3).foldl (fun v s => putBits v (4 + 2 * s) 2 ((id + s + 1) % 4)) 0
  d.setWord (ulxPage die) 0x0104 (BitVec.ofNat 32 v)

def Dev.wipeCore (d : Dev) (die : Nat) : Dev :=
  let t := d.tm
  let s := d.swc
  let mine (p : Nat) : Bool := d.portHome p != some (1 - die)
  let byPort {α : Type} (base : Nat) (m : Map α) : Map α := List.filter (fun (e : Nat × α) => decide (e.1 < base) || !mine (e.1 - base)) m
  let tags {α : Type} (m : Map α) : Map α :=
    byPort 500000 (((m.dropRange (65536 * die) (65536 * die + 65536)).dropRange (200000 + 65536 * die) (265536 + 65536 * die)).dropRange
      (400000 + 8192 * die) (408192 + 8192 * die))
  { d with
    tm := { t with
      queues := t.queues.dropRange (65536 * die) (65536 * die + 65536), nodes := t.nodes.dropRange (8192 * die) (8192 * die + 8192),
      ports := byPort 0 t.ports, tags := tags t.tags, vtime := tags t.vtime, fine := t.fine.dropRange (4096 * die) (4096 * die + 4096),
      coarse := t.coarse.dropRange (4096 * die) (4096 * die + 4096), gates := byPort 0 t.gates, rs := byPort 0 t.rs,
      blocked := byPort 0 t.blocked }
    swc := { s with
      cnt := s.cnt.dropRange (131072 * die) (131072 * die + 131072), pfcCnt := s.pfcCnt.dropRange (512 * die) (512 * die + 512),
      pfcOf := List.filter (fun (e : Nat × Nat) => (e.2 - 1) / 512 != die) s.pfcOf, offers := s.offers.dropRange (3 * die) (3 * die + 3),
      endpoints := List.filter (fun (e : Nat × Endpoint) => epDie e.1 != die) s.endpoints, crossed := s.crossed.dropRange die (die + 1),
      lfsr := s.lfsr.dropRange die (die + 1), tx := byPort 0 s.tx, holdAt := byPort 0 s.holdAt }
    eng := { d.eng with ords := d.eng.ords.dropRange die (die + 1) } }

/-- The registers and memories of a domain at their INIT values. -/
def Dev.wipe (d : Dev) (n : Nat) : Dev :=
  let d := if n < 8 then (List.range 8).foldl (fun d i => d.wipeCluster (8 * n + i)) d
    else if n < 12 then d.wipeQuadrant (n - 8)
    else if n < 14 then d.wipeBuffer (n - 12)
    else if n < 18 then d.wipeHbm (n - 14)
    else if n < 22 then d.wipeBank (n - 18)
    else if n < 24 then d.wipeUlux (n - 22)
    else if n < 26 then d.wipeCore (n - 24)
    else if n = 26 then { d with peals := [], pealMem := ⟨[], [], [], []⟩, car := ⟨[], [], [], [], [], [], [], []⟩ }
    else if n = 27 then d.set 0x09 F.TIME_STAT_ALIGNED 0
    else if n = 28 then { d with time := TimeUnit.reset, mods := { Modules.reset with present := d.mods.present } }
    else if n = 29 then { d with hif := { HostIf.reset with perst := d.hif.perst }, msix := ⟨[], []⟩, ews := [] }
    else d
  let d := (assignedPages.filter fun p => pageDom p = some n).foldl (fun d p => d.resetPage p) d
  if n = 22 ∨ n = 23 then (d.resetPeers (n - 22)).updReach else d

/-! Domain loss (R395) -/

/-- PENDING slots whose head a lost cluster holds become VOID, and their cells are freed; the count of packets voided. -/
def Dev.voidLost (d : Dev) (n die : Nat) : Nat × Dev :=
  if n ≥ 8 ∨ !d.domOn (24 + die) then (0, d)
  else
    let ks := ((d.ord die).slots.filter fun (e : Nat × Slot) => e.2.state = 1 && e.2.cluster / 8 = n).map (·.1)
    let d := ks.foldl (fun d s =>
      let x := (d.ord die).slot s
      let o := d.ord die
      let d := d.setOrd die { o with reports := o.reports.map fun r => if r.slot = s ∧ r.ticket = x.ticket ∧ r.dom = x.dom then { r with lost := true } else r }
      let d := (d.freePkt x.pkt).cnt 0x04 F.ERR_MISC_CNT_COUNT 1
      d.voidSlot die s) d
    (ks.length, d)

/-- Entries of a surviving queue whose cells lie in the lost half are dropped under `LINK_DOWN`. -/
def Dev.dropLostHalf (d : Dev) (half : Nat) : Dev :=
  let hurt (d : Dev) (e : QEnt) : Bool := !e.ctl && (d.chain e.first).any fun c => cellDie c == half
  (d.tm.queues.map (·.1)).foldl (fun d q =>
    if q / 65536 = half then d
    else
      let x := d.queue q
      let bad := x.ents.filter (hurt d)
      if bad.isEmpty then d
      else
        let d := d.setQueue q { x with ents := x.ents.filter fun e => !hurt d e }
        (bad.foldl (fun d e => (d.dropEnt q e).dropCount (d.qPort q) 2) d).touchQueue q) d

/-- Waits for a cell whose requester is gone. -/
def Dev.dropWaits (d : Dev) (n : Nat) : Dev :=
  let gone (w : CellWait) : Bool := match w with
    | .rewrite t => t / 128 / 8 == n
    | .edit _ => n == 26
    | .recall q _ => 24 + q / 65536 == n
    | .inject _ => n == 29
    | .ulux => n == 22 || n == 23
    | .restore _ => n == 26
  { d with bpms := (d.bpms.map fun e => (e.1, { e.2 with waits := e.2.waits.filter fun w => !gone w.2 })) }

/-- A domain in RAMP, INIT or ON loses its power without a stop: what survives is contained, and DOMAIN_LOST is posted. -/
def Dev.loseDomain (d : Dev) (n st : Nat) : Dev :=
  let (a, d) := d.voidLost n 0
  let (b, d) := d.voidLost n 1
  let d := if n = 12 ∨ n = 13 then d.dropLostHalf (n - 12) else d
  let d := if 18 ≤ n ∧ n < 22 then (List.range 32).foldl (fun d i => d.linkDown (32 * (n - 18) + i)) d else d
  let d := ((d.setDom n st).wipe n).dropWaits n
  d.event 0x02 10 7 n (a + b) 0

end Sys2Proof.Machine
end

