-- ==== Sys2Proof/Machine/Domains.lean ====
section
/-! DEFINITION. The domain sequencer (R47–R51), faults and trips, start-up and input loss (R37–R45), clocks (R54, R57) and
reset (R411). -/

namespace Sys2Proof.Machine

/-! The writes whose changes are under way (R49) -/

/-- The change of a domain has ended: writes with no change left set BLK bit 0. With `keep` the newest write that names the
domain still waits for its reversal (R50). -/
def Dev.endChange (d : Dev) (n : Nat) (keep : Bool) : Dev :=
  let l := d.power.changes
  let last := (List.range l.length).foldl (fun a i => if (l.getD i []).contains n then some i else a) none
  let l' := ((List.range l.length).zip l).map fun x => if keep && last == some x.1 then x.2 else x.2.filter (· ≠ n)
  let done := l'.any (·.isEmpty)
  let d := d.setPower { d.power with changes := l'.filter fun x => !x.isEmpty }
  if done then d.int 0x02 0 else d

/-- A change that will not be made any more leaves the writes that asked for it, without BLK bit 0 (log entry 48). -/
def Dev.dropChange (d : Dev) (ns : List Nat) : Dev :=
  d.setPower { d.power with changes := (d.power.changes.map fun x => x.filter fun n => !ns.contains n).filter fun x => !x.isEmpty }

/-- A refused domain of PWR_DOM_REQ: its record and BLK bit 1. -/
def Dev.refuseDom (d : Dev) (n : Nat) : Dev := ((d.dropReq [n]).int 0x02 1).err 0x02 0x20 (2 ^ n)

/-- The prerequisites of a ramp are all ON. -/
def Dev.prereqsOn (d : Dev) (n : Nat) : Bool := (d.prereqs n).all d.domOn

/-! PWR_DOM_REQ (R49, R62) -/

/-- The bits that may turn on, judged in sequence order: the bits of REQ after the write so far, the kinds that refused one,
and the domains refused by kind and under R62. -/
def Dev.judgeOn (d : Dev) (old want : Nat) : Nat × List Nat × List Nat × List Nat :=
  seqOrder.foldl (fun a n =>
    let (new, kinds, refused, mode) := a
    if n = 29 ∨ !bit want n ∨ bit old n then a
    else if d.mode = 0 ∧ n ≤ 26 then (new, kinds, refused, mode ++ [n])
    else if !((d.prereqs n).all fun p => d.domOn p || bit new p && bit want p) then (new, 0x20 :: kinds, n :: refused, mode)
    else if bit (d.get 0x02 F.PWR_DOM_FAULT_FAULT) n then (new, 0x22 :: kinds, n :: refused, mode)
    else if d.power.trip then (new, 0x27 :: kinds, n :: refused, mode)
    else (setBit new n, kinds, refused, mode)) (old, [], [], [])

/-- The bits that turn off, judged in reverse sequence order. -/
def Dev.judgeOff (d : Dev) (old want : Nat) (a : Nat × List Nat × List Nat) : Nat × List Nat × List Nat :=
  seqOrder.reverse.foldl (fun a n =>
    let (new, kinds, refused) := a
    if n = 29 ∨ bit want n ∨ !bit old n then a
    else if (List.range 29).any fun m => (d.prereqs m).contains n && bit new m then (new, 0x20 :: kinds, n :: refused)
    else if assignedPages.any fun p => pageDom p = some n && hasFunction p && d.fn p != 0 then (new, 0x21 :: kinds, n :: refused)
    else (clrBit new n, kinds, refused)) a

/-- One accepted change joins the sequencer (R47, R50). -/
def Dev.takeChange (d : Dev) (n : Nat) (on : Bool) : Dev :=
  let p := d.power
  let st := d.domState n
  if on then
    if st = 3 then (d.setPower { p with offQueue := p.offQueue.filter (· ≠ n) }).endChange n false
    else if st = 1 ∨ st = 2 then d.setDomPending n false
    else if st = 4 then d.setDomPending n true
    else d.setPower { p with onQueue := n :: p.onQueue.filter (· ≠ n) }
  else if st = 3 then d.setPower { p with offQueue := n :: p.offQueue.filter (· ≠ n) }
  else if st = 1 ∨ st = 2 then d.setDomPending n true
  else if st = 4 then d.setDomPending n false
  else (d.setPower { p with onQueue := p.onQueue.filter (· ≠ n) }).endChange n false

/-- A write of PWR_DOM_REQ with all byte enables set. -/
def Dev.domainRequest (d : Dev) (v req : Nat) : Dev :=
  let old := d.domReq
  let want := bits v 0 29
  let (new, k1, r1, mode) := d.judgeOn old want
  let (new, k2, r2) := d.judgeOff old want (new, k1, r1)
  let ro : List Nat := if bit v 29 then [] else [29]
  let kinds := k2 ++ (if bit v 29 then [] else [0x01]) ++ (if bits v 30 2 = 0 then [] else [0x04])
  let refused := r2 ++ ro
  let cap (p : Nat) (ks ns : List Nat) : Cap := { page := p, kinds := ks, off := 0x0100, data := v, write := true, req := req, d5 := ofBits ns }
  let d := d.capture (cap 0x02 kinds refused)
  let d := if mode = [] then d else d.capture (cap 0x01 [0x22] mode)
  let d := if refused = [] ∧ mode = [] then d else d.int 0x02 1
  let changed := seqOrder.filter fun n => n != 29 && (bit new n != bit old n)
  let d := d.setDomReq new
  let d := if changed = [] then d else d.setPower { d.power with changes := d.power.changes ++ [changed] }
  changed.foldl (fun d n => d.takeChange n (bit new n)) d

/-! The sequencer (R47, R48) -/

/-- DOMAIN_SWITCH_OFF: the pending switch-off latest in sequence order. -/
def Dev.domainSwitchOff (d : Dev) : Dev :=
  let p := d.power
  match p.current, seqOrder.reverse.find? p.offQueue.contains with
  | none, some n =>
    let d := d.setPower { p with current := some n, offQueue := p.offQueue.filter (· ≠ n) }
    (d.setDom n 4).wipe n
  | _, _ => d

/-- DOMAIN_DISCHARGE_DONE: the domain is OFF; a pending request to switch it on is checked again (R50). -/
def Dev.domainDischarged (d : Dev) : Dev :=
  match d.power.current with
  | none => d
  | some n =>
    if d.domState n ≠ 4 then d
    else
      let again := d.domPending n
      let d := ((d.setPower { d.power with current := none }).setDom n 0).setDomPending n false
      let d := d.endChange n again
      if !again then d
      else if (d.prereqs n).all fun p => d.domOn p || bit d.domReq p then d.setPower { d.power with onQueue := n :: d.power.onQueue }
      else (d.refuseDom n).endChange n false

/-- DOMAIN_RAMP_START: with no switch-off pending, the pending ramp earliest in sequence order; one whose prerequisites are
not ON is refused (R46). -/
def Dev.domainRampStart (d : Dev) : Dev :=
  let p := d.power
  match p.current, p.offQueue, seqOrder.find? p.onQueue.contains with
  | none, [], some n =>
    if !p.bus then d
    else
      let d := d.setPower { p with onQueue := p.onQueue.filter (· ≠ n) }
      if d.prereqsOn n then (d.setPower { d.power with current := some n }).setDom n 1
      else (d.refuseDom n).endChange n false
  | _, _, _ => d

/-- DOMAIN_RAMP_DONE: INIT begins. -/
def Dev.domainRamped (d : Dev) : Dev :=
  match d.power.current with
  | some n => if d.domState n = 1 then d.setDom n 2 else d
  | none => d

/-- DOMAIN_INIT_DONE: memories are zero, registers at reset, and the domain is ON; a pending switch-off joins the order. The
counter of PD28 has run since INIT and runs on (R312). A domain without all its prerequisites ON may not be ON (R46): its ramp
ends OFF, refused as at its start. -/
def Dev.domainReady (d : Dev) : Dev :=
  match d.power.current with
  | none => d
  | some n =>
    if d.domState n ≠ 2 then d
    else
      let again := d.domPending n
      let d := if n = 28 then { d.wipe n with time := d.time } else d.wipe n
      if !d.prereqsOn n then
        let d := ((d.setPower { d.power with current := none }).setDom n 0).setDomPending n false
        ((d.refuseDom n).wipe n).endChange n false
      else
      let d := ((d.setPower { d.power with current := none }).setDom n 3).setDomPending n false
      let d := if n = 29 ∧ !d.hif.perst then d.setHif { d.hif with training := true } else d
      let d := d.endChange n again
      if again then d.setPower { d.power with offQueue := n :: d.power.offQueue } else d

/-! Faults and trips -/

/-- The domain's regulators are enabled: RAMP, INIT or ON (R51). -/
def Dev.powered (d : Dev) (n : Nat) : Bool := d.domState n == 1 || d.domState n == 2 || d.domState n == 3

/-- Domain `n` leaves the sequencer's lists, with no reversal pending. -/
def Dev.leaveSequencer (d : Dev) (n : Nat) : Dev :=
  (d.setPower { d.power with
    current := if d.power.current = some n then none else d.power.current,
    offQueue := d.power.offQueue.filter (· ≠ n) }).setDomPending n false

/-- Those of the domains that have power, a ramp under way too, go OFF at once, latest in sequence order first. -/
def Dev.switchOffNow (d : Dev) (ns : List Nat) : Dev :=
  (seqOrder.reverse.filter fun n => ns.contains n && d.powered n).foldl (fun d n =>
    ((d.leaveSequencer n).loseDomain n 0).endChange n false) d

/-- A fault of a domain (R51): its record, then the loss of what it powers. -/
def Dev.domainFault (d : Dev) (n rail : Nat) : Dev :=
  let deps := (d.dependents n).filter d.powered
  let was := d.powered n
  let d := (d.int 0x02 2).err 0x02 0x23 n rail
  let d := if was then d.loseDomain n 5 else (d.setDom n 5).wipe n
  let d := d.leaveSequencer n
  let d := d.setPower { d.power with
    onQueue := d.power.onQueue.filter (· ≠ n),
    pd29Faults := if n = 29 then (d.power.clock :: d.power.pd29Faults).take 3 else d.power.pd29Faults }
  let d := d.switchOffNow deps
  let d := d.dropReq (n :: deps)
  let d := d.set 0x02 F.PWR_DOM_FAULT_FAULT (setBit (d.get 0x02 F.PWR_DOM_FAULT_FAULT) n)
  d.endChange n false

/-- RAIL_FAULT: judged in RAMP, INIT and ON alone, on the rails that the domain has (R41). With the island stopped the control
island switches the domain and its dependents off, and nothing records it (R411). -/
def Dev.railFault (d : Dev) (n rail : Nat) : Dev :=
  if !d.powered n ∨ !(domRails n).contains rail then d
  else if d.power.island then d.domainFault n rail
  else (n :: (d.dependents n).filter d.powered).foldl (fun d m => ((d.leaveSequencer m).setDom m 0).wipe m) d

/-- FAULT_CLEAR: 1 written to a PWR_DOM_FAULT bit returns its domain to OFF. -/
def Dev.faultClear (d : Dev) (v : Nat) : Dev :=
  let f := d.get 0x02 F.PWR_DOM_FAULT_FAULT
  (setBits 30 (Nat.land f v)).foldl (fun d n =>
    let d := d.set 0x02 F.PWR_DOM_FAULT_FAULT (clrBit (d.get 0x02 F.PWR_DOM_FAULT_FAULT) n)
    if d.domState n = 5 then d.setDom n 0 else d) d

/-- Three PD29 faults within 10 s leave PD29 in FAULT (R51). -/
def Power.pd29Stays (p : Power) : Bool :=
  match p.pd29Faults with
  | [a, _, c] => decide (a - c ≤ 10000000000)
  | _ => false

/-- PD29_REPOWER: the island clears bit 29 and ramps PD29 again. -/
def Dev.pd29Repower (d : Dev) : Dev :=
  if d.domState 29 ≠ 5 ∨ !d.power.island ∨ d.power.pd29Stays then d
  else
    let d := d.faultClear (2 ^ 29)
    d.setPower { d.power with onQueue := 29 :: d.power.onQueue }

/-- POWER_LINK_RETRY, POWER_LINK_LATE (R42). -/
def Dev.linkRetry (d : Dev) : Dev := if d.power.island then d.bump 0x02 F.PWR_LINK_RETRY else d
def Dev.linkLate (d : Dev) : Dev := if d.power.island then d.bump 0x02 F.PWR_LINK_LATE else d

/-- LINK_TIMEOUT: a power-link command failed; one for a domain is that domain's fault, on one of its rails, which the spec
leaves open. LINK_TIMEOUT is recorded ahead of RAIL_FAULT (log entry 145). -/
def Dev.linkTimeout (d : Dev) (dom : Option Nat) : Dev :=
  if !d.power.island then d
  else
    let d := (d.int 0x02 5).err 0x02 0x24
    match dom with
    | none => d
    | some n => let (v, d) := d.free; d.domainFault n ((domRails n).getD (v.toNat % (domRails n).length) 0)

/-! Temperatures -/

/-- A junction sensor reads below the warning threshold. -/
def Dev.sensorCool (d : Dev) (s : Nat) : Bool :=
  decide (toSigned 12 (d.get 0x02 (F.PWR_TEMP_TEMP.at (4 * s))) < 8 * (d.get 0x02 F.PWR_TEMP_WARN_TEMP : Int))

/-- THERM_N returns high when every junction sensor and every stack that is ON reads below its warning (R412). -/
def Dev.thermRelease (d : Dev) : Dev :=
  let cool := (List.range 16).all d.sensorCool && (List.range 4).all fun h =>
    !d.domOn (14 + h) || decide (toSigned 8 (d.get (hbmPage h) F.HBM_TEMP_TEMP) < (d.get (hbmPage h) F.HBM_TEMP_WARN : Int))
  if cool then d.setPower { d.power with thermLow := false } else d

/-- TELEMETRY_UPDATE (R44): supplies, main rails and sensors, with the warning of R45. A domain outside INIT and ON shows
current 0 beside voltage 0, from the update on (log entry 146). -/
def Dev.telemetry (d : Dev) (supply rails : List Word) (temps : List (BitVec 12)) : Dev :=
  if !d.power.island then d
  else
    let d := (List.range 3).foldl (fun d i => d.setWord 0x02 (0x010C + 4 * i) (supply.getD i 0)) d
    let d := (List.range 30).foldl (fun d n =>
      d.setWord 0x02 (0x0280 + 4 * n) (if d.domState n = 2 ∨ d.domState n = 3 then rails.getD n 0 else 0)) d
    (((List.range 16).zip temps).foldl (fun d x =>
      let was := d.sensorCool x.1
      let d := d.set 0x02 (F.PWR_TEMP_TEMP.at (4 * x.1)) x.2.toNat
      if was && !d.sensorCool x.1 then d.int 0x02 3 else d) d).thermRelease

/-- THERMAL_TRIP (R45): every domain except PD29 goes off. -/
def Dev.thermalTrip (d : Dev) (sensor : Nat) : Dev :=
  if d.power.trip ∨ !d.power.island then d
  else
    let all := List.range 29
    let d := d.setPower { d.power with trip := true, thermLow := true }
    let d := (d.err 0x02 0x25 sensor).setDomReq 0
    let queued := d.power.onQueue.filter (· ≠ 29)
    let d := (d.setPower { d.power with onQueue := d.power.onQueue.filter (· = 29) }).dropChange queued
    let d := match d.power.current with
      | some n => if n ≠ 29 ∧ d.domState n = 4 then d.setDomPending n false else d
      | none => d
    d.switchOffNow all

/-- THERMAL_TRIP_END: every sensor reads below PWR_TEMP_WARN. -/
def Dev.thermalTripEnd (d : Dev) : Dev :=
  if d.power.trip ∧ (List.range 16).all d.sensorCool then (d.setPower { d.power with trip := false }).thermRelease else d

/-- HBM_TEMP_READ (R298): at the second reading of 105 °C the stack's domain goes off. -/
def Dev.hbmTempRead (d : Dev) (h t : Nat) : Dev :=
  if !d.domOn (14 + h) then d
  else
    let (trip, d) := d.hbmTemp h t
    if !trip then d.thermRelease
    else
      let d := (d.setPower { d.power with thermLow := true }).err 0x02 0x25 (32 + h)
      ((d.dropReq [14 + h]).switchOffNow [14 + h])

/-! Start-up and loss (R37–R40, R43, R411) -/

/-- The device stands in STANDBY with no transition (R40, R77). -/
def Dev.toStandby (d : Dev) : Dev :=
  let zero (f : Fld) (d : Dev) : Dev := d.set 0x01 f 0
  let d := zero F.SVC_MODE_MODE (zero F.SVC_MODE_BUSY (zero F.SVC_MODE_TARGET (zero F.SVC_MODE_PENDING (zero F.SVC_MODE_NEXT d))))
  { (d.set 0x01 F.SVC_DRAIN_LEFT_PACKETS 0) with modes := Modes.reset }

/-- Every domain is without power: its contents are gone, and only a domain in FAULT stays so. -/
def Dev.allOff (d : Dev) : Dev :=
  let d := seqOrder.reverse.foldl (fun d n =>
    ((if d.domState n = 5 then d else d.setDom n 0).setDomPending n false).wipe n) d
  let d := d.setPower { d.power with current := none, offQueue := [], onQueue := [], changes := [], stage1 := false, bus := false }
  (d.set 0x03 F.CLK_STAT_ROOT_LOCK 0).set 0x03 F.CLK_STAT_ALIGN_OK 0

/-- INPUT_LOSS and WATCHDOG_TRIP with the island running (R40). -/
def Dev.inputLost (d : Dev) (cause : Nat) : Dev :=
  let d := (d.allOff.toStandby).setDomReq 0
  let d := d.setPower { d.power with vinValid := false, lossSeen := true }
  let d := (d.set 0x02 F.PWR_INPUT_LOST 1).set 0x02 F.PWR_INPUT_CAUSE cause
  d.event 0x02 11 7 cause 0 0

/-- INPUT_LOSS (R37, R40): causes 1–3. -/
def Dev.inputLoss (d : Dev) (cause : Nat) : Dev :=
  if !d.power.vinValid then d
  else if d.power.island then d.inputLost cause
  else let d := d.allOff; d.setPower { d.power with vinValid := false }

/-- WATCHDOG_TRIP (R43): cause 4 where the island runs; none while it is stopped (R411). -/
def Dev.watchdogTrip (d : Dev) : Dev :=
  if !d.power.stage1 then d else if d.power.island then d.inputLost 4 else d.allOff

/-- The pages of the service island (R23). -/
def islandPages : List Nat := [0x00, 0x01, 0x02, 0x03, 0x04]

/-- The island stops, and its memory is lost (R411). -/
def Dev.islandStop (d : Dev) : Dev :=
  let states := (List.range 30).map fun n => (n, d.domState n)
  let d := islandPages.foldl (fun d p => d.resetPage p) d
  let d := states.foldl (fun d x => d.setDom x.1 x.2) d
  { d with
    log := ErrLog.reset, modes := Modes.reset,
    power := { d.power with island := false, thermLow := false, trip := false, lossSeen := false, changes := [], pd29Faults := [],
                            refSlewing := false, holdNs := 0 } }

/-- STANDBY_IN_RANGE (R38), STANDBY_LOSS, SYSTEM_RESET and SYS_RST_N_RELEASE (R411). -/
def Dev.standbyInRange (d : Dev) : Dev := d.setPower { d.power with standbyOk := true }
def Dev.standbyLoss (d : Dev) : Dev := let d := d.islandStop; d.setPower { d.power with standbyOk := false }
def Dev.systemReset (d : Dev) : Dev := let d := d.islandStop; d.setPower { d.power with rstLow := true }
def Dev.sysRstRelease (d : Dev) : Dev := d.setPower { d.power with rstLow := false }

/-- ISLAND_START: the island leaves reset, its pages at their reset values, with the domains off (R38, R410, R411), and samples
UX_ID (R367). -/
def Dev.islandStart (d : Dev) (id : Nat) : Dev :=
  if d.power.island ∨ !d.power.standbyOk ∨ d.power.rstLow then d
  else
    let d := { (islandPages.foldl (fun d p => d.resetPage p) d.allOff) with log := ErrLog.reset }
    let d := (List.range 30).foldl (fun d n => d.setDom n 0) d
    let d := d.setPower { d.power with island := true, uxId := id }
    (d.resetPeers 0).resetPeers 1

/-- MAIN_INPUT_VALID (R37, R39 step 1): the first stage is commanded on where the island runs. -/
def Dev.mainInputValid (d : Dev) : Dev :=
  let d := d.setPower { d.power with vinValid := true }
  if !d.power.island then d
  else
    let d := if d.power.lossSeen then (d.setPower { d.power with lossSeen := false }).int 0x02 4 else d
    d.setPower { d.power with stage1 := true }

/-- BUS_IN_REGULATION (R39 step 2). -/
def Dev.busInRegulation (d : Dev) : Dev := if d.power.stage1 then d.setPower { d.power with bus := true } else d

/-- ROOT_PLL_LOCK (R39 steps 3 and 4, R54): the clocks run, and PD29 is to ramp. -/
def Dev.rootPllLock (d : Dev) : Dev :=
  if !d.power.bus ∨ !d.power.island then d
  else
    let d := ((d.set 0x03 F.CLK_STAT_ROOT_LOCK 1).set 0x03 F.CLK_STAT_ALIGN_OK 1)
    let d := if d.get 0x03 F.CLK_STAT_HOLDOVER = 0 then d.set 0x03 F.CLK_STAT_REF_OK 1 else d
    if d.domState 29 = 0 ∧ !d.power.onQueue.contains 29 then d.setPower { d.power with onQueue := 29 :: d.power.onQueue } else d

/-! Clocks (R54, R57) -/

/-- REF_LOSS: holdover begins, and the network and Ulux links lose lock. -/
def Dev.refLoss (d : Dev) : Dev :=
  if !d.power.island ∨ (d.get 0x03 F.CLK_STAT_HOLDOVER = 1 ∧ !d.power.refSlewing) then d
  else
    let again := d.get 0x03 F.CLK_STAT_HOLDOVER = 1
    let d := ((d.set 0x03 F.CLK_STAT_HOLDOVER 1).set 0x03 F.CLK_STAT_ISLAND_OSC 1).set 0x03 F.CLK_STAT_REF_OK 0
    let d := if again then d else (d.set 0x03 F.CLK_HOLD_TIME_US 0).setPower { d.power with holdNs := 0 }
    let d := d.setPower { d.power with refSlewing := false }
    let d := ((d.bump 0x03 F.CLK_REF_LOSS_COUNT).int 0x03 0).event 0x03 12 7 0 0 0
    let d := (List.range 128).foldl (fun d p => if d.pageOn (portPage p) then d.linkDown p else d) d
    (List.range 16).foldl (fun d p => d.ulxLoss p) d

/-- REF_RETURN: the reference has been valid for 10 ms, and the root PLL slews to it. ISLAND_OSC clears here (log entry 59). -/
def Dev.refReturn (d : Dev) : Dev :=
  if d.get 0x03 F.CLK_STAT_HOLDOVER = 1 ∧ !d.power.refSlewing then
    ((d.setPower { d.power with refSlewing := true }).set 0x03 F.CLK_STAT_REF_OK 1).set 0x03 F.CLK_STAT_ISLAND_OSC 0
  else d

/-- REF_SLEW_COMPLETE: HOLDOVER clears. -/
def Dev.refSlewComplete (d : Dev) : Dev :=
  if d.power.refSlewing then ((d.setPower { d.power with refSlewing := false }).set 0x03 F.CLK_STAT_HOLDOVER 0).int 0x03 1 else d

/-- ALIGN_MISMATCH (R54). ALIGN_OK stays 0 until the next ROOT_PLL_LOCK (log entry 147). -/
def Dev.alignMismatch (d : Dev) : Dev :=
  if !d.power.island then d else ((d.set 0x03 F.CLK_STAT_ALIGN_OK 0).int 0x03 2).err 0x03 0x20

/-- One nanosecond of holdover (CLK_HOLD_TIME). -/
def Dev.holdoverTick (d : Dev) : Dev :=
  if d.get 0x03 F.CLK_STAT_HOLDOVER = 0 then d
  else if d.power.holdNs + 1 < 1000 then d.setPower { d.power with holdNs := d.power.holdNs + 1 }
  else (d.setPower { d.power with holdNs := 0 }).bump 0x03 F.CLK_HOLD_TIME_US

end Sys2Proof.Machine
end

