-- ==== Sys2Proof/Machine/Programs.lean ====
section
/-! DEFINITION. Control stores (R29, R146) and program images: their layout (R142–R145) and verification (R147). -/

namespace Sys2Proof.Machine

/-- Writes to the control store, the image registers and VERIFY take effect (R146). -/
def Dev.csOpen (d : Dev) (c : Nat) : Bool :=
  d.fn (engPage c) == 0 && d.get (engPage c) F.ENG_IMG_STAT_BUSY == 0

/-- VALID clears, and with it the tag (R146, R158). -/
def Dev.imgInvalidate (d : Dev) (c : Nat) : Dev :=
  ((d.set (engPage c) F.ENG_IMG_STAT_VALID 0).setWord (engPage c) 0x0408 0).setWord (engPage c) 0x040C 0

/-- The place of a microword. -/
def csKey (c a : Nat) : Nat := 16384 * c + a % 16384

/-- A write of word 0–4 of a microword is held (R29); it clears VALID (R146). -/
def Dev.csHold (d : Dev) (c a k : Nat) (v : Word) : Dev :=
  ({ d with cs := { d.cs with held := d.cs.held.wr none (8 * csKey c a + k) (some v) } }).imgInvalidate c

/-- A write of word 5 commits the held words, and the stored ones where none is held (R29). -/
def Dev.csCommit (d : Dev) (c a : Nat) (v : Word) : Dev :=
  let key := csKey c a
  let old : Nat := (Map.rd 0 d.cs.words key).toNat
  let word (k : Nat) : Nat := match Map.rd none d.cs.held (8 * key + k) with
    | some w => w.toNat
    | none => bits old (32 * k) 32
  let w : BitVec 192 := BitVec.ofNat 192 (((List.range 5).map fun k => word k * 2 ^ (32 * k)).sum + v.toNat * 2 ^ 160)
  ({ d with cs := { d.cs with
      words := d.cs.words.wr 0 key w
      held := d.cs.held.dropRange (8 * key) (8 * key + 8)
      bad := d.cs.bad.wr false key false } } : Dev).imgInvalidate c

/-- A read of word `k` of a microword: word 0 latches the whole of it (R29); words 1–5 with no latch read as stored. -/
def Dev.csRead (d : Dev) (c a k : Nat) : Word × Dev :=
  let key := csKey c a
  let live : BitVec 192 := Map.rd 0 d.cs.words key
  if k = 0 then
    (live.extractLsb' 0 32, { d with cs := { d.cs with latch := d.cs.latch.wr none key (some live) } })
  else if k > 5 then (0, d)
  else (((Map.rd none d.cs.latch key).getD live).extractLsb' (32 * k) 32, d)

/-! The image -/

/-- Bytes of an array of registers that hold them least significant byte first (R158). -/
def Dev.regBytes (d : Dev) (p off n : Nat) : List Byte :=
  ((List.range n).map fun k => leBytes 4 (d.word p (off + 4 * k)).toNat).flatten

/-- One section of an image (R144): TYPE, BASE, COUNT, OFFSET, CRC. -/
structure Section where
  typ : Nat
  base : Nat
  count : Nat
  offset : Nat
  crc : Nat
  deriving DecidableEq, Repr

/-- The section table of an image (R144). -/
def sectionsOf (h : List Byte) (n : Nat) : List Section :=
  (List.range n).map fun i =>
    let o := 64 + 16 * i
    ⟨beAt h o 1, beAt h (o + 2) 2, beAt h (o + 4) 4, beAt h (o + 8) 4, beAt h (o + 12) 4⟩

/-- Types, places, order and payload offsets of sections follow R144; answers the end of the last payload. -/
def sectionsEnd : List Section → Nat → Nat → Option Nat
  | [], off, _ => some off
  | s :: r, off, low =>
    if s.typ = 1 ∧ s.count ≥ 1 ∧ s.base + s.count ≤ 16384 ∧ s.base ≥ low ∧ s.offset = off then
      sectionsEnd r (off + 24 * s.count) (s.base + s.count)
    else none

/-- An address lies within a section. -/
def inSections (l : List Section) (a : Nat) : Bool := l.any fun s => decide (s.base ≤ a) && decide (a < s.base + s.count)

/-- The payload a section has in the control store (R144). -/
def Dev.payload (d : Dev) (c : Nat) (s : Section) : List Byte :=
  ((List.range s.count).map fun k => beBytes 24 (d.csWord c (s.base + k)).toNat).flatten

/-- The checks of R147 in order; answers 0 or the code of the first that fails. -/
def Dev.imgCode (d : Dev) (tr : Trust) (c : Nat) : Nat :=
  let p := engPage c
  let h := d.regBytes p 0x0500 80
  let s := d.regBytes p 0x0700 64
  let ns := beAt h 0x0C 2
  let flags := beAt h 0x0E 2
  let secs := sectionsOf h ns
  let flam := d.flam (c / 32)
  if beAt h 0 4 ≠ 0x5459494D ∨ beAt h 4 1 ≠ 1 ∨ beAt h 6 2 ≠ 64 ∨ beAt h 0x30 16 ≠ 0 ∨ flags / 4 ≠ 0 then 1
  else if beAt h 8 2 ≠ 0x2560 ∨ beAt h 0x0A 2 > 0x4201 then 2
  else if beAt h 0x19 1 ≠ 1 then 3
  else if ns < 1 ∨ ns > 16 then 4
  else match sectionsEnd secs (64 + 16 * ns) 0 with
    | none => 4
    | some e =>
      if beAt h 0x1C 4 ≠ e + 256 then 4
      else if !inSections secs (beAt h 0x10 2) || !inSections secs (beAt h 0x12 2) || beAt h 0x14 2 % 16 ≠ 0 || decide (beAt h 0x14 2 > 0x3FA0) then 5
      else if (bit flags 0 && !flam) || (bit flags 1 && flam) then 6
      else if secs.any fun x => crc32 (d.payload c x) ≠ x.crc then 7
      else if sha384 (slice h 0 (64 + 16 * ns) ++ (secs.map (d.payload c)).flatten) ≠ slice s 8 48 then 8
      else
        let alg := beAt s 4 1
        let slot := beAt s 5 1
        let keyHash := ((List.range 12).map fun k => leBytes 4 (Map.rd 0 tr.keyHash (16 * slot + k)).toNat).flatten
        if alg > 1 ∨ (alg = 0 ∧ tr.sigReq) then 9
        else if alg = 0 then 0
        else if slot > 3 ∨ !bit tr.keyEn slot ∨ sha384 (slice s 0x38 96) ≠ keyHash then 10
        else if !ecdsaOk (beAt s 8 48) (beAt s 0x38 48) (beAt s 0x68 48) (beAt s 0x98 48) (beAt s 0xC8 48) then 11
        else 0

/-- Every address that no section covers takes the microword whose only non-zero field is SEQ = ABORT (R147). -/
def Dev.fillAbort (d : Dev) (c : Nat) (secs : List Section) : Dev :=
  let lo := 16384 * c
  let old : Map (BitVec 192) := d.cs.words
  let mine : Map (BitVec 192) := (List.range 16384).filterMap fun a =>
    let w : BitVec 192 := if inSections secs a then d.csWord c a else BitVec.ofNat 192 (0xC0 * 2 ^ 160)
    if w = 0 then none else some (lo + a, w)
  let below := List.filter (fun (e : Nat × BitVec 192) => decide (e.1 < lo)) old
  let above := List.filter (fun (e : Nat × BitVec 192) => decide (lo + 16384 ≤ e.1)) old
  let bad := d.cs.bad.filter fun e => decide (e.1 / 16384 ≠ c) || inSections secs (e.1 % 16384)
  { d with cs := { d.cs with words := below ++ mine ++ above, bad := bad } }

/-- A section holds a microword that is known to be uncorrectable (R117). -/
def Dev.csKnownBad (d : Dev) (c : Nat) : Bool :=
  let h := d.regBytes (engPage c) 0x0500 80
  d.cs.bad.any fun e => e.1 / 16384 == c && inSections (sectionsOf h (beAt h 0x0C 2)) (e.1 % 16384)

/-- VERIFY starts under the conditions of R146 (R147). -/
def Dev.startVerify (d : Dev) (c : Nat) : Dev := (d.imgInvalidate c).set (engPage c) F.ENG_IMG_STAT_BUSY 1

/-- Verification ends (R147); `ecc` is the worst the reads of the control store met, and a microword known to be bad is met again. -/
def Dev.verifyDone (d : Dev) (tr : Trust) (c : Nat) (ecc : Ecc) : Dev :=
  let p := engPage c
  if d.get p F.ENG_IMG_STAT_BUSY = 0 then d
  else
    let ecc := if d.csKnownBad c then Ecc.bad else ecc
    let code := if ecc = .bad then 12 else d.imgCode tr c
    let d := match ecc with
      | .clean => d
      | .corrected => d.csCorrected c 1
      | .bad => d.eccCount 3 (c / 32) .bad
    let d := (d.set p F.ENG_IMG_STAT_BUSY 0).set p F.ENG_IMG_STAT_CODE code
    let d :=
      if code = 0 then
        let h := d.regBytes p 0x0500 80
        let tag := beAt (d.regBytes p 0x0700 64) 8 8
        let d := d.fillAbort c (sectionsOf h (beAt h 0x0C 2))
        let d := d.setWord p 0x0410 (BitVec.ofNat 32 (beAt h 0x10 2 + beAt h 0x12 2 * 2 ^ 16))
        let d := d.set p F.ENG_IMG_TRAP_BASE (beAt h 0x14 2)
        let d := (d.setWord p 0x0408 (BitVec.ofNat 32 tag)).setWord p 0x040C (BitVec.ofNat 32 (tag / 2 ^ 32))
        d.set p F.ENG_IMG_STAT_VALID 1
      else (d.err p 0x23 code).int p 6
    d.int p 5

end Sys2Proof.Machine
end

