-- ==== Sys2Proof/Machine/Functions.lean ====
section
/-! DEFINITION. Function control (R63–R70, R415), modes and their transitions (R60, R73–R77), and the flush of a stop (R75). -/

namespace Sys2Proof.Machine

/-! The traffic set and its dependencies (R63, R64) -/

/-- The traffic set in start order. -/
def trafficOrder : List Nat :=
  [0x2A, 0x2B, 0x20, 0x21, 0x22, 0x23, 0x24, 0x25, 0x26, 0x27, 0x2C, 0x2D, 0x2E, 0x2F, 0x28, 0x29] ++
    (List.range 64).map (0x40 + ·) ++ [0x34, 0x35, 0x36, 0x37, 0x38, 0x39] ++ (List.range 16).map (0x10 + ·)

def isTraffic (p : Nat) : Bool :=
  match pageKind p with
  | .bpm | .lkp | .lrn | .swc | .tm | .ord | .eng | .peal | .car | .eli | .pg => true
  | _ => false

/-- The pages a page's function depends on, but for a PG's clusters. -/
def Dev.needs (d : Dev) (p : Nat) : List Nat :=
  let die := pageDie p
  match pageKind p with
  | .lrn => [lkpPage (pageInst p)]
  | .swc => [bpmPage die]
  | .tm => [swcPage die]
  | .ord => [bpmPage die, swcPage die]
  | .eng =>
    let q := pageInst p / 16
    (if d.flam die then [lkpPage (2 * die), lkpPage (2 * die + 1)] else [lkpPage q]) ++ [ordPage die, bpmPage die]
  | .peal => [swcPage die, bpmPage die]
  | .car => [tmPage die]
  | .eli => [carPage die]
  | .pg => [ordPage die, bpmPage die, swcPage die, tmPage die]
  | .dma => [hifPage]
  | _ => []

/-- The home clusters of a PG (R10). -/
def pgClusters (p : Nat) : List Nat := (List.range 4).map fun i => engPage (4 * pageInst p + i)

/-- The first page, in page order, that blocks a START (R66). -/
def Dev.startBlocker (d : Dev) (p : Nat) : Option Nat :=
  let l := (d.needs p).filter fun q => !d.running q
  let l := if pageKind p = .pg ∧ !(pgClusters p).any d.running then l ++ [(pgClusters p).headD 0] else l
  l.min?

/-- In flam mode both LKP pages of a gang start and stop together. -/
def Dev.gang (d : Dev) (p : Nat) : List Nat :=
  if pageKind p = .lkp ∧ d.flam (pageDie p) then [lkpPage (2 * pageDie p), lkpPage (2 * pageDie p + 1)] else [p]

/-- The pages whose functions depend on page `p`, or on the page that stops with it, and are not STOPPED (R66). A PG depends on
its last RUNNING home cluster. -/
def Dev.stopBlockers (d : Dev) (p : Nat) : List Nat :=
  assignedPages.filter fun q => d.fn q != 0 && hasFunction q && ((d.gang p).any (d.needs q).contains ||
    (pageKind q == .pg && (pgClusters q).contains p && !(pgClusters q).any fun c => c != p && d.running c))

/-- PENDING of a page, and of the page that starts and stops with it. -/
def Dev.pendFn (d : Dev) (p v : Nat) : Dev := (d.gang p).foldl (fun d q => d.set q H.PENDING v) d

/-- The other quadrant of a gang is not ON (R159). -/
def Dev.halfGang (d : Dev) (p : Nat) : Bool :=
  (pageKind p == .lkp || pageKind p == .lrn) && d.flam (pageDie p) && !(d.domOn (8 + 2 * pageDie p) && d.domOn (9 + 2 * pageDie p))

/-! Starting -/

/-- Rotating pointers return to 0 when their function restarts (R17). -/
def Dev.resetRr (d : Dev) (p : Nat) : Dev :=
  let i := pageInst p
  let drop (rs : List (Nat × Nat)) : Dev := { d with rr := rs.foldl (fun m r => m.dropRange r.1 r.2) d.rr }
  let one (k : Nat) : Nat × Nat := (k, k + 1)
  let aux : List Nat := (List.range 24).map (128 + ·)
  match pageKind p with
  | .pg => drop [one (Rr.homeCluster i)]
  | .eng => drop [one (Rr.engine i), one (Rr.victim i), (Rr.thread (16 * i), Rr.thread (16 * i + 16))]
  | .bpm => drop [one (Rr.stack i)]
  | .tm => drop ([(Rr.ports (8 * i), Rr.ports (8 * i + 8)), (Rr.node (64 * i), Rr.node (64 * i + 64)),
      (Rr.class (8192 * i), Rr.class (8192 * i + 8192)), (Rr.queue (200000 + 65536 * i), Rr.queue (265536 + 65536 * i))] ++
      (aux.filter fun n => d.portHome n = some i).map fun n => one (Rr.node n))
  | .swc => drop [one (Rr.transfer i), one (Rr.swc i)]
  | .hbm => drop [(Rr.hbm i 0, Rr.hbm (i + 1) 0)]
  | .car => { d with rr := (List.range 16).foldl (fun m t => if d.trunkHome t = some i then m.dropRange (Rr.member t) (Rr.member t + 1) else m) d.rr }
  | .hif => drop [one Rr.tags]
  | .dma => drop [one Rr.hostPath]
  | .ulx => drop [(Rr.ulux 0, Rr.ulux 4)]
  | _ => d

/-- What a function does in STARTING once its shadow settings have applied; a BPM whose MIN quotas exceed the pool fails
with cause 1 (R205), and so does a cluster without a valid image at that moment, one under verification too (R147). -/
def Dev.startInit (d : Dev) (p : Nat) : Dev :=
  let i := pageInst p
  match pageKind p with
  | .bpm =>
    let mins : List Nat := (List.range 16).map fun r => d.live p (F.BPM_QUOTA_MIN.at (8 * r))
    if mins.sum > 262144 then d.startFail p 1 else ((d.startBpm i).applyPgRegion (2 * i)).applyPgRegion (2 * i + 1)
  | .lkp => d.setEngine (d.lkStore i) { d.engine (d.lkStore i) with vp := 0 }
  | .swc => d.startSwc i
  | .tm => d.startTm i
  | .ord => (d.ageCheck i true).startOrd i
  | .eng => if d.get p F.ENG_IMG_STAT_VALID = 0 then d.startFail p 1 else d.startEng i
  | .peal => d.startPeal i
  | .car => d.startCar i
  | .eli => d.startEli i
  | .pg => d.startPg i
  | .hif => d.recovCheck
  | .mod => ((List.range 16).foldl (fun d m => d.busCheck m) d).startMod
  | .time => d.startTime p
  | .hbm => d.startHbm i
  | .ulx => match (d.replayCheck i).startUlx i with | some d => d | none => d.startFail p 2
  | _ => d

/-- The pending writes of a page apply (R70); for an SWC F_d may reach 0 with a new SHARED (R229). -/
def Dev.applyOf (d : Dev) (p : Nat) : Dev :=
  if pageKind p = .swc then (d.applyShadow p).freeFell (pageInst p) (d.sharedFree (pageInst p)) else d.applyShadow p

/-- A function enters STARTING; `apply` unless its shadow settings applied in the STOPPED cycle before (R67, R70). -/
def Dev.goStart (d : Dev) (p : Nat) (apply : Bool) : Dev :=
  if d.halfGang p then d.startFail p 1
  else (d.gang p).foldl (fun d q =>
    let d := d.setFn q 1 0
    let d := if apply then d.applyOf q else d
    (d.resetRr q).startInit q) d

/-- Where a refusal of R66 or R415 comes from: the host's write, or the device. -/
structure FnSource where
  off : Nat
  data : Nat
  write : Bool
  req : Nat
  /-- The other kinds that the same write shows (R22). -/
  more : List Nat
  deriving DecidableEq, Repr

def FnSource.device : FnSource := ⟨0, 0, false, 0xFFFF, []⟩

/-- FN_DEP (R66). -/
def Dev.fnDep (d : Dev) (p blocker : Nat) (s : FnSource) : Dev :=
  d.capture { page := p, kinds := 0x0E :: s.more, off := s.off, data := s.data, write := s.write, req := s.req, d5 := blocker }

/-- A START, or else a STOP, that is refused with FN_DEP (R66, R415). -/
def Dev.fnDenied (d : Dev) (p : Nat) (start : Bool) : Bool :=
  if start then (d.modes.stopping && isTraffic p) || (d.fn p == 0 && (d.startBlocker p).isSome)
  else d.fn p == 2 && !(d.stopBlockers p).isEmpty

/-! Stopping -/

/-- What a function does on entering STOPPING. -/
def Dev.stopBegin (d : Dev) (p : Nat) : Dev :=
  let i := pageInst p
  match pageKind p with
  | .lrn => d.stopLrn i
  | .ord => d.stopOrd i
  | .car => d.stopCar i
  | .pg => d.stopPg i
  | .time => d.stopTime p
  | .dma => d.stopDma
  | .ulx => d.stopUlx i
  | _ => d

def Dev.goStop (d : Dev) (p : Nat) : Dev := (d.gang p).foldl (fun d q => (d.setFn q 3 0).stopBegin q) d

/-- A STOP (R65, R66). -/
def Dev.fnStop (d : Dev) (p : Nat) (s : FnSource) : Dev :=
  if !hasFunction p ∨ !d.pageOn p then d
  else match d.fn p with
    | 1 => d.pendFn p 1
    | 2 => match (d.stopBlockers p).min? with
      | some b => d.fnDep p b s
      | none => d.goStop p
    | 3 => d.pendFn p 0
    | _ => d

/-- Packets that an endpoint holds, markers and messages apart. -/
def Endpoint.held (e : Endpoint) : Nat := ((e.sel ++ e.staged).filter fun x => !x.ent.ctl && !x.onWire).length

/-- A function holds no work that a stop waits for (R68 and the block chapters). -/
def Dev.workDone (d : Dev) (p : Nat) : Bool :=
  let i := pageInst p
  match pageKind p with
  | .lkp => !(d.engine (d.lkStore i)).ops.contains .cmd
  | .swc => (List.range 3).all (fun s => (d.offers i s).isEmpty) && (List.range 8).all (fun k => (d.ep (8 * i + k)).held == 0) &&
      (i != 0 || (d.hif.path.isEmpty && (d.ep 16).held == 0))
  | .tm => ((List.range 64).all fun k => (d.ep (portEp (64 * i + k))).held == 0) && !((d.ep 16).sel.any fun x => x.queue / 65536 == i)
  | .ord => (d.ord i).slots.isEmpty && (d.ord i).reports.isEmpty
  | .eng => d.engIdle i
  | .peal => (d.peal i).queue.isEmpty && (d.peal i).walk.isNone
  | .car => d.carIdle i
  | .pg => (d.pg i).parsing.isEmpty && (d.pg i).intake.isEmpty && (d.pg i).recirc.isEmpty
  | .dma => (List.range 1024).all fun c => d.chState c == 0
  | .mod => (List.range 16).all fun m => !d.cmdBusy m
  | .hbm => !d.stackHeld i
  | _ => true

/-! The flush of a stop (R75): the packets a function holds are freed and counted. -/

def Dev.freeAll (d : Dev) (l : List Pkt) : Nat × Dev := (l.length, l.foldl (fun d k => d.freePkt k) d)

/-- Packets that a queue holds, markers and messages apart. -/
def Queue.held (x : Queue) : Nat := ((x.ents ++ x.writer).filter fun e => !e.ctl).length + x.inHbm

/-- The host path's packets (R222). -/
def HostIf.pending (h : HostIf) : List Punt := h.punts ++ (h.path ++ h.staged).map (·.punt)

/-- The host path is flushed: its packets are freed, with the SWC of the west die that carries it (R75, R222). -/
def Dev.flushHost (d : Dev) : Nat × Dev :=
  let l := d.hif.pending
  (l.length, l.foldl (fun d p => d.puntLetGo p) (d.setHif { d.hif with punts := [], path := [], staged := [] }))

/-- The packets on a cluster's threads. -/
def Dev.threadPkts (d : Dev) (c : Nat) : List Pkt :=
  (List.range 128).filterMap fun i =>
    let x := d.thread (128 * c + i)
    match x.ended with | some e => some e.pkt | none => x.head.map (·.pkt)

def Dev.flushFn (d : Dev) (p : Nat) : Nat × Dev :=
  let i := pageInst p
  match pageKind p with
  | .pg =>
    let x := d.pg i
    (d.setPg i { x with parsing := [], intake := [], recirc := [] }).freeAll
      (x.parsing.map (·.pkt) ++ x.intake.map (·.pkt) ++ x.recirc.map (·.pkt))
  | .eng =>
    let l := (d.engQueue i).map (·.pkt) ++ d.threadPkts i
    let d := d.startEng i
    let gone (w : CellWait) : Bool := match w with | .rewrite t => t / 128 == i | _ => false
    ({ d with bpms := d.bpms.map fun e => (e.1, { e.2 with waits := e.2.waits.filter fun w => !gone w.2 }) } : Dev).freeAll l
  | .ord =>
    let o := d.ord i
    let done := o.slots.filterMap fun e => e.2.ending.map (·.pkt)
    let aged := (o.slots.filter fun (e : Nat × Slot) => e.2.state = 1).length
    let d := d.voidSlots i
    let d := if aged = 0 then d else (d.ordCnt i 6 aged).int (ordPage i) 0
    d.freeAll (done ++ (o.reports.filter (·.ending.kind ≠ 4)).map (·.ending.pkt))
  | .peal => let l := (d.peal i).queue; (d.setPealQueue i []).freeAll (l.map (·.pkt))
  | .car =>
    (List.range 16).foldl (fun a t =>
      if a.2.trunkHome t ≠ some i then a
      else
        let x := a.2.trunk t
        let (n, d) := (a.2.setTrunk t { x with hold := [], released := [], restored := [] }).freeAll
          (x.hold.map (·.pkt) ++ x.released.map (·.pkt) ++ x.restored.map (·.1.pkt))
        (a.1 + n, d)) (0, d)
  | .swc =>
    let host := if i = 0 then d.flushHost else (0, d)
    (List.range 3).foldl (fun a s =>
      let l := a.2.offers i s
      let d := a.2.setSwc { a.2.swc with offers := a.2.swc.offers.wr [] (3 * i + s) [] }
      (a.1 + l.length, l.foldl (fun d o => d.letGo o.pkt.first o.pkt.owner o.shared o.final) d)) host
  | .tm =>
    let mine := d.tm.queues.filter fun (e : Nat × Queue) => e.1 / 65536 = i
    let n := (mine.map (·.2.held)).sum
    let staged := ((List.range 8).map fun k => (d.ep (8 * i + k)).held).sum
    let mine16 := (d.ep 16).sel.filter fun x => x.queue / 65536 = i
    let d := mine16.foldl (fun d x => d.dropEnt x.queue x.ent) (d.setEp 16 { d.ep 16 with sel := (d.ep 16).sel.filter fun x => x.queue / 65536 ≠ i })
    let d := (List.range 64).foldl (fun d k => d.flushPort (64 * i + k)) d
    (n + staged + mine16.length, (mine.map (·.1)).foldl (fun d q => d.flushQueue q) d)
  | _ => (0, d)

/-- The TM flushes its queues as it stops (R246). -/
def Dev.flushTm (d : Dev) (die : Nat) : Dev :=
  ((d.tm.queues.map (·.1)).filter fun q => q / 65536 = die).foldl (fun d q => d.flushQueue q) d

/-- What a function does as it reaches STOPPED. -/
def Dev.stopEnd (d : Dev) (p : Nat) : Dev :=
  let i := pageInst p
  match pageKind p with
  | .tm => d.flushTm i
  | .bpm => (d.set p F.BPM_PG_STAT_READY 0).set p (F.BPM_PG_STAT_READY.at 16) 0
  | .hbm =>
    let d := d.set (bpmPage (i / 2)) (F.BPM_PG_STAT_READY.at (16 * (i % 2))) 0
    let d := (d.flushCounters i).hbmDrain i
    d.setHbm i { d.hbm i with rows := [], hits := [], run := [] }
  | .ulx => d.endUlx i
  | _ => d

/-! Modes (R60, R73–R77) -/

def Dev.setModes (d : Dev) (m : Modes) : Dev := { d with modes := m }
def Dev.setMode (d : Dev) (m : Nat) : Dev := d.set 0x01 F.SVC_MODE_MODE m
def Dev.setTarget (d : Dev) (m : Nat) : Dev := d.set 0x01 F.SVC_MODE_TARGET m
def Dev.setBusy (d : Dev) (b : Bool) : Dev := d.set 0x01 F.SVC_MODE_BUSY (b2n b)

/-- The packets that arrive over the mesh and are not yet offered: those in hand, and those whose first cell waits in a stream or
in a receive buffer (R74 step 2, R78). -/
def Dev.meshPackets (d : Dev) : Nat :=
  let first (pl : List Byte) : Nat := b2n ((routeOf pl).sop && (routeOf pl).dst == d.power.uxId)
  (d.ulx.streams.map fun e => b2n e.2.build.isSome + (e.2.held.map fun h => first h.2.1).sum).sum +
    (d.ulx.ports.map fun e => (e.2.rx.map fun c => first c.payload).sum).sum

/-- The packets the device holds (SVC_DRAIN_LEFT): each once, markers and messages apart. -/
def Dev.packets (d : Dev) : Nat :=
  let sum {α : Type} (m : Map α) (f : α → Nat) : Nat := (m.map fun e => f e.2).sum
  sum d.pgs (fun x => x.parsing.length + x.intake.length + x.recirc.length) + sum d.eng.queues (·.length) +
    sum d.eng.threads (fun x => b2n (x.head.isSome || x.ended.isSome)) +
    sum d.eng.ords (fun o => (o.reports.filter (·.ending.kind ≠ 4)).length + sum o.slots (fun s => b2n s.ending.isSome)) +
    sum d.swc.offers (·.length) + sum d.peals (fun x => x.queue.length + b2n x.walk.isSome) + sum d.tm.queues Queue.held +
    sum d.swc.endpoints Endpoint.held + sum d.swc.tx (fun t => match t with | some t => b2n (!t.ent.ctl) | none => 0) +
    sum d.car.trunks (fun t => t.hold.length + t.released.length + t.restored.length) + d.hif.pending.length +
    sum d.ulx.queues (·.length) + d.meshPackets

/-- The device stops functions, each once those that depend on it are STOPPED (R64, R415). -/
def Dev.pumpStop (d : Dev) : Nat → Dev
  | 0 => d
  | n + 1 =>
    match d.modes.plan with
    | [] => d
    | p :: r =>
      match d.fn p with
      | 0 => (d.setModes { d.modes with plan := r }).pumpStop n
      | 1 => d.pendFn p 1
      | 2 =>
        match d.stopBlockers p with
        | [] => d.goStop p
        | l => (d.setModes { d.modes with plan := (trafficOrder.reverse.filter l.contains) ++ d.modes.plan.filter fun q => !l.contains q }).pumpStop n
      | _ => d

/-- The stop of the traffic set begins: pending starts are cleared (R415). -/
def Dev.beginStop (d : Dev) (plan : List Nat) (flushing : Bool) : Dev :=
  let d := trafficOrder.foldl (fun d p => if d.fn p = 3 then d.set p H.PENDING 0 else d) d
  (d.setModes { d.modes with stopping := true, flushing := flushing, plan := plan }).pumpStop 400

/-- The traffic functions that are not STOPPED, in stop order. -/
def Dev.stopOrder (d : Dev) : List Nat := trafficOrder.reverse.filter fun p => d.fn p != 0

/-- A transition to FORWARD fails (R77). -/
def Dev.modeFail (d : Dev) (p : Nat) : Dev :=
  let d := (d.setMode d.modes.origin).set 0x01 F.SVC_MODE_PENDING 0
  let d := (d.int 0x01 2).err 0x01 0x23 p
  (d.setModes { d.modes with failed := true }).beginStop (trafficOrder.reverse.filter d.modes.started.contains) false

/-- A function of the traffic set is STARTING, whoever started it. -/
def Dev.trafficStarting (d : Dev) : Bool := trafficOrder.any fun p => d.fn p == 1

/-- The next function of a transition to FORWARD starts once no other is STARTING (R64). -/
def Dev.pumpStart (d : Dev) : Nat → Dev
  | 0 => d
  | n + 1 =>
    if d.trafficStarting then d
    else match d.modes.plan with
      | [] => d
      | p :: r =>
        let d := d.setModes { d.modes with plan := r }
        if d.fn p ≠ 0 then d.pumpStart n
        else match d.startBlocker p with
          | some b => (d.fnDep p b FnSource.device).modeFail p
          | none =>
            let d := (d.goStart p true).setModes { d.modes with started := p :: d.modes.started }
            if d.fn p = 0 then d.modeFail p else d.pumpStart n

/-- A transition is under way that starts functions. -/
def Dev.starting (d : Dev) : Bool := d.modeBusy && d.get 0x01 F.SVC_MODE_TARGET == 2 && !d.modes.stopping

/-- What a start means for a transition to FORWARD that is under way: a traffic function that cannot start fails it (R77). -/
def Dev.afterStart (d : Dev) (p : Nat) : Dev := if d.starting ∧ isTraffic p ∧ d.fn p = 0 then d.modeFail p else d

/-- A START (R65, R66, R415). -/
def Dev.fnStart (d : Dev) (p : Nat) (s : FnSource) : Dev :=
  if !hasFunction p ∨ !d.pageOn p then d
  else if d.modes.stopping ∧ isTraffic p then
    let d := if d.fn p = 3 then d.pendFn p 0 else d
    d.fnDep p 0x01 s
  else match d.fn p with
    | 0 => match d.startBlocker p with
      | some b => d.fnDep p b s
      | none => (d.goStart p true).afterStart p
    | 1 => d.pendFn p 0
    | 3 => d.pendFn p 1
    | _ => d

/-- What a change of a function's state means for the transition. -/
def Dev.pump (d : Dev) : Dev :=
  if d.modes.stopping then d.pumpStop 400 else if d.starting then d.pumpStart 400 else d

/-- What a function does as it reaches RUNNING: a PG's trained links count as up (R226), and an SWC takes packets again that Ulux
receive holds (R216). -/
def Dev.fnRunning (d : Dev) (p : Nat) : Dev :=
  match pageKind p with
  | .pg => d.pgRunning (pageInst p)
  | .swc => d.uluxGranted (pageInst p)
  | _ => d

/-- FN_START_DONE (R65, R67, R77). -/
def Dev.fnStartDone (d : Dev) (p : Nat) : Dev :=
  if !hasFunction p ∨ d.fn p ≠ 1 ∨ !d.pageOn p then d
  else if pageKind p = .hbm ∧ (d.hbm (pageInst p)).training then d
  else
    let pend := d.get p H.PENDING = 1
    let d := (d.gang p).foldl (fun d q => (d.fnArrive q 2).fnRunning q) d
    let d := if !pend then d
      else match (d.stopBlockers p).min? with
        | some b => d.fnDep p b FnSource.device
        | none => d.goStop p
    d.pump

/-- FN_STOP_DONE (R65, R68, R70, R75): work is done, or flushed in a flushing stop. -/
def Dev.fnStopDone (d : Dev) (p : Nat) : Dev :=
  if !hasFunction p ∨ d.fn p ≠ 3 ∨ !d.pageOn p then d
  else
    let d := if d.modes.stopping ∧ d.modes.flushing ∧ isTraffic p then
        let (n, d) := d.flushFn p
        d.bump 0x01 F.SVC_DRAIN_FLUSH_PACKETS n
      else d
    if !d.workDone p then d
    else
      let pend := d.get p H.PENDING = 1
      let d := (d.gang p).foldl (fun d q => (d.stopEnd q).fnArrive q 0) d
      let d := if !pend then d
        else match d.startBlocker p with
          | some b => d.fnDep p b FnSource.device
          | none => (((d.gang p).foldl (fun d q => d.applyOf q) d).goStart p false).afterStart p
      d.pump

/-- The requests that R73 allows from a mode. -/
def modeAllows (mode code : Nat) : Bool :=
  match mode with
  | 0 => code == 1
  | 1 => code == 2 || code == 5 || code == 0
  | 2 => code == 4
  | 3 => code == 2 || code == 1
  | 4 => code == 2 || code == 1 || code == 0
  | 5 => code == 1
  | _ => false

/-- A mode is reached: BUSY clears and BLK bit 0 sets. -/
def Dev.arriveMode (d : Dev) (m : Nat) : Dev := (((d.setMode m).setTarget m).setBusy false).int 0x01 0

/-- An accepted request begins (R73, R74). -/
def Dev.enterMode (d : Dev) (code : Nat) : Dev :=
  let cur := d.mode
  if code = 2 then
    let plan := trafficOrder.filter fun p => d.fn p == 0 && d.pageOn p
    let d := (((d.setMode 2).setTarget 2).setBusy true).setModes { Modes.reset with origin := cur, plan := plan }
    d.pumpStart 400
  else if cur = 2 then
    let d := (((d.setMode 3).setTarget 4).setBusy true).setModes { Modes.reset with origin := cur }
    (List.range 2).foldl (fun d die => if d.running (carPage die) then d.stopCar die else d) d
  else if cur = 5 then
    let d := (((d.setMode 1).setTarget 1).setBusy true).setModes { Modes.reset with origin := cur }
    d.beginStop d.stopOrder true
  else d.arriveMode code

/-- A request: accepted, latched or refused (R73, R76). `s` says where a refusal comes from and `extra` the other kinds of the
same write. -/
def Dev.modeRequest (d : Dev) (code : Nat) (s : FnSource) (extra : List Nat) : Dev :=
  let cap (ks : List Nat) : Cap := { page := 0x01, kinds := ks, off := s.off, data := s.data, write := s.write, req := s.req }
  let refuse (k : Nat) : Dev := (d.int 0x01 1).capture (cap (k :: extra))
  let fine (d : Dev) : Dev := d.capture (cap extra)
  if d.modeBusy then
    if code = d.get 0x01 F.SVC_MODE_TARGET then fine (d.set 0x01 F.SVC_MODE_PENDING 0)
    else if modeAllows d.mode code then fine ((d.set 0x01 F.SVC_MODE_PENDING 1).set 0x01 F.SVC_MODE_NEXT code)
    else refuse 0x20
  else if !modeAllows d.mode code then refuse 0x20
  else if code = 0 ∧ (List.range 27).any fun n => d.domState n ≠ 0 then refuse 0x21
  else (fine d).enterMode code

/-- A latched request runs as if written now (R76). -/
def Dev.runLatched (d : Dev) : Dev :=
  if d.get 0x01 F.SVC_MODE_PENDING = 1 then
    (d.set 0x01 F.SVC_MODE_PENDING 0).modeRequest (d.get 0x01 F.SVC_MODE_NEXT) FnSource.device []
  else d

/-- The transition ends, and a latched request runs (R76). -/
def Dev.endTransition (d : Dev) (m : Nat) : Dev := ((d.arriveMode m).setModes Modes.reset).runLatched

/-- MODE_TRANSITION_DONE: the device action of the transition is complete. A failed transition to FORWARD ends with the functions
that it had started STOPPED, and leaves others as they are (R77 step 1, log entry 148); a request latched meanwhile runs then. -/
def Dev.modeTransitionDone (d : Dev) : Dev :=
  if !d.modeBusy then d
  else if d.modes.stopping then
    let d := d.pumpStop 400
    if d.modes.plan ≠ [] ∨ trafficOrder.any fun p => d.modes.started.contains p && d.fn p != 0 then d
    else if d.modes.failed then (((d.setTarget d.mode).setBusy false).setModes Modes.reset).runLatched
    else if trafficOrder.any fun p => d.fn p != 0 then d
    else d.endTransition (d.get 0x01 F.SVC_MODE_TARGET)
  else if d.get 0x01 F.SVC_MODE_TARGET = 2 then
    let d := d.pumpStart 400
    if !d.starting ∨ d.modes.plan ≠ [] ∨ d.trafficStarting then d else d.endTransition 2
  else d

/-- DRAIN_EMPTY: no packet remains, and the traffic set is stopped (R74). -/
def Dev.drainEmpty (d : Dev) : Dev :=
  if d.mode = 3 ∧ !d.modes.stopping ∧ d.packets = 0 then d.beginStop d.stopOrder false else d

/-- DRAIN_TIMEOUT: packets remain at SVC_DRAIN_LIMIT, and the traffic set is stopped with flushing (R75). -/
def Dev.drainTimeout (d : Dev) : Dev :=
  if d.mode = 3 ∧ !d.modes.stopping ∧ d.packets ≠ 0 then
    ((d.set 0x01 F.SVC_MODE_DRAIN_TO 1).int 0x01 3).beginStop d.stopOrder true
  else d

/-- HBM_STOP_LIMIT: the packets still in a stopping stack are dropped (R302). -/
def Dev.hbmStopLimit (d : Dev) (h : Nat) : Dev := if d.fn (hbmPage h) = 3 ∧ d.domOn (14 + h) then d.dropStackPages h else d

end Sys2Proof.Machine
end

