-- ==== Sys2Proof/Machine/HostRead.lean ====
section
/-! DEFINITION. What a host read of BAR0 returns and does: the directory (R25, R26, R416), registers that show other state,
pairs and latches (R6), RC fields (R7), and the answers of unassigned and unpowered pages (R24). -/

namespace Sys2Proof.Machine

/-! The directory -/

/-- The byte offsets of a register's elements. -/
def RegDesc.elems (r : RegDesc) : List Nat :=
  (List.range r.n1).flatMap fun i => (List.range r.n2).map fun j => r.off + r.s1 * i + r.s2 * j

/-- REGS: the block-specific registers of a page (R416). -/
def regsCount (p : Nat) : Nat :=
  let l := (pageKind p).regs
  if p = 0x09 ∨ p = 0x3B then ((l.flatMap RegDesc.elems).filter fun o => !eastRsv p o).length
  else (l.map fun r => r.n1 * r.n2).sum

/-- The two words of the directory entry of page `p` (R26). -/
def dirEntry (p : Nat) : Word × Word :=
  let id := (resetWord p 0).toNat
  (BitVec.ofNat 32 (p + bits id 24 8 * 2 ^ 8 + bits id 16 8 * 2 ^ 16 + bits id 15 1 * 2 ^ 24 + (pageDom p).getD 31 * 2 ^ 25),
   BitVec.ofNat 32 (regsCount p + 1 * 2 ^ 16))

/-- The entry words in ascending page order. -/
def dirEntries : List Word := assignedPages.flatMap fun p => [(dirEntry p).1, (dirEntry p).2]

/-- The words from 0x0100 to 0x0114 (R25). -/
def dirHead : List Word :=
  [0x54592560, BitVec.ofNat 32 (assignedPages.length * 2 ^ 16 + 1 * 2 ^ 8), 0x25604201, BitVec.ofNat 32 Config.grade.val,
   Config.serial.setWidth 32, BitVec.ofNat 32 (Config.serial.toNat / 2 ^ 32)]

/-- DIR_CRC (R25). -/
def dirCrc : Nat := crc32 ((dirHead ++ dirEntries).flatMap fun w => leBytes 4 w.toNat)

/-- A word of the directory page at or above 0x0100. -/
def dirWord (o : Nat) : Word :=
  if o < 0x0118 then dirHead.getD ((o - 0x0100) / 4) 0
  else if o = 0x0118 then BitVec.ofNat 32 dirCrc
  else
    let e := dirEntry (assignedPages.getD ((o - 0x0200) / 8) 0)
    if o % 8 = 0 then e.1 else e.2

/-! Registers that show other state -/

/-- The lines of pages 32k to 32k + 31 (R35). -/
def Dev.lines (d : Dev) (k : Nat) : Nat := ofBits ((List.range 32).filter fun j => pageKind (32 * k + j) ≠ .none && d.line (32 * k + j))

/-- Threads of a cluster in a state (R96). -/
def Dev.threadsIn (d : Dev) (c st : Nat) : Nat := ((List.range 128).filter fun i => (d.thread (128 * c + i)).st = st).length

/-- A register word as it reads now, latches and RC clears aside; WO and W1S fields hold nothing and read 0. -/
def Dev.shown (d : Dev) (p o : Nat) : Word :=
  let w := d.word p o
  let i := pageInst p
  if o = 0x40 then
    let n := (d.shadowKeys p).length
    BitVec.ofNat 32 (b2n (decide (n ≠ 0)) + min n 255 * 2 ^ 16)
  else if o < 0x100 then w
  else match pageKind p with
    | .dir => dirWord o
    | .svc => if o = 0x0110 then BitVec.ofNat 32 (if d.mode = 3 then d.packets else 0) else w
    | .hif =>
      if 0x0B00 ≤ o ∧ o < 0x0B20 then BitVec.ofNat 32 (d.lines ((o - 0x0B00) / 4))
      else if 0x0C00 ≤ o ∧ o < 0x1000 then
        let q := (o - 0x0C00) / 4
        BitVec.ofNat 32 (putBits w.toNat 16 1 (b2n (pageKind q ≠ .none && d.line q)))
      else w
    | .time =>
      if o = 0x0100 then BitVec.ofNat 32 (putBits w.toNat 0 1 (d.get 0x03 F.CLK_STAT_HOLDOVER))
      else if o = 0x0110 then BitVec.ofNat 32 (ofSigned 32 (d.time.slew / 1000000))
      else if 0x0130 ≤ o ∧ o < 0x0140 then d.nowWords.getD ((o - 0x0130) / 4) 0
      else w
    | .eng =>
      if o = 0x0110 then
        BitVec.ofNat 32 (d.threadsIn i 0 + d.threadsIn i 2 * 2 ^ 8 + d.threadsIn i 3 * 2 ^ 16 + d.threadsIn i 4 * 2 ^ 24)
      else if 0x0200 ≤ o ∧ o < 0x0240 then
        let e := (o - 0x0200) / 4
        BitVec.ofNat 32 ((List.range 8).map fun j => (d.thread (128 * i + 8 * e + j)).st * 2 ^ (3 * j)).sum
      else if o = 0x0304 then BitVec.ofNat 32 (b2n ((d.thread (d.dbgThread i)).st == 5) + d.threadsIn i 5 * 2 ^ 16)
      else if o = 0x0310 then BitVec.ofNat 32 (d.dbgRead i)
      else if o = 0x0314 then BitVec.ofNat 32 (d.dbgRead i / 2 ^ 32)
      else w
    | .ulx => if o = 0x0100 then BitVec.ofNat 32 d.power.uxId else w
    | .bpm =>
      if o = 0x050C ∨ o = 0x051C then
        let h := hbmPage (2 * i + (o - 0x050C) / 16)
        if d.fn h = 2 ∧ d.get h F.HBM_STAT_THROTTLE = 0 then w else w &&& 0x7FFFFFFF
      else w
    | .swc =>
      if o = 0x0104 then BitVec.ofNat 32 (d.sharedUse i)
      else if (o = 0x0130 ∨ o = 0x0134) ∧ !d.domOn 27 then 0
      else if 0x0800 ≤ o ∧ o < 0x0900 then
        let n := 64 * i + (o - 0x0800) / 4
        let left := bits w.toNat 16 16 - (d.power.clock - Map.rd 0 d.swc.holdAt n) / 1000
        if bits w.toNat 0 3 = 2 then BitVec.ofNat 32 (putBits w.toNat 16 16 left) else w
      else w
    | .car => if o = 0x0104 then BitVec.ofNat 32 (((List.range 16).filter fun t => d.trunkHome t = some i).map d.holdCells).sum
      else if 0x1000 ≤ o ∧ o < 0x1200 ∧ d.trunkHome ((o - 0x1000) / 32) ≠ some i then 0 else w
    | _ => w

/-! Reads -/

/-- An access to a page that does not answer: recorded in the ERR page (R24). -/
def Dev.pageRefuse (d : Dev) (p o kind data req : Nat) (write : Bool) : Dev :=
  d.capture { page := 0x04, kinds := [kind], off := o, data := data, write := write, req := req, d5 := csrKey p o }

/-- The ORDER record of a high word read with no latch (R6). -/
def Dev.orderErr (d : Dev) (p o req : Nat) : Dev := d.capture { page := p, kinds := [0x05], off := o, req := req }

def Dev.latch (d : Dev) (p o : Nat) (w : Word) : Dev := { d with csr := { d.csr with latches := d.csr.latches.put (csrKey p o) w } }

/-- A word that a latch may hold: the latched value, or the live one with ORDER recorded. -/
def Dev.latched (d : Dev) (p key o req : Nat) : Word × Dev :=
  match d.csr.latches.find? (csrKey p key) with
  | some w => (w, d)
  | none => (d.shown p o, d.orderErr p o req)

/-- The RC fields of a register clear. -/
def Dev.rcClear (d : Dev) (p o : Nat) (r : RegDesc) : Dev :=
  r.fields.foldl (fun d f => if f.acc = .rc then d.set p ⟨o, f.lsb, f.wd⟩ 0 else d) d

/-- A read of a register of a page that answers. -/
def Dev.regRead (d : Dev) (p o req : Nat) : Word × Dev :=
  if pageKind p = .err ∧ 0x0120 ≤ o ∧ o < 0x0140 then d.logRead ((o - 0x0120) / 4) req
  else if pageKind p = .eng ∧ (o = 0x0310 ∨ o = 0x0314) ∧ !d.dbgOpen (pageInst p) then
    (0, d.capture { page := p, kinds := [0x21], off := o, req := req })
  else if pageKind p = .time ∧ 0x0130 ≤ o ∧ o < 0x0140 then
    if o = 0x0130 then
      (d.shown p o, ((d.latch p 0x0134 (d.shown p 0x0134)).latch p 0x0138 (d.shown p 0x0138)).latch p 0x013C (d.shown p 0x013C))
    else d.latched p o o req
  else match regAt p o with
    | none => (0, d)
    | some r =>
      match r.half with
      | .low => (d.shown p o, d.latch p o (d.shown p (o + 4)))
      | .high => d.latched p (o - 4) o req
      | .single => let d := d.fecSeen p o; (d.shown p o, d.rcClear p o r)

/-- A read of BAR0 at page `p`, offset `o`. -/
def Dev.csrRead (d : Dev) (p o req : Nat) : Word × Dev :=
  if pageKind p = .none then (0, d.pageRefuse p o 0x0C 0 req false)
  else if !d.pageOn p then (0xFFFFFFFF, d.pageRefuse p o 0x0B 0 req false)
  else d.regRead p o req

end Sys2Proof.Machine
end

