-- ==== Sys2Proof/Machine/HostWrite.lean ====
section
/-! DEFINITION. A host write of BAR0: judged field by field (R7, R19, R22, R24), clamped, held or shadowed (R6, R70), and
the actions of write-only fields. -/

namespace Sys2Proof.Machine

/-! Judging (R7) -/

/-- The bits of the fields that satisfy `f`. -/
def RegDesc.mask (r : RegDesc) (f : FieldDesc → Bool) : Nat :=
  ((r.fields.filter f).map fun x => (2 ^ x.wd - 1) * 2 ^ x.lsb).sum

/-- The kinds of a write of `v` that the register's fields show, `cur` being what the register reads. -/
def judgeWrite (r : Option RegDesc) (mode cur v : Nat) : List Nat :=
  match r with
  | none => if v = 0 then [] else [0x04]
  | some r =>
    let rsv := if Nat.land v (2 ^ 32 - 1 - r.mask fun _ => true) = 0 then [] else [0x04]
    if r.fields.all fun f => f.acc = .ro || f.acc = .ro1 || f.acc = .rc then
      (if r.fields.any fun f => f.acc = .ro then [0x01] else if r.fields.any fun f => f.acc = .ro1 then [] else [0x02]) ++ rsv
    else
      let differs (f : FieldDesc) : Bool := bits v f.lsb f.wd != bits cur f.lsb f.wd
      (if r.fields.any fun f => f.acc = .ro && differs f then [0x01] else []) ++
        (if mode = 2 ∧ r.fields.any fun f => f.acc = .rwl && differs f then [0x03] else []) ++ rsv

/-- The stored word after a write of `v`: RW, RWL and W1C fields take it as their codes state. -/
def RegDesc.newWord (r : RegDesc) (mode old v : Nat) : Nat :=
  r.fields.foldl (fun w f => match f.acc with
    | .rw => putBits w f.lsb f.wd (bits v f.lsb f.wd)
    | .rwl => if mode = 2 then w else putBits w f.lsb f.wd (bits v f.lsb f.wd)
    | .w1c => putBits w f.lsb f.wd (Nat.land (bits w f.lsb f.wd) (2 ^ f.wd - 1 - bits v f.lsb f.wd))
    | _ => w) old

/-! Values that are clamped or kept -/

/-- A field held within its range. -/
def clampAt (w lsb wd lo hi : Nat) : Nat := putBits w lsb wd (max lo (min hi (bits w lsb wd)))

/-- A word with every field of the register within its stated range. -/
def clampWord (k : PageKind) (o w : Nat) : Nat :=
  match k with
  | .pwr => if o = 0x0118 then clampAt w 0 8 0 110 else w
  | .svc => if o = 0x010C then clampAt w 0 16 10 40000 else w
  | .err => if o = 0x0104 then clampAt w 0 16 100 65535 else w
  | .hif => if o = 0x0104 then clampAt w 0 12 1 4000 else if o = 0x0108 then clampAt w 0 10 1 1000 else w
  | .mod =>
    if o = 0x0100 ∨ o = 0x0114 then clampAt w 0 16 10 65535 else if o = 0x0108 then clampAt w 0 8 1 100 else w
  | .time =>
    if o = 0x0108 then ofSigned 32 (max (-4294967) (min 4294967 (toSigned 32 w)))
    else if o = 0x0114 then clampAt w 0 16 1 1000 else if o = 0x0118 ∨ o = 0x0140 then clampAt w 0 30 0 999999999 else w
  | .pg =>
    if 0x0200 ≤ o ∧ o < 0x0220 then clampAt w 0 14 64 16000
    else if 0x0220 ≤ o ∧ o < 0x0240 then clampAt w 0 14 0 10000 else w
  | .eng =>
    if o = 0x0100 then clampAt (clampAt w 2 3 1 4) 8 4 1 8
    else if o = 0x0104 then clampAt (clampAt w 0 6 2 32) 8 6 2 32
    else if o = 0x0108 then clampAt w 0 16 64 65535 else w
  | .ord => if o = 0x010C then clampAt w 0 14 1 10000 else w
  | .lrn =>
    if o = 0x0100 then clampAt (clampAt w 4 4 1 15) 8 4 1 15
    else if o = 0x0104 then clampAt (clampAt w 0 16 10 65535) 16 8 1 255 else w
  | .bpm =>
    if o = 0x0108 then clampAt w 0 16 100 65535
    else if 0x0200 ≤ o ∧ o < 0x0280 ∧ o % 8 = 4 then clampAt w 0 19 0 262144 else w
  | .swc => if o = 0x0100 then clampAt w 0 19 0 262144 else if o = 0x0110 then clampAt w 0 16 100 65535 else w
  | .tm =>
    if 0x0400 ≤ o ∧ o < 0x0660 then clampRate w else if 0x0700 ≤ o ∧ o < 0x0960 then clampAt w 16 7 0 65 else w
  | .hbm =>
    if o = 0x0100 then clampAt w 4 3 0 5 else if o = 0x0108 then clampAt (clampAt w 8 8 0 104) 16 8 0 104
    else if o = 0x0110 then clampAt w 0 8 25 250 else if o = 0x011C then clampAt w 0 16 10 65535
    else if 0x0300 ≤ o ∧ o < 0x0320 then clampAt w 0 24 100 16777215 else w
  | .car => if o = 0x0100 then clampAt w 0 8 1 255 else w
  | .eli => if o = 0x0100 then clampAt w 16 16 1 65535 else w
  | .ulx =>
    if o = 0x0108 then clampAt (clampAt w 0 16 100 65535) 16 4 1 15 else if o = 0x010C then clampAt w 0 16 10 65535
    else if o = 0x0110 then clampAt w 0 16 500 65535 else if o = 0x0114 then clampAt w 0 14 0 10000 else w
  | _ => w

/-- The RANGE kind of a block. -/
def PageKind.rangeKind : PageKind → Nat
  | .pwr => 0x26 | .svc => 0x25 | .bpm => 0x23 | _ => 0x20

/-- Fields that keep their value, or take a stated one, whatever the write says, with the kinds recorded: MEDIUM 3 (R81),
TX_MODE 3 (R321), the gang bits outside their domains' OFF state (R78), a SCHED of the other die (R230). -/
def Dev.keepFields (d : Dev) (p o old w : Nat) : Nat × List Nat :=
  match pageKind p with
  | .pg =>
    if 0x0200 ≤ o ∧ o < 0x0220 ∧ bits w 14 2 = 3 then (putBits w 14 2 (bits old 14 2), [0x20]) else (w, [])
  | .time => if 0x0400 ≤ o ∧ o < 0x0600 ∧ o % 8 = 0 ∧ bits w 0 2 = 3 then (putBits w 0 2 (bits old 0 2), [0x20]) else (w, [])
  | .svc =>
    if o = 0x0108 then
      (List.range 2).foldl (fun a i =>
        let off : Bool := ([4 * i, 4 * i + 1, 4 * i + 2, 4 * i + 3, 8 + 2 * i, 9 + 2 * i] : List Nat).all fun n => d.domState n == 0
        if bit a.1 i != bit old i && !off then (putBits a.1 i 1 (b2n (bit old i)), [0x24]) else a) (w, [])
    else (w, [])
  | .tm =>
    let i := (o - 0x0700) / 4
    if 0x0700 ≤ o ∧ o < 0x0960 ∧ i ≥ 128 ∧ d.portHome i = some (pageInst p) ∧ bits w 26 4 / 8 ≠ pageInst p then
      (putBits w 26 4 (8 * pageInst p), [0x20])
    else (w, [])
  | _ => (w, [])

/-! Writes that are ignored as a whole -/

/-- A gate entry lies in the applied list of a port whose applied GATE_EN is 1 (R240). -/
def Dev.gateLive (d : Dev) (die bank e : Nat) : Bool :=
  (List.range 64).any fun n =>
    let base := d.live (tmPage die) (F.TM_GATE_LIST_BASE.at (16 * n))
    (d.gate (64 * die + n)).isSome && d.live (tmPage die) (F.TM_PORT_CFG_GATE_BANK.at (4 * (64 * die + n))) == bank &&
      decide (base ≤ e) && decide (e < base + d.live (tmPage die) (F.TM_GATE_LIST_LEN.at (16 * n)))

/-- A PG_PORT_ACT value with code 3 in a field or code 0 in TRAP (R93). -/
def actInvalid (v : Nat) : Bool := ((List.range 5).any fun i => bits v (2 * i) 2 == 3) || bits v 8 2 == 0

/-- The kinds for which a write of `v` has no effect at all. -/
def Dev.ignores (d : Dev) (p o v : Nat) : List Nat :=
  let i := pageInst p
  let w (b : Bool) (k : Nat) : List Nat := if b then [k] else []
  if o = 0x08 then w (bit v 0 && bit v 1) 0x07 ++ w (!hasFunction p) 0x08
  else match pageKind p with
    | .pg => w (decide (0x0240 ≤ o) && decide (o < 0x0260) && actInvalid v) 0x21
    | .bpm => w (decide (0x0400 ≤ o) && decide (o < 0x0440) && decide (bits v 14 14 ≥ bits v 0 14)) 0x23
    | .swc =>
      w ((decide (0x0400 ≤ o) && decide (o < 0x0600) && o % 16 == 4 && decide (bits v 16 16 ≤ bits v 0 16)) ||
        (o == 0x010C && decide (bits v 16 16 > bits v 0 16))) 0x20
    | .tm =>
      w (decide (0x4000 ≤ o) && decide (o < 0x5000) && d.gateLive i ((o - 0x4000) / 0x800) ((o - 0x4000) / 4 % 512)) 0x21 ++
        w (decide (0x1000 ≤ o) && decide (o < 0x1400) && o % 16 == 0x0C && bit v 0 && (bit v 1 || d.rsBad (64 * i + (o - 0x1000) / 16))) 0x23
    | .time =>
      if i ≠ 0 then []
      else w (d.meshRole == 2 && (o == 0x0104 || o == 0x0108 || o == 0x010C || (decide (0x0118 ≤ o) && decide (o < 0x0124)))) 0x22 ++
        w (o == 0x0104 && d.timeConflict v) 0x21
    | .lkp =>
      w (d.get p F.LKP_CMD_STAT_BUSY == 1 && decide (0x0100 ≤ o) && decide (o < 0x0150) && o != 0x0104 && o != 0x0108) 0x20
    | .mod =>
      w (decide (0x0400 ≤ o) && decide (o < 0x0800) && (regAt p o).isSome && d.cmdBusy ((o - 0x0400) / 64)) 0x22 ++
        w (o == 0x0194 && bit v 1 && (bit v 0 || d.get p F.MOD_LED_IDX_PREV == 1)) 0x23
    | .dma =>
      w (decide (0x4000 ≤ o) && decide (o < 0x8000) && o % 16 == 0 && bit v 0 && (bit v 1 || d.chStartBad ((o - 0x4000) / 16))) 0x23
    | .hbm => w (o == 0x012C && bit v 0 && d.get p F.HBM_CNTR_STAT_BUSY == 1) 0x20
    | .ulx =>
      w ((decide (0x0400 ≤ o) && decide (o < 0x0440) && d.txnHeld i ((o - 0x0400) / 16)) ||
        (o == 0x0120 && bit v 0 && d.get p F.ULX_WIN_COMMIT_BUSY == 1)) 0x24
    | .eng =>
      w (((decide (0x0500 ≤ o) && decide (o < 0x0640)) || (decide (0x0700 ≤ o) && decide (o < 0x0800)) || (o == 0x0400 && bit v 0)) &&
        !d.csOpen i) 0x09 ++ w ((o == 0x0310 || o == 0x0314) && !d.dbgOpen i) 0x21
    | .peal => w (o == 0x0148 && d.memBad i v) 0x20
    | .ord => w (o == 0x0300 && bit v 1 && d.get p (F.ORD_EPOCH_INFL_COUNT.at (4 * (1 - d.get p F.ORD_EPOCH_CUR))) != 0) 0x22
    | _ => []

/-! Storing -/

/-- The fields are stored: a register with shadowed fields through its shadow (R70), where what is in force of every shadowed
field stays, of one that this write may not set (RWL in FORWARD) too. Answers the kinds of values clamped or kept. -/
def Dev.storeWord (d : Dev) (p o : Nat) (r : RegDesc) (v : Nat) : Dev × List Nat :=
  let mode := d.mode
  let old := (d.word p o).toNat
  let (w, ks) := d.keepFields p o old (r.newWord mode old v)
  let w' := clampWord (pageKind p) o w
  let ks := if w' = w then ks else (pageKind p).rangeKind :: ks
  let open_ := r.mask fun f => f.shadow && (f.acc = .rw || (f.acc = .rwl && mode != 2))
  let waits := r.mask (·.shadow)
  (if open_ ≠ 0 ∨ (waits ≠ 0 ∧ (d.csr.inForce.find? (csrKey p o)).isSome) then d.storeShadow p o waits (BitVec.ofNat 32 w')
    else if w' = old then d else d.setWord p o (BitVec.ofNat 32 w'), ks)

/-- A write of the low word of a pair is held; of the high word, both words are written (R6). Answers the low word. -/
def Dev.holdLow (d : Dev) (p o : Nat) (v : Word) : Dev := { d with csr := { d.csr with held := d.csr.held.put (csrKey p o) v } }

def Dev.heldLow (d : Dev) (p o : Nat) : Nat :=
  match d.csr.held.find? (csrKey p o) with
  | some w => w.toNat
  | none => (d.shown p o).toNat

def Dev.dropLow (d : Dev) (p o : Nat) : Dev := { d with csr := { d.csr with held := d.csr.held.erase (csrKey p o) } }

/-! Actions -/

/-- The kind of an action that is refused once the write's fields are stored. -/
def Dev.actRefused (d : Dev) (p o v : Nat) : Option Nat :=
  match pageKind p with
  | .time =>
    if pageInst p = 0 ∧ 0x0200 ≤ o ∧ o < 0x0300 ∧ o % 32 = 0 ∧ bit v 0 ∧ (bit v 1 || d.chimeBad ((o - 0x0200) / 32)) then some 0x23 else none
  | .mod =>
    if 0x0C00 ≤ o ∧ o < 0x0E00 ∧ o % 32 = 4 ∧ bit v 4 ∧ (bit v 5 || d.twBad ((o - 0x0C00) / 32)) then some 0x24 else none
  | .dma => if o = 0x0108 ∧ bit v 15 ∧ d.get p F.DMA_CTX_INVAL_BUSY = 1 then some 0x23 else none
  | .eng =>
    if o = 0x0300 ∧ bits v 17 2 ≠ 0 ∧ (d.thread (d.dbgThread (pageInst p))).st ≠ 5 then some 0x21 else none
  | _ => none

/-- A check of a pair of bounds that a write of the register calls for (R399). A raise in the page written is one more kind of
this write (R22 item 4), which is answered; a raise in another page makes that page's own record. -/
def Dev.boundCheck (d : Dev) (p o : Nat) : Dev × List Nat :=
  let i := pageInst p
  let own (raised : Option Dev) (kind : Nat) : Dev × List Nat :=
    match raised with
    | some d => (d.madeConsistent p, [kind])
    | none => (d, [])
  match pageKind p with
  | .svc => if o = 0x010C then own d.drainRaise 0x26 else (d, [])
  | .hif => if o = 0x0104 ∨ o = 0x0108 then own d.recovRaise 0x21 else (d, [])
  | .mod => if 0x0300 ≤ o ∧ o < 0x0400 ∧ o % 16 = 0 then own (d.busRaise ((o - 0x0300) / 16)) 0x21 else (d, [])
  | .ulx => if o = 0x0108 ∨ o = 0x010C then own (d.replayRaise i) 0x21 else (d, [])
  | .eng => if o = 0x0108 then ((d.ageCheck (i / 32) false).drainCheck, []) else (d, [])
  | .ord => if o = 0x010C then let x := own (d.ageRaise i false) 0x23; (x.1.drainCheck, x.2) else (d, [])
  | _ => (d, [])

/-- ENG_DBG_CTL: halts and RESUME (R140); a RESUME that was refused does nothing. -/
def Dev.dbgControl (d : Dev) (c v : Nat) : Dev :=
  let t := d.dbgThread c
  let how := bits v 17 2
  let d := if how ≠ 0 ∧ (d.thread t).st = 5 then d.resume t how else d
  let d := if bit v 1 then d.haltAll c else d
  if bit v 16 then d.haltRequest t else d

/-- TIME_CTL: where the count jumps, what is placed in time is placed again (R319). -/
def Dev.timeControl (d : Dev) (v : Nat) : Dev :=
  let d' := d.timeCtl v
  if d'.now = d.now then d' else d'.placeGates

/-- What a write of `v` does beside storing its fields; `old` is the word before it. -/
def Dev.act (d : Dev) (p o v old : Nat) : Dev :=
  let i := pageInst p
  match pageKind p with
  | .pwr => if o = 0x0104 then d.faultClear v else d
  | .err => if o = 0x0110 ∧ bit v 0 then d.logPop else d
  | .hif =>
    if 0x0C00 ≤ o ∧ o < 0x1000 ∧ !bit old 15 ∧ bit v 15 then
      let q := (o - 0x0C00) / 4
      if pageKind q ≠ .none ∧ d.line q then d.sendRoute q else d
    else d
  | .dma =>
    if o = 0x0108 then (if bit v 15 then d.ctxInval else d)
    else if 0x4000 ≤ o ∧ o < 0x8000 ∧ o % 16 = 0 then
      let ch := (o - 0x4000) / 16
      if bit v 0 then d.chStart ch else if bit v 1 then d.chStop ch else d
    else d
  | .mod =>
    if o = 0x0140 then (if bit v 0 then d.popModEvt else d)
    else if o = 0x0178 then (if bit v 0 then d.popAdv else d)
    else if o = 0x0194 then d.ledgerCmd v
    else if 0x0400 ≤ o ∧ o < 0x0800 ∧ o % 64 = 4 then (if bit v 8 then d.modGo ((o - 0x0400) / 64) else d)
    else if 0x0C00 ≤ o ∧ o < 0x0E00 ∧ o % 32 = 4 then
      let k := (o - 0x0C00) / 32
      if bit v 4 then d.twArm k else if bit v 5 then d.twCancel k else d
    else if 0x1000 ≤ o ∧ o < 0x1200 then (if bit v 1 then d.cageReset ((o - 0x1000) / 4) else d)
    else d
  | .time =>
    if o = 0x0620 then (if bit v 0 then d.popTx i else d)
    else if i ≠ 0 then d
    else if o = 0x0104 then d.timeControl v
    else if o = 0x0140 then d.ppsOff
    else if o = 0x0340 then (if bit v 0 then d.popCap else d)
    else if 0x0200 ≤ o ∧ o < 0x0300 ∧ o % 32 = 0 then
      let c := (o - 0x0200) / 32
      if bit v 0 then d.chimeArm c else if bit v 1 then d.chimeCancel c else d
    else d
  | .eng =>
    if o = 0x0300 then d.dbgControl i v
    else if o = 0x0400 then (if bit v 0 then d.startVerify i else d)
    else if (0x0500 ≤ o ∧ o < 0x0640) ∨ (0x0700 ≤ o ∧ o < 0x0800) then d.imgInvalidate i
    else d
  | .ord => if o = 0x0300 ∧ bit v 1 then d.epochFlip i else d
  | .lkp => if o = 0x010C ∧ bit v 0 then d.lkpGo i else d
  | .lrn => if o = 0x0130 ∧ bit v 0 then d.popEvt i else d
  | .tm =>
    if 0x1000 ≤ o ∧ o < 0x1400 ∧ o % 16 = 0x0C then
      let port := 64 * i + (o - 0x1000) / 16
      if bit v 0 then d.rsArm port else if bit v 1 then d.rsCancel port else d
    else d
  | .hbm => if o = 0x012C ∧ bit v 0 then d.counterRead i (bit v 1) else d
  | .swc => if o = 0x010C then d.pfcJudgeAll i else d
  | .peal =>
    if o = 0x0104 then (if bit v 0 then d.fence i else d)
    else if o = 0x0148 then (if bit v 0 then d.pealMemRead i else if bit v 1 then d.pealMemWrite i else d)
    else d
  | .eli => if o = 0x0120 ∧ bit v 0 then d.propPop i else d
  | .ulx =>
    if o = 0x0120 then (if bit v 0 then d.winCommit i else d)
    else if o = 0x0124 then d.retrain i v
    else if 0x0400 ≤ o ∧ o < 0x0440 ∧ o % 16 = 0 then (if bit v 0 then d.txnGo i ((o - 0x0400) / 16) else d)
    else d
  | _ => d

/-! The common header (R21) -/

/-- A host write of INT_STAT, INT_EN or INT_SET: with the line at 1 after it, the message is sent (R36). -/
def Dev.intWritten (d : Dev) (p : Nat) : Dev := if d.line p then d.sendRoute p else d

/-- The effect of a write on a register of the common header other than FN_CTRL. -/
def Dev.headerWrite (d : Dev) (p o v : Nat) : Dev :=
  let ints := Nat.land v (2 ^ 30 * 3 + (pageKind p).blkMask)
  if o = 0x10 then (d.clearInt p ints).intWritten p
  else if o = 0x14 then (d.setWord p 0x14 (BitVec.ofNat 32 ints)).intWritten p
  else if o = 0x18 then (d.raiseInt p ints).intWritten p
  else if o = 0x20 then
    let w := (d.word p 0x20).toNat
    let w := putBits w 16 8 (Nat.land (bits w 16 8) (255 - bits v 16 8))
    d.setWord p 0x20 (BitVec.ofNat 32 (if bit v 31 then clrBit (clrBit w 31) 30 else w))
  else if o = 0x40 then (if bit v 1 then d.discardShadow p else d)
  else if o = 0x44 then d.setWord p 0x44 (BitVec.ofNat 32 v)
  else d

/-- FN_CTRL (R65, R66), where it is not ignored. -/
def Dev.fnWrite (d : Dev) (p v req : Nat) (j : List Nat) : Dev :=
  let s : FnSource := ⟨0x08, v, true, req, j⟩
  let fine (d : Dev) : Dev := d.capture { page := p, kinds := j, off := 0x08, data := v, write := true, req := req }
  if bit v 0 then (if d.fnDenied p true then d.fnStart p s else fine (d.fnStart p s))
  else if bit v 1 then (if d.fnDenied p false then d.fnStop p s else fine (d.fnStop p s))
  else fine d

/-! Writes -/

/-- A full write of a register of a page that answers. One access makes one record, with every kind it shows, ahead of any
error of the block's own that its action meets (R22 item 4), and with the time before a write of TIME_CTL (R316). -/
def Dev.regWrite (d : Dev) (p o : Nat) (v : Word) (req : Nat) : Dev :=
  let n := v.toNat
  let rec_ (d : Dev) (ks : List Nat) : Dev := d.capture { page := p, kinds := ks, off := o, data := n, write := true, req := req }
  if p = 0x01 ∧ o = 0x0100 then
    d.modeRequest (n % 8) ⟨0x0100, n, true, req, []⟩ (if n / 8 = 0 then [] else [0x04])
  else if p = 0x02 ∧ o = 0x0100 then d.domainRequest n req
  else if pageKind p = .lkp ∧ 0x8020 ≤ o then
    let t := (o - 0x8000) / 32
    let k := o / 4 % 8
    if t ≥ 1024 then rec_ d (judgeWrite none 0 0 n)
    else if k < 7 then d.holdDesc (pageInst p) t k v else d.commitDesc (pageInst p) t v req
  else
    let r := regAt p o
    let j := judgeWrite r d.mode (d.shown p o).toNat n
    let ig := d.ignores p o n
    if ig ≠ [] then rec_ d (j ++ ig)
    else match r with
      | none => rec_ d j
      | some r =>
        if o = 0x08 then d.fnWrite p n req j
        else if o < 0x100 then rec_ (d.headerWrite p o n) j
        else
          let rw := r.fields.any fun f => f.acc = .rw
          match r.half, rw with
          | .low, true => rec_ (d.holdLow p o (BitVec.ofNat 32 (r.newWord 0 0 n))) j
          | .high, true =>
            let lo := d.heldLow p (o - 4)
            let d := d.dropLow p (o - 4)
            rec_ (if pageKind p = .eng then d.dbgWrite (pageInst p) (lo + n * 2 ^ 32)
              else (d.writeShadow p (o - 4) (BitVec.ofNat 32 lo)).writeShadow p o v) j
          | _, _ =>
            let old := (d.word p o).toNat
            let (d1, ks) := if p = 0x02 ∧ o = 0x0104 then (d, []) else d.storeWord p o r n
            let d1 := if pageKind p = .swc then d1.freeFell (pageInst p) (d.sharedFree (pageInst p)) else d1
            let (d2, bs) := d1.boundCheck p o
            match d2.actRefused p o n with
            | some k => let d3 := rec_ d2 (j ++ ks ++ bs ++ [k]); if pageKind p = .eng then d3.act p o n old else d3
            | none => (rec_ d2 (j ++ ks ++ bs)).act p o n old

/-- A host write of BAR0 at page `p`, offset `o`, with byte enables `be`. -/
def Dev.csrWrite (d : Dev) (p o : Nat) (v : Word) (be : BitVec 4) (req : Nat) : Dev :=
  if pageKind p = .none then d.pageRefuse p o 0x0C v.toNat req true
  else if !d.pageOn p then d.pageRefuse p o 0x0B v.toNat req true
  else if be ≠ 15 then d.capture { page := p, kinds := [0x06], off := o, data := v.toNat, write := true, req := req }
  else d.regWrite p o v req

end Sys2Proof.Machine
end

