-- ==== Sys2Proof/Machine/Host.lean ====
section
/-! DEFINITION. Host accesses to the three BARs (R18–R20, R28–R34): the trust anchors (R149), control stores, apertures,
entry windows, doorbells and MSI-X structures; the write lists (R362) and mesh requests (R381) that act as a host does. -/

namespace Sys2Proof.Machine

/-- The host's accesses reach the device: its link is up, in D0, and PD29 is ON. -/
def Dev.hostOpen (d : Dev) : Bool := d.domOn 29 && !d.hostShut

/-! The trust anchors (R149) -/

/-- Registers of page 0x01 that hold the trust anchors. -/
def isTrust (p o : Nat) : Bool :=
  p == 1 && (o == 0x0200 || o == 0x0204 || (decide (0x0210 ≤ o) && decide (o < 0x0310) && decide ((o - 0x0210) % 64 < 48)))

/-- The key of SVC_KEY_HASH[s][k]. -/
def keyIndex (o : Nat) : Nat := 16 * ((o - 0x0210) / 64) + (o - 0x0210) % 64 / 4

/-- A trust register as it reads; LOCK is W1S and reads 0. -/
def Trust.word (t : Trust) (o : Nat) : Word :=
  if o = 0x0200 then BitVec.ofNat 32 (b2n t.sigReq)
  else if o = 0x0204 then BitVec.ofNat 32 t.keyEn
  else Map.rd 0 t.keyHash (keyIndex o)

/-- The kinds that a write of `v` to a trust register shows. -/
def Trust.kinds (t : Trust) (o v : Nat) : List Nat :=
  (if t.lock then [0x01] else []) ++ (if (o = 0x0200 ∧ v / 4 ≠ 0) ∨ (o = 0x0204 ∧ v / 16 ≠ 0) then [0x04] else [])

/-- A write of `v` to a trust register: ignored while LOCK is 1. -/
def Trust.write (t : Trust) (o : Nat) (v : Word) : Trust :=
  if t.lock then t
  else if o = 0x0200 then { t with sigReq := bit v.toNat 0, lock := bit v.toNat 1 }
  else if o = 0x0204 then { t with keyEn := v.toNat % 16 }
  else { t with keyHash := t.keyHash.wr 0 (keyIndex o) v }

/-- The block with its trust anchors: what a host access can reach. -/
structure Reach where
  trust : Trust
  dev : Dev
  deriving DecidableEq, Repr

/-- A host write of BAR0. -/
def Reach.write0 (x : Reach) (p o : Nat) (v : Word) (be : BitVec 4) (req : Nat) : Reach :=
  if isTrust p o ∧ be = 15 ∧ x.dev.pageOn p then
    ⟨x.trust.write o v, x.dev.capture { page := p, kinds := x.trust.kinds o v.toNat, off := o, data := v.toNat, write := true, req := req }⟩
  else ⟨x.trust, x.dev.csrWrite p o v be req⟩

/-- A host read of BAR0. -/
def Reach.read0 (x : Reach) (p o req : Nat) : Word × Dev :=
  if isTrust p o ∧ x.dev.pageOn p then (x.trust.word o, x.dev) else x.dev.csrRead p o req

/-! BAR2 -/

/-- One wrong access to BAR2 or BAR4, recorded in the HIF page with its full offset (R28, R34). -/
def Dev.winErr (d : Dev) (a : Nat) (kinds : List Nat) (data req : Nat) (write : Bool) : Dev :=
  d.capture { page := hifPage, kinds := kinds, off := a % 65536, data := data, write := write, req := req, d5 := a }

/-- A write of the control-store map (R29, R146). -/
def Dev.csWrite (d : Dev) (a : Nat) (v : Word) (be : BitVec 4) (req : Nat) : Dev :=
  let c := a / 0x80000
  let i := a / 32 % 16384
  let k := a / 4 % 8
  if !d.pageOn (engPage c) then d.winErr a [0x0B] v.toNat req true
  else if be ≠ 15 then d.winErr a [0x06] v.toNat req true
  else
    let ks := (if 6 ≤ k ∧ v ≠ 0 then [0x04] else []) ++ (if d.csOpen c then [] else [0x09])
    if ks ≠ [] then d.winErr a ks v.toNat req true
    else if k < 5 then d.csHold c i k v
    else if k = 5 then d.csCommit c i v
    else d

/-- A read of the control-store map. -/
def Dev.csReadAt (d : Dev) (a req : Nat) : Word × Dev :=
  let c := a / 0x80000
  if !d.pageOn (engPage c) then (0xFFFFFFFF, d.winErr a [0x0B] 0 req false) else d.csRead c (a / 32 % 16384) (a / 4 % 8)

/-- The target space of an aperture. -/
inductive AptSpace where
  | none
  | quad (q : Nat)
  | stack (h : Nat)
  | buffer (die : Nat)
  deriving DecidableEq, Repr

/-- The target space of a code (R30); in flam mode Q1 and Q3 behave as code 0. -/
def Dev.aptSpace (d : Dev) (code : Nat) : AptSpace :=
  if 1 ≤ code ∧ code ≤ 4 then (if d.flam ((code - 1) / 2) ∧ (code - 1) % 2 = 1 then .none else .quad (code - 1))
  else if 5 ≤ code ∧ code ≤ 8 then .stack (code - 5)
  else if code = 9 ∨ code = 10 then .buffer (code - 9)
  else .none

/-- The kind under which an access to byte `b` of a space is refused (R31). -/
def Dev.aptRefuse (d : Dev) (s : AptSpace) (b : Nat) : Option Nat :=
  match s with
  | .none => some 0x0C
  | .quad q =>
    if !d.pageOn (lkpPage q) || (d.flam (q / 2) && !d.pageOn (lkpPage (q + 1))) then some 0x0B
    else if b ≥ d.lkBytes q then some 0x0A else none
  | .stack h => if !d.pageOn (hbmPage h) then some 0x0B else if !d.trained h then some 0x09 else if b ≥ hbmSize then some 0x0A else none
  | .buffer die =>
    if !d.pageOn (bpmPage die) then some 0x0B else if d.mode ≠ 5 then some 0x09 else if b ≥ 2 ^ 26 then some 0x0A else none

/-- The word of a space at a byte. -/
def Dev.aptWord (d : Dev) (s : AptSpace) (b : Nat) : Word :=
  match s with
  | .none => 0
  | .quad q => Map.rd 0 d.lkp.mem (lkWord (d.lkStore q) b)
  | .stack h => Map.rd 0 d.hbmMem (hbmKey h b)
  | .buffer die => BitVec.ofNat 32 (leNat (slice (d.cellBytes (die * 262144 + b / 256)) (b % 256) 4))

/-- A word of a space written. -/
def Dev.aptPut (d : Dev) (s : AptSpace) (b : Nat) (v : Word) : Dev :=
  match s with
  | .none => d
  | .quad q => d.setMem (d.lkp.mem.wr 0 (lkWord (d.lkStore q) b) v)
  | .stack h => d.hbmWrite h 4 b (leBytes 4 v.toNat)
  | .buffer die =>
    let c := die * 262144 + b / 256
    d.writeCell c (splice (d.cellBytes c) (b % 256) (leBytes 4 v.toNat))

/-- What the check bits of a word read through an aperture say. -/
def Dev.aptEcc (d : Dev) (s : AptSpace) (b : Nat) (ecc : Ecc) : Dev :=
  match s with
  | .none => d
  | .quad q => d.eccCount 2 (q / 2) ecc
  | .stack h => d.hbmEcc h b ecc
  | .buffer die => d.eccCount 0 die ecc

/-- The aperture and target byte that a BAR2 offset names (R30, R31). -/
def Dev.aptTarget (d : Dev) (a : Nat) : Nat × Nat :=
  let n := (a - 0x2000000) / 2 ^ 24
  (d.get hifPage (F.HIF_APT_CTL_TARGET.at (8 * n)), d.get hifPage (F.HIF_APT_BASE_BASE.at (8 * n)) * 65536 + (a - 0x2000000) % 2 ^ 24)

/-- A read through an aperture; an uncorrectable word is returned as read, with its record in the ERR page (R31, R388). -/
def Dev.aptRead (d : Dev) (a req : Nat) (ecc : Ecc) : Word × Dev :=
  let (code, b) := d.aptTarget a
  let s := d.aptSpace code
  match d.aptRefuse s b with
  | some k => (if k = 0x0B then 0xFFFFFFFF else 0, d.winErr a [k] 0 req false)
  | none =>
    let ecc := match s with | .stack h => if Map.rd false d.hbmBad (hbmKey h b) then Ecc.bad else ecc | _ => ecc
    let w := d.aptWord s b
    let d := match s with | .stack h => d.hbmNow h 4 false b 4 | _ => d
    let d := d.aptEcc s b ecc
    (w, if ecc = .bad then d.event hifPage 6 1 a code 0 else d)

/-- A write through an aperture. -/
def Dev.aptWrite (d : Dev) (a : Nat) (v : Word) (be : BitVec 4) (req : Nat) : Dev :=
  let (code, b) := d.aptTarget a
  let s := d.aptSpace code
  match d.aptRefuse s b with
  | some k => d.winErr a [k] v.toNat req true
  | none => if be ≠ 15 then d.winErr a [0x06] v.toNat req true else d.aptPut s b v

/-- EW_STATUS (R32). -/
def EntryWindow.status (x : EntryWindow) : Word :=
  BitVec.ofNat 32 (b2n x.busy + 2 * b2n x.done + 4 * b2n x.error + 16 * x.code + 65536 * x.bytes)

/-- A read of an entry window. -/
def Dev.ewReadAt (d : Dev) (a : Nat) : Word :=
  let x := d.ew ((a - 0x12000000) / 4096)
  let o := a % 4096
  if o = 0 then x.target
  else if o = 4 then x.index
  else if o = 0x0C then x.status
  else if 0x0100 ≤ o ∧ o < 0x0300 ∧ !x.busy then Map.rd 0 x.data ((o - 0x0100) / 4)
  else 0

/-- A write of an entry window. -/
def Dev.ewWriteAt (d : Dev) (a : Nat) (v : Word) (be : BitVec 4) (req : Nat) : Dev :=
  let w := (a - 0x12000000) / 4096
  let x := d.ew w
  let o := a % 4096
  let n := v.toNat
  let held : Bool := x.busy && (o == 0 || o == 4 || o == 8 || (decide (0x0100 ≤ o) && decide (o < 0x0300)))
  let rsv : Bool :=
    if o = 0 then decide (n / 2 ^ 16 ≠ 0)
    else if o = 8 then decide (n / 4 ≠ 0) || n % 4 == 3
    else if o = 0x0C then bit n 3 || decide (bits n 8 8 ≠ 0)
    else if o = 4 ∨ (0x0100 ≤ o ∧ o < 0x0300) then false
    else n != 0
  let ks := (if o = 0x0C then [0x01] else []) ++ (if rsv then [0x04] else []) ++ (if held then [0x0D] else [])
  if be ≠ 15 then d.winErr a [0x06] n req true
  else
    let d := d.winErr a ks n req true
    if held then d
    else if o = 0 then d.setEw w { x with target := v &&& 0xFFFF, bytes := ewBytes (bits n 0 8) }
    else if o = 4 then d.setEw w { x with index := v }
    else if o = 8 then (if n % 4 = 1 ∨ n % 4 = 2 then d.ewStart w (n % 4) else d)
    else if 0x0100 ≤ o ∧ o < 0x0300 then d.setEw w { x with data := x.data.wr 0 ((o - 0x0100) / 4) v }
    else d

/-- A read of BAR2; `ecc` is what a word read through an aperture met. -/
def Dev.read2 (d : Dev) (a req : Nat) (ecc : Ecc) : Word × Dev :=
  if a < 0x2000000 then d.csReadAt a req
  else if a < 0x12000000 then d.aptRead a req ecc
  else if a < 0x12100000 then (d.ewReadAt a, d)
  else (0, d.winErr a [0x0C] 0 req false)

/-- A write of BAR2. -/
def Dev.write2 (d : Dev) (a : Nat) (v : Word) (be : BitVec 4) (req : Nat) : Dev :=
  if a < 0x2000000 then d.csWrite a v be req
  else if a < 0x12000000 then d.aptWrite a v be req
  else if a < 0x12100000 then d.ewWriteAt a v be req
  else d.winErr a [0x0C] v.toNat req true

/-! BAR4 (R34, R357) -/

/-- A word of the MSI-X table; an unlisted word 3 has its mask bit set. -/
def Msix.word (m : Msix) (k : Nat) : Word := Map.rd (if k % 4 = 3 then 1 else 0) m.table k

/-- Writes a word of the MSI-X table; a vector unmasked with its pending bit set sends its message (R36). -/
def Dev.msixWrite (d : Dev) (k : Nat) (v : Word) : Dev :=
  let v : Word := if k % 4 = 3 then v &&& 1 else if k % 4 = 0 then v &&& 0xFFFFFFFC else v
  let d := { d with msix := { d.msix with table := d.msix.table.wr (if k % 4 = 3 then 1 else 0) k v } }
  let vec := k / 4
  if k % 4 = 3 ∧ v = 0 ∧ Map.rd false d.msix.pba vec then
    ({ d with msix := { d.msix with pba := d.msix.pba.wr false vec false } } : Dev).sendMsix vec
  else d

/-- A read of BAR4. -/
def Dev.read4 (d : Dev) (a req : Nat) : Word × Dev :=
  if a < 0x80000 then (if a % 512 = 8 then BitVec.ofNat 32 (d.chHead (a / 512)) else 0, d)
  else if a < 0x88000 then (d.msix.word ((a - 0x80000) / 4), d)
  else if a < 0x88100 then
    (BitVec.ofNat 32 (ofBits ((List.range 32).filter fun j => Map.rd false d.msix.pba (8 * (a - 0x88000) + j))), d)
  else (0, d.winErr a [0x0C] 0 req false)

/-- A doorbell write (R357): a wrong value or state is recorded in the DMA page, the access's own faults in the HIF page. -/
def Dev.doorbell (d : Dev) (a : Nat) (v : Word) (req : Nat) : Dev :=
  let ch := a / 512
  let o := a % 512
  let n := v.toNat
  if o = 0 ∨ o = 4 then
    let d := d.winErr a (if n / 65536 = 0 then [] else [0x04]) n req true
    match d.bellBad ch (n % 65536) (o = 0) with
    | some k => d.capture { page := dmaPage, kinds := [k], off := a % 65536, data := n, write := true, req := req, d5 := a }
    | none => if o = 0 then d.dbTail ch (n % 65536) else d.dbArm ch (n % 65536)
  else d.winErr a (if o = 8 then [0x01] else if n = 0 then [] else [0x04]) n req true

/-- A write of BAR4. -/
def Dev.write4 (d : Dev) (a : Nat) (v : Word) (be : BitVec 4) (req : Nat) : Dev :=
  if a ≥ 0x88100 then d.winErr a [0x0C] v.toNat req true
  else if a ≥ 0x88000 then d.winErr a [0x01] v.toNat req true
  else if be ≠ 15 then d.winErr a [0x06] v.toNat req true
  else if a < 0x80000 then d.doorbell a v req
  else d.msixWrite ((a - 0x80000) / 4) v

/-! Accesses -/

/-- A 32-bit write of BAR0, BAR2 or BAR4 (0, 1, 2) at the aligned address that holds byte `a`. -/
def Reach.write (x : Reach) (bar a : Nat) (v : Word) (be : BitVec 4) (req : Nat) : Reach :=
  match bar with
  | 0 => x.write0 (a / 65536) (a % 65536 / 4 * 4) v be req
  | 1 => ⟨x.trust, x.dev.write2 (a / 4 * 4) v be req⟩
  | _ => ⟨x.trust, x.dev.write4 (a / 4 * 4) v be req⟩

/-- A 32-bit read, and its value. -/
def Reach.read (x : Reach) (bar a req : Nat) (ecc : Ecc) : Word × Reach :=
  let (w, d) := match bar with
    | 0 => x.read0 (a / 65536) (a % 65536 / 4 * 4) req
    | 1 => x.dev.read2 (a / 4 * 4) req ecc
    | _ => x.dev.read4 (a / 4 * 4) req
  (w, ⟨x.trust, d⟩)

/-- A write that the host's link carries; it takes the link out of L1 (R352). -/
def Reach.hostWrite (x : Reach) (bar a : Nat) (v : Word) (be : BitVec 4) (req : Nat) : Reach :=
  if x.dev.hostOpen then (⟨x.trust, x.dev.wakeLink⟩ : Reach).write bar a v be req else x

/-- A read that the host's link carries, with its completion. -/
def Reach.hostRead (x : Reach) (bar a req : Nat) (ecc : Ecc) : Reach :=
  if x.dev.hostOpen then
    let r := (⟨x.trust, x.dev.wakeLink⟩ : Reach).read bar a req ecc
    ⟨r.2.trust, r.2.dev.emit (.readData r.1)⟩
  else x

/-! Write lists (R362) -/

/-- Records of 8 bytes performed in order: how many, and whether each one was good. -/
def Reach.runRecords (x : Reach) : Nat → List Byte → Nat → Nat × Bool × Reach
  | 0, _, n => (n, true, x)
  | fuel + 1, l, n =>
    if l.length < 8 then (n, true, x)
    else
      let w0 := leNat (l.take 4)
      let space := bits w0 29 3
      let off := bits w0 0 29
      if space > 1 ∨ off % 4 ≠ 0 then (n, false, x)
      else (x.write space off (BitVec.ofNat 32 (leNat (slice l 4 4))) 15 0xFFFF).runRecords fuel (l.drop 8) (n + 1)

/-- WRITE_LIST: the records that a channel has read are performed, and the descriptor completes. -/
def Reach.writeList (x : Reach) (ch : Nat) : Reach :=
  let c := x.dev.chan ch
  match c.ctx, c.job with
  | some cx, some j =>
    if (x.dev.chState ch ≠ 2 ∧ x.dev.chState ch ≠ 3) ∨ x.dev.hostShut ∨ cx.typ ≠ 3 ∨ j.kind ≠ 3 ∨ !j.whole then x
    else
      let b := j.bytes
      let (n, ok, y) := x.runRecords (b.length / 8) b 0
      let d := y.dev.setChan ch { y.dev.chan ch with job := none }
      let d := d.descDone ch (8 * n) (if ok then 0 else 4) n false false (!ok)
      let d := d.setChan ch { d.chan ch with units := (d.chan ch).units + n, bytes := (d.chan ch).bytes + 8 * n }
      let d := d.bump dmaPage (F.DMA_CNT_COUNT.at 8) n
      ⟨y.trust, (d.goOn ch).settleInval⟩
  | _, _ => x

/-! Mesh requests (R380, R381) -/

/-- A RESPONSE goes direct to the device that asked, on an UP port of the die the request came in on where there is one. -/
def Dev.respond (d : Dev) (p src status tag addr data : Nat) : Dev :=
  let ps := d.portsTo src
  let own := ps.filter fun q => q / 8 = p / 8
  match d.grant (Rr.ulux src) 16 (if own.isEmpty then ps else own) with
  | (none, d) => d
  | (some g, d) =>
    d.setUport g { d.uport g with out := (d.uport g).out ++ [(3, txnPayload 3 d.power.uxId src 0 status tag addr data)] }

/-- REQUEST: a REQ cell is taken from its buffer, performed as a host access, counted and answered. -/
def Reach.request (x : Reach) (p : Nat) (cell : List Byte) : Reach :=
  match x.dev.ulxArrive p cell 1 with
  | (false, d) => ⟨x.trust, d⟩
  | (true, d) =>
    if (cellHdr cell).vc ≠ 2 then ⟨x.trust, d⟩
    else match d.ulxInOrder p cell with
      | (false, d) => ⟨x.trust, d⟩
      | (true, d) =>
        let d := d.uCredit p 2
        let op := beAt cell 8 1
        let src := beAt cell 9 1 % 4
        let tag := beAt cell 12 2
        let addr := beAt cell 16 4
        let d := d.cnt (uPage p) F.ULX_CNT_COUNT 0
        match d.translate src (beAt cell 10 1 % 2) addr (op = 2) with
        | .error st => ⟨x.trust, d.respond p src st tag addr 0⟩
        | .ok (bar, off) =>
          let y : Reach := ⟨x.trust, d⟩
          if op = 2 then
            let y := y.write (bar / 2) off (BitVec.ofNat 32 (beAt cell 20 4)) 15 (0xFFF0 + src)
            ⟨y.trust, y.dev.respond p src 0 tag addr (beAt cell 20 4)⟩
          else
            let r := y.read (bar / 2) off (0xFFF0 + src) .clean
            ⟨r.2.trust, r.2.dev.respond p src 0 tag addr r.1.toNat⟩

/-! Cells granted after a wait (R203) -/

/-- What a requester that has been granted a cell goes on to do. -/
def Dev.cellFor (d : Dev) (die : Nat) (w : CellWait) : Dev :=
  match w with
  | .rewrite t => d.rewriteGranted t
  | .edit pd => d.walkOn pd [] [] 4097
  | .recall q bad => match (d.queue q).seg with | g :: _ => d.takePageBack q g bad | [] => d
  | .inject ch => d.injectGranted ch
  | .ulux => d.uluxGranted die
  | .restore t => match d.trunkHome t with | some carDie => d.pumpReleased carDie t (d.trunk t).released | none => d

/-- CELL_GRANTED_AFTER_WAIT: the requester's oldest wait ends where its ceiling and the free cells let it. -/
def Dev.cellGranted (d : Dev) (die r : Nat) : Dev :=
  let b := d.bpm die
  match b.waits.find? (·.1 = r) with
  | none => d
  | some w => if d.mayTake die r then (d.setBpm die { b with waits := b.waits.erase w }).cellFor die w.2 else d

end Sys2Proof.Machine
end

