-- ==== Sys2Proof/Machine/Rows.lean ====
section
/-! DEFINITION. What the meanings of commands are made of: an effect on the block, a host access, and the writes a command
that names no data stands for. -/

namespace Sys2Proof.Machine

/-! Effects -/

/-- The block changes; trust anchors and queue stay. -/
def run (f : Dev → Dev) (s : State) : Host.Outcome State Fault Refusal := .next { s with dev := f s.dev }

/-- The block and its trust anchors change; the queue stays. -/
def runHost (f : Reach → Reach) (s : State) : Host.Outcome State Fault Refusal :=
  .next { s with trust := (f ⟨s.trust, s.dev⟩).trust, dev := (f ⟨s.trust, s.dev⟩).dev }

/-! Host writes that a command names by its action -/

/-- A register as the host reads it. -/
def Reach.shown (x : Reach) (p o : Nat) : Word := if isTrust p o then x.trust.word o else x.dev.shown p o

/-- The bits of a register but for its WO and W1S fields. -/
def RegDesc.keepMask (r : RegDesc) : Nat := r.mask fun f => f.acc ≠ .wo && f.acc ≠ .w1s

/-- The bits of a register as they read, WO and W1S fields at 0. -/
def Reach.defined (x : Reach) (p o : Nat) : Nat :=
  match regAt p o with
  | some r => Nat.land (x.shown p o).toNat r.keepMask
  | none => 0

/-- The host writes a register's bits back as they read, with these bits of its actions at 1. -/
def Reach.act (x : Reach) (p o bits req : Nat) : Reach := x.hostWrite 0 (65536 * p + o) (BitVec.ofNat 32 (Nat.lor (x.defined p o) bits)) 15 req

/-- A write of ENG_DBG_CTL that selects thread `t` and carries these action bits (R140). -/
def Reach.debugWrite (x : Reach) (t bits req : Nat) : Reach :=
  let p := engPage (t / 128)
  let w := putBits (putBits (x.defined p 0x0300) 8 4 (t / 8 % 16)) 12 3 (t % 8)
  x.hostWrite 0 (65536 * p + 0x0300) (BitVec.ofNat 32 (Nat.lor w bits)) 15 req

/-- LKP_CMD_GO of a quadrant whose LKP_CMD_CTL holds this OP (R169); with another OP it is another command. -/
def Reach.lookupGo (x : Reach) (q op req : Nat) : Reach :=
  if x.dev.get (lkpPage q) F.LKP_CMD_CTL_OP = op then x.act (lkpPage q) 0x010C 1 req else x

/-- MOD_CMD_ADDR.GO of a master whose MOD_CMD_CTL holds this OP (R335); with another OP it is another command. -/
def Reach.moduleGo (x : Reach) (m op req : Nat) : Reach :=
  if x.dev.get 0x07 (F.MOD_CMD_CTL_OP.at (64 * m)) = op then x.act 0x07 (0x0404 + 64 * m) 256 req else x

/-- ULX_TXN GO with this OP (R380). -/
def Reach.transactGo (x : Reach) (die s op req : Nat) : Reach :=
  let o := 0x0400 + 16 * s
  x.hostWrite 0 (65536 * ulxPage die + o) (BitVec.ofNat 32 (putBits (x.defined (ulxPage die) o) 0 3 (1 + 2 * op))) 15 req

/-! Frames and events -/

/-- A received PFC frame (R82, R221): counted as MAC control and acted on, on an open port that is no trunk member; outside
FORWARD it is discarded and counted as any frame is (R61). -/
def Dev.pfcFrame (d : Dev) (port en : Nat) (times : List Nat) : Dev :=
  if !d.portOpen port || d.isMember port then d
  else if !d.admits port then d.pgCnt (port / 8) (port % 8) 0
  else (d.pgCnt (port / 8) (port % 8) 5).pfcReceive port en times

/-- A priority's pause time runs out (R221). -/
def Dev.pfcExpire (d : Dev) (port prio : Nat) : Dev := if d.pageOn (swcPage (port / 64)) then d.setPaused port prio false else d

/-- A frame of a trunk member that carries a message of this type (R266, R270, R279). -/
def Dev.messageFrame (d : Dev) (port ty : Nat) (frame : List Byte) : Dev :=
  if d.isMember port && bit (shimFlg frame) 3 && beAt (memberBody frame) 0 1 == ty then d.frameReceive port frame else d

/-- A transmit-context CMD (R287), where the ELI page answers. -/
def Dev.ctxCommand (d : Dev) (die : Nat) (f : Dev → Dev) : Dev := if d.pageOn (eliPage die) then f d else d

/-- PPS_END (R327). -/
def Dev.ppsEnd (d : Dev) : Dev := d.setTime { d.time with pps := false }

/-! Time that passes with no command waiting -/

/-- PFC frames that a port in loopback has sent are received on it (R94, log entry 149). -/
def Dev.takeLooped (d : Dev) : Dev :=
  d.swc.looped.foldl (fun d x => d.pfcFrame x.1 (2 ^ x.2.1) (List.replicate 8 x.2.2)) { d with swc := { d.swc with looped := [] } }

/-- One TCLK cycle of 1 ns: the counter advances (R312), and with it the tick-driven counts of the clock and scrub registers
(R57, R392), the loops of ports in loopback (R94), the command slots of the HBM stacks (R295) and the scan periods of the module masters (R337). Nothing else moves the
clock. -/
def Dev.tick (d : Dev) : Dev :=
  let now := d.power.clock + 1
  let d := ((d.setPower { d.power with clock := now }).advance.holdoverTick).scrubPass
  let d := ((List.range 4).foldl (fun d h => d.hbmSlots h) d.takeLooped).scanPeriod
  d.setPower { d.power with clock := now }

end Sys2Proof.Machine
end

