-- ==== Sys2Proof/Machine/AluRows.lean ====
section
/-! DEFINITION. The meanings of the commands of the units of a microword (R121–R131). -/

namespace Sys2Proof.Machine

/-- MOV (R123). -/
def execMov (th : Fin 8192) (side : Bool) (dst : BitVec 6) (srcA : BitVec 6) (srcB : BitVec 6) (shm : BitVec 16) (imm : Word) (s : State) : Host.Outcome State Fault Refusal :=
  run (fun d => d.aluRow th.val side 1 dst.toNat srcA.toNat srcB.toNat shm.toNat imm.toNat) s

/-- ADD (R123). -/
def execAdd (th : Fin 8192) (side : Bool) (dst : BitVec 6) (srcA : BitVec 6) (srcB : BitVec 6) (shm : BitVec 16) (imm : Word) (s : State) : Host.Outcome State Fault Refusal :=
  run (fun d => d.aluRow th.val side 2 dst.toNat srcA.toNat srcB.toNat shm.toNat imm.toNat) s

/-- SUB (R123). -/
def execSub (th : Fin 8192) (side : Bool) (dst : BitVec 6) (srcA : BitVec 6) (srcB : BitVec 6) (shm : BitVec 16) (imm : Word) (s : State) : Host.Outcome State Fault Refusal :=
  run (fun d => d.aluRow th.val side 3 dst.toNat srcA.toNat srcB.toNat shm.toNat imm.toNat) s

/-- AND (R123). -/
def execAnd (th : Fin 8192) (side : Bool) (dst : BitVec 6) (srcA : BitVec 6) (srcB : BitVec 6) (shm : BitVec 16) (imm : Word) (s : State) : Host.Outcome State Fault Refusal :=
  run (fun d => d.aluRow th.val side 4 dst.toNat srcA.toNat srcB.toNat shm.toNat imm.toNat) s

/-- OR (R123). -/
def execOr (th : Fin 8192) (side : Bool) (dst : BitVec 6) (srcA : BitVec 6) (srcB : BitVec 6) (shm : BitVec 16) (imm : Word) (s : State) : Host.Outcome State Fault Refusal :=
  run (fun d => d.aluRow th.val side 5 dst.toNat srcA.toNat srcB.toNat shm.toNat imm.toNat) s

/-- XOR (R123). -/
def execXor (th : Fin 8192) (side : Bool) (dst : BitVec 6) (srcA : BitVec 6) (srcB : BitVec 6) (shm : BitVec 16) (imm : Word) (s : State) : Host.Outcome State Fault Refusal :=
  run (fun d => d.aluRow th.val side 6 dst.toNat srcA.toNat srcB.toNat shm.toNat imm.toNat) s

/-- ANDN (R123). -/
def execAndn (th : Fin 8192) (side : Bool) (dst : BitVec 6) (srcA : BitVec 6) (srcB : BitVec 6) (shm : BitVec 16) (imm : Word) (s : State) : Host.Outcome State Fault Refusal :=
  run (fun d => d.aluRow th.val side 7 dst.toNat srcA.toNat srcB.toNat shm.toNat imm.toNat) s

/-- INS (R123). -/
def execIns (th : Fin 8192) (side : Bool) (dst : BitVec 6) (srcA : BitVec 6) (srcB : BitVec 6) (shm : BitVec 16) (imm : Word) (s : State) : Host.Outcome State Fault Refusal :=
  run (fun d => d.aluRow th.val side 8 dst.toNat srcA.toNat srcB.toNat shm.toNat imm.toNat) s

/-- EXT (R123). -/
def execExt (th : Fin 8192) (side : Bool) (dst : BitVec 6) (srcA : BitVec 6) (srcB : BitVec 6) (shm : BitVec 16) (imm : Word) (s : State) : Host.Outcome State Fault Refusal :=
  run (fun d => d.aluRow th.val side 9 dst.toNat srcA.toNat srcB.toNat shm.toNat imm.toNat) s

/-- CMP (R124). -/
def execCmp (th : Fin 8192) (side : Bool) (dst : BitVec 6) (srcA : BitVec 6) (srcB : BitVec 6) (shm : BitVec 16) (imm : Word) (s : State) : Host.Outcome State Fault Refusal :=
  run (fun d => d.aluRow th.val side 10 dst.toNat srcA.toNat srcB.toNat shm.toNat imm.toNat) s

/-- TST (R124). -/
def execTst (th : Fin 8192) (side : Bool) (dst : BitVec 6) (srcA : BitVec 6) (srcB : BitVec 6) (shm : BitVec 16) (imm : Word) (s : State) : Host.Outcome State Fault Refusal :=
  run (fun d => d.aluRow th.val side 11 dst.toNat srcA.toNat srcB.toNat shm.toNat imm.toNat) s

/-- MINU (R123). -/
def execMinu (th : Fin 8192) (side : Bool) (dst : BitVec 6) (srcA : BitVec 6) (srcB : BitVec 6) (shm : BitVec 16) (imm : Word) (s : State) : Host.Outcome State Fault Refusal :=
  run (fun d => d.aluRow th.val side 12 dst.toNat srcA.toNat srcB.toNat shm.toNat imm.toNat) s

/-- MAXU (R123). -/
def execMaxu (th : Fin 8192) (side : Bool) (dst : BitVec 6) (srcA : BitVec 6) (srcB : BitVec 6) (shm : BitVec 16) (imm : Word) (s : State) : Host.Outcome State Fault Refusal :=
  run (fun d => d.aluRow th.val side 13 dst.toNat srcA.toNat srcB.toNat shm.toNat imm.toNat) s

/-- CLZ (R123). -/
def execClz (th : Fin 8192) (side : Bool) (dst : BitVec 6) (srcA : BitVec 6) (srcB : BitVec 6) (shm : BitVec 16) (imm : Word) (s : State) : Host.Outcome State Fault Refusal :=
  run (fun d => d.aluRow th.val side 14 dst.toNat srcA.toNat srcB.toNat shm.toNat imm.toNat) s

/-- POPC (R123). -/
def execPopc (th : Fin 8192) (side : Bool) (dst : BitVec 6) (srcA : BitVec 6) (srcB : BitVec 6) (shm : BitVec 16) (imm : Word) (s : State) : Host.Outcome State Fault Refusal :=
  run (fun d => d.aluRow th.val side 15 dst.toNat srcA.toNat srcB.toNat shm.toNat imm.toNat) s

/-- ADD1C (R123). -/
def execAdd1c (th : Fin 8192) (side : Bool) (dst : BitVec 6) (srcA : BitVec 6) (srcB : BitVec 6) (shm : BitVec 16) (imm : Word) (s : State) : Host.Outcome State Fault Refusal :=
  run (fun d => d.aluRow th.val side 16 dst.toNat srcA.toNat srcB.toNat shm.toNat imm.toNat) s

/-- FOLD16 (R123). -/
def execFold16 (th : Fin 8192) (side : Bool) (dst : BitVec 6) (srcA : BitVec 6) (srcB : BitVec 6) (shm : BitVec 16) (imm : Word) (s : State) : Host.Outcome State Fault Refusal :=
  run (fun d => d.aluRow th.val side 17 dst.toNat srcA.toNat srcB.toNat shm.toNat imm.toNat) s

/-- SUBSAT (R123). -/
def execSubsat (th : Fin 8192) (side : Bool) (dst : BitVec 6) (srcA : BitVec 6) (srcB : BitVec 6) (shm : BitVec 16) (imm : Word) (s : State) : Host.Outcome State Fault Refusal :=
  run (fun d => d.aluRow th.val side 18 dst.toNat srcA.toNat srcB.toNat shm.toNat imm.toNat) s

/-- HEAD_TO_REGISTER (R125). -/
def execHeadToRegister (th : Fin 8192) (off : BitVec 8) (len : BitVec 4) (reg : BitVec 6) (flg : BitVec 4) (imm : Word) (s : State) : Host.Outcome State Fault Refusal :=
  run (fun d => d.hpRow th.val off.toNat len.toNat 0 reg.toNat flg.toNat imm.toNat) s

/-- REGISTER_TO_HEAD (R125). -/
def execRegisterToHead (th : Fin 8192) (off : BitVec 8) (len : BitVec 4) (reg : BitVec 6) (flg : BitVec 4) (imm : Word) (s : State) : Host.Outcome State Fault Refusal :=
  run (fun d => d.hpRow th.val off.toNat len.toNat 1 reg.toNat flg.toNat imm.toNat) s

/-- METADATA_TO_REGISTER (R125). -/
def execMetadataToRegister (th : Fin 8192) (off : BitVec 8) (len : BitVec 4) (reg : BitVec 6) (flg : BitVec 4) (imm : Word) (s : State) : Host.Outcome State Fault Refusal :=
  run (fun d => d.hpRow th.val off.toNat len.toNat 2 reg.toNat flg.toNat imm.toNat) s

/-- REGISTER_TO_METADATA (R125). -/
def execRegisterToMetadata (th : Fin 8192) (off : BitVec 8) (len : BitVec 4) (reg : BitVec 6) (flg : BitVec 4) (imm : Word) (s : State) : Host.Outcome State Fault Refusal :=
  run (fun d => d.hpRow th.val off.toNat len.toNat 3 reg.toNat flg.toNat imm.toNat) s

/-- PLAIN_LOOKUP (R126). -/
def execPlainLookup (th : Fin 8192) (table : BitVec 10) (ksel : BitVec 6) (rreg : BitVec 6) (te : Bool) (s : State) : Host.Outcome State Fault Refusal :=
  run (fun d => d.lkRow th.val table.toNat ksel.toNat rreg.toNat 0 te) s

/-- LOOKUP_WITH_LEARN (R173). -/
def execLookupWithLearn (th : Fin 8192) (table : BitVec 10) (ksel : BitVec 6) (rreg : BitVec 6) (te : Bool) (s : State) : Host.Outcome State Fault Refusal :=
  run (fun d => d.lkRow th.val table.toNat ksel.toNat rreg.toNat 1 te) s

/-- LOOKUP_NO_REFRESH (R177). -/
def execLookupNoRefresh (th : Fin 8192) (table : BitVec 10) (ksel : BitVec 6) (rreg : BitVec 6) (te : Bool) (s : State) : Host.Outcome State Fault Refusal :=
  run (fun d => d.lkRow th.val table.toNat ksel.toNat rreg.toNat 2 te) s

/-- COUNTER_BUMP (R128). -/
def execCounterBump (th : Fin 8192) (sel : BitVec 2) (imm : Word) (s : State) : Host.Outcome State Fault Refusal :=
  run (fun d => d.bumpRow th.val sel.toNat imm.toNat) s

/-- LOOKUP_RESULT (R131). -/
def execLookupResult (th : Fin 8192) (slot : Fin 8) (ecc : Ecc) (s : State) : Host.Outcome State Fault Refusal :=
  run (fun d => d.lookupResult th.val slot.val ecc) s

end Sys2Proof.Machine
end

