-- ==== Sys2Proof/Machine/BufferRows.lean ====
section
/-! DEFINITION. The meanings of the commands of admission, spill and cells (R194–R215). -/

namespace Sys2Proof.Machine

/-- ADMISSION (R215). -/
def execAdmission (die : Fin 2) (src : Fin 3) (ecc : Ecc) (s : State) : Host.Outcome State Fault Refusal :=
  run (fun d => d.admitNext die.val src.val ecc) s

/-- OPEN_PAGE_TIMEOUT (R209). -/
def execOpenPageTimeout (queue : Fin 131072) (s : State) : Host.Outcome State Fault Refusal :=
  run (fun d => d.openPageTimeout queue.val) s

/-- RECALL (R209). -/
def execRecall (queue : Fin 131072) (s : State) : Host.Outcome State Fault Refusal := run (fun d => d.recall queue.val) s

/-- RECALL_READ_DONE (R210), with the 32-bit words of the page that are not read clean. -/
def execRecallReadDone (queue : Fin 131072) (words : Reads 1024) (s : State) : Host.Outcome State Fault Refusal :=
  run (fun d => d.recallDone queue.val (badReads words) (correctedReads words)) s

/-- PAGE_RING_READY (R208). -/
def execPageRingReady (stack : Fin 4) (s : State) : Host.Outcome State Fault Refusal :=
  run (fun d => d.pageRingReady stack.val) s

/-- CELL_GRANTED_AFTER_WAIT (R203). -/
def execCellGrantedAfterWait (die : Fin 2) (requester : Fin 16) (s : State) : Host.Outcome State Fault Refusal :=
  run (fun d => d.cellGranted die.val requester.val) s

end Sys2Proof.Machine
end

