-- ==== Sys2Proof/Machine/CarillonRows.lean ====
section
/-! DEFINITION. The meanings of the commands of trunks and header elision (R260–R290). -/

namespace Sys2Proof.Machine

/-- MARKER_SEND (R270). -/
def execMarkerSend (trunk : Fin 16) (s : State) : Host.Outcome State Fault Refusal := run (fun d => d.markerSend trunk.val) s

/-- MARKER (R271). -/
def execMarker (port : Fin 128) (frame : List Byte) (s : State) : Host.Outcome State Fault Refusal :=
  run (fun d => d.messageFrame port.val 6 frame) s

/-- RESEQUENCER_CHECK (R272). -/
def execResequencerCheck (trunk : Fin 16) (s : State) : Host.Outcome State Fault Refusal :=
  run (fun d => d.reseqCheck trunk.val) s

/-- LEARN_END (R273). -/
def execLearnEnd (trunk : Fin 16) (s : State) : Host.Outcome State Fault Refusal := run (fun d => d.learnEnd trunk.val) s

/-- RESTORED_HEAD_INTAKE (R275). -/
def execRestoredHeadIntake (die : Fin 2) (s : State) : Host.Outcome State Fault Refusal :=
  run (fun d => d.restoredIntake die.val) s

/-- INSTALL (R281). -/
def execInstall (port : Fin 128) (frame : List Byte) (s : State) : Host.Outcome State Fault Refusal :=
  run (fun d => d.messageFrame port.val 1 frame) s

/-- ACK (R280). -/
def execAck (port : Fin 128) (frame : List Byte) (s : State) : Host.Outcome State Fault Refusal :=
  run (fun d => d.messageFrame port.val 2 frame) s

/-- NACK (R280). -/
def execNack (port : Fin 128) (frame : List Byte) (s : State) : Host.Outcome State Fault Refusal :=
  run (fun d => d.messageFrame port.val 3 frame) s

/-- WITHDRAW (R281). -/
def execWithdraw (port : Fin 128) (frame : List Byte) (s : State) : Host.Outcome State Fault Refusal :=
  run (fun d => d.messageFrame port.val 4 frame) s

/-- WDACK (R280). -/
def execWdack (port : Fin 128) (frame : List Byte) (s : State) : Host.Outcome State Fault Refusal :=
  run (fun d => d.messageFrame port.val 5 frame) s

/-- STALE (R280). -/
def execStale (port : Fin 128) (frame : List Byte) (s : State) : Host.Outcome State Fault Refusal :=
  run (fun d => d.messageFrame port.val 7 frame) s

/-- MESSAGE_RETRY (R280). -/
def execMessageRetry (trunk : Fin 16) (ctx : Fin 4096) (s : State) : Host.Outcome State Fault Refusal :=
  run (fun d => d.messageRetry trunk.val ctx.val) s

/-- CTX_INSTALL (R287). -/
def execCtxInstall (die : Fin 2) (trunk : Fin 16) (ctx : Fin 4096) (len : BitVec 8) (nxt : BitVec 2) (template : List Byte) (s : State) : Host.Outcome State Fault Refusal :=
  run (fun d => d.ctxCommand die.val fun d => (d.ctxInstall die.val trunk.val ctx.val len.toNat nxt.toNat template).2) s

/-- CTX_WITHDRAW (R287). -/
def execCtxWithdraw (die : Fin 2) (trunk : Fin 16) (ctx : Fin 4096) (s : State) : Host.Outcome State Fault Refusal :=
  run (fun d => d.ctxCommand die.val fun d => (d.ctxWithdraw die.val trunk.val ctx.val).2) s

/-- CTX_INSTALL_CANDIDATE (R287). -/
def execCtxInstallCandidate (die : Fin 2) (trunk : Fin 16) (ctx : Fin 4096) (cand : Fin 1024) (s : State) : Host.Outcome State Fault Refusal :=
  run (fun d => d.ctxCommand die.val fun d => (d.ctxInstallCand die.val trunk.val ctx.val cand.val).2) s

/-- MINER_INTERVAL (R283). -/
def execMinerInterval (die : Fin 2) (s : State) : Host.Outcome State Fault Refusal := run (fun d => d.minerInterval die.val) s

/-- ELI_PROP_POP (R289). -/
def execEliPropPop (die : Fin 2) (req : BitVec 16) (s : State) : Host.Outcome State Fault Refusal :=
  runHost (fun x => x.act (eliPage die.val) (0x0120) (1) req.toNat) s

end Sys2Proof.Machine
end

