-- ==== Sys2Proof/Machine/ChannelRows.lean ====
section
/-! DEFINITION. The meanings of the commands of DMA channels (R354–R364). -/

namespace Sys2Proof.Machine

/-- CHANNEL_START (R354). -/
def execChannelStart (ch : Fin 1024) (req : BitVec 16) (s : State) : Host.Outcome State Fault Refusal :=
  runHost (fun x => x.act (dmaPage) (0x4000 + 16 * ch.val) (1) req.toNat) s

/-- CHANNEL_STOP (R354). -/
def execChannelStop (ch : Fin 1024) (req : BitVec 16) (s : State) : Host.Outcome State Fault Refusal :=
  runHost (fun x => x.act (dmaPage) (0x4000 + 16 * ch.val) (2) req.toNat) s

/-- CHANNEL_START_DONE (R354). -/
def execChannelStartDone (ch : Fin 1024) (s : State) : Host.Outcome State Fault Refusal := run (fun d => d.chStartDone ch.val) s

/-- CHANNEL_STOP_DONE (R354). -/
def execChannelStopDone (ch : Fin 1024) (s : State) : Host.Outcome State Fault Refusal := run (fun d => d.chStopDone ch.val) s

/-- DMA_CTX_INVAL (R356). -/
def execDmaCtxInval (data : Word) (be : BitVec 4) (req : BitVec 16) (s : State) : Host.Outcome State Fault Refusal :=
  runHost (fun x => x.hostWrite 0 (65536 * (dmaPage) + 0x0108) data be req.toNat) s

/-- DB_TAIL (R357). -/
def execDbTail (ch : Fin 1024) (data : Word) (be : BitVec 4) (req : BitVec 16) (s : State) : Host.Outcome State Fault Refusal :=
  runHost (fun x => x.hostWrite 2 (512 * ch.val) data be req.toNat) s

/-- DB_ARM (R364). -/
def execDbArm (ch : Fin 1024) (data : Word) (be : BitVec 4) (req : BitVec 16) (s : State) : Host.Outcome State Fault Refusal :=
  runHost (fun x => x.hostWrite 2 (512 * ch.val + 4) data be req.toNat) s

/-- DESCRIPTOR_FETCH (R358). -/
def execDescriptorFetch (ch : Fin 1024) (s : State) : Host.Outcome State Fault Refusal := run (fun d => d.descFetch ch.val) s

/-- PUNT_DELIVERY (R360). -/
def execPuntDelivery (ch : Fin 1024) (s : State) : Host.Outcome State Fault Refusal := run (fun d => d.puntDelivery ch.val) s

/-- INJECT (R361). -/
def execInject (ch : Fin 1024) (s : State) : Host.Outcome State Fault Refusal := run (fun d => d.inject ch.val) s

/-- WRITE_LIST (R362). -/
def execWriteList (ch : Fin 1024) (s : State) : Host.Outcome State Fault Refusal := runHost (fun x => x.writeList ch.val) s

/-- COAL_TIMEOUT (R364). -/
def execCoalTimeout (ch : Fin 1024) (s : State) : Host.Outcome State Fault Refusal := run (fun d => d.coalTimeout ch.val) s

end Sys2Proof.Machine
end

