-- ==== Sys2Proof/Machine/EgressRows.lean ====
section
/-! DEFINITION. The meanings of the commands of scheduling and shaping (R229–R247). -/

namespace Sys2Proof.Machine

/-- SELECTION (R231). -/
def execSelection (pg : Fin 16 × Ecc) (s : State) : Host.Outcome State Fault Refusal := run (fun d => d.selection pg.1.val pg.2) s

/-- SHAPER_WAKE (R237). -/
def execShaperWake (die : Fin 2) (s : State) : Host.Outcome State Fault Refusal := run (fun d => d.shaperWake die.val) s

/-- COARSE_SLOT (R237). -/
def execCoarseSlot (die : Fin 2) (s : State) : Host.Outcome State Fault Refusal := run (fun d => d.coarseSlot die.val) s

/-- GATE_BOUNDARY (R240). -/
def execGateBoundary (port : Fin 128) (s : State) : Host.Outcome State Fault Refusal := run (fun d => d.gateBoundary port.val) s

/-- RS_ARM (R243). -/
def execRsArm (port : Fin 128) (req : BitVec 16) (s : State) : Host.Outcome State Fault Refusal :=
  runHost (fun x => x.act (tmPage (port.val / 64)) (0x100C + 16 * (port.val % 64)) (1) req.toNat) s

/-- RS_CANCEL (R243). -/
def execRsCancel (port : Fin 128) (req : BitVec 16) (s : State) : Host.Outcome State Fault Refusal :=
  runHost (fun x => x.act (tmPage (port.val / 64)) (0x100C + 16 * (port.val % 64)) (2) req.toNat) s

/-- RS_APPLY (R244): the entry is left APPLIED. -/
def execRsApply (port : Fin 128) (s : State) : Host.Outcome State Fault Refusal := run (fun d => d.rsApply port.val 2) s

end Sys2Proof.Machine
end

