-- ==== Sys2Proof/Machine/ErrorRows.lean ====
section
/-! DEFINITION. The meanings of the commands of the event log and the patrol scrub (R387–R394). -/

namespace Sys2Proof.Machine

/-- ERR_LOG_POP (R390). -/
def execErrLogPop (req : BitVec 16) (s : State) : Host.Outcome State Fault Refusal :=
  runHost (fun x => x.act (0x04) (0x0110) (1) req.toNat) s

/-- LOG_RECORD_LATCH (R390). -/
def execLogRecordLatch (req : BitVec 16) (s : State) : Host.Outcome State Fault Refusal :=
  runHost (fun x => x.hostRead 0 (65536 * 0x04 + 0x0120) req.toNat .clean) s

/-- SCRUB_VISIT (R392). -/
def execScrubVisit (m : Fin 8) (d : Fin 2) (addr : Nat) (ecc : Ecc) (s : State) : Host.Outcome State Fault Refusal :=
  run (fun b => b.scrubVisit m.val d.val addr ecc) s

end Sys2Proof.Machine
end

