-- ==== Sys2Proof/Machine/FabricRows.lean ====
section
/-! DEFINITION. The meanings of the commands of dispatch, stealing and ordering (R96–R110). -/

namespace Sys2Proof.Machine

/-- HEAD_DISPATCH (R98). -/
def execHeadDispatch (pg : Fin 16) (ecc : Ecc) (s : State) : Host.Outcome State Fault Refusal :=
  run (fun d => d.headDispatch pg.val ecc) s

/-- HEAD_TO_THREAD (R98). -/
def execHeadToThread (c : Fin 64) (s : State) : Host.Outcome State Fault Refusal := run (fun d => d.headToThread c.val) s

/-- THREAD_LOAD_DONE (R99). -/
def execThreadLoadDone (th : Fin 8192) (s : State) : Host.Outcome State Fault Refusal :=
  run (fun d => d.threadLoadDone th.val) s

/-- NEAR_STEAL (R102). -/
def execNearSteal (c : Fin 64) (s : State) : Host.Outcome State Fault Refusal := run (fun d => d.nearSteal c.val) s

/-- FAR_STEAL (R103). -/
def execFarSteal (c : Fin 64) (s : State) : Host.Outcome State Fault Refusal := run (fun d => d.farSteal c.val) s

/-- FAR_ALLOWANCE_RESET (R103). -/
def execFarAllowanceReset (die : Fin 2) (s : State) : Host.Outcome State Fault Refusal := run (fun d => d.farReset die.val) s

/-- COMPLETION_REPORT (R106). -/
def execCompletionReport (die : Fin 2) (slot : Fin 32768) (s : State) : Host.Outcome State Fault Refusal :=
  run (fun d => d.completionReport die.val slot.val) s

/-- TICKET_RETIRE (R106). -/
def execTicketRetire (die : Fin 2) (s : State) : Host.Outcome State Fault Refusal := run (fun d => d.ticketRetire die.val) s

/-- TICKET_AGED (R109). -/
def execTicketAged (die : Fin 2) (slot : Fin 32768) (s : State) : Host.Outcome State Fault Refusal :=
  run (fun d => d.ticketAged die.val slot.val) s

/-- SLOT_UE (R109). -/
def execSlotUe (die : Fin 2) (slot : Fin 32768) (s : State) : Host.Outcome State Fault Refusal :=
  run (fun d => d.slotUe die.val slot.val) s

/-- RECIRC_ENQUEUE (R110). -/
def execRecircEnqueue (th : Fin 8192) (s : State) : Host.Outcome State Fault Refusal := run (fun d => d.recircEnqueue th.val) s

end Sys2Proof.Machine
end

