-- ==== Sys2Proof/Machine/HbmRows.lean ====
section
/-! DEFINITION. The meanings of the commands of the HBM controllers (R291–R311). -/

namespace Sys2Proof.Machine

/-- TRAINING_DONE (R299). -/
def execTrainingDone (h : Fin 4) (fault : Option (Fin 3)) (failed : List (Fin 32)) (s : State) : Host.Outcome State Fault Refusal :=
  run (fun d => d.trainingDone h.val fault failed) s

/-- READ_RETRAIN (R299): read timing alone is retrained, and requests wait meanwhile: timing, which the model leaves out. -/
def execReadRetrain (_h : Fin 4) (s : State) : Host.Outcome State Fault Refusal := .next s

/-- REFRESH (R297). -/
def execRefresh (h : Fin 4) (rank : Fin 32) (bank : Fin 32) (how : Fin 3) (s : State) : Host.Outcome State Fault Refusal :=
  run (fun d => d.refresh h.val rank.val bank.val how.val) s

/-- HBM_TEMP_READ (R298). -/
def execHbmTempRead (h : Fin 4) (temp : Fin 256) (s : State) : Host.Outcome State Fault Refusal :=
  run (fun d => d.hbmTempRead h.val temp.val) s

/-- HBM_STOP_LIMIT (R302). -/
def execHbmStopLimit (h : Fin 4) (s : State) : Host.Outcome State Fault Refusal := run (fun d => d.hbmStopLimit h.val) s

/-- PATROL_SCRUB (R303). -/
def execPatrolScrub (h : Fin 4) (addr : Nat) (ecc : Ecc) (s : State) : Host.Outcome State Fault Refusal :=
  run (fun d => d.patrolScrub h.val addr ecc) s

/-- PAGE_COPY_DONE (R308), with the 32-bit words of the rank page that are not read clean. -/
def execPageCopyDone (h : Fin 4) (words : Reads 1024) (s : State) : Host.Outcome State Fault Refusal :=
  run (fun d => d.pageCopyDone h.val (badReads words) (correctedReads words)) s

/-- CE_WINDOW_END (R307). -/
def execCeWindowEnd (h : Fin 4) (s : State) : Host.Outcome State Fault Refusal := run (fun d => d.ceWindowEnd h.val) s

/-- COUNTER_UPDATE (R305). -/
def execCounterUpdate (h : Fin 4) (ecc : Ecc) (s : State) : Host.Outcome State Fault Refusal :=
  run (fun d => d.counterUpdate h.val ecc) s

/-- COUNTER_READ (R306). -/
def execCounterRead (h : Fin 4) (req : BitVec 16) (s : State) : Host.Outcome State Fault Refusal :=
  runHost (fun x => x.act (hbmPage h.val) (0x012C) (1) req.toNat) s

/-- COUNTER_READ_CLEAR (R306). -/
def execCounterReadClear (h : Fin 4) (req : BitVec 16) (s : State) : Host.Outcome State Fault Refusal :=
  runHost (fun x => x.act (hbmPage h.val) (0x012C) (3) req.toNat) s

/-- COUNTER_READ_DONE (R306). -/
def execCounterReadDone (h : Fin 4) (ecc : Ecc) (s : State) : Host.Outcome State Fault Refusal :=
  run (fun d => d.counterReadDone h.val ecc) s

/-- OPEN_ROW_IDLE (R296). -/
def execOpenRowIdle (h : Fin 4) (rank : Fin 32) (bank : Fin 32) (s : State) : Host.Outcome State Fault Refusal :=
  run (fun d => d.closeRow h.val rank.val bank.val) s

end Sys2Proof.Machine
end

