-- ==== Sys2Proof/Machine/HostRows.lean ====
section
/-! DEFINITION. The meanings of the commands of host accesses, function control and entry windows (R6, R7, R19–R36, R65–R70). -/

namespace Sys2Proof.Machine

/-- REG_WRITE (R7): `bar` 0, 1, 2 names BAR0, BAR2, BAR4; the address is taken down to a multiple of 4. -/
def execRegWrite (bar : Fin 3) (addr : Nat) (data : Word) (be : BitVec 4) (req : BitVec 16) (s : State) : Host.Outcome State Fault Refusal :=
  runHost (fun x => x.hostWrite bar.val addr data be req.toNat) s

/-- PAIR_LOW_READ (R6). -/
def execPairLowRead (page : Fin 256) (dw : Fin 16384) (req : BitVec 16) (s : State) : Host.Outcome State Fault Refusal :=
  runHost (fun x => x.hostRead 0 (65536 * page.val + 4 * dw.val) req.toNat .clean) s

/-- PAIR_HIGH_READ (R6). -/
def execPairHighRead (page : Fin 256) (dw : Fin 16384) (req : BitVec 16) (s : State) : Host.Outcome State Fault Refusal :=
  runHost (fun x => x.hostRead 0 (65536 * page.val + 4 * dw.val) req.toNat .clean) s

/-- PAIR_LOW_WRITE (R6). -/
def execPairLowWrite (page : Fin 256) (dw : Fin 16384) (data : Word) (be : BitVec 4) (req : BitVec 16) (s : State) : Host.Outcome State Fault Refusal :=
  runHost (fun x => x.hostWrite 0 (65536 * page.val + 4 * dw.val) data be req.toNat) s

/-- PAIR_HIGH_WRITE (R6). -/
def execPairHighWrite (page : Fin 256) (dw : Fin 16384) (data : Word) (be : BitVec 4) (req : BitVec 16) (s : State) : Host.Outcome State Fault Refusal :=
  runHost (fun x => x.hostWrite 0 (65536 * page.val + 4 * dw.val) data be req.toNat) s

/-- RC_READ (R7): any host read that has no row of its own. -/
def execRcRead (bar : Fin 3) (addr : Nat) (req : BitVec 16) (s : State) : Host.Outcome State Fault Refusal :=
  runHost (fun x => x.hostRead bar.val addr req.toNat .clean) s

/-- INT_SET (R21). -/
def execIntSet (page : Fin 256) (data : Word) (req : BitVec 16) (s : State) : Host.Outcome State Fault Refusal :=
  runHost (fun x => x.hostWrite 0 (65536 * page.val + 0x18) data 15 req.toNat) s

/-- CAPTURE_REARM (R22): the write of ERR_CAP0 with VALID at 1 and the other bits as the operand has them. -/
def execCaptureRearm (page : Fin 256) (data : Word) (req : BitVec 16) (s : State) : Host.Outcome State Fault Refusal :=
  runHost (fun x => x.hostWrite 0 (65536 * page.val + 0x20) (data ||| 0x80000000) 15 req.toNat) s

/-- SHADOW_DISCARD (R70). -/
def execShadowDiscard (page : Fin 256) (req : BitVec 16) (s : State) : Host.Outcome State Fault Refusal :=
  runHost (fun x => x.act (page.val) (0x40) (2) req.toNat) s

/-- FN_START (R65). -/
def execFnStart (page : Fin 256) (req : BitVec 16) (s : State) : Host.Outcome State Fault Refusal :=
  runHost (fun x => x.act (page.val) (0x08) (1) req.toNat) s

/-- FN_STOP (R65). -/
def execFnStop (page : Fin 256) (req : BitVec 16) (s : State) : Host.Outcome State Fault Refusal :=
  runHost (fun x => x.act (page.val) (0x08) (2) req.toNat) s

/-- FN_START_DONE (R67). -/
def execFnStartDone (page : Fin 256) (s : State) : Host.Outcome State Fault Refusal := run (fun d => d.fnStartDone page.val) s

/-- FN_STOP_DONE (R68). -/
def execFnStopDone (page : Fin 256) (s : State) : Host.Outcome State Fault Refusal := run (fun d => d.fnStopDone page.val) s

/-- MSIX_UNMASK (R36). -/
def execMsixUnmask (vector : Fin 2048) (s : State) : Host.Outcome State Fault Refusal :=
  runHost (fun x => x.hostWrite 2 (0x80000 + 16 * vector.val + 12) 0 15 0) s

/-- CS_WORD_WRITE (R29). -/
def execCsWordWrite (c : Fin 64) (a : Fin 16384) (k : Fin 5) (data : Word) (be : BitVec 4) (req : BitVec 16) (s : State) : Host.Outcome State Fault Refusal :=
  runHost (fun x => x.hostWrite 1 (0x80000 * c.val + 32 * a.val + 4 * k.val) data be req.toNat) s

/-- CS_COMMIT (R29). -/
def execCsCommit (c : Fin 64) (a : Fin 16384) (data : Word) (be : BitVec 4) (req : BitVec 16) (s : State) : Host.Outcome State Fault Refusal :=
  runHost (fun x => x.hostWrite 1 (0x80000 * c.val + 32 * a.val + 20) data be req.toNat) s

/-- CS_WORD0_READ (R29). -/
def execCsWord0Read (c : Fin 64) (a : Fin 16384) (req : BitVec 16) (s : State) : Host.Outcome State Fault Refusal :=
  runHost (fun x => x.hostRead 1 (0x80000 * c.val + 32 * a.val) req.toNat .clean) s

/-- APERTURE_READ (R31). -/
def execApertureRead (n : Fin 16) (dw : Fin 4194304) (ecc : Ecc) (req : BitVec 16) (s : State) : Host.Outcome State Fault Refusal :=
  runHost (fun x => x.hostRead 1 (0x2000000 + 0x1000000 * n.val + 4 * dw.val) req.toNat ecc) s

/-- APERTURE_WRITE (R31). -/
def execApertureWrite (n : Fin 16) (dw : Fin 4194304) (data : Word) (be : BitVec 4) (req : BitVec 16) (s : State) : Host.Outcome State Fault Refusal :=
  runHost (fun x => x.hostWrite 1 (0x2000000 + 0x1000000 * n.val + 4 * dw.val) data be req.toNat) s

/-- EW_READ (R33). -/
def execEwRead (w : Fin 256) (req : BitVec 16) (s : State) : Host.Outcome State Fault Refusal :=
  runHost (fun x => x.hostWrite 1 (0x12000000 + 4096 * w.val + 8) 1 15 req.toNat) s

/-- EW_WRITE (R33). -/
def execEwWrite (w : Fin 256) (req : BitVec 16) (s : State) : Host.Outcome State Fault Refusal :=
  runHost (fun x => x.hostWrite 1 (0x12000000 + 4096 * w.val + 8) 2 15 req.toNat) s

/-- EW_DONE (R33). -/
def execEwDone (w : Fin 256) (ecc : Ecc) (s : State) : Host.Outcome State Fault Refusal := run (fun d => d.ewDone w.val ecc) s

/-- EW_TIMEOUT (R33). -/
def execEwTimeout (w : Fin 256) (s : State) : Host.Outcome State Fault Refusal := run (fun d => d.ewTimeout w.val) s

/-- EW_LATE (R33). -/
def execEwLate (w : Fin 256) (s : State) : Host.Outcome State Fault Refusal := run (fun d => d.ewLate w.val) s

/-- IMAGE_POLICY_LOCK (R149). -/
def execImagePolicyLock (req : BitVec 16) (s : State) : Host.Outcome State Fault Refusal :=
  runHost (fun x => x.act (0x01) (0x0200) (2) req.toNat) s

end Sys2Proof.Machine
end

