-- ==== Sys2Proof/Machine/LinkRows.lean ====
section
/-! DEFINITION. The meanings of the commands of the PCIe link and its requests (R344–R353). -/

namespace Sys2Proof.Machine

/-- PERST_RELEASE (R346). -/
def execPerstRelease (s : State) : Host.Outcome State Fault Refusal := run (fun d => d.perstRelease) s

/-- CTO_VALUE_WRITE (R348). -/
def execCtoValueWrite (code : BitVec 4) (s : State) : Host.Outcome State Fault Refusal := run (fun d => d.ctoWrite code.toNat) s

/-- COMPLETION_TIMEOUT (R348). -/
def execCompletionTimeout (tag : Fin 1024) (s : State) : Host.Outcome State Fault Refusal :=
  run (fun d => d.completionTimeout tag.val) s

/-- COMPLETION (R349). -/
def execCompletion (tag : Fin 1024) (ok : Bool) (data : List Byte) (s : State) : Host.Outcome State Fault Refusal :=
  run (fun d => d.completion tag.val ok data) s

/-- QUARANTINE_END (R349). -/
def execQuarantineEnd (tag : Fin 1024) (s : State) : Host.Outcome State Fault Refusal :=
  run (fun d => d.quarantineEnd tag.val) s

/-- PCIE_DOWN (R350). -/
def execPcieDown (s : State) : Host.Outcome State Fault Refusal := run (fun d => d.pcieDown) s

/-- L0P_CHANGE (R352). -/
def execL0pChange (up : Bool) (s : State) : Host.Outcome State Fault Refusal := run (fun d => d.l0pChange up) s

/-- L1_ENTRY (R352). -/
def execL1Entry (s : State) : Host.Outcome State Fault Refusal := run (fun d => d.l1Entry) s

/-- POWER_STATE_CHANGE (R352). -/
def execPowerStateChange (d3 : Bool) (s : State) : Host.Outcome State Fault Refusal := run (fun d => d.powerState d3) s

/-- FUNCTION_LEVEL_RESET (R353). -/
def execFunctionLevelReset (s : State) : Host.Outcome State Fault Refusal := run (fun d => d.flr) s

/-- HOT_RESET (R353). -/
def execHotReset (perst : Bool) (s : State) : Host.Outcome State Fault Refusal := run (fun d => d.hotReset perst) s

/-- PCIE_LINK_UP (R346). -/
def execPcieLinkUp (speed : Fin 16) (width : Fin 16) (flit : Bool) (s : State) : Host.Outcome State Fault Refusal :=
  run (fun d => d.linkUpPcie speed.val width.val flit) s

end Sys2Proof.Machine
end

