-- ==== Sys2Proof/Machine/LookupRows.lean ====
section
/-! DEFINITION. The meanings of the commands of lookup tables, learning and ageing (R159–R192). -/

namespace Sys2Proof.Machine

/-- DESCRIPTOR_COMMIT (R162). -/
def execDescriptorCommit (q : Fin 4) (t : Fin 1024) (data : Word) (be : BitVec 4) (req : BitVec 16) (s : State) : Host.Outcome State Fault Refusal :=
  runHost (fun x => x.hostWrite 0 (65536 * (lkpPage q.val) + 0x8000 + 32 * t.val + 28) data be req.toNat) s

/-- INSERT (R170): the write of LKP_CMD_GO while LKP_CMD_CTL holds this OP. -/
def execInsert (q : Fin 4) (req : BitVec 16) (s : State) : Host.Outcome State Fault Refusal :=
  runHost (fun x => x.lookupGo q.val 1 req.toNat) s

/-- UPDATE (R169): the write of LKP_CMD_GO while LKP_CMD_CTL holds this OP. -/
def execUpdate (q : Fin 4) (req : BitVec 16) (s : State) : Host.Outcome State Fault Refusal :=
  runHost (fun x => x.lookupGo q.val 2 req.toNat) s

/-- DELETE (R169): the write of LKP_CMD_GO while LKP_CMD_CTL holds this OP. -/
def execDelete (q : Fin 4) (req : BitVec 16) (s : State) : Host.Outcome State Fault Refusal :=
  runHost (fun x => x.lookupGo q.val 3 req.toNat) s

/-- FIND (R169): the write of LKP_CMD_GO while LKP_CMD_CTL holds this OP. -/
def execFind (q : Fin 4) (req : BitVec 16) (s : State) : Host.Outcome State Fault Refusal :=
  runHost (fun x => x.lookupGo q.val 4 req.toNat) s

/-- LKP_COMMAND_DONE (R169). -/
def execLkpCommandDone (q : Fin 4) (ecc : Ecc) (s : State) : Host.Outcome State Fault Refusal :=
  run (fun d => d.lkpCommandDone q.val ecc) s

/-- LEARN_NEW (R175). -/
def execLearnNew (q : Fin 4 × Ecc) (s : State) : Host.Outcome State Fault Refusal := run (fun d => d.engineLearn q.1.val false q.2) s

/-- LEARN_MOVE (R175). -/
def execLearnMove (q : Fin 4 × Ecc) (s : State) : Host.Outcome State Fault Refusal := run (fun d => d.engineLearn q.1.val true q.2) s

/-- AGEING_VISIT (R176). -/
def execAgeingVisit (q : Fin 4) (table : Fin 1024) (pos : Nat) (s : State) : Host.Outcome State Fault Refusal :=
  run (fun d => d.ageingVisit q.val table.val pos) s

/-- LRN_EVT_POP (R179). -/
def execLrnEvtPop (q : Fin 4) (req : BitVec 16) (s : State) : Host.Outcome State Fault Refusal :=
  runHost (fun x => x.act (lrnPage q.val) (0x0130) (1) req.toNat) s

end Sys2Proof.Machine
end

