-- ==== Sys2Proof/Machine/ModeRows.lean ====
section
/-! DEFINITION. The meanings of the commands of operating modes (R60, R73–R77). -/

namespace Sys2Proof.Machine

/-- MODE_REQUEST (R73). -/
def execModeRequest (data : Word) (be : BitVec 4) (req : BitVec 16) (s : State) : Host.Outcome State Fault Refusal :=
  runHost (fun x => x.hostWrite 0 (65536 * (0x01) + 0x0100) data be req.toNat) s

/-- MODE_TRANSITION_DONE (R73). -/
def execModeTransitionDone (s : State) : Host.Outcome State Fault Refusal := run (fun d => d.modeTransitionDone) s

/-- DRAIN_EMPTY (R74). -/
def execDrainEmpty (s : State) : Host.Outcome State Fault Refusal := run (fun d => d.drainEmpty) s

/-- DRAIN_TIMEOUT (R75). -/
def execDrainTimeout (s : State) : Host.Outcome State Fault Refusal := run (fun d => d.drainTimeout) s

end Sys2Proof.Machine
end

