-- ==== Sys2Proof/Machine/ModuleRows.lean ====
section
/-! DEFINITION. The meanings of the commands of optical modules (R331–R343). -/

namespace Sys2Proof.Machine

/-- MODULE_INSERT (R336). -/
def execModuleInsert (p : Fin 128) (s : State) : Host.Outcome State Fault Refusal := run (fun d => d.moduleInsert p.val) s

/-- MODULE_REMOVE (R336). -/
def execModuleRemove (p : Fin 128) (s : State) : Host.Outcome State Fault Refusal := run (fun d => d.moduleRemove p.val) s

/-- RST_REQ (R336). -/
def execRstReq (p : Fin 128) (req : BitVec 16) (s : State) : Host.Outcome State Fault Refusal :=
  runHost (fun x => x.act (0x07) (0x1000 + 4 * p.val) (2) req.toNat) s

/-- RESET_RELEASE (R336). -/
def execResetRelease (p : Fin 128) (s : State) : Host.Outcome State Fault Refusal := run (fun d => d.resetRelease p.val) s

/-- INIT_POLL (R336). -/
def execInitPoll (p : Fin 128) (mstate : BitVec 3) (ident : List Byte) (s : State) : Host.Outcome State Fault Refusal :=
  run (fun d => d.initPoll p.val mstate.toNat ident) s

/-- INIT_TIMEOUT (R336). -/
def execInitTimeout (p : Fin 128) (s : State) : Host.Outcome State Fault Refusal := run (fun d => d.initTimeout p.val) s

/-- SCAN_VISIT (R337). -/
def execScanVisit (p : Fin 128) (lower : List Byte) (lanes : List Byte) (disable : Byte) (watch : Word) (intLow : Bool) (s : State) : Host.Outcome State Fault Refusal :=
  run (fun d => d.scanVisit p.val lower lanes disable watch intLow) s

/-- MOD_CMD_READ (R335): the write of GO while MOD_CMD_CTL holds OP READ. -/
def execModCmdRead (m : Fin 16) (req : BitVec 16) (s : State) : Host.Outcome State Fault Refusal :=
  runHost (fun x => x.moduleGo m.val 1 req.toNat) s

/-- MOD_CMD_WRITE (R335): the write of GO while MOD_CMD_CTL holds OP WRITE. -/
def execModCmdWrite (m : Fin 16) (req : BitVec 16) (s : State) : Host.Outcome State Fault Refusal :=
  runHost (fun x => x.moduleGo m.val 2 req.toNat) s

/-- MOD_CMD_DONE (R335). -/
def execModCmdDone (m : Fin 16) (nack : Bool) (bytes : List Byte) (s : State) : Host.Outcome State Fault Refusal :=
  run (fun d => d.modCmdDone m.val nack bytes) s

/-- MOD_CMD_TIMEOUT (R334). -/
def execModCmdTimeout (m : Fin 16) (s : State) : Host.Outcome State Fault Refusal := run (fun d => d.modCmdTimeout m.val) s

/-- TW_ARM (R342). -/
def execTwArm (k : Fin 16) (req : BitVec 16) (s : State) : Host.Outcome State Fault Refusal :=
  runHost (fun x => x.act (0x07) (0x0C04 + 32 * k.val) (16) req.toNat) s

/-- TW_CANCEL (R342). -/
def execTwCancel (k : Fin 16) (req : BitVec 16) (s : State) : Host.Outcome State Fault Refusal :=
  runHost (fun x => x.act (0x07) (0x0C04 + 32 * k.val) (32) req.toNat) s

/-- TW_RESERVE (R342). -/
def execTwReserve (k : Fin 16) (s : State) : Host.Outcome State Fault Refusal := run (fun d => d.twReserve k.val) s

/-- TW_ACK (R342). -/
def execTwAck (k : Fin 16) (ack : Bool) (s : State) : Host.Outcome State Fault Refusal := run (fun d => d.twAck k.val ack) s

/-- MOD_EVT_POP (R339). -/
def execModEvtPop (req : BitVec 16) (s : State) : Host.Outcome State Fault Refusal :=
  runHost (fun x => x.act (0x07) (0x0140) (1) req.toNat) s

/-- MOD_ADV_POP (R340). -/
def execModAdvPop (req : BitVec 16) (s : State) : Host.Outcome State Fault Refusal :=
  runHost (fun x => x.act (0x07) (0x0178) (1) req.toNat) s

/-- LEDGER_READ (R338). -/
def execLedgerRead (req : BitVec 16) (s : State) : Host.Outcome State Fault Refusal :=
  runHost (fun x => x.act (0x07) (0x0194) (1) req.toNat) s

/-- LEDGER_WRITE (R338). -/
def execLedgerWrite (req : BitVec 16) (s : State) : Host.Outcome State Fault Refusal :=
  runHost (fun x => x.act (0x07) (0x0194) (2) req.toNat) s

/-- BUS_ATTEMPT_RETRY (R334). -/
def execBusAttemptRetry (m : Fin 16) (s : State) : Host.Outcome State Fault Refusal := run (fun d => d.busRetry m.val) s

/-- TIMED_WRITE_T_PASSED (R342). -/
def execTimedWriteTPassed (k : Fin 16) (s : State) : Host.Outcome State Fault Refusal := run (fun d => d.twPassed k.val) s

end Sys2Proof.Machine
end

