-- ==== Sys2Proof/Machine/PealRows.lean ====
section
/-! DEFINITION. The meanings of the commands of multicast replication (R248–R259). -/

namespace Sys2Proof.Machine

/-- REPLICATION_WALK (R253). -/
def execReplicationWalk (die : Fin 2) (entries : Reads 8193) (s : State) : Host.Outcome State Fault Refusal :=
  run (fun d => d.replicationWalk die.val ((badReads entries).map Fin.val) ((correctedReads entries).map Fin.val)) s

/-- EDIT_CELL_GRANTED (R252). -/
def execEditCellGranted (die : Fin 2) (s : State) : Host.Outcome State Fault Refusal := run (fun d => d.editGranted die.val) s

/-- FENCE (R257). -/
def execFence (die : Fin 2) (req : BitVec 16) (s : State) : Host.Outcome State Fault Refusal :=
  runHost (fun x => x.act (pealPage die.val) (0x0104) (1) req.toNat) s

/-- FENCE_DONE (R257). -/
def execFenceDone (die : Fin 2) (s : State) : Host.Outcome State Fault Refusal := run (fun d => d.fenceDone die.val) s

/-- PEAL_MEM_READ (R259). -/
def execPealMemRead (die : Fin 2) (req : BitVec 16) (s : State) : Host.Outcome State Fault Refusal :=
  runHost (fun x => x.act (pealPage die.val) (0x0148) (1) req.toNat) s

/-- PEAL_MEM_WRITE (R257). -/
def execPealMemWrite (die : Fin 2) (req : BitVec 16) (s : State) : Host.Outcome State Fault Refusal :=
  runHost (fun x => x.act (pealPage die.val) (0x0148) (2) req.toNat) s

end Sys2Proof.Machine
end

