-- ==== Sys2Proof/Machine/PortRows.lean ====
section
/-! DEFINITION. The meanings of the commands of ports and the parser (R61, R80–R94, R226). -/

namespace Sys2Proof.Machine

/-- FRAME_RECEIVE (R82). -/
def execFrameReceive (port : Fin 128) (frame : List Byte) (s : State) : Host.Outcome State Fault Refusal :=
  run (fun d => d.frameReceive port.val frame) s

/-- FRAME_END (R14). -/
def execFrameEnd (port : Fin 128) (ecc : Ecc) (s : State) : Host.Outcome State Fault Refusal :=
  run (fun d => d.frameFinish port.val ecc) s

/-- FEC_UNCORRECTABLE (R81). -/
def execFecUncorrectable (port : Fin 128) (s : State) : Host.Outcome State Fault Refusal :=
  run (fun d => d.fecUncorrectable port.val) s

/-- PORT_LINK_UP (R226). -/
def execPortLinkUp (port : Fin 128) (s : State) : Host.Outcome State Fault Refusal := run (fun d => d.linkUp port.val) s

/-- PORT_LINK_DOWN (R226). -/
def execPortLinkDown (port : Fin 128) (s : State) : Host.Outcome State Fault Refusal := run (fun d => d.linkDown port.val) s

/-- PARSE_DONE (R93). -/
def execParseDone (pg : Fin 16) (s : State) : Host.Outcome State Fault Refusal := run (fun d => d.parseDone pg.val) s

end Sys2Proof.Machine
end

