-- ==== Sys2Proof/Machine/PowerRows.lean ====
section
/-! DEFINITION. The meanings of the commands of inputs, domains, telemetry and clocks (R37–R57, R410–R412). -/

namespace Sys2Proof.Machine

/-- STANDBY_IN_RANGE (R38). -/
def execStandbyInRange (s : State) : Host.Outcome State Fault Refusal := run (fun d => d.standbyInRange) s

/-- ISLAND_START (R38). -/
def execIslandStart (id : Fin 4) (s : State) : Host.Outcome State Fault Refusal := run (fun d => d.islandStart id.val) s

/-- MAIN_INPUT_VALID (R39). -/
def execMainInputValid (s : State) : Host.Outcome State Fault Refusal := run (fun d => d.mainInputValid) s

/-- BUS_IN_REGULATION (R39). -/
def execBusInRegulation (s : State) : Host.Outcome State Fault Refusal := run (fun d => d.busInRegulation) s

/-- ROOT_PLL_LOCK (R54). -/
def execRootPllLock (s : State) : Host.Outcome State Fault Refusal := run (fun d => d.rootPllLock) s

/-- INPUT_LOSS (R40): `cause` 0 undervoltage, 1 overvoltage, 2 overcurrent. -/
def execInputLoss (cause : Fin 3) (s : State) : Host.Outcome State Fault Refusal := run (fun d => d.inputLoss (cause.val + 1)) s

/-- WATCHDOG_TRIP (R43). -/
def execWatchdogTrip (s : State) : Host.Outcome State Fault Refusal := run (fun d => d.watchdogTrip) s

/-- POWER_LINK_RETRY (R42). -/
def execPowerLinkRetry (s : State) : Host.Outcome State Fault Refusal := run (fun d => d.linkRetry) s

/-- LINK_TIMEOUT (R42). -/
def execLinkTimeout (dom : Option (Fin 30)) (s : State) : Host.Outcome State Fault Refusal :=
  run (fun d => d.linkTimeout (dom.map (·.val))) s

/-- POWER_LINK_LATE (R42). -/
def execPowerLinkLate (s : State) : Host.Outcome State Fault Refusal := run (fun d => d.linkLate) s

/-- TELEMETRY_UPDATE (R44). -/
def execTelemetryUpdate (supply : List Word) (rails : List Word) (temps : List (BitVec 12)) (s : State) : Host.Outcome State Fault Refusal :=
  run (fun d => d.telemetry supply rails temps) s

/-- THERMAL_TRIP (R45). -/
def execThermalTrip (sensor : Fin 16) (s : State) : Host.Outcome State Fault Refusal :=
  run (fun d => d.thermalTrip sensor.val) s

/-- THERMAL_TRIP_END (R45). -/
def execThermalTripEnd (s : State) : Host.Outcome State Fault Refusal := run (fun d => d.thermalTripEnd) s

/-- DOMAIN_REQUEST (R49). -/
def execDomainRequest (data : Word) (be : BitVec 4) (req : BitVec 16) (s : State) : Host.Outcome State Fault Refusal :=
  runHost (fun x => x.hostWrite 0 (65536 * (0x02) + 0x0100) data be req.toNat) s

/-- DOMAIN_RAMP_START (R47). -/
def execDomainRampStart (s : State) : Host.Outcome State Fault Refusal := run (fun d => d.domainRampStart) s

/-- DOMAIN_RAMP_DONE (R48). -/
def execDomainRampDone (s : State) : Host.Outcome State Fault Refusal := run (fun d => d.domainRamped) s

/-- DOMAIN_INIT_DONE (R48). -/
def execDomainInitDone (s : State) : Host.Outcome State Fault Refusal := run (fun d => d.domainReady) s

/-- DOMAIN_SWITCH_OFF (R47). -/
def execDomainSwitchOff (s : State) : Host.Outcome State Fault Refusal := run (fun d => d.domainSwitchOff) s

/-- DOMAIN_DISCHARGE_DONE (R48). -/
def execDomainDischargeDone (s : State) : Host.Outcome State Fault Refusal := run (fun d => d.domainDischarged) s

/-- RAIL_FAULT (R51). -/
def execRailFault (dom : Fin 30) (rail : Fin 7) (s : State) : Host.Outcome State Fault Refusal :=
  run (fun d => d.railFault dom.val rail.val) s

/-- FAULT_CLEAR (R51). -/
def execFaultClear (data : Word) (be : BitVec 4) (req : BitVec 16) (s : State) : Host.Outcome State Fault Refusal :=
  runHost (fun x => x.hostWrite 0 (65536 * (0x02) + 0x0104) data be req.toNat) s

/-- PD29_REPOWER (R51). -/
def execPd29Repower (s : State) : Host.Outcome State Fault Refusal := run (fun d => d.pd29Repower) s

/-- REF_LOSS (R57). -/
def execRefLoss (s : State) : Host.Outcome State Fault Refusal := run (fun d => d.refLoss) s

/-- REF_RETURN (R57). -/
def execRefReturn (s : State) : Host.Outcome State Fault Refusal := run (fun d => d.refReturn) s

/-- REF_SLEW_COMPLETE (R57). -/
def execRefSlewComplete (s : State) : Host.Outcome State Fault Refusal := run (fun d => d.refSlewComplete) s

/-- ALIGN_MISMATCH (R54). -/
def execAlignMismatch (s : State) : Host.Outcome State Fault Refusal := run (fun d => d.alignMismatch) s

/-- SYSTEM_RESET (R411): the island stops and its memory is lost, the trust anchors and their LOCK with it. -/
def execSystemReset (s : State) : Host.Outcome State Fault Refusal :=
  .next { s with trust := Trust.reset, dev := s.dev.systemReset }

/-- STANDBY_LOSS (R411): as SYSTEM_RESET. -/
def execStandbyLoss (s : State) : Host.Outcome State Fault Refusal :=
  .next { s with trust := Trust.reset, dev := s.dev.standbyLoss }

/-- SYS_RST_N_RELEASE (R411). -/
def execSysRstNRelease (s : State) : Host.Outcome State Fault Refusal := run (fun d => d.sysRstRelease) s

end Sys2Proof.Machine
end

