-- ==== Sys2Proof/Machine/ProgramRows.lean ====
section
/-! DEFINITION. The meanings of the commands of images and epochs (R142–R158). -/

namespace Sys2Proof.Machine

/-- EPOCH_FLIP (R156). -/
def execEpochFlip (die : Fin 2) (req : BitVec 16) (s : State) : Host.Outcome State Fault Refusal :=
  runHost (fun x => x.act (ordPage die.val) (0x0300) (2) req.toNat) s

/-- VERIFY (R147). -/
def execVerify (c : Fin 64) (req : BitVec 16) (s : State) : Host.Outcome State Fault Refusal :=
  runHost (fun x => x.act (engPage c.val) (0x0400) (1) req.toNat) s

/-- VERIFY_DONE (R147). -/
def execVerifyDone (c : Fin 64) (ecc : Ecc) (s : State) : Host.Outcome State Fault Refusal :=
  .next { s with dev := s.dev.verifyDone s.trust c.val ecc }

end Sys2Proof.Machine
end

