-- ==== Sys2Proof/Machine/SequenceRows.lean ====
section
/-! DEFINITION. The meanings of the commands of microword sequencing, traps and debug access (R117–R119, R131–R140). -/

namespace Sys2Proof.Machine

/-- CONT (R118). -/
def execCont (th : Fin 8192) (chk : Fin 8) (s : State) : Host.Outcome State Fault Refusal :=
  run (fun d => d.issue th.val 0 chk.val) s

/-- BRANCH (R119). -/
def execBranch (th : Fin 8192) (chk : Fin 8) (s : State) : Host.Outcome State Fault Refusal :=
  run (fun d => d.issue th.val 1 chk.val) s

/-- CALL (R118). -/
def execCall (th : Fin 8192) (chk : Fin 8) (s : State) : Host.Outcome State Fault Refusal :=
  run (fun d => d.issue th.val 2 chk.val) s

/-- RET (R118). -/
def execRet (th : Fin 8192) (chk : Fin 8) (s : State) : Host.Outcome State Fault Refusal :=
  run (fun d => d.issue th.val 3 chk.val) s

/-- TRET (R136). -/
def execTret (th : Fin 8192) (chk : Fin 8) (s : State) : Host.Outcome State Fault Refusal :=
  run (fun d => d.issue th.val 4 chk.val) s

/-- YIELD (R118). -/
def execYield (th : Fin 8192) (chk : Fin 8) (s : State) : Host.Outcome State Fault Refusal :=
  run (fun d => d.issue th.val 5 chk.val) s

/-- WAIT (R118). -/
def execWait (th : Fin 8192) (chk : Fin 8) (s : State) : Host.Outcome State Fault Refusal :=
  run (fun d => d.issue th.val 6 chk.val) s

/-- END_FWD (R151). -/
def execEndFwd (th : Fin 8192) (chk : Fin 8) (s : State) : Host.Outcome State Fault Refusal :=
  run (fun d => d.issue th.val 7 chk.val) s

/-- END_MC (R151). -/
def execEndMc (th : Fin 8192) (chk : Fin 8) (s : State) : Host.Outcome State Fault Refusal :=
  run (fun d => d.issue th.val 8 chk.val) s

/-- END_DROP (R104). -/
def execEndDrop (th : Fin 8192) (chk : Fin 8) (s : State) : Host.Outcome State Fault Refusal :=
  run (fun d => d.issue th.val 9 chk.val) s

/-- END_PUNT (R151). -/
def execEndPunt (th : Fin 8192) (chk : Fin 8) (s : State) : Host.Outcome State Fault Refusal :=
  run (fun d => d.issue th.val 10 chk.val) s

/-- RECIRC (R110). -/
def execRecirc (th : Fin 8192) (chk : Fin 8) (s : State) : Host.Outcome State Fault Refusal :=
  run (fun d => d.issue th.val 11 chk.val) s

/-- ABORT (R138). -/
def execAbort (th : Fin 8192) (chk : Fin 8) (s : State) : Host.Outcome State Fault Refusal :=
  run (fun d => d.issue th.val 12 chk.val) s

/-- TRAP_ENTER (R135). -/
def execTrapEnter (th : Fin 8192) (s : State) : Host.Outcome State Fault Refusal := run (fun d => d.trapEnter th.val) s

/-- BUDGET (R97). -/
def execBudget (th : Fin 8192) (s : State) : Host.Outcome State Fault Refusal := run (fun d => d.issueBudget th.val) s

/-- CS_UE (R117). -/
def execCsUe (th : Fin 8192) (s : State) : Host.Outcome State Fault Refusal := run (fun d => d.issueCsUe th.val) s

/-- DEBUG_BREAK (R140): a thread, and the words that its fetch corrects. -/
def execDebugBreak (at_ : Fin 8192 × Fin 7) (s : State) : Host.Outcome State Fault Refusal :=
  run (fun d => d.debugBreak at_.1.val at_.2.val) s

/-- HALT (R140). -/
def execHalt (th : Fin 8192) (req : BitVec 16) (s : State) : Host.Outcome State Fault Refusal :=
  runHost (fun x => x.debugWrite th.val 0x10000 req.toNat) s

/-- HALT_ALL (R140). -/
def execHaltAll (c : Fin 64) (req : BitVec 16) (s : State) : Host.Outcome State Fault Refusal :=
  runHost (fun x => x.act (engPage c.val) (0x0300) (2) req.toNat) s

/-- THREAD_HALTED (R140). -/
def execThreadHalted (th : Fin 8192) (s : State) : Host.Outcome State Fault Refusal := run (fun d => d.threadHalted th.val) s

/-- RESUME_CONTINUE (R140). -/
def execResumeContinue (th : Fin 8192) (req : BitVec 16) (s : State) : Host.Outcome State Fault Refusal :=
  runHost (fun x => x.debugWrite th.val 0x20000 req.toNat) s

/-- RESUME_VECTOR (R140). -/
def execResumeVector (th : Fin 8192) (req : BitVec 16) (s : State) : Host.Outcome State Fault Refusal :=
  runHost (fun x => x.debugWrite th.val 0x40000 req.toNat) s

/-- RESUME_ABORT (R140). -/
def execResumeAbort (th : Fin 8192) (req : BitVec 16) (s : State) : Host.Outcome State Fault Refusal :=
  runHost (fun x => x.debugWrite th.val 0x60000 req.toNat) s

/-- DBG_DATA_WRITE (R140): the two words of the pair, low word first (R6, R19). -/
def execDbgDataWrite (c : Fin 64) (lo : Word) (hi : Word) (req : BitVec 16) (s : State) : Host.Outcome State Fault Refusal :=
  runHost (fun x => (x.hostWrite 0 (65536 * engPage c.val + 0x0310) lo 15 req.toNat).hostWrite 0 (65536 * engPage c.val + 0x0314) hi 15 req.toNat) s

end Sys2Proof.Machine
end

