-- ==== Sys2Proof/Machine/SwitchRows.lean ====
section
/-! DEFINITION. The meanings of the commands of the switch core and its ports (R212–R228). -/

namespace Sys2Proof.Machine

/-- CELL_TRANSFER (R222). -/
def execCellTransfer (s : State) : Host.Outcome State Fault Refusal := run (fun d => d.cellTransfer) s

/-- FRAME_TRANSMIT_START (R82). -/
def execFrameTransmitStart (port : Fin 128) (ecc : Ecc) (s : State) : Host.Outcome State Fault Refusal :=
  run (fun d => d.transmitStart port.val ecc) s

/-- FRAME_TRANSMIT_END (R82): with the looped stream received on the same port where the port loops (R94). -/
def execFrameTransmitEnd (port : Fin 128) (s : State) : Host.Outcome State Fault Refusal :=
  run (fun d => d.frameSent port.val) s

/-- PFC_REFRESH (R220). -/
def execPfcRefresh (port : Fin 128) (prio : Fin 8) (s : State) : Host.Outcome State Fault Refusal :=
  run (fun d => d.pfcRefresh port.val prio.val) s

/-- PFC_FRAME_RECEIVE (R221). -/
def execPfcFrameReceive (port : Fin 128) (en : BitVec 8) (times : List Nat) (s : State) : Host.Outcome State Fault Refusal :=
  run (fun d => d.pfcFrame port.val en.toNat times) s

/-- PFC_PAUSE_EXPIRE (R221). -/
def execPfcPauseExpire (port : Fin 128) (prio : Fin 8) (s : State) : Host.Outcome State Fault Refusal :=
  run (fun d => d.pfcExpire port.val prio.val) s

/-- HOLD_TIMER_EXPIRE (R226). -/
def execHoldTimerExpire (port : Fin 128) (s : State) : Host.Outcome State Fault Refusal :=
  run (fun d => d.holdExpire port.val) s

/-- FLUSH_DONE (R227). -/
def execFlushDone (port : Fin 128) (s : State) : Host.Outcome State Fault Refusal := run (fun d => d.flushDone port.val) s

end Sys2Proof.Machine
end

