-- ==== Sys2Proof/Machine/TimeRows.lean ====
section
/-! DEFINITION. The meanings of the commands of the time unit (R312–R330, R382). -/

namespace Sys2Proof.Machine

/-- SET (R315). -/
def execSet (req : BitVec 16) (s : State) : Host.Outcome State Fault Refusal :=
  runHost (fun x => x.act (0x08) (0x0104) (1) req.toNat) s

/-- STEP (R315). -/
def execStep (req : BitVec 16) (s : State) : Host.Outcome State Fault Refusal :=
  runHost (fun x => x.act (0x08) (0x0104) (2) req.toNat) s

/-- SLEW (R315). -/
def execSlew (req : BitVec 16) (s : State) : Host.Outcome State Fault Refusal :=
  runHost (fun x => x.act (0x08) (0x0104) (4) req.toNat) s

/-- TIME_ABORT (R315). -/
def execTimeAbort (req : BitVec 16) (s : State) : Host.Outcome State Fault Refusal :=
  runHost (fun x => x.act (0x08) (0x0104) (8) req.toNat) s

/-- SLEW_COMPLETE (R315). -/
def execSlewComplete (s : State) : Host.Outcome State Fault Refusal := run (fun d => d.slewComplete) s

/-- SLAVE_ALIGNED (R313). -/
def execSlaveAligned (s : State) : Host.Outcome State Fault Refusal := run (fun d => d.slaveAligned) s

/-- TIME_NOW_LATCH (R330). -/
def execTimeNowLatch (page : Fin 2) (req : BitVec 16) (s : State) : Host.Outcome State Fault Refusal :=
  runHost (fun x => x.hostRead 0 (65536 * (0x08 + page.val) + 0x0130) req.toNat .clean) s

/-- CAPTURE (R324). -/
def execCapture (input : Fin 8) (rising : Bool) (s : State) : Host.Outcome State Fault Refusal :=
  run (fun d => d.captureEdge input.val rising) s

/-- TIME_CAP_POP (R324). -/
def execTimeCapPop (req : BitVec 16) (s : State) : Host.Outcome State Fault Refusal :=
  runHost (fun x => x.act (0x08) (0x0340) (1) req.toNat) s

/-- TIME_TX_POP (R322). -/
def execTimeTxPop (page : Fin 2) (req : BitVec 16) (s : State) : Host.Outcome State Fault Refusal :=
  runHost (fun x => x.act (0x08 + page.val) (0x0620) (1) req.toNat) s

/-- CHIME_ARM (R325). -/
def execChimeArm (c : Fin 8) (req : BitVec 16) (s : State) : Host.Outcome State Fault Refusal :=
  runHost (fun x => x.act (0x08) (0x0200 + 32 * c.val) (1) req.toNat) s

/-- CHIME_CANCEL (R325). -/
def execChimeCancel (c : Fin 8) (req : BitVec 16) (s : State) : Host.Outcome State Fault Refusal :=
  runHost (fun x => x.act (0x08) (0x0200 + 32 * c.val) (2) req.toNat) s

/-- CHIME_PULSE (R325). -/
def execChimePulse (c : Fin 8) (s : State) : Host.Outcome State Fault Refusal := run (fun d => d.chimePulse c.val) s

/-- CHIME_PULSE_END (R325). -/
def execChimePulseEnd (c : Fin 8) (s : State) : Host.Outcome State Fault Refusal := run (fun d => d.setPulse c.val false) s

/-- PPS (R327). -/
def execPps (s : State) : Host.Outcome State Fault Refusal := run (fun d => d.ppsPulse) s

/-- PPS_END (R327). -/
def execPpsEnd (s : State) : Host.Outcome State Fault Refusal := run (fun d => d.ppsEnd) s

/-- MESH_EXCHANGE (R382). -/
def execMeshExchange (s : State) : Host.Outcome State Fault Refusal := run (fun d => d.meshExchange) s

/-- SYNC (R382). -/
def execSync (port : Fin 16) (cell : List Byte) (s : State) : Host.Outcome State Fault Refusal :=
  run (fun d => d.syncReceive port.val cell) s

/-- DREQ (R382). -/
def execDreq (port : Fin 16) (cell : List Byte) (s : State) : Host.Outcome State Fault Refusal :=
  run (fun d => d.dreqReceive port.val cell) s

/-- RESP (R328). -/
def execResp (port : Fin 16) (cell : List Byte) (s : State) : Host.Outcome State Fault Refusal :=
  run (fun d => d.respReceive port.val cell) s

/-- TIME_EXCHANGE_ABANDON (R382). -/
def execTimeExchangeAbandon (s : State) : Host.Outcome State Fault Refusal := run (fun d => d.exchangeAbandon) s

/-- MESH_LOST (R328). -/
def execMeshLost (s : State) : Host.Outcome State Fault Refusal := run (fun d => d.meshLost) s

end Sys2Proof.Machine
end

