-- ==== Sys2Proof/Machine/UluxRows.lean ====
section
/-! DEFINITION. The meanings of the commands of the Ulux links (R367–R386). -/

namespace Sys2Proof.Machine

/-- ULX_ALIGNED (R371). -/
def execUlxAligned (port : Fin 16) (s : State) : Host.Outcome State Fault Refusal := run (fun d => d.ulxAligned port.val) s

/-- HELLO_SEND (R371). -/
def execHelloSend (port : Fin 16) (s : State) : Host.Outcome State Fault Refusal := run (fun d => d.helloSend port.val) s

/-- HELLO (R371). -/
def execHello (port : Fin 16) (cell : List Byte) (s : State) : Host.Outcome State Fault Refusal :=
  run (fun d => d.helloReceive port.val cell) s

/-- DATA (R372). -/
def execData (port : Fin 16) (cell : List Byte) (s : State) : Host.Outcome State Fault Refusal :=
  run (fun d => d.ulxData port.val cell) s

/-- NULL (R370). -/
def execNull (port : Fin 16) (cell : List Byte) (s : State) : Host.Outcome State Fault Refusal :=
  run (fun d => d.nullReceive port.val cell) s

/-- NAK (R372). -/
def execNak (port : Fin 16) (cell : List Byte) (s : State) : Host.Outcome State Fault Refusal :=
  run (fun d => d.nakReceive port.val cell) s

/-- ACK_TIMEOUT (R372). -/
def execAckTimeout (port : Fin 16) (s : State) : Host.Outcome State Fault Refusal := run (fun d => d.ackTimeout port.val) s

/-- ULX_CELL_SEND (R377). -/
def execUlxCellSend (port : Fin 16) (s : State) : Host.Outcome State Fault Refusal := run (fun d => d.ulxCellSend port.val) s

/-- ULX_PORT_LEAVE_UP (R379). -/
def execUlxPortLeaveUp (port : Fin 16) (s : State) : Host.Outcome State Fault Refusal := run (fun d => d.ulxLoss port.val) s

/-- RSQ_TIMEOUT (R378). -/
def execRsqTimeout (die : Fin 2) (dev : Fin 4) (sdie : Fin 2) (vc : Fin 2) (s : State) : Host.Outcome State Fault Refusal :=
  run (fun d => d.rsqTimeout die.val dev.val sdie.val vc.val) s

/-- PEER_HOLD_EXPIRE (R379). -/
def execPeerHoldExpire (dev : Fin 4) (s : State) : Host.Outcome State Fault Refusal := run (fun d => d.peerHoldExpire dev.val) s

/-- PORT_RETRAIN (R371). -/
def execPortRetrain (die : Fin 2) (data : Word) (be : BitVec 4) (req : BitVec 16) (s : State) : Host.Outcome State Fault Refusal :=
  runHost (fun x => x.hostWrite 0 (65536 * (ulxPage die.val) + 0x0124) data be req.toNat) s

/-- TXN_READ (R380). -/
def execTxnRead (die : Fin 2) (slot : Fin 4) (req : BitVec 16) (s : State) : Host.Outcome State Fault Refusal :=
  runHost (fun x => x.transactGo die.val slot.val 1 req.toNat) s

/-- TXN_WRITE (R380). -/
def execTxnWrite (die : Fin 2) (slot : Fin 4) (req : BitVec 16) (s : State) : Host.Outcome State Fault Refusal :=
  runHost (fun x => x.transactGo die.val slot.val 2 req.toNat) s

/-- REQUEST (R381). -/
def execRequest (port : Fin 16) (cell : List Byte) (s : State) : Host.Outcome State Fault Refusal :=
  runHost (fun x => x.request port.val cell) s

/-- RESPONSE (R380). -/
def execResponse (port : Fin 16) (cell : List Byte) (s : State) : Host.Outcome State Fault Refusal :=
  run (fun d => d.responseReceive port.val cell) s

/-- TXN_TIMEOUT (R380). -/
def execTxnTimeout (die : Fin 2) (slot : Fin 4) (s : State) : Host.Outcome State Fault Refusal :=
  run (fun d => d.txnTimeout die.val slot.val) s

/-- TXN_QUARANTINE_END (R380). -/
def execTxnQuarantineEnd (die : Fin 2) (slot : Fin 4) (s : State) : Host.Outcome State Fault Refusal :=
  run (fun d => d.txnQuarEnd die.val slot.val) s

/-- WIN_COMMIT (R381). -/
def execWinCommit (die : Fin 2) (req : BitVec 16) (s : State) : Host.Outcome State Fault Refusal :=
  runHost (fun x => x.act (ulxPage die.val) (0x0120) (1) req.toNat) s

/-- WIN_COMMIT_DONE (R381). -/
def execWinCommitDone (die : Fin 2) (s : State) : Host.Outcome State Fault Refusal := run (fun d => d.winCommitDone die.val) s

end Sys2Proof.Machine
end

