-- ==== Sys2Proof/Machine/Dispatch.lean ====
section
/-! DEFINITION. One arm for each command, one direct call of its meaning. -/

namespace Sys2Proof.Machine

/-- The effect of a command on everything but the queue. -/
def exec (i : Instr) (s : State) : Host.Outcome State Fault Refusal :=
  match i with
  | .regWrite bar addr data be req => Sys2Proof.Machine.execRegWrite bar addr data be req s
  | .pairLowRead page dw req => Sys2Proof.Machine.execPairLowRead page dw req s
  | .pairHighRead page dw req => Sys2Proof.Machine.execPairHighRead page dw req s
  | .pairLowWrite page dw data be req => Sys2Proof.Machine.execPairLowWrite page dw data be req s
  | .pairHighWrite page dw data be req => Sys2Proof.Machine.execPairHighWrite page dw data be req s
  | .rcRead bar addr req => Sys2Proof.Machine.execRcRead bar addr req s
  | .intSet page data req => Sys2Proof.Machine.execIntSet page data req s
  | .captureRearm page data req => Sys2Proof.Machine.execCaptureRearm page data req s
  | .shadowDiscard page req => Sys2Proof.Machine.execShadowDiscard page req s
  | .fnStart page req => Sys2Proof.Machine.execFnStart page req s
  | .fnStop page req => Sys2Proof.Machine.execFnStop page req s
  | .fnStartDone page => Sys2Proof.Machine.execFnStartDone page s
  | .fnStopDone page => Sys2Proof.Machine.execFnStopDone page s
  | .msixUnmask vector => Sys2Proof.Machine.execMsixUnmask vector s
  | .csWordWrite c a k data be req => Sys2Proof.Machine.execCsWordWrite c a k data be req s
  | .csCommit c a data be req => Sys2Proof.Machine.execCsCommit c a data be req s
  | .csWord0Read c a req => Sys2Proof.Machine.execCsWord0Read c a req s
  | .apertureRead n dw ecc req => Sys2Proof.Machine.execApertureRead n dw ecc req s
  | .apertureWrite n dw data be req => Sys2Proof.Machine.execApertureWrite n dw data be req s
  | .ewRead w req => Sys2Proof.Machine.execEwRead w req s
  | .ewWrite w req => Sys2Proof.Machine.execEwWrite w req s
  | .ewDone w ecc => Sys2Proof.Machine.execEwDone w ecc s
  | .ewTimeout w => Sys2Proof.Machine.execEwTimeout w s
  | .ewLate w => Sys2Proof.Machine.execEwLate w s
  | .standbyInRange => Sys2Proof.Machine.execStandbyInRange s
  | .islandStart id => Sys2Proof.Machine.execIslandStart id s
  | .mainInputValid => Sys2Proof.Machine.execMainInputValid s
  | .busInRegulation => Sys2Proof.Machine.execBusInRegulation s
  | .rootPllLock => Sys2Proof.Machine.execRootPllLock s
  | .inputLoss cause => Sys2Proof.Machine.execInputLoss cause s
  | .watchdogTrip => Sys2Proof.Machine.execWatchdogTrip s
  | .powerLinkRetry => Sys2Proof.Machine.execPowerLinkRetry s
  | .linkTimeout dom => Sys2Proof.Machine.execLinkTimeout dom s
  | .powerLinkLate => Sys2Proof.Machine.execPowerLinkLate s
  | .telemetryUpdate supply rails temps => Sys2Proof.Machine.execTelemetryUpdate supply rails temps s
  | .thermalTrip sensor => Sys2Proof.Machine.execThermalTrip sensor s
  | .thermalTripEnd => Sys2Proof.Machine.execThermalTripEnd s
  | .domainRequest data be req => Sys2Proof.Machine.execDomainRequest data be req s
  | .domainRampStart => Sys2Proof.Machine.execDomainRampStart s
  | .domainRampDone => Sys2Proof.Machine.execDomainRampDone s
  | .domainInitDone => Sys2Proof.Machine.execDomainInitDone s
  | .domainSwitchOff => Sys2Proof.Machine.execDomainSwitchOff s
  | .domainDischargeDone => Sys2Proof.Machine.execDomainDischargeDone s
  | .railFault dom rail => Sys2Proof.Machine.execRailFault dom rail s
  | .faultClear data be req => Sys2Proof.Machine.execFaultClear data be req s
  | .pd29Repower => Sys2Proof.Machine.execPd29Repower s
  | .refLoss => Sys2Proof.Machine.execRefLoss s
  | .refReturn => Sys2Proof.Machine.execRefReturn s
  | .refSlewComplete => Sys2Proof.Machine.execRefSlewComplete s
  | .alignMismatch => Sys2Proof.Machine.execAlignMismatch s
  | .modeRequest data be req => Sys2Proof.Machine.execModeRequest data be req s
  | .modeTransitionDone => Sys2Proof.Machine.execModeTransitionDone s
  | .drainEmpty => Sys2Proof.Machine.execDrainEmpty s
  | .drainTimeout => Sys2Proof.Machine.execDrainTimeout s
  | .frameReceive port frame => Sys2Proof.Machine.execFrameReceive port frame s
  | .frameEnd port ecc => Sys2Proof.Machine.execFrameEnd port ecc s
  | .fecUncorrectable port => Sys2Proof.Machine.execFecUncorrectable port s
  | .portLinkUp port => Sys2Proof.Machine.execPortLinkUp port s
  | .portLinkDown port => Sys2Proof.Machine.execPortLinkDown port s
  | .parseDone pg => Sys2Proof.Machine.execParseDone pg s
  | .headDispatch pg ecc => Sys2Proof.Machine.execHeadDispatch pg ecc s
  | .headToThread c => Sys2Proof.Machine.execHeadToThread c s
  | .threadLoadDone th => Sys2Proof.Machine.execThreadLoadDone th s
  | .nearSteal c => Sys2Proof.Machine.execNearSteal c s
  | .farSteal c => Sys2Proof.Machine.execFarSteal c s
  | .farAllowanceReset die => Sys2Proof.Machine.execFarAllowanceReset die s
  | .cont th chk => Sys2Proof.Machine.execCont th chk s
  | .branch th chk => Sys2Proof.Machine.execBranch th chk s
  | .call th chk => Sys2Proof.Machine.execCall th chk s
  | .ret th chk => Sys2Proof.Machine.execRet th chk s
  | .tret th chk => Sys2Proof.Machine.execTret th chk s
  | .yield th chk => Sys2Proof.Machine.execYield th chk s
  | .wait th chk => Sys2Proof.Machine.execWait th chk s
  | .endFwd th chk => Sys2Proof.Machine.execEndFwd th chk s
  | .endMc th chk => Sys2Proof.Machine.execEndMc th chk s
  | .endDrop th chk => Sys2Proof.Machine.execEndDrop th chk s
  | .endPunt th chk => Sys2Proof.Machine.execEndPunt th chk s
  | .recirc th chk => Sys2Proof.Machine.execRecirc th chk s
  | .abort th chk => Sys2Proof.Machine.execAbort th chk s
  | .mov th side dst srcA srcB shm imm => Sys2Proof.Machine.execMov th side dst srcA srcB shm imm s
  | .add th side dst srcA srcB shm imm => Sys2Proof.Machine.execAdd th side dst srcA srcB shm imm s
  | .sub th side dst srcA srcB shm imm => Sys2Proof.Machine.execSub th side dst srcA srcB shm imm s
  | .and th side dst srcA srcB shm imm => Sys2Proof.Machine.execAnd th side dst srcA srcB shm imm s
  | .or th side dst srcA srcB shm imm => Sys2Proof.Machine.execOr th side dst srcA srcB shm imm s
  | .xor th side dst srcA srcB shm imm => Sys2Proof.Machine.execXor th side dst srcA srcB shm imm s
  | .andn th side dst srcA srcB shm imm => Sys2Proof.Machine.execAndn th side dst srcA srcB shm imm s
  | .ins th side dst srcA srcB shm imm => Sys2Proof.Machine.execIns th side dst srcA srcB shm imm s
  | .ext th side dst srcA srcB shm imm => Sys2Proof.Machine.execExt th side dst srcA srcB shm imm s
  | .cmp th side dst srcA srcB shm imm => Sys2Proof.Machine.execCmp th side dst srcA srcB shm imm s
  | .tst th side dst srcA srcB shm imm => Sys2Proof.Machine.execTst th side dst srcA srcB shm imm s
  | .minu th side dst srcA srcB shm imm => Sys2Proof.Machine.execMinu th side dst srcA srcB shm imm s
  | .maxu th side dst srcA srcB shm imm => Sys2Proof.Machine.execMaxu th side dst srcA srcB shm imm s
  | .clz th side dst srcA srcB shm imm => Sys2Proof.Machine.execClz th side dst srcA srcB shm imm s
  | .popc th side dst srcA srcB shm imm => Sys2Proof.Machine.execPopc th side dst srcA srcB shm imm s
  | .add1c th side dst srcA srcB shm imm => Sys2Proof.Machine.execAdd1c th side dst srcA srcB shm imm s
  | .fold16 th side dst srcA srcB shm imm => Sys2Proof.Machine.execFold16 th side dst srcA srcB shm imm s
  | .subsat th side dst srcA srcB shm imm => Sys2Proof.Machine.execSubsat th side dst srcA srcB shm imm s
  | .headToRegister th off len reg flg imm => Sys2Proof.Machine.execHeadToRegister th off len reg flg imm s
  | .registerToHead th off len reg flg imm => Sys2Proof.Machine.execRegisterToHead th off len reg flg imm s
  | .metadataToRegister th off len reg flg imm => Sys2Proof.Machine.execMetadataToRegister th off len reg flg imm s
  | .registerToMetadata th off len reg flg imm => Sys2Proof.Machine.execRegisterToMetadata th off len reg flg imm s
  | .plainLookup th table ksel rreg te => Sys2Proof.Machine.execPlainLookup th table ksel rreg te s
  | .lookupWithLearn th table ksel rreg te => Sys2Proof.Machine.execLookupWithLearn th table ksel rreg te s
  | .lookupNoRefresh th table ksel rreg te => Sys2Proof.Machine.execLookupNoRefresh th table ksel rreg te s
  | .counterBump th sel imm => Sys2Proof.Machine.execCounterBump th sel imm s
  | .lookupResult th slot ecc => Sys2Proof.Machine.execLookupResult th slot ecc s
  | .trapEnter th => Sys2Proof.Machine.execTrapEnter th s
  | .budget th => Sys2Proof.Machine.execBudget th s
  | .csUe th => Sys2Proof.Machine.execCsUe th s
  | .debugBreak at_ => Sys2Proof.Machine.execDebugBreak at_ s
  | .halt th req => Sys2Proof.Machine.execHalt th req s
  | .haltAll c req => Sys2Proof.Machine.execHaltAll c req s
  | .threadHalted th => Sys2Proof.Machine.execThreadHalted th s
  | .resumeContinue th req => Sys2Proof.Machine.execResumeContinue th req s
  | .resumeVector th req => Sys2Proof.Machine.execResumeVector th req s
  | .resumeAbort th req => Sys2Proof.Machine.execResumeAbort th req s
  | .dbgDataWrite c lo hi req => Sys2Proof.Machine.execDbgDataWrite c lo hi req s
  | .completionReport die slot => Sys2Proof.Machine.execCompletionReport die slot s
  | .ticketRetire die => Sys2Proof.Machine.execTicketRetire die s
  | .ticketAged die slot => Sys2Proof.Machine.execTicketAged die slot s
  | .slotUe die slot => Sys2Proof.Machine.execSlotUe die slot s
  | .recircEnqueue th => Sys2Proof.Machine.execRecircEnqueue th s
  | .epochFlip die req => Sys2Proof.Machine.execEpochFlip die req s
  | .verify c req => Sys2Proof.Machine.execVerify c req s
  | .verifyDone c ecc => Sys2Proof.Machine.execVerifyDone c ecc s
  | .imagePolicyLock req => Sys2Proof.Machine.execImagePolicyLock req s
  | .descriptorCommit q t data be req => Sys2Proof.Machine.execDescriptorCommit q t data be req s
  | .insert q req => Sys2Proof.Machine.execInsert q req s
  | .update q req => Sys2Proof.Machine.execUpdate q req s
  | .delete q req => Sys2Proof.Machine.execDelete q req s
  | .find q req => Sys2Proof.Machine.execFind q req s
  | .lkpCommandDone q ecc => Sys2Proof.Machine.execLkpCommandDone q ecc s
  | .learnNew q => Sys2Proof.Machine.execLearnNew q s
  | .learnMove q => Sys2Proof.Machine.execLearnMove q s
  | .ageingVisit q table pos => Sys2Proof.Machine.execAgeingVisit q table pos s
  | .lrnEvtPop q req => Sys2Proof.Machine.execLrnEvtPop q req s
  | .admission die src ecc => Sys2Proof.Machine.execAdmission die src ecc s
  | .openPageTimeout queue => Sys2Proof.Machine.execOpenPageTimeout queue s
  | .recall queue => Sys2Proof.Machine.execRecall queue s
  | .recallReadDone queue words => Sys2Proof.Machine.execRecallReadDone queue words s
  | .pageRingReady stack => Sys2Proof.Machine.execPageRingReady stack s
  | .cellTransfer => Sys2Proof.Machine.execCellTransfer s
  | .frameTransmitStart port ecc => Sys2Proof.Machine.execFrameTransmitStart port ecc s
  | .frameTransmitEnd port => Sys2Proof.Machine.execFrameTransmitEnd port s
  | .pfcRefresh port prio => Sys2Proof.Machine.execPfcRefresh port prio s
  | .pfcFrameReceive port en times => Sys2Proof.Machine.execPfcFrameReceive port en times s
  | .pfcPauseExpire port prio => Sys2Proof.Machine.execPfcPauseExpire port prio s
  | .holdTimerExpire port => Sys2Proof.Machine.execHoldTimerExpire port s
  | .flushDone port => Sys2Proof.Machine.execFlushDone port s
  | .selection pg => Sys2Proof.Machine.execSelection pg s
  | .shaperWake die => Sys2Proof.Machine.execShaperWake die s
  | .coarseSlot die => Sys2Proof.Machine.execCoarseSlot die s
  | .gateBoundary port => Sys2Proof.Machine.execGateBoundary port s
  | .rsArm port req => Sys2Proof.Machine.execRsArm port req s
  | .rsCancel port req => Sys2Proof.Machine.execRsCancel port req s
  | .rsApply port => Sys2Proof.Machine.execRsApply port s
  | .replicationWalk die entries => Sys2Proof.Machine.execReplicationWalk die entries s
  | .editCellGranted die => Sys2Proof.Machine.execEditCellGranted die s
  | .fence die req => Sys2Proof.Machine.execFence die req s
  | .fenceDone die => Sys2Proof.Machine.execFenceDone die s
  | .pealMemRead die req => Sys2Proof.Machine.execPealMemRead die req s
  | .pealMemWrite die req => Sys2Proof.Machine.execPealMemWrite die req s
  | .markerSend trunk => Sys2Proof.Machine.execMarkerSend trunk s
  | .marker port frame => Sys2Proof.Machine.execMarker port frame s
  | .resequencerCheck trunk => Sys2Proof.Machine.execResequencerCheck trunk s
  | .learnEnd trunk => Sys2Proof.Machine.execLearnEnd trunk s
  | .restoredHeadIntake die => Sys2Proof.Machine.execRestoredHeadIntake die s
  | .install port frame => Sys2Proof.Machine.execInstall port frame s
  | .ack port frame => Sys2Proof.Machine.execAck port frame s
  | .nack port frame => Sys2Proof.Machine.execNack port frame s
  | .withdraw port frame => Sys2Proof.Machine.execWithdraw port frame s
  | .wdack port frame => Sys2Proof.Machine.execWdack port frame s
  | .stale port frame => Sys2Proof.Machine.execStale port frame s
  | .messageRetry trunk ctx => Sys2Proof.Machine.execMessageRetry trunk ctx s
  | .ctxInstall die trunk ctx len nxt template => Sys2Proof.Machine.execCtxInstall die trunk ctx len nxt template s
  | .ctxWithdraw die trunk ctx => Sys2Proof.Machine.execCtxWithdraw die trunk ctx s
  | .ctxInstallCandidate die trunk ctx cand => Sys2Proof.Machine.execCtxInstallCandidate die trunk ctx cand s
  | .minerInterval die => Sys2Proof.Machine.execMinerInterval die s
  | .eliPropPop die req => Sys2Proof.Machine.execEliPropPop die req s
  | .trainingDone h fault failed => Sys2Proof.Machine.execTrainingDone h fault failed s
  | .readRetrain h => Sys2Proof.Machine.execReadRetrain h s
  | .refresh h rank bank how => Sys2Proof.Machine.execRefresh h rank bank how s
  | .hbmTempRead h temp => Sys2Proof.Machine.execHbmTempRead h temp s
  | .hbmStopLimit h => Sys2Proof.Machine.execHbmStopLimit h s
  | .patrolScrub h addr ecc => Sys2Proof.Machine.execPatrolScrub h addr ecc s
  | .pageCopyDone h words => Sys2Proof.Machine.execPageCopyDone h words s
  | .ceWindowEnd h => Sys2Proof.Machine.execCeWindowEnd h s
  | .counterUpdate h ecc => Sys2Proof.Machine.execCounterUpdate h ecc s
  | .counterRead h req => Sys2Proof.Machine.execCounterRead h req s
  | .counterReadClear h req => Sys2Proof.Machine.execCounterReadClear h req s
  | .counterReadDone h ecc => Sys2Proof.Machine.execCounterReadDone h ecc s
  | .set req => Sys2Proof.Machine.execSet req s
  | .step req => Sys2Proof.Machine.execStep req s
  | .slew req => Sys2Proof.Machine.execSlew req s
  | .timeAbort req => Sys2Proof.Machine.execTimeAbort req s
  | .slewComplete => Sys2Proof.Machine.execSlewComplete s
  | .slaveAligned => Sys2Proof.Machine.execSlaveAligned s
  | .timeNowLatch page req => Sys2Proof.Machine.execTimeNowLatch page req s
  | .capture input rising => Sys2Proof.Machine.execCapture input rising s
  | .timeCapPop req => Sys2Proof.Machine.execTimeCapPop req s
  | .timeTxPop page req => Sys2Proof.Machine.execTimeTxPop page req s
  | .chimeArm c req => Sys2Proof.Machine.execChimeArm c req s
  | .chimeCancel c req => Sys2Proof.Machine.execChimeCancel c req s
  | .chimePulse c => Sys2Proof.Machine.execChimePulse c s
  | .chimePulseEnd c => Sys2Proof.Machine.execChimePulseEnd c s
  | .pps => Sys2Proof.Machine.execPps s
  | .ppsEnd => Sys2Proof.Machine.execPpsEnd s
  | .meshExchange => Sys2Proof.Machine.execMeshExchange s
  | .sync port cell => Sys2Proof.Machine.execSync port cell s
  | .dreq port cell => Sys2Proof.Machine.execDreq port cell s
  | .resp port cell => Sys2Proof.Machine.execResp port cell s
  | .timeExchangeAbandon => Sys2Proof.Machine.execTimeExchangeAbandon s
  | .meshLost => Sys2Proof.Machine.execMeshLost s
  | .moduleInsert p => Sys2Proof.Machine.execModuleInsert p s
  | .moduleRemove p => Sys2Proof.Machine.execModuleRemove p s
  | .rstReq p req => Sys2Proof.Machine.execRstReq p req s
  | .resetRelease p => Sys2Proof.Machine.execResetRelease p s
  | .initPoll p mstate ident => Sys2Proof.Machine.execInitPoll p mstate ident s
  | .initTimeout p => Sys2Proof.Machine.execInitTimeout p s
  | .scanVisit p lower lanes disable watch intLow => Sys2Proof.Machine.execScanVisit p lower lanes disable watch intLow s
  | .modCmdRead m req => Sys2Proof.Machine.execModCmdRead m req s
  | .modCmdWrite m req => Sys2Proof.Machine.execModCmdWrite m req s
  | .modCmdDone m nack bytes => Sys2Proof.Machine.execModCmdDone m nack bytes s
  | .modCmdTimeout m => Sys2Proof.Machine.execModCmdTimeout m s
  | .twArm k req => Sys2Proof.Machine.execTwArm k req s
  | .twCancel k req => Sys2Proof.Machine.execTwCancel k req s
  | .twReserve k => Sys2Proof.Machine.execTwReserve k s
  | .twAck k ack => Sys2Proof.Machine.execTwAck k ack s
  | .modEvtPop req => Sys2Proof.Machine.execModEvtPop req s
  | .modAdvPop req => Sys2Proof.Machine.execModAdvPop req s
  | .ledgerRead req => Sys2Proof.Machine.execLedgerRead req s
  | .ledgerWrite req => Sys2Proof.Machine.execLedgerWrite req s
  | .perstRelease => Sys2Proof.Machine.execPerstRelease s
  | .ctoValueWrite code => Sys2Proof.Machine.execCtoValueWrite code s
  | .completionTimeout tag => Sys2Proof.Machine.execCompletionTimeout tag s
  | .completion tag ok data => Sys2Proof.Machine.execCompletion tag ok data s
  | .quarantineEnd tag => Sys2Proof.Machine.execQuarantineEnd tag s
  | .pcieDown => Sys2Proof.Machine.execPcieDown s
  | .l0pChange up => Sys2Proof.Machine.execL0pChange up s
  | .l1Entry => Sys2Proof.Machine.execL1Entry s
  | .powerStateChange d3 => Sys2Proof.Machine.execPowerStateChange d3 s
  | .functionLevelReset => Sys2Proof.Machine.execFunctionLevelReset s
  | .hotReset perst => Sys2Proof.Machine.execHotReset perst s
  | .channelStart ch req => Sys2Proof.Machine.execChannelStart ch req s
  | .channelStop ch req => Sys2Proof.Machine.execChannelStop ch req s
  | .channelStartDone ch => Sys2Proof.Machine.execChannelStartDone ch s
  | .channelStopDone ch => Sys2Proof.Machine.execChannelStopDone ch s
  | .dmaCtxInval data be req => Sys2Proof.Machine.execDmaCtxInval data be req s
  | .dbTail ch data be req => Sys2Proof.Machine.execDbTail ch data be req s
  | .dbArm ch data be req => Sys2Proof.Machine.execDbArm ch data be req s
  | .descriptorFetch ch => Sys2Proof.Machine.execDescriptorFetch ch s
  | .puntDelivery ch => Sys2Proof.Machine.execPuntDelivery ch s
  | .inject ch => Sys2Proof.Machine.execInject ch s
  | .writeList ch => Sys2Proof.Machine.execWriteList ch s
  | .coalTimeout ch => Sys2Proof.Machine.execCoalTimeout ch s
  | .ulxAligned port => Sys2Proof.Machine.execUlxAligned port s
  | .helloSend port => Sys2Proof.Machine.execHelloSend port s
  | .hello port cell => Sys2Proof.Machine.execHello port cell s
  | .data port cell => Sys2Proof.Machine.execData port cell s
  | .null port cell => Sys2Proof.Machine.execNull port cell s
  | .nak port cell => Sys2Proof.Machine.execNak port cell s
  | .ackTimeout port => Sys2Proof.Machine.execAckTimeout port s
  | .ulxCellSend port => Sys2Proof.Machine.execUlxCellSend port s
  | .ulxPortLeaveUp port => Sys2Proof.Machine.execUlxPortLeaveUp port s
  | .rsqTimeout die dev sdie vc => Sys2Proof.Machine.execRsqTimeout die dev sdie vc s
  | .peerHoldExpire dev => Sys2Proof.Machine.execPeerHoldExpire dev s
  | .portRetrain die data be req => Sys2Proof.Machine.execPortRetrain die data be req s
  | .txnRead die slot req => Sys2Proof.Machine.execTxnRead die slot req s
  | .txnWrite die slot req => Sys2Proof.Machine.execTxnWrite die slot req s
  | .request port cell => Sys2Proof.Machine.execRequest port cell s
  | .response port cell => Sys2Proof.Machine.execResponse port cell s
  | .txnTimeout die slot => Sys2Proof.Machine.execTxnTimeout die slot s
  | .txnQuarantineEnd die slot => Sys2Proof.Machine.execTxnQuarantineEnd die slot s
  | .winCommit die req => Sys2Proof.Machine.execWinCommit die req s
  | .winCommitDone die => Sys2Proof.Machine.execWinCommitDone die s
  | .errLogPop req => Sys2Proof.Machine.execErrLogPop req s
  | .logRecordLatch req => Sys2Proof.Machine.execLogRecordLatch req s
  | .scrubVisit m d addr ecc => Sys2Proof.Machine.execScrubVisit m d addr ecc s
  | .systemReset => Sys2Proof.Machine.execSystemReset s
  | .standbyLoss => Sys2Proof.Machine.execStandbyLoss s
  | .pcieLinkUp speed width flit => Sys2Proof.Machine.execPcieLinkUp speed width flit s
  | .sysRstNRelease => Sys2Proof.Machine.execSysRstNRelease s
  | .cellGrantedAfterWait die requester => Sys2Proof.Machine.execCellGrantedAfterWait die requester s
  | .openRowIdle h rank bank => Sys2Proof.Machine.execOpenRowIdle h rank bank s
  | .busAttemptRetry m => Sys2Proof.Machine.execBusAttemptRetry m s
  | .timedWriteTPassed k => Sys2Proof.Machine.execTimedWriteTPassed k s

end Sys2Proof.Machine
end

