-- ==== Sys2Proof/Safety.lean ====
section
/-! DEFINITION. What claims about the block speak of: the form of the trust anchors and of the
memories, and the commands that may lose the anchors. -/

namespace Sys2Proof.Machine

/-- SVC_KEY_EN holds four bits, and SVC_KEY_HASH is a canonical store of the twelve words of each of four slots (R149). -/
abbrev Trust.wf (t : Trust) : Prop :=
  t.keyEn < 16 ∧ Map.wf (fun _ => 0) t.keyHash = true ∧ ∀ e ∈ t.keyHash, e.1 < 64 ∧ e.1 % 16 < 12

/-- The commands at which the island's memory is lost, and the trust anchors with it (R411). -/
def losesIsland : Instr → Bool
  | .systemReset => true
  | .standbyLoss => true
  | _ => false

/-- The host can reach page `p` and its link is in L0 or L0p. -/
abbrev Dev.reachable (d : Dev) (p : Nat) : Prop := d.hostOpen = true ∧ d.lstate < 2 ∧ pageKind p ≠ .none ∧ d.pageOn p = true

/-- The addressed memories are in their canonical form: addresses strictly rise, and none is listed that holds what an
unlisted one reads as. Packet buffer, cell entries, control stores, lookup memory, HBM and its check bits. -/
def Memory.wf (d : Dev) : Bool :=
  Map.wf (fun _ => zeroCell) d.buf && Map.wf (fun _ => CellEntry.init) d.cells && Map.wf (fun _ => 0) d.cs.words &&
    Map.wf (fun _ => 0) d.lkp.mem && Map.wf (fun _ => 0) d.hbmMem && Map.wf (fun _ => false) d.hbmBad

end Sys2Proof.Machine
end

