-- ==== Sys2Proof/Certificates/Slice0/Obligations.lean ====
section
/-! DEFINITION. The statements for the provers, in the order of OBLIGATIONS.json. -/

open Sys2Proof Sys2Proof.Machine

/-- O1. A step runs exec on the front command with the rest of the queue; on an empty queue it is one clock cycle (log entries
1 and 2). Follows 00_scope.md, 01_architecture.md, 17_time_unit.md. -/
def Obligations.StepRunsTheFrontCommand : Prop :=
  (∀ (s : State) (c : Instr) (rest : List Instr), s.pending = c :: rest → step s = exec c { s with pending := rest }) ∧
  (∀ s : State, s.pending = [] → step s = .next { s with dev := s.dev.tick } ∧ s.dev.tick.power.clock = s.dev.power.clock + 1)

/-- O2. Every command in every state answers a next state and leaves the queue as it was. Follows 02_register_space.md,
21_errors_and_recovery.md, 00_scope.md. -/
def Obligations.EveryCommandAnswersAndLeavesTheQueue : Prop :=
  ∀ (c : Instr) (s : State), ∃ t, exec c s = .next t ∧ t.pending = s.pending

/-- O3. Every step keeps the form of the trust anchors. Follows 08_programs_and_epochs.md, R149, R411. -/
def Obligations.TrustAnchorsKeepTheirForm : Prop :=
  ∀ s t : State, s.trust.wf → step s = .next t → t.trust.wf

/-- O4. While IMAGE_POLICY is locked, no step but one that loses the island changes a trust anchor. Follows
08_programs_and_epochs.md, R149, R411. -/
def Obligations.LockedTrustAnchorsStay : Prop :=
  ∀ s t : State, s.trust.lock = true → (∀ c rest, s.pending = c :: rest → losesIsland c = false) → step s = .next t → t.trust = s.trust

/-- O5. The state after reset meets the invariants, in STANDBY with PD29 alone ON and every register at its reset value (log
entries 14, 17). Follows 03_power_and_clocks.md, 04_modes_and_function_control.md, 08_programs_and_epochs.md. -/
def Obligations.ResetIsWellFormed : Prop :=
  State.reset.pending = [] ∧ State.reset.trust.lock = false ∧ State.reset.trust.wf ∧ Memory.wf State.reset.dev = true ∧
    State.reset.dev.mode = 0 ∧ State.reset.dev.log.ring = [] ∧ State.reset.dev.out = [] ∧ State.reset.dev.hostOpen = true ∧
    (∀ n : Fin 30, State.reset.dev.domState n.val = if n.val = 29 then 3 else 0) ∧
    (∀ p o, State.reset.dev.word p o = resetWord p o) ∧
    (∀ h a n, State.reset.dev.hbmRead h a n = List.replicate n 0) ∧ ∀ c, State.reset.dev.cellBytes c = zeroCell

/-- O6. Every write of an addressed memory keeps the canonical form, reads back, and leaves every other place as it was.
Follows 11_buffer_pool.md, 16_hbm_controller.md, 08_programs_and_epochs.md, 02_register_space.md. -/
def Obligations.MemoryOperationsKeepTheForm : Prop :=
  ∀ (d : Dev) (a : Nat) (b : List Byte) (e : CellEntry) (c : Nat) (v : Word) (h : Nat), Memory.wf d = true →
    Memory.wf (d.writeCell a b) = true ∧ (d.writeCell a b).cellBytes a = splice (d.cellBytes a) 0 (b.take 256) ∧
    (∀ k, k ≠ a → (d.writeCell a b).cellBytes k = d.cellBytes k) ∧
    Memory.wf (d.setCell a e) = true ∧ (d.setCell a e).cell a = e ∧ (∀ k, k ≠ a → (d.setCell a e).cell k = d.cell k) ∧
    Memory.wf (d.csCommit c a v) = true ∧ (∀ s, Memory.wf (d.aptPut s a v) = true) ∧ Memory.wf (d.markBad h a) = true ∧
    (∀ q w p x, Memory.wf (d.setMem (putEntry d.lkp.mem q w p x)) = true) ∧
    ∀ port, Memory.wf (d.hbmWrite h port a b) = true ∧
    (∀ n, b.length = 4 * n → (d.hbmWrite h port a b).hbmRead h a (4 * n) = b) ∧
    (∀ x n, x % 4 = 0 → a % 4 = 0 → (x + n ≤ a ∨ a + 4 * ((b.length + 3) / 4) ≤ x) → (d.hbmWrite h port a b).hbmRead h x n = d.hbmRead h x n)

/-- O7. On a page that answers, SCRATCH holds any word, a read of a register returns it and clears its RC fields (RC_READ), and
INT_SET, ERR_CAP0 writes and SHADOW_CTL.DISCARD do what the page header says. Follows 02_register_space.md, R7, R21, R22, R70. -/
def Obligations.ScratchAndHeaderCommands : Prop :=
  (∀ (s : State) (p : Nat) (v : Word) (req : BitVec 16), s.dev.reachable p →
    exec (.regWrite 0 (65536 * p + 0x44) v 15 req) s = .next { s with dev := s.dev.setWord p 0x44 v } ∧
    exec (.rcRead 0 (65536 * p + 0x44) req) s = .next { s with dev := s.dev.emit (.readData (s.dev.word p 0x44)) } ∧
    (s.dev.setWord p 0x44 v).word p 0x44 = v ∧
    (∀ q o, csrKey q o ≠ csrKey p 0x44 → (s.dev.setWord p 0x44 v).word q o = s.dev.word q o)) ∧
  (∀ (s : State) (p o : Nat) (req : BitVec 16) (r : RegDesc), s.dev.reachable p → o < 65536 → o % 4 = 0 → regAt p o = some r → r.half = .single →
    pageKind p ≠ .err → pageKind p ≠ .eng → pageKind p ≠ .time →
    let d := s.dev.fecSeen p o
    exec (.rcRead 0 (65536 * p + o) req) s = .next { s with dev := (d.rcClear p o r).emit (.readData (d.shown p o)) } ∧
    (∀ f ∈ r.fields, f.acc = .rc → (d.rcClear p o r).get p ⟨o, f.lsb, f.wd⟩ = 0) ∧
    (∀ q u, csrKey q u ≠ csrKey p o → (d.rcClear p o r).word q u = d.word q u)) ∧
  (∀ (s : State) (page : Fin 256) (v : Word) (req : BitVec 16), s.dev.reachable page.val →
    let p := page.val
    (Nat.land v.toNat (2 ^ 32 - 1 - (2 ^ 30 * 3 + (pageKind p).blkMask)) = 0 →
      exec (.intSet page v req) s = .next { s with dev := (s.dev.raiseInt p v.toNat).intWritten p }) ∧
    exec (.captureRearm page v req) s =
      .next { s with dev := s.dev.setWord p 0x20 (BitVec.ofNat 32 (clrBit (clrBit
        (putBits (s.dev.word p 0x20).toNat 16 8 (Nat.land (bits (s.dev.word p 0x20).toNat 16 8) (255 - bits v.toNat 16 8))) 31) 30)) } ∧
    exec (.shadowDiscard page req) s = .next { s with dev := s.dev.discardShadow p })

/-- O8. Accesses to unassigned pages and pages without power, partial writes, and writes of reserved or read-only words change
only the error record. Follows 02_register_space.md, R7, R19, R24. -/
def Obligations.RefusedAccessesAreRecorded : Prop :=
  (∀ (s : State) (p o : Nat) (v : Word) (be : BitVec 4) (req : BitVec 16), s.dev.hostOpen = true → s.dev.lstate < 2 →
    p < 256 → o < 65536 → o % 4 = 0 →
    let rec_ (k : Nat) (data : Nat) (w : Bool) : Dev :=
      s.dev.capture { page := 0x04, kinds := [k], off := o, data := data, write := w, req := req.toNat, d5 := 65536 * p + o }
    (pageKind p = .none →
      exec (.rcRead 0 (65536 * p + o) req) s = .next { s with dev := (rec_ 0x0C 0 false).emit (.readData 0) } ∧
      exec (.regWrite 0 (65536 * p + o) v be req) s = .next { s with dev := rec_ 0x0C v.toNat true }) ∧
    (pageKind p ≠ .none → s.dev.pageOn p = false →
      exec (.rcRead 0 (65536 * p + o) req) s = .next { s with dev := (rec_ 0x0B 0 false).emit (.readData 0xFFFFFFFF) } ∧
      exec (.regWrite 0 (65536 * p + o) v be req) s = .next { s with dev := rec_ 0x0B v.toNat true })) ∧
  (∀ (s : State) (p o : Nat) (v : Word) (req : BitVec 16), s.dev.reachable p → o < 65536 → o % 4 = 0 →
    let rec_ (kinds : List Nat) : Dev := s.dev.capture { page := p, kinds := kinds, off := o, data := v.toNat, write := true, req := req.toNat }
    (∀ be : BitVec 4, be ≠ 15 → exec (.regWrite 0 (65536 * p + o) v be req) s = .next { s with dev := rec_ [0x06] }) ∧
    (0x48 ≤ o → o < 0x100 → exec (.regWrite 0 (65536 * p + o) v 15 req) s = .next { s with dev := rec_ (if v = 0 then [] else [0x04]) }) ∧
    (o = 0 → exec (.regWrite 0 (65536 * p + o) v 15 req) s =
      .next { s with dev := rec_ (0x01 :: if Nat.land v.toNat 0x7F00 = 0 then [] else [0x04]) }))

/-- O9. A pair is latched by the read of its low word and committed by the write of its high word. Follows
02_register_space.md, R6. -/
def Obligations.PairsLatchAndHold : Prop :=
  ∀ (s : State) (page : Fin 256) (dw : Fin 16384) (v : Word) (req : BitVec 16) (r : RegDesc),
    let p := page.val
    let o := 4 * dw.val
    s.dev.reachable p → regAt p o = some r → pageKind p ≠ .err → pageKind p ≠ .eng → pageKind p ≠ .time → pageKind p ≠ .lkp → isTrust p o = false →
    (r.half = .low →
      exec (.pairLowRead page dw req) s =
        .next { s with dev := (s.dev.latch p o (s.dev.shown p (o + 4))).emit (.readData (s.dev.shown p o)) } ∧
      (r.fields.any (fun f => f.acc = .rw) = true → p ≠ 1 → p ≠ 2 → s.dev.ignores p o v.toNat = [] → judgeWrite (some r) s.dev.mode (s.dev.shown p o).toNat v.toNat = [] →
        exec (.pairLowWrite page dw v 15 req) s = .next { s with dev := s.dev.holdLow p o (BitVec.ofNat 32 (r.newWord 0 0 v.toNat)) })) ∧
    (r.half = .high → 4 ≤ o →
      (∀ w, s.dev.csr.latches.find? (csrKey p (o - 4)) = some w →
        exec (.pairHighRead page dw req) s = .next { s with dev := s.dev.emit (.readData w) }) ∧
      (s.dev.csr.latches.find? (csrKey p (o - 4)) = none →
        exec (.pairHighRead page dw req) s =
          .next { s with dev := (s.dev.capture { page := p, kinds := [0x05], off := o, req := req.toNat }).emit (.readData (s.dev.shown p o)) }) ∧
      (r.fields.any (fun f => f.acc = .rw) = true → p ≠ 1 → p ≠ 2 → s.dev.ignores p o v.toNat = [] → judgeWrite (some r) s.dev.mode (s.dev.shown p o).toNat v.toNat = [] → 0x100 ≤ o →
        exec (.pairHighWrite page dw v 15 req) s =
          .next { s with dev := ((s.dev.dropLow p (o - 4)).writeShadow p (o - 4) (BitVec.ofNat 32 (s.dev.heldLow p (o - 4)))).writeShadow p o v }))

/-- O10. Aperture accesses reach their target or are refused, and an entry window runs one READ or WRITE at a time and ends it
with R33's code. Follows 02_register_space.md, R31, R33. -/
def Obligations.WindowsReachTheirMemories : Prop :=
  (∀ (s : State) (n : Fin 16) (dw : Fin 4194304) (v : Word) (req : BitVec 16), s.dev.hostOpen = true → s.dev.lstate < 2 →
    let a := 0x2000000 + 0x1000000 * n.val + 4 * dw.val
    let b := s.dev.get hifPage (F.HIF_APT_BASE_BASE.at (8 * n.val)) * 65536 + 4 * dw.val
    let sp := s.dev.aptSpace (s.dev.get hifPage (F.HIF_APT_CTL_TARGET.at (8 * n.val)))
    (s.dev.aptRefuse sp b = none →
      ((∀ h, sp = .stack h → Map.rd false s.dev.hbmBad (hbmKey h b) = false) →
        exec (.apertureRead n dw .clean req) s =
          .next { s with dev := (match sp with | .stack h => s.dev.hbmNow h 4 false b 4 | _ => s.dev).emit (.readData (s.dev.aptWord sp b)) }) ∧
      exec (.apertureWrite n dw v 15 req) s = .next { s with dev := s.dev.aptPut sp b v } ∧
      (∀ be : BitVec 4, be ≠ 15 → exec (.apertureWrite n dw v be req) s = .next { s with dev := s.dev.winErr a [0x06] v.toNat req.toNat true })) ∧
    (∀ k, s.dev.aptRefuse sp b = some k →
      (∀ ecc, exec (.apertureRead n dw ecc req) s =
        .next { s with dev := (s.dev.winErr a [k] 0 req.toNat false).emit (.readData (if k = 0x0B then 0xFFFFFFFF else 0)) }) ∧
      (∀ be, exec (.apertureWrite n dw v be req) s = .next { s with dev := s.dev.winErr a [k] v.toNat req.toNat true }))) ∧
  (∀ (s : State) (w : Fin 256) (req : BitVec 16),
    let x := s.dev.ew w.val
    (s.dev.hostOpen = true → s.dev.lstate < 2 → x.busy = false → s.dev.ewNamed x.space x.inst = true → x.space ≠ 7 →
      exec (.ewRead w req) s = .next { s with dev := s.dev.setEw w.val { x with busy := true, done := false, error := false, bytes := ewBytes x.space, op := 1 } } ∧
      exec (.ewWrite w req) s = .next { s with dev := s.dev.setEw w.val { x with busy := true, done := false, error := false, bytes := ewBytes x.space, op := 2 } }) ∧
    (s.dev.hostOpen = true → s.dev.lstate < 2 → x.busy = true →
      exec (.ewRead w req) s = .next { s with dev := s.dev.winErr (0x12000000 + 4096 * w.val + 8) [0x0D] 1 req.toNat true } ∧
      exec (.ewWrite w req) s = .next { s with dev := s.dev.winErr (0x12000000 + 4096 * w.val + 8) [0x0D] 2 req.toNat true }) ∧
    (x.busy = true → x.space ≠ 7 →
      (∀ ecc, s.dev.ewRefuse x.space x.inst x.index.toNat ≠ 0 →
        exec (.ewDone w ecc) s = .next { s with dev := s.dev.setEw w.val { x with
          busy := false, done := true, error := true, code := s.dev.ewRefuse x.space x.inst x.index.toNat } }) ∧
      (s.dev.ewRefuse x.space x.inst x.index.toNat = 0 → x.op = 1 → s.dev.entryBad x.space x.inst x.index.toNat = false →
        ∃ t, exec (.ewDone w .clean) s = .next t ∧ (t.dev.ew w.val).busy = false ∧ (t.dev.ew w.val).done = true ∧
          (t.dev.ew w.val).error = false ∧ (t.dev.ew w.val).code = 0 ∧
          t = { s with dev := s.dev.setEw w.val (t.dev.ew w.val) } ∧
          ∀ k, k < (s.dev.entryRead x.space x.inst x.index.toNat).length →
            Map.rd 0 (t.dev.ew w.val).data k = (s.dev.entryRead x.space x.inst x.index.toNat).getD k 0) ∧
      (s.dev.ewRefuse x.space x.inst x.index.toNat = 0 → x.op = 2 →
        let r := s.dev.entryWrite x.space x.inst x.index.toNat ((List.range (ewBytes x.space / 4)).map fun k => Map.rd 0 x.data k)
        exec (.ewDone w .clean) s = .next { s with dev := r.2.setEw w.val { r.2.ew w.val with busy := false, done := true, error := r.1 != 0, code := r.1 } }) ∧
      (x.op = 1 → exec (.ewTimeout w) s = .next { s with dev := ({ s.dev with fresh := s.dev.fresh + 1 } : Dev).setEw w.val { x with
          busy := false, done := true, error := true, code := 5, late := x.late + 1 } })) ∧
    (x.late ≠ 0 → exec (.ewLate w) s = .next { s with dev := ((s.dev.setEw w.val { x with late := x.late - 1 }).cnt 0x04 F.ERR_MISC_CNT_COUNT 0).event 0x05 5 5 w.val x.space x.index.toNat }))

/-- O11. Microwords are written and read while their cluster is stopped, and VERIFY ends with the image valid or the code of
the first check it fails. Follows 02_register_space.md, 08_programs_and_epochs.md, R29, R147, R149. The hash and curve
constants are PRESUMED (log entry 82). -/
def Obligations.ProgramsAreLoadedAndVerified : Prop :=
  (∀ (s : State) (c : Fin 64) (a : Fin 16384) (v : Word) (req : BitVec 16),
    s.dev.hostOpen = true → s.dev.lstate < 2 → s.dev.pageOn (engPage c.val) = true →
    let key := 16384 * c.val + a.val
    let live : BitVec 192 := Map.rd 0 s.dev.cs.words key
    (s.dev.csOpen c.val = true →
      (∀ k : Fin 5, exec (.csWordWrite c a k v 15 req) s =
        .next { s with dev := ({ s.dev with cs := { s.dev.cs with held := s.dev.cs.held.wr none (8 * key + k.val) (some v) } } : Dev).imgInvalidate c.val }) ∧
      (let word (k : Nat) : Nat := match Map.rd none s.dev.cs.held (8 * key + k) with
        | some w => w.toNat
        | none => bits live.toNat (32 * k) 32
      let w : BitVec 192 := BitVec.ofNat 192 (((List.range 5).map fun k => word k * 2 ^ (32 * k)).sum + v.toNat * 2 ^ 160)
      exec (.csCommit c a v 15 req) s =
        .next { s with dev := ({ s.dev with cs := { s.dev.cs with words := s.dev.cs.words.wr 0 key w, held := s.dev.cs.held.dropRange (8 * key) (8 * key + 8), bad := s.dev.cs.bad.wr false key false } } : Dev).imgInvalidate c.val })) ∧
    (s.dev.csOpen c.val = false →
      (∀ k : Fin 5, exec (.csWordWrite c a k v 15 req) s =
        .next { s with dev := s.dev.winErr (0x80000 * c.val + 32 * a.val + 4 * k.val) [0x09] v.toNat req.toNat true }) ∧
      exec (.csCommit c a v 15 req) s =
        .next { s with dev := s.dev.winErr (0x80000 * c.val + 32 * a.val + 20) [0x09] v.toNat req.toNat true }) ∧
    exec (.csWord0Read c a req) s =
      .next { s with dev := ({ s.dev with cs := { s.dev.cs with latch := s.dev.cs.latch.wr none key (some live) } } : Dev).emit (.readData (live.extractLsb' 0 32)) }) ∧
  (∀ (s : State) (c : Fin 64) (req : BitVec 16),
    let p := engPage c.val
    let code := s.dev.imgCode s.trust c.val
    let done (d : Dev) (code : Nat) : Dev := (d.set p F.ENG_IMG_STAT_BUSY 0).set p F.ENG_IMG_STAT_CODE code
    (s.dev.reachable p → s.dev.csOpen c.val = true → exec (.verify c req) s = .next { s with dev := (s.dev.imgInvalidate c.val).set p F.ENG_IMG_STAT_BUSY 1 }) ∧
    (s.dev.get p F.ENG_IMG_STAT_BUSY = 1 →
      (code ≠ 0 → s.dev.csKnownBad c.val = false → exec (.verifyDone c .clean) s = .next { s with dev := (((done s.dev code).err p 0x23 code).int p 6).int p 5 }) ∧
      (let d := done (s.dev.eccCount 3 (c.val / 32) .bad) 12
       exec (.verifyDone c .bad) s = .next { s with dev := ((d.err p 0x23 12).int p 6).int p 5 }) ∧
      (s.dev.csKnownBad c.val = true →
        let d := done (s.dev.eccCount 3 (c.val / 32) .bad) 12
        exec (.verifyDone c .clean) s = .next { s with dev := ((d.err p 0x23 12).int p 6).int p 5 }) ∧
      (code = 0 → s.dev.csKnownBad c.val = false →
        let d0 := done s.dev 0
        let h := d0.regBytes p 0x0500 80
        let tag := beAt (d0.regBytes p 0x0700 64) 8 8
        let d1 := (d0.fillAbort c.val (sectionsOf h (beAt h 0x0C 2))).setWord p 0x0410 (BitVec.ofNat 32 (beAt h 0x10 2 + beAt h 0x12 2 * 2 ^ 16))
        let d2 := ((d1.set p F.ENG_IMG_TRAP_BASE (beAt h 0x14 2)).setWord p 0x0408 (BitVec.ofNat 32 tag)).setWord p 0x040C (BitVec.ofNat 32 (tag / 2 ^ 32))
        exec (.verifyDone c .clean) s = .next { s with dev := (d2.set p F.ENG_IMG_STAT_VALID 1).int p 5 })) ∧
    (s.dev.get p F.ENG_IMG_STAT_BUSY = 0 → exec (.verifyDone c .clean) s = .next s) ∧
    (s.dev.reachable 0x01 → s.trust.lock = false → exec (.imagePolicyLock req) s = .next { s with trust := { s.trust with lock := true } }))

/-- O12. A rising interrupt line sends its MSI-X message, or sets its pending bit while the vector is masked or the link is shut;
unmasking sends what is pending. Follows 02_register_space.md, 19_host_interface.md, R35, R36, R352. The MSI-X table at reset
and its layout are PRESUMED (log entry 16), a message that waits for a shut link is the model's (log entry 175). -/
def Obligations.InterruptMessagesFollowTheLine : Prop :=
  (∀ (s : State) (v : Fin 2048), s.dev.hostOpen = true → s.dev.lstate < 2 →
    let m := s.dev.msix
    let table := m.table.wr 1 (4 * v.val + 3) 0
    (Map.rd false m.pba v.val = false → exec (.msixUnmask v) s = .next { s with dev := { s.dev with msix := { m with table := table } } }) ∧
    (Map.rd false m.pba v.val = true →
      let addr := (Map.rd 0 m.table (4 * v.val)).toNat + 2 ^ 32 * (Map.rd 0 m.table (4 * v.val + 1)).toNat
      let sent : Out := .msix v.val addr (Map.rd 0 m.table (4 * v.val + 2)).toNat
      exec (.msixUnmask v) s = .next { s with dev := ({ s.dev with msix := { table := table, pba := m.pba.wr false v.val false } } : Dev).emit sent })) ∧
  (∀ (d : Dev) (p mask : Nat), p < 256 →
    let v := d.get 0x05 (F.HIF_INT_ROUTE_VECTOR.at (4 * p))
    ((d.line p = true ∨ (d.raiseInt p mask).line p = false ∨ d.get 0x05 (F.HIF_INT_ROUTE_EN.at (4 * p)) = 0) →
      (d.setInt p mask).out = d.out ∧ (d.setInt p mask).msix = d.msix) ∧
    (d.line p = false → (d.raiseInt p mask).line p = true → d.get 0x05 (F.HIF_INT_ROUTE_EN.at (4 * p)) = 1 → d.domOn 29 = true →
      (bit (Map.rd 1 d.msix.table (4 * v + 3)).toNat 0 = true ∨ d.hostShut = true →
        (d.setInt p mask).out = d.out ∧ (d.setInt p mask).msix = { d.msix with pba := d.msix.pba.wr false v true }) ∧
      (bit (Map.rd 1 d.msix.table (4 * v + 3)).toNat 0 = false → d.hostShut = false →
        (d.setInt p mask).msix = d.msix ∧ (d.setInt p mask).out =
          .msix v ((Map.rd 0 d.msix.table (4 * v)).toNat + 2 ^ 32 * (Map.rd 0 d.msix.table (4 * v + 1)).toNat) (Map.rd 0 d.msix.table (4 * v + 2)).toNat :: d.out))) ∧
  (∀ (d : Dev) (v : Fin 2048), d.msix.pba = [(v.val, true)] → d.domOn 29 = true →
    let held := bit (Map.rd 1 d.msix.table (4 * v.val + 3)).toNat 0 = true ∨ d.hostShut = true
    (held → d.sendPending = d) ∧
    (¬ held → d.sendPending = ({ d with msix := { d.msix with pba := [] } } : Dev).emit
      (.msix v.val ((Map.rd 0 d.msix.table (4 * v.val)).toNat + 2 ^ 32 * (Map.rd 0 d.msix.table (4 * v.val + 1)).toNat) (Map.rd 0 d.msix.table (4 * v.val + 2)).toNat)))

/-- O13. INT_FIRST keeps the first interrupt of a page and ERR_CAP keeps its first error record. Follows 02_register_space.md,
R21, R22. -/
def Obligations.TheFirstInterruptAndRecordAreKept : Prop :=
  (∀ (d : Dev) (p mask : Nat), p < 256 → 0 < mask → mask < 2 ^ 32 →
    (d.setInt p mask).word p 0x10 = (d.word p 0x10 ||| BitVec.ofNat 32 mask) ∧
    (d.word p 0x10 = 0 → (d.setInt p mask).get p ⟨0x1C, 31, 1⟩ = 1 ∧ bit mask ((d.setInt p mask).get p ⟨0x1C, 0, 5⟩) = true ∧
      ∀ i, i < (d.setInt p mask).get p ⟨0x1C, 0, 5⟩ → bit mask i = false) ∧
    (d.word p 0x10 ≠ 0 → (d.setInt p mask).word p 0x1C = d.word p 0x1C) ∧
    (∀ q o, o < 65536 → ¬(q = p ∧ (o = 0x10 ∨ o = 0x1C)) → (d.setInt p mask).word q o = d.word q o)) ∧
  (∀ (d : Dev) (c : Cap), c.page < 256 → c.kinds ≠ [] → (∀ k ∈ c.kinds, k < 64) →
    (d.get c.page H.VALID = 1 →
      (d.capture c).get c.page H.OVF = 1 ∧ (d.capture c).get c.page H.VALID = 1 ∧ (d.capture c).get c.page ⟨0x20, 0, 16⟩ = d.get c.page ⟨0x20, 0, 16⟩ ∧
      (d.capture c).get c.page ⟨0x20, 24, 6⟩ = d.get c.page ⟨0x20, 24, 6⟩ ∧ ∀ o, 0x24 ≤ o → o < 0x40 → (d.capture c).word c.page o = d.word c.page o) ∧
    (d.get c.page H.VALID = 0 →
      (d.capture c).get c.page H.VALID = 1 ∧ (d.capture c).get c.page H.OVF = 0 ∧ (d.capture c).get c.page ⟨0x20, 0, 16⟩ = c.off % 2 ^ 16 ∧
      (d.capture c).get c.page ⟨0x20, 24, 6⟩ ∈ c.kinds ∧ (∀ k ∈ c.kinds, (d.capture c).get c.page ⟨0x20, 24, 6⟩ ≤ k) ∧
      (d.capture c).word c.page 0x24 = BitVec.ofNat 32 c.data ∧ (d.capture c).word c.page 0x28 = BitVec.ofNat 32 (c.req % 2 ^ 16 + b2n c.write * 2 ^ 16) ∧
      (d.capture c).word c.page 0x2C = BitVec.ofNat 32 d.time.ns ∧ (d.capture c).word c.page 0x30 = BitVec.ofNat 32 d.time.sec ∧
      (d.capture c).word c.page 0x34 = BitVec.ofNat 32 c.d5 ∧ (d.capture c).word c.page 0x38 = BitVec.ofNat 32 c.d6 ∧ (d.capture c).word c.page 0x3C = BitVec.ofNat 32 c.d7 ∧
      bit ((d.capture c).word c.page 0x10).toNat 31 = true))

/-- O14. The event log keeps the newest 4,096 records in order, is read and popped oldest first, and the scrubber counts and
contains what it finds. Follows 21_errors_and_recovery.md, R389, R390, R392. Word addresses of SCRUB_VISIT are the model's
(log entry 136). -/
def Obligations.TheLogKeepsItsNewestRecords : Prop :=
  (∀ (d : Dev) (r : LogRec),
    let seq := d.get 0x04 F.ERR_LOG_SEQ_SEQ
    let w := r.words d.time.sec d.time.ns seq
    (d.log.ring.length < 4096 → (d.pushLog r).log.ring = d.log.ring ++ [w] ∧ (d.pushLog r).log.latch = d.log.latch) ∧
    (4096 ≤ d.log.ring.length → (d.pushLog r).log.ring = d.log.ring.drop 1 ++ [w] ∧ (d.pushLog r).log.latch = none ∧
      bit ((d.pushLog r).word 0x04 0x10).toNat 1 = true ∧ (d.pushLog r).get 0x04 F.ERR_LOG_STAT_LOST = satAdd 16 (d.get 0x04 F.ERR_LOG_STAT_LOST) 1) ∧
    (d.log.ring.length ≤ 4096 → (d.pushLog r).log.ring.length ≤ 4096 ∧ (d.pushLog r).get 0x04 F.ERR_LOG_STAT_COUNT = (d.pushLog r).log.ring.length) ∧
    (d.pushLog r).get 0x04 F.ERR_LOG_SEQ_SEQ = (seq + 1) % 2 ^ 32 ∧
    ((r.cls = 1 ∨ r.cls = 2) → bit ((d.pushLog r).word 0x04 0x10).toNat 2 = true) ∧ (r.cls = 7 → bit ((d.pushLog r).word 0x04 0x10).toNat 4 = true) ∧
    (bit (d.get 0x04 F.ERR_CFG_LOG_EN) r.cls = false → r.cls < 8 → (d.post r).log = d.log)) ∧
  ((∀ (s : State) (req : BitVec 16), s.dev.reachable 0x04 →
    (s.dev.log.ring = [] → exec (.errLogPop req) s = .next s ∧ exec (.logRecordLatch req) s = .next { s with dev := s.dev.emit (.readData 0) }) ∧
    (∀ w l, s.dev.log.ring = w :: l →
      (let u : Dev := { s.dev with log := { s.dev.log with ring := l, latch := none } }
       exec (.errLogPop req) s = .next { s with dev := u.set 0x04 F.ERR_LOG_STAT_COUNT l.length }) ∧
      (let u : Dev := { s.dev with log := { s.dev.log with latch := some w } }
       exec (.logRecordLatch req) s = .next { s with dev := u.emit (.readData (w.getD 0 0)) }) ∧
      (∀ k : Fin 8, k.val ≠ 0 → s.dev.log.latch = some w →
        exec (.rcRead 0 (65536 * 0x04 + 0x0120 + 4 * k.val) req) s = .next { s with dev := s.dev.emit (.readData (w.getD k.val 0)) }) ∧
      (∀ k : Fin 8, k.val ≠ 0 → s.dev.log.latch = none →
        let r : Cap := { page := 0x04, kinds := [0x05], off := 0x0120 + 4 * k.val, req := req.toNat }
        exec (.rcRead 0 (65536 * 0x04 + 0x0120 + 4 * k.val) req) s = .next { s with dev := (s.dev.capture r).emit (.readData (w.getD k.val 0)) }))) ∧
  (∀ (s : State) (m : Fin 8) (die : Fin 2) (addr : Nat) (ecc : Ecc),
    let seen : Dev := { s.dev with log := { s.dev.log with visited := true } }
    ((s.dev.get 0x04 F.ERR_SCRUB_EN = 0 ∨ s.dev.pageOn (scrubPage m.val die.val addr) = false) → exec (.scrubVisit m die addr ecc) s = .next s) ∧
    (s.dev.get 0x04 F.ERR_SCRUB_EN ≠ 0 → s.dev.pageOn (scrubPage m.val die.val addr) = true →
      exec (.scrubVisit m die addr .clean) s = .next { s with dev := seen } ∧
      exec (.scrubVisit m die addr .corrected) s = .next { s with dev := seen.eccCount m.val die.val .corrected } ∧
      (m = 1 → addr < 262144 → (s.dev.cell (262144 * die.val + addr)).alloc = true →
        let u := (seen.eccCount 1 die.val .bad).event (bpmPage die.val) 4 2 1 addr (pageInst (bpmPage die.val))
        exec (.scrubVisit m die addr .bad) s =
          .next { s with dev := u.setCell (262144 * die.val + addr) { s.dev.cell (262144 * die.val + addr) with ue := true } }))))

/-- O15. FN_START and FN_STOP follow the function state and its dependencies, and the function arrives at RUNNING or STOPPED.
Follows 04_modes_and_function_control.md, R65, R66, R67, R68. -/
def Obligations.FunctionsStartAndStop : Prop :=
  (∀ (s : State) (page : Fin 256) (req : BitVec 16),
    let p := page.val
    let dep (b v : Nat) : Dev := s.dev.capture { page := p, kinds := [0x0E], off := 0x08, data := v, write := true, req := req.toNat, d5 := b }
    s.dev.reachable p → hasFunction p = true → s.dev.modes.stopping = false →
    (s.dev.fn p = 0 → s.dev.startBlocker p = none → exec (.fnStart page req) s = .next { s with dev := (s.dev.goStart p true).afterStart p }) ∧
    (s.dev.fn p = 0 → s.dev.startBlocker p = none → pageKind p = .eng →
      let d := ((s.dev.setFn p 1 0).applyOf p).resetRr p
      d.get p F.ENG_IMG_STAT_VALID = 0 →
        exec (.fnStart page req) s = .next { s with dev := ((((d.setFn p 0 0).int p 30).err p 0x0F 1)).afterStart p }) ∧
    (∀ b, s.dev.fn p = 0 → s.dev.startBlocker p = some b → exec (.fnStart page req) s = .next { s with dev := dep b 1 }) ∧
    (s.dev.fn p = 1 → exec (.fnStart page req) s = .next { s with dev := (s.dev.gang p).foldl (fun d q => d.set q H.PENDING 0) s.dev } ∧
      exec (.fnStop page req) s = .next { s with dev := (s.dev.gang p).foldl (fun d q => d.set q H.PENDING 1) s.dev }) ∧
    (s.dev.fn p = 2 → exec (.fnStart page req) s = .next s ∧
      (s.dev.stopBlockers p = [] → exec (.fnStop page req) s = .next { s with dev := s.dev.goStop p }) ∧
      (∀ b, (s.dev.stopBlockers p).min? = some b → exec (.fnStop page req) s = .next { s with dev := dep b 2 })) ∧
    (s.dev.fn p = 3 → exec (.fnStart page req) s = .next { s with dev := (s.dev.gang p).foldl (fun d q => d.set q H.PENDING 1) s.dev } ∧
      exec (.fnStop page req) s = .next { s with dev := (s.dev.gang p).foldl (fun d q => d.set q H.PENDING 0) s.dev }) ∧
    (s.dev.fn p = 0 → exec (.fnStop page req) s = .next s)) ∧
  (∀ (s : State) (page : Fin 256),
    let p := page.val
    hasFunction p = true → s.dev.pageOn p = true → s.dev.gang p = [p] → s.dev.get p H.PENDING ≠ 1 →
    (s.dev.fn p = 1 → ¬(pageKind p = .hbm ∧ (s.dev.hbm (pageInst p)).training = true) →
      exec (.fnStartDone page) s = .next { s with dev := (((s.dev.setFn p 2 0).int p 30).fnRunning p).pump }) ∧
    (s.dev.fn p = 3 → s.dev.modes.stopping = false →
      (s.dev.workDone p = true → exec (.fnStopDone page) s = .next { s with dev := (((s.dev.stopEnd p).setFn p 0 0).int p 30).pump }) ∧
      (s.dev.workDone p = false → exec (.fnStopDone page) s = .next s)))

/-- O16. The power inputs start the island and the conversion, requests queue domains, the sequencer switches one at a time,
telemetry shows what was measured. Follows 03_power_and_clocks.md, R38, R39, R42, R44, R47, R48, R49, R51, R54, R411. A
repeated MAIN_INPUT_VALID after the island starts is log entry 58, the place of REF_OK log entry 59. -/
def Obligations.DomainsAreSwitchedInOrder : Prop :=
  (∀ (s : State) (id : Fin 4),
    exec .standbyInRange s = .next { s with dev := s.dev.setPower { s.dev.power with standbyOk := true } } ∧
    exec .sysRstNRelease s = .next { s with dev := s.dev.setPower { s.dev.power with rstLow := false } } ∧
    (s.dev.power.island = false → s.dev.power.standbyOk = true → s.dev.power.rstLow = false →
      ∃ t, exec (.islandStart id) s = .next t ∧ t.pending = s.pending ∧ t.trust = s.trust ∧ t.dev.power.island = true ∧ t.dev.power.uxId = id.val ∧
        t.dev.power.bus = false ∧ t.dev.power.stage1 = false ∧ t.dev.power.onQueue = [] ∧ t.dev.power.offQueue = [] ∧ ∀ n, n < 30 → t.dev.domState n = 0) ∧
    (s.dev.power.island = true → s.dev.power.lossSeen = false →
      exec .mainInputValid s = .next { s with dev := s.dev.setPower { s.dev.power with vinValid := true, stage1 := true } }) ∧
    (s.dev.power.island = false → exec .mainInputValid s = .next { s with dev := s.dev.setPower { s.dev.power with vinValid := true } }) ∧
    (s.dev.power.stage1 = true → exec .busInRegulation s = .next { s with dev := s.dev.setPower { s.dev.power with bus := true } }) ∧
    (s.dev.power.bus = true → s.dev.power.island = true → s.dev.domState 29 = 0 → 29 ∉ s.dev.power.onQueue →
      ∃ t, exec .rootPllLock s = .next t ∧ t.dev.get 0x03 F.CLK_STAT_ROOT_LOCK = 1 ∧ t.dev.get 0x03 F.CLK_STAT_ALIGN_OK = 1 ∧
        t.dev.power = { s.dev.power with onQueue := 29 :: s.dev.power.onQueue } ∧ ∀ q o, csrKey q o ≠ csrKey 0x03 F.CLK_STAT_ROOT_LOCK.off → t.dev.word q o = s.dev.word q o)) ∧
  (∀ (s : State) (n : Nat), n < 30 →
    let p := s.dev.power
    (p.current = none → p.offQueue = [] → seqOrder.find? p.onQueue.contains = some n → p.bus = true → s.dev.prereqsOn n = true →
      exec .domainRampStart s = .next { s with dev := (s.dev.setPower { p with onQueue := p.onQueue.filter (· ≠ n), current := some n }).setDom n 1 }) ∧
    (p.current = some n → s.dev.domState n = 1 → exec .domainRampDone s = .next { s with dev := s.dev.setDom n 2 }) ∧
    (p.current = some n → s.dev.domState n = 2 → n ≠ 29 → s.dev.domPending n = false → s.dev.prereqsOn n = true →
      let d := if n = 28 then { s.dev.wipe n with time := s.dev.time } else s.dev.wipe n
      exec .domainInitDone s = .next { s with dev := (((d.setPower { d.power with current := none }).setDom n 3).setDomPending n false).endChange n false }) ∧
    (p.current = none → seqOrder.reverse.find? p.offQueue.contains = some n →
      exec .domainSwitchOff s = .next { s with dev := ((s.dev.setPower { p with current := some n, offQueue := p.offQueue.filter (· ≠ n) }).setDom n 4).wipe n }) ∧
    (p.current = some n → s.dev.domState n = 4 → s.dev.domPending n = false →
      exec .domainDischargeDone s = .next { s with dev := (((s.dev.setPower { p with current := none }).setDom n 0).setDomPending n false).endChange n false })) ∧
  (∀ (s : State) (n : Nat) (data : Word) (req : BitVec 16) (supply rails : List Word) (temps : List (BitVec 12)) (dom : Fin 30), n < 30 →
    (s.dev.reachable 0x02 → n ≠ 29 → (s.dev.mode = 0 → 26 < n) → s.dev.power.trip = false → bit s.dev.domReq n = false →
      data.toNat = 2 ^ 29 + 2 ^ n + s.dev.domReq → s.dev.domState n = 0 → bit (s.dev.get 0x02 F.PWR_DOM_FAULT_FAULT) n = false →
      (∀ p ∈ s.dev.prereqs n, s.dev.domOn p = true) →
      let p := s.dev.power
      exec (.domainRequest data 15 req) s = .next { s with dev := (s.dev.setDomReq (s.dev.domReq + 2 ^ n)).setPower { p with changes := p.changes ++ [[n]], onQueue := n :: p.onQueue.filter (· ≠ n) } }) ∧
    (s.dev.reachable 0x02 → data.toNat = 2 ^ n → bit (s.dev.get 0x02 F.PWR_DOM_FAULT_FAULT) n = true → s.dev.domState n = 5 →
      exec (.faultClear data 15 req) s = .next { s with dev := (s.dev.set 0x02 F.PWR_DOM_FAULT_FAULT (clrBit (s.dev.get 0x02 F.PWR_DOM_FAULT_FAULT) n)).setDom n 0 }) ∧
    (s.dev.power.island = true →
      (let d := (s.dev.int 0x02 5).err 0x02 0x24
       let rail := (domRails dom.val).getD ((Config.freeWord d.fresh).toNat % (domRails dom.val).length) 0
       exec (.linkTimeout (some dom)) s = .next { s with dev := ({ d with fresh := d.fresh + 1 } : Dev).domainFault dom.val rail }) ∧
      ∃ t, exec (.telemetryUpdate supply rails temps) s = .next t ∧ t.pending = s.pending ∧ t.trust = s.trust ∧
        (∀ i, i < 3 → t.dev.word 0x02 (0x010C + 4 * i) = supply.getD i 0) ∧
        (∀ i, i < 30 → t.dev.word 0x02 (0x0280 + 4 * i) = if s.dev.domState i = 2 ∨ s.dev.domState i = 3 then rails.getD i 0 else 0) ∧
        (∀ i, i < 16 → t.dev.get 0x02 (F.PWR_TEMP_TEMP.at (4 * i)) = if i < temps.length then (temps.getD i 0).toNat else s.dev.get 0x02 (F.PWR_TEMP_TEMP.at (4 * i)))))

/-- O17. SYSTEM_RESET and STANDBY_LOSS lose the trust anchors, the log and the mode, and leave domains and pages beyond the
island (log entry 57). Follows 22_package_and_ratings.md, 08_programs_and_epochs.md, R411. -/
def Obligations.IslandLossClearsTheAnchors : Prop :=
  ∀ s : State,
    (∃ t, exec .systemReset s = .next t ∧ t.pending = s.pending ∧ t.trust = Trust.reset ∧ t.dev.log = ErrLog.reset ∧ t.dev.modes = Modes.reset ∧
      t.dev.power.island = false ∧ t.dev.power.rstLow = true ∧ (∀ n, n < 30 → t.dev.domState n = s.dev.domState n) ∧
      ∀ q o, 5 ≤ q → o < 65536 → t.dev.word q o = s.dev.word q o) ∧
    (∃ t, exec .standbyLoss s = .next t ∧ t.pending = s.pending ∧ t.trust = Trust.reset ∧ t.dev.log = ErrLog.reset ∧ t.dev.modes = Modes.reset ∧
      t.dev.power.island = false ∧ t.dev.power.standbyOk = false ∧ (∀ n, n < 30 → t.dev.domState n = s.dev.domState n) ∧
      ∀ q o, 5 ≤ q → o < 65536 → t.dev.word q o = s.dev.word q o)

/-- O18. A rail fault contains its domain, a retried or late command of the power link counts, PD29 ramps again after its fault,
and input loss, the watchdog and a thermal trip switch domains off: each command with the state it completes in. Follows
03_power_and_clocks.md, R37, R40, R41, R42, R43, R45, R51. How dependents go off is log entry 51, when a trip is recorded log
entry 53, a fault with the island stopped log entry 143, the order of the two records of a failed command log entry 145. -/
def Obligations.FaultsAndTripsSwitchDomainsOff : Prop :=
  (∀ (s : State) (dom : Fin 30) (rail : Fin 7),
    let n := dom.val
    let up := s.dev.domState n = 1 ∨ s.dev.domState n = 2 ∨ s.dev.domState n = 3
    (up → (domRails n).contains rail.val = true → s.dev.power.island = true → exec (.railFault dom rail) s =
      .next { s with dev :=
        let deps := (s.dev.dependents n).filter s.dev.powered
        let d := ((((s.dev.int 0x02 2).err 0x02 0x23 n rail.val).loseDomain n 5).leaveSequencer n)
        let faults := if n = 29 then (d.power.clock :: d.power.pd29Faults).take 3 else d.power.pd29Faults
        let d := d.setPower { d.power with onQueue := d.power.onQueue.filter (· ≠ n), pd29Faults := faults }
        let d := (d.switchOffNow deps).dropReq (n :: deps)
        (d.set 0x02 F.PWR_DOM_FAULT_FAULT (setBit (d.get 0x02 F.PWR_DOM_FAULT_FAULT) n)).endChange n false }) ∧
    (up → (domRails n).contains rail.val = true → s.dev.power.island = false → exec (.railFault dom rail) s =
      .next { s with dev := (n :: (s.dev.dependents n).filter s.dev.powered).foldl (fun d m => ((d.leaveSequencer m).setDom m 0).wipe m) s.dev }) ∧
    (¬up ∨ (domRails n).contains rail.val = false → exec (.railFault dom rail) s = .next s) ∧
    (s.dev.power.island = true →
      exec .powerLinkRetry s = .next { s with dev := s.dev.set 0x02 F.PWR_LINK_RETRY (min (s.dev.get 0x02 F.PWR_LINK_RETRY + 1) 65535) } ∧
      exec .powerLinkLate s = .next { s with dev := s.dev.set 0x02 F.PWR_LINK_LATE (min (s.dev.get 0x02 F.PWR_LINK_LATE + 1) 65535) } ∧
      exec (.linkTimeout none) s = .next { s with dev := (s.dev.int 0x02 5).err 0x02 0x24 }) ∧
    (s.dev.domState 29 = 5 → s.dev.power.island = true → s.dev.power.pd29Stays = false → bit (s.dev.get 0x02 F.PWR_DOM_FAULT_FAULT) 29 = true →
      let d := (s.dev.set 0x02 F.PWR_DOM_FAULT_FAULT (clrBit (s.dev.get 0x02 F.PWR_DOM_FAULT_FAULT) 29)).setDom 29 0
      exec .pd29Repower s = .next { s with dev := d.setPower { d.power with onQueue := 29 :: d.power.onQueue } }) ∧
    (s.dev.power.pd29Stays = true → exec .pd29Repower s = .next s)) ∧
  (∀ (s : State) (cause : Fin 3) (sensor : Fin 16),
    let lost (k : Nat) : Dev :=
      let d := s.dev.allOff.toStandby.setDomReq 0
      let d := d.setPower { d.power with vinValid := false, lossSeen := true }
      ((d.set 0x02 F.PWR_INPUT_LOST 1).set 0x02 F.PWR_INPUT_CAUSE k).event 0x02 11 7 k 0 0
    (∀ k, k < 8 → (lost k).get 0x02 F.PWR_INPUT_LOST = 1 ∧ (lost k).get 0x02 F.PWR_INPUT_CAUSE = k ∧ (lost k).power.vinValid = false ∧
      (lost k).power.stage1 = false ∧ (lost k).power.bus = false) ∧
    (s.dev.power.vinValid = true → s.dev.power.island = true → exec (.inputLoss cause) s = .next { s with dev := lost (cause.val + 1) }) ∧
    (s.dev.power.vinValid = true → s.dev.power.island = false →
      exec (.inputLoss cause) s = .next { s with dev := s.dev.allOff.setPower { s.dev.allOff.power with vinValid := false } }) ∧
    (s.dev.power.vinValid = false → exec (.inputLoss cause) s = .next s) ∧
    (s.dev.power.stage1 = true → s.dev.power.island = true → exec .watchdogTrip s = .next { s with dev := lost 4 }) ∧
    (s.dev.power.stage1 = true → s.dev.power.island = false → exec .watchdogTrip s = .next { s with dev := s.dev.allOff }) ∧
    (s.dev.power.stage1 = false → exec .watchdogTrip s = .next s) ∧
    (s.dev.power.trip = false → s.dev.power.island = true →
      let d1 := s.dev.setPower { s.dev.power with trip := true, thermLow := true }
      let d2 := (d1.err 0x02 0x25 sensor.val).setDomReq 0
      let d3 := (d2.setPower { d2.power with onQueue := d2.power.onQueue.filter (· = 29) }).dropChange (d2.power.onQueue.filter (· ≠ 29))
      ((∀ n, d3.power.current = some n → n = 29 ∨ d3.domState n ≠ 4) →
        exec (.thermalTrip sensor) s = .next { s with dev := d3.switchOffNow (List.range 29) }) ∧
      (∀ n, d3.power.current = some n → n ≠ 29 → d3.domState n = 4 →
        exec (.thermalTrip sensor) s = .next { s with dev := (d3.setDomPending n false).switchOffNow (List.range 29) })) ∧
    (s.dev.power.trip = true → exec (.thermalTrip sensor) s = .next s) ∧
    (s.dev.power.trip = true → (List.range 16).all s.dev.sensorCool = true →
      exec .thermalTripEnd s = .next { s with dev := (s.dev.setPower { s.dev.power with trip := false }).thermRelease }))

/-- O19. A reference loss starts holdover and takes every link down; its return clears REF_OK's loss and slews back, the end of
the slew ends the holdover, and a mismatch of alignment is recorded: each command with the state it completes in. Follows
03_power_and_clocks.md, R54, R57. When ISLAND_OSC clears is log entry 59, how long ALIGN_OK stays 0 log entry 147. -/
def Obligations.ClocksHoldOver : Prop :=
  (∀ s : State,
    (s.dev.get 0x03 F.CLK_STAT_HOLDOVER = 1 → s.dev.power.refSlewing = false →
      (s.dev.power.island = true → exec .refLoss s = .next s) ∧
      exec .refReturn s = .next { s with dev := ((s.dev.setPower { s.dev.power with refSlewing := true }).set 0x03 F.CLK_STAT_REF_OK 1).set 0x03 F.CLK_STAT_ISLAND_OSC 0 }) ∧
    (s.dev.get 0x03 F.CLK_STAT_HOLDOVER = 0 ∨ s.dev.power.refSlewing = true → exec .refReturn s = .next s) ∧
    (s.dev.power.refSlewing = true →
      exec .refSlewComplete s = .next { s with dev := ((s.dev.setPower { s.dev.power with refSlewing := false }).set 0x03 F.CLK_STAT_HOLDOVER 0).int 0x03 1 }) ∧
    (s.dev.power.refSlewing = false → exec .refSlewComplete s = .next s) ∧
    (s.dev.power.island = true → exec .alignMismatch s = .next { s with dev := ((s.dev.set 0x03 F.CLK_STAT_ALIGN_OK 0).int 0x03 2).err 0x03 0x20 }) ∧
    (s.dev.power.island = false → exec .alignMismatch s = .next s)) ∧
  (∀ s : State, s.dev.power.island = true →
    let linksDown (d : Dev) : Dev := (List.range 16).foldl (fun d p => d.ulxLoss p) ((List.range 128).foldl (fun d p => if d.pageOn (portPage p) then d.linkDown p else d) d)
    let lost (d : Dev) : Dev :=
      ((d.set 0x03 F.CLK_REF_LOSS_COUNT (min (d.get 0x03 F.CLK_REF_LOSS_COUNT + 1) 65535)).int 0x03 0).event 0x03 12 7 0 0 0
    let d1 := ((s.dev.set 0x03 F.CLK_STAT_HOLDOVER 1).set 0x03 F.CLK_STAT_ISLAND_OSC 1).set 0x03 F.CLK_STAT_REF_OK 0
    let d2 := (d1.set 0x03 F.CLK_HOLD_TIME_US 0).setPower { d1.power with holdNs := 0 }
    (s.dev.get 0x03 F.CLK_STAT_HOLDOVER ≠ 1 → exec .refLoss s = .next { s with dev := linksDown (lost (d2.setPower { d2.power with refSlewing := false })) }) ∧
    (s.dev.get 0x03 F.CLK_STAT_HOLDOVER = 1 → s.dev.power.refSlewing = true →
      exec .refLoss s = .next { s with dev := linksDown (lost (d1.setPower { d1.power with refSlewing := false })) }))

/-- O20. A mode request during a transition is latched, clears the latch, or is refused, and a latched one runs when the
transition completes. Follows R76. -/
def Obligations.RequestsDuringATransition : Prop :=
  ∀ (s : State) (data : Word) (req : BitVec 16), s.dev.reachable 0x01 → s.dev.modeBusy = true →
    (data.toNat = s.dev.get 0x01 F.SVC_MODE_TARGET →
      exec (.modeRequest data 15 req) s = .next { s with dev := s.dev.set 0x01 F.SVC_MODE_PENDING 0 }) ∧
    (data.toNat < 8 → data.toNat ≠ s.dev.get 0x01 F.SVC_MODE_TARGET → modeAllows s.dev.mode data.toNat = true →
      exec (.modeRequest data 15 req) s = .next { s with dev := (s.dev.set 0x01 F.SVC_MODE_PENDING 1).set 0x01 F.SVC_MODE_NEXT data.toNat }) ∧
    (data.toNat < 8 → data.toNat ≠ s.dev.get 0x01 F.SVC_MODE_TARGET → modeAllows s.dev.mode data.toNat = false →
      let r : Cap := { page := 0x01, kinds := [0x20], off := 0x0100, data := data.toNat, write := true, req := req.toNat }
      exec (.modeRequest data 15 req) s = .next { s with dev := (s.dev.int 0x01 1).capture r }) ∧
    (s.dev.modes.plan = [] →
      (s.dev.modes.stopping = true ∧ s.dev.modes.failed = false ∧ (∀ p ∈ trafficOrder, s.dev.fn p = 0) ∨
        s.dev.modes.stopping = false ∧ s.dev.get 0x01 F.SVC_MODE_TARGET = 2 ∧ ∀ p ∈ trafficOrder, s.dev.fn p ≠ 1) →
      let m := s.dev.get 0x01 F.SVC_MODE_TARGET
      let d := ((((s.dev.setMode m).setTarget m).setBusy false).int 0x01 0).setModes Modes.reset
      (d.get 0x01 F.SVC_MODE_PENDING = 0 → exec .modeTransitionDone s = .next { s with dev := d }) ∧
      (d.get 0x01 F.SVC_MODE_PENDING = 1 →
        exec .modeTransitionDone s = .next { s with dev := (d.set 0x01 F.SVC_MODE_PENDING 0).modeRequest (d.get 0x01 F.SVC_MODE_NEXT) FnSource.device [] }))

/-- O21. Outside a transition a mode request is done at once, starts a transition, or is refused as the table says; DRAIN ends
in the stop of the traffic set. Follows 04_modes_and_function_control.md, R73, R74, R75. When an immediate transition is
complete is log entry 63. -/
def Obligations.ModesFollowTheTable : Prop :=
  (∀ (s : State) (data : Word) (req : BitVec 16), s.dev.reachable 0x01 → s.dev.modeBusy = false → data.toNat < 8 →
    ((s.dev.mode = 0 ∧ data.toNat = 1 ∨ s.dev.mode = 1 ∧ data.toNat = 5 ∨ s.dev.mode = 4 ∧ data.toNat = 1 ∨
        (s.dev.mode = 1 ∨ s.dev.mode = 4) ∧ data.toNat = 0 ∧ ∀ n, n < 27 → s.dev.domState n = 0) →
      exec (.modeRequest data 15 req) s = .next { s with dev := (((s.dev.setMode data.toNat).setTarget data.toNat).setBusy false).int 0x01 0 }) ∧
    ((s.dev.mode = 1 ∨ s.dev.mode = 4) → data.toNat = 0 → (∃ n, n < 27 ∧ s.dev.domState n ≠ 0) →
      let r : Cap := { page := 0x01, kinds := [0x21], off := 0x0100, data := data.toNat, write := true, req := req.toNat }
      exec (.modeRequest data 15 req) s = .next { s with dev := (s.dev.int 0x01 1).capture r }) ∧
    (s.dev.mode = 2 → data.toNat = 4 → s.dev.running (carPage 0) = false → s.dev.running (carPage 1) = false →
      exec (.modeRequest data 15 req) s = .next { s with dev := (((s.dev.setMode 3).setTarget 4).setBusy true).setModes { Modes.reset with origin := 2 } }) ∧
    (modeAllows s.dev.mode data.toNat = false →
      let r : Cap := { page := 0x01, kinds := [0x20], off := 0x0100, data := data.toNat, write := true, req := req.toNat }
      exec (.modeRequest data 15 req) s = .next { s with dev := (s.dev.int 0x01 1).capture r })) ∧
  (∀ s : State, s.dev.mode = 3 → s.dev.modes.stopping = false →
    let noPend (d : Dev) : Dev := trafficOrder.foldl (fun d p => if d.fn p = 3 then d.set p H.PENDING 0 else d) d
    (s.dev.packets = 0 →
      let d := noPend s.dev
      exec .drainEmpty s = .next { s with dev := (d.setModes { d.modes with stopping := true, flushing := false, plan := s.dev.stopOrder }).pumpStop 400 } ∧
      exec .drainTimeout s = .next s) ∧
    (s.dev.packets ≠ 0 →
      let d0 := (s.dev.set 0x01 F.SVC_MODE_DRAIN_TO 1).int 0x01 3
      let d := noPend d0
      exec .drainTimeout s = .next { s with dev := (d.setModes { d.modes with stopping := true, flushing := true, plan := s.dev.stopOrder }).pumpStop 400 } ∧
      exec .drainEmpty s = .next s))

/-- O22. The MAC drops, cuts, consumes or stores each received frame, an FEC error marks the frame, and its end settles it.
Follows 05_ports_and_parser.md, R14, R81, R82. Where the MAC control test is made is log entry 68. -/
def Obligations.FramesAreReceived : Prop :=
  (∀ (s : State) (port : Fin 128) (frame : List Byte),
   ((s.dev.loops port.val = true ∨ s.dev.portOpen port.val = false ∨ Map.rd none s.dev.rx port.val ≠ none ∨ s.dev.macArriving port.val = true) →
     exec (.frameReceive port frame) s = .next s) ∧
   (s.dev.portOpen port.val = true → s.dev.loops port.val = false → Map.rd none s.dev.rx port.val = none → s.dev.macArriving port.val = false →
    let d := s.dev
    let g := port.val / 8
    let n := port.val % 8
    let mtu := d.portCfg port.val F.PG_PORT_CFG_MTU
    let admitted := d.mode = 2 ∧ d.modeBusy = false
    (¬admitted → exec (.frameReceive port frame) s = .next { s with dev := d.pgCnt g n 0 }) ∧
    (admitted → frame.length < 64 → exec (.frameReceive port frame) s = .next { s with dev := d.pgCnt g n 2 }) ∧
    (admitted → 64 ≤ frame.length → mtu < frame.length →
      exec (.frameReceive port frame) s = .next { s with dev := (d.pgCnt g n 3).storeFrame port.val (frame.take (mtu + 1)) true }) ∧
    (admitted → 64 ≤ frame.length → frame.length ≤ mtu → d.isMember port.val = false → beAt frame 12 2 = 0x8808 →
      exec (.frameReceive port frame) s =
        .next { s with dev := d.setPg g { d.pg g with macFrames := (d.pg g).macFrames ++ [(n, frame, !fcsGood frame)] } }) ∧
    (admitted → 64 ≤ frame.length → frame.length ≤ mtu → (d.isMember port.val = true ∨ beAt frame 12 2 ≠ 0x8808) →
      exec (.frameReceive port frame) s = .next { s with dev := d.storeFrame port.val frame (!fcsGood frame) }))) ∧
  (∀ (s : State) (port : Fin 128) (ecc : Ecc) (lane : Nat) (frame : List Byte) (bad : Bool),
    let g := port.val / 8
    let x := s.dev.pg g
    let d := s.dev.setPg g { x with macFrames := x.macFrames.filter fun f => f.1 ≠ port.val % 8 }
    x.macFrames.find? (fun f => f.1 = port.val % 8) = some (lane, frame, bad) →
      (bad = false → exec (.frameEnd port ecc) s = .next { s with dev := d.macControl port.val frame }) ∧
      (bad = true → exec (.frameEnd port ecc) s = .next { s with dev := d.fcsDrop port.val })) ∧
  (∀ (s : State) (port : Fin 128) (ecc : Ecc) (f : RxFrame), Map.rd none s.dev.rx port.val = some f → s.dev.macArriving port.val = false →
    (let d1 := s.dev.bump (portPage port.val) (F.PG_FEC_UNCORR_COUNT.at (8 * (port.val % 8)))
     let d2 := d1.int (portPage port.val) 1
     let fs := (d2.pg (port.val / 8)).macFrames.map fun f => if f.1 = port.val % 8 then (f.1, f.2.1, true) else f
     let d2 := d2.setPg (port.val / 8) { d2.pg (port.val / 8) with macFrames := fs }
     s.dev.portOpen port.val = true →
       exec (.fecUncorrectable port) s = .next { s with dev := { d2 with rx := d2.rx.wr none port.val (some { f with bad := true }) } }) ∧
    (let d1 : Dev := { s.dev with rx := s.dev.rx.wr none port.val none }
     (f.bad = false → (∀ x ∈ (d1.chargeCt f.owner).tm.queues, x.2.writer.any (·.owner = f.owner) = false) →
       exec (.frameEnd port ecc) s = .next { s with dev := d1.chargeCt f.owner }) ∧
     ∃ t, exec (.frameEnd port ecc) s = .next t))

/-- O23. Link events set LINK and LOCK and move the port state through UP, HOLDING, FLUSHING and DOWN. Follows
05_ports_and_parser.md, 12_switch_core_and_admission.md, R226, R227. The moment of the flush is log entry 93. -/
def Obligations.PortsFollowTheirLinks : Prop :=
  (∀ (s : State) (port : Fin 128),
    let p := portPage port.val
    let n := port.val % 8
    let lanes := 8 / 2 ^ s.dev.live p F.PG_CFG_MODE
    (s.dev.running p = true → s.dev.portStarts port.val = true → bit (s.dev.live p F.PG_PORT_EN_EN) n = true → bit (s.dev.get p F.PG_STAT_LINK) n = false →
      let lock := (List.range lanes).foldl (fun v i => setBit v (n + i)) (s.dev.get p F.PG_STAT_LOCK)
      let d := (s.dev.set p F.PG_STAT_LINK (setBit (s.dev.get p F.PG_STAT_LINK) n)).set p F.PG_STAT_LOCK lock
      exec (.portLinkUp port) s = .next { s with dev := ((d.int p 0).stateUp port.val).memberMoved port.val }) ∧
    (bit (s.dev.get p F.PG_STAT_LINK) n = true →
      let lock := (List.range lanes).foldl (fun v i => clrBit v (n + i)) (s.dev.get p F.PG_STAT_LOCK)
      let d := ((s.dev.set p F.PG_STAT_LINK (clrBit (s.dev.get p F.PG_STAT_LINK) n)).set p F.PG_STAT_LOCK lock).int p 0
      (d.portState port.val = 3 → exec (.portLinkDown port) s = .next { s with dev := (d.setUpPending port.val 0).memberMoved port.val }) ∧
      (d.portState port.val = 1 → d.tx port.val = none →
        let us := d.get p (F.PG_PORT_HOLD_US.at (4 * n))
        (us = 0 → exec (.portLinkDown port) s = .next { s with dev := (d.setPortState port.val 3).memberMoved port.val }) ∧
        (us ≠ 0 → exec (.portLinkDown port) s =
          .next { s with dev := (((d.setPortState port.val 2).setHoldLeft port.val us).holdShapers port.val).memberMoved port.val }))) ∧
    (bit (s.dev.get p F.PG_STAT_LINK) n = false → exec (.portLinkDown port) s = .next s)) ∧
  (∀ (s : State) (port : Fin 128),
    (s.dev.portState port.val = 2 →
      exec (.holdTimerExpire port) s =
        .next { s with dev := (((s.dev.setPortState port.val 3).setHoldLeft port.val 0).holdShapers port.val).memberMoved port.val }) ∧
    (s.dev.portState port.val ≠ 2 → exec (.holdTimerExpire port) s = .next s) ∧
    (s.dev.portState port.val = 3 →
      let up := s.dev.get (swcPage (port.val / 64)) (F.SWC_PORT_STATE_UP_PENDING.at (4 * (port.val % 64))) = 1
      let d := (s.dev.flushPort port.val).setUpPending port.val 0
      exec (.flushDone port) s = .next { s with dev :=
        ((d.setPortState port.val (if !d.portStarts port.val then 0 else if up then 1 else 4)).int (swcPage (port.val / 64)) 3).memberMoved port.val }) ∧
    (s.dev.portState port.val ≠ 3 → exec (.flushDone port) s = .next s) ∧
    (∀ (d : Dev) (st : Nat), st < 8 → (d.setPortState port.val st).portState port.val = st ∧
      (∀ q : Fin 128, q ≠ port → (d.setPortState port.val st).portState q.val = d.portState q.val)))

/-- O24. A parsed head takes its lane's default action, is dispatched to a cluster with a ticket, is issued to a thread, or is
injected or stolen as the rules say. Follows 05_ports_and_parser.md, 06_engine_fabric.md, R93, R98, R99. The lowest free slot
is taken: log entry 77. -/
def Obligations.HeadsAreParsedAndDispatched : Prop :=
  (∀ (s : State) (pg : Fin 16) (r : RawHead) (rest : List RawHead), (s.dev.pg pg.val).parsing = r :: rest →
    let x := s.dev.pg pg.val
    let w := (s.dev.parseHead r).1
    let bad := (s.dev.parseHead r).2
    let record := parseRecord (s.dev.parseCfg r.pkt.pg r.pkt.lane) r.bytes w r.pkt.inport r.pkt.flen r.sec r.ns bad
    let a := s.dev.defaultAction pg.val r.pkt.lane (flagClasses (walkFlags r.bytes w bad))
    let head : Head := ⟨r.pkt, r.bytes, record, 0, 0, 0, 0, 0, false, 0⟩
    let d := s.dev.setPg pg.val { x with parsing := rest }
    let p := pgPage r.pkt.pg
    (a.1 = 0 → exec (.parseDone pg) s = .next { s with dev := s.dev.setPg pg.val { x with parsing := rest, intake := x.intake ++ [head] } }) ∧
    (1 < a.1 → exec (.parseDone pg) s = .next { s with dev := (d.freePkt r.pkt).pgCnt r.pkt.pg r.pkt.lane 6 }) ∧
    (a.1 = 1 → d.get p F.PG_PUNT_CH_EN = 0 → exec (.parseDone pg) s = .next { s with dev := (d.freePkt r.pkt).pgCnt r.pkt.pg r.pkt.lane 6 }) ∧
    (a.1 = 1 → d.get p F.PG_PUNT_CH_EN ≠ 0 →
      exec (.parseDone pg) s = .next { s with dev := (d.handPunt ⟨d.get p F.PG_PUNT_CH_CHAN, 0, a.2, record, 0, r.pkt, none⟩).pgCnt r.pkt.pg r.pkt.lane 7 })) ∧
  (∀ (s : State) (pg : Fin 16) (c : Fin 64) (c' : Nat) (th : Fin 8192) (e : Nat) (h h' : Head) (r : List Head) (d1 d2 : Dev) (ecc : Ecc),
    (s.dev.active (pgPage pg.val) = true → s.dev.pickHome pg.val = (some c', d1) → (s.dev.pg pg.val).recirc = h :: r →
      exec (.headDispatch pg ecc) s = .next { s with dev := ((d1.setPg pg.val { s.dev.pg pg.val with recirc := r }).noteCluster h c').handHead c' h }) ∧
    (s.dev.active (pgPage pg.val) = true → s.dev.pickHome pg.val = (some c', d1) → (s.dev.pg pg.val).recirc = [] → (s.dev.pg pg.val).intake = h :: r →
      (d1.takeTicket c' h = some (h', d2) →
        exec (.headDispatch pg .clean) s = .next { s with dev := (d2.setPg pg.val { s.dev.pg pg.val with intake := r, heldCounted := false }).handHead c' h' }) ∧
      (let d3 := (d1.eccCount 8 (pg.val / 8) .bad).setPg pg.val { s.dev.pg pg.val with intake := r, heldCounted := false }
       exec (.headDispatch pg .bad) s = .next { s with dev := (d3.event (pgPage pg.val) 13 1 h.pkt.inport 0 0).freePkt h.pkt })) ∧
    (s.dev.engQueue c.val = h :: r → s.dev.active (engPage c.val) = true →
      let most := ((List.range 16).map fun e => (s.dev.freeOf c.val e).length).foldl max 0
      most ≠ 0 → s.dev.grant (Rr.engine c.val) 16 ((List.range 16).filter fun e => (s.dev.freeOf c.val e).length = most) = (some e, d1) →
      let t := 128 * c.val + 8 * e + (d1.freeOf c.val e).headD 0
      exec (.headToThread c) s = .next { s with dev := (d1.setEngQueue c.val r).setThread t { Thread.init with st := 1, head := some h } }) ∧
    ((s.dev.thread th.val).st = 1 → (s.dev.thread th.val).head = some h →
      let p := engPage (th.val / 128)
      let x := { s.dev.thread th.val with st := 2, upc := s.dev.get p (if h.pass2 then F.ENG_IMG_ENTRY_ENTRY2 else F.ENG_IMG_ENTRY_ENTRY1) }
      exec (.threadLoadDone th) s = .next { s with dev := s.dev.setThread th.val x })) ∧
  (∀ (d d' : Dev) (c : Nat) (h h' : Head), d.takeTicket c h = some (h', d') →
    let die := d.issuingOrd h.pkt
    let o := d.ord die
    let x := o.domain h'.dom
    h'.ord = die ∧ h'.pkt = h.pkt ∧ h'.bytes = h.bytes ∧ h'.md = h.md ∧ h'.dom = h.pkt.inport * 4096 + leNat (slice h.md 8 4) % 4096 ∧
    h'.ticket = x.nextIssue ∧ h'.epoch = d.get (ordPage die) F.ORD_EPOCH_CUR ∧ o.slots.length < 32768 ∧ h'.slot = freeSlot 0 o.slots ∧
    d'.eng.threads = d.eng.threads ∧ d'.eng.queues = d.eng.queues ∧
    d'.ord die = (o.setDomain h'.dom { x with nextIssue := (x.nextIssue + 1) % 65536 }).setSlot h'.slot ⟨1, h'.dom, x.nextIssue, h'.epoch, false, c, h.pkt, none⟩)

/-- O25. Clusters steal heads near and far under their thresholds and caps, and a completion report settles the head's ticket.
Follows 06_engine_fabric.md, R102, R103, R106. The cut of a batch and its count are log
entry 78, the place of the counts log entry 76. -/
def Obligations.ClustersStealAndReport : Prop :=
  (∀ (s : State) (c : Fin 64) (die : Fin 2) (v : Nat) (d1 : Dev),
    let far := s.dev.ord (c.val / 32)
    let cap := s.dev.get (ordPage (c.val / 32)) F.ORD_FAR_CAP_HEADS
    let vs := s.dev.victims c.val (1 - c.val / 32) F.ENG_STEAL_THR_FAR
    (s.dev.isThief c.val = true → s.dev.pickVictim c.val (s.dev.victims c.val (c.val / 32) F.ENG_STEAL_THR_NEAR) = (some v, d1) →
      exec (.nearSteal c) s = .next { s with dev := d1.moveHeads c.val v (d1.stealSize c.val v) 1 }) ∧
    (s.dev.isThief c.val = false → exec (.nearSteal c) s = .next s ∧ exec (.farSteal c) s = .next s) ∧
    (s.dev.isThief c.val = true → s.dev.victims c.val (c.val / 32) F.ENG_STEAL_THR_NEAR = [] → s.dev.get (engPage c.val) F.ENG_CFG_FAR_EN ≠ 0 →
      far.farRefused.contains c.val = false → 0 < cap → vs ≠ [] → s.dev.domOn 27 = true →
      (cap ≤ far.farUsed →
        exec (.farSteal c) s = .next { s with dev := (s.dev.setOrd (c.val / 32) { far with farRefused := far.farRefused ++ [c.val] }).ordCnt (c.val / 32) 10 }) ∧
      (far.farUsed < cap → s.dev.pickVictim c.val vs = (some v, d1) →
        let n := min (d1.stealSize c.val v) (cap - far.farUsed)
        let d2 := d1.setOrd (c.val / 32) { d1.ord (c.val / 32) with farUsed := far.farUsed + n }
        exec (.farSteal c) s = .next { s with dev := (d2.ordCnt (c.val / 32) 9 n).moveHeads c.val v n 2 })) ∧
    exec (.farAllowanceReset die) s = .next { s with dev := s.dev.setOrd die.val { s.dev.ord die.val with farUsed := 0, farRefused := [] } }) ∧
  (∀ (s : State) (die : Fin 2) (slot : Fin 32768) (r : Report), (s.dev.ord die.val).reports.find? (·.slot = slot.val) = some r →
    let o := s.dev.ord die.val
    let x := o.slot slot.val
    let d := s.dev.setOrd die.val { o with reports := o.reports.erase r }
    let y := (d.ord die.val).slot slot.val
    (x.state = 1 → x.dom = r.dom → x.ticket = r.ticket →
      ((r.ending.kind = 0 ∨ r.ending.kind = 1 ∨ r.ending.kind = 3 ∧ d.live (ordPage die.val) F.ORD_CFG_PUNT_ORDER ≠ 0) →
        exec (.completionReport die slot) s = .next { s with dev := (d.setSlot die.val slot.val { y with state := 2, pkt := r.ending.pkt, ending := some r.ending }).joinReady die.val y.dom }) ∧
      (r.ending.kind = 2 →
        exec (.completionReport die slot) s = .next { s with dev := (((d.freePkt r.ending.pkt).ordCnt die.val 2).setSlot die.val slot.val { y with state := 3 }).joinReady die.val y.dom }) ∧
      (r.ending.kind = 3 → d.live (ordPage die.val) F.ORD_CFG_PUNT_ORDER = 0 →
        exec (.completionReport die slot) s = .next { s with dev := ((d.puntEnding die.val r.ending).setSlot die.val slot.val { y with state := 3 }).joinReady die.val y.dom }) ∧
      (r.ending.kind = 4 → exec (.completionReport die slot) s = .next { s with dev := (d.setSlot die.val slot.val { y with pass2 := true }).ordCnt die.val 5 })) ∧
    (¬(x.state = 1 ∧ x.dom = r.dom ∧ x.ticket = r.ticket) →
      (r.lost = false → r.ending.kind = 4 → exec (.completionReport die slot) s = .next { s with dev := d }) ∧
      (r.lost = false → r.ending.kind ≠ 4 → exec (.completionReport die slot) s = .next { s with dev := ((d.freePkt r.ending.pkt).ordCnt die.val 7).int (ordPage die.val) 2 }) ∧
      (r.lost = true → exec (.completionReport die slot) s = .next { s with dev := d.bump 0x04 (F.ERR_MISC_CNT_COUNT.at 12) })))

/-- O26. Tickets retire in order by their outcome, and are voided by age, by a stop and by a lost cluster. Follows
06_engine_fabric.md, R106, R109, R110, R156. -/
def Obligations.TicketsRetireInOrder : Prop :=
  (∀ (s : State) (die : Fin 2) (dom k : Nat) (rest : List Nat), s.dev.active (ordPage die.val) = true → (s.dev.ord die.val).ready = dom :: rest →
    (s.dev.ord die.val).find dom ((s.dev.ord die.val).domain dom).nextRetire = some k →
    let x := (s.dev.ord die.val).slot k
    let leave (d : Dev) : Dev :=
      let o := d.ord die.val
      let n := o.domain dom
      let o := (({ o with ready := o.ready.erase dom }).setSlot k Slot.init).setDomain dom { n with nextRetire := (n.nextRetire + 1) % 65536 }
      ((d.setOrd die.val o).epochSub die.val ((d.ord die.val).slot k).epoch).joinReady die.val dom
    (x.state = 3 → exec (.ticketRetire die) s = .next { s with dev := leave s.dev }) ∧
    (∀ e, x.state = 2 → x.ending = some e →
      (e.kind = 3 → exec (.ticketRetire die) s = .next { s with dev := leave (s.dev.puntEnding die.val e) }) ∧
      (e.kind ≠ 3 → s.dev.isBad e.pkt.owner = true →
        exec (.ticketRetire die) s = .next { s with dev := leave (((s.dev.badDrop e.pkt.owner).freePkt e.pkt).ordCnt die.val 4) }) ∧
      (e.kind = 0 → s.dev.isBad e.pkt.owner = false →
        (∀ d, s.dev.handUnicast die.val 0 ⟨e.arg, e.color, e.pkt, false, false, 0⟩ = some d → exec (.ticketRetire die) s = .next { s with dev := leave (d.ordCnt die.val 1) }) ∧
        (s.dev.handUnicast die.val 0 ⟨e.arg, e.color, e.pkt, false, false, 0⟩ = none → exec (.ticketRetire die) s = .next s)) ∧
      (e.kind = 1 → s.dev.isBad e.pkt.owner = false → ∀ d, s.dev.handMulticast die.val e.arg e.pkt = some d → exec (.ticketRetire die) s = .next { s with dev := leave (d.ordCnt die.val 1) }))) ∧
  (∀ (s : State) (die : Fin 2) (slot : Fin 32768) (th : Fin 8192) (req : BitVec 16) (h : Head) (e : Ending),
    let o := s.dev.ord die.val
    let x := o.slot slot.val
    let d := s.dev.eccCount 5 die.val .bad
    (x.state = 1 → (o.domain x.dom).nextRetire = x.ticket →
      exec (.ticketAged die slot) s = .next { s with dev := (((s.dev.setSlot die.val slot.val { x with state := 3 }).joinReady die.val x.dom).ordCnt die.val 6).int (ordPage die.val) 0 }) ∧
    (x.state ≠ 1 → exec (.ticketAged die slot) s = .next s) ∧
    (x.state = 1 →
      let y := (d.ord die.val).slot slot.val
      let v := (d.setSlot die.val slot.val { y with state := 3 }).joinReady die.val y.dom
      exec (.slotUe die slot) s = .next { s with dev := (((v.int (ordPage die.val) 0).ordCnt die.val 11).int (ordPage die.val) 3).err (ordPage die.val) 0x21 slot.val }) ∧
    (x.state = 0 → exec (.slotUe die slot) s = .next { s with dev := d }) ∧
    ((s.dev.thread th.val).head = some h → (s.dev.thread th.val).ended = some e → (s.dev.thread th.val).st = 4 → (s.dev.pg e.arg).recirc.length < 64 →
      exec (.recircEnqueue th) s = .next { s with dev := (s.dev.setThread th.val Thread.init).enqueueRecirc e.arg h }) ∧
    (s.dev.reachable (ordPage die.val) →
      let p := ordPage die.val
      let next := 1 - s.dev.get p F.ORD_EPOCH_CUR
      s.dev.get p (F.ORD_EPOCH_INFL_COUNT.at (4 * next)) = 0 → exec (.epochFlip die req) s = .next { s with dev := s.dev.set p F.ORD_EPOCH_CUR next }))

/-- O27. Each ALU operation writes its destination and flag nibble as its table says, illegal fields end the pass with
ILLEGAL, and an operation whose register a lookup has still to write waits. Follows 07_microword.md, R123, R124, R125, R132. One
row runs one unit: log entry 10. -/
def Obligations.AluUnitsFollowTheirTable : Prop :=
  (∀ (s : State) (th : Fin 8192) (side : Bool) (dst sa sb : BitVec 6) (shm : BitVec 16) (imm : Word),
    s.dev.mayIssue th.val = true → srcLegal sa.toNat = true → srcLegal sb.toNat = true → dstLegal dst.toNat = true →
    let x := s.dev.thread th.val
    let awaits (op : Nat) : Bool := x.awaits (AluF.touches ⟨op, dst.toNat, sa.toNat, sb.toNat, shm.toNat⟩)
    let runs (op : Nat) (c : Instr) (d : Dev) : Prop :=
      (awaits op = false → exec c s = .next { s with dev := d }) ∧ (awaits op = true → exec c s = .next s)
    let m := if bits shm.toNat 8 6 = 0 then 64 else bits shm.toNat 8 6
    let a := x.src th.val imm.toNat sa.toNat
    let shift := shifted (x.src th.val imm.toNat sb.toNat) (bits shm.toNat 0 6) (bits shm.toNat 6 2)
    let b := if bit shm.toNat 14 then shift else shift % 2 ^ m
    let w := if bit shm.toNat 14 then m else 64
    let diff := (a + 2 ^ 64 - b) % 2 ^ 64
    let nib (r : Nat) (c v : Bool) : Nat := b2n v * 8 + b2n c * 4 + b2n (bit (r % 2 ^ w) (w - 1)) * 2 + b2n (r % 2 ^ w = 0)
    let flag (y : Thread) (f : Nat) : Thread := if side then { y with flagsB := f } else { y with flagsA := f }
    let writes (r : Nat) (c v : Bool) : Dev :=
      s.dev.setThread th.val (if bit shm.toNat 15 then flag (x.write dst.toNat (r % 2 ^ w)) (nib r c v) else x.write dst.toNat (r % 2 ^ w))
    let tests (r : Nat) (c v : Bool) : Dev := s.dev.setThread th.val (flag x (nib r c v))
    runs 2 (.add th side dst sa sb shm imm) (writes ((a + b) % 2 ^ 64) (decide (a + b ≥ 2 ^ 64)) (bit a 63 == bit b 63 && bit ((a + b) % 2 ^ 64) 63 != bit a 63)) ∧
    runs 3 (.sub th side dst sa sb shm imm) (writes diff (decide (a ≥ b)) (bit a 63 != bit b 63 && bit diff 63 != bit a 63)) ∧
    runs 18 (.subsat th side dst sa sb shm imm) (writes (if a ≥ b then diff else 0) (decide (a ≥ b)) (bit a 63 != bit b 63 && bit diff 63 != bit a 63)) ∧
    runs 12 (.minu th side dst sa sb shm imm) (writes (min a b) false false) ∧
    runs 13 (.maxu th side dst sa sb shm imm) (writes (max a b) false false) ∧
    (dst = 0x3F →
      runs 10 (.cmp th side dst sa sb shm imm) (tests diff (decide (a ≥ b)) (bit a 63 != bit b 63 && bit diff 63 != bit a 63)) ∧
      runs 11 (.tst th side dst sa sb shm imm) (tests (Nat.land a b) false false))) ∧
  (∀ (s : State) (th : Fin 8192) (side : Bool) (dst sa sb : BitVec 6) (shm : BitVec 16) (imm : Word),
    s.dev.mayIssue th.val = true → dstLegal dst.toNat = true →
    let x := s.dev.thread th.val
    let awaits (op : Nat) : Bool := x.awaits (AluF.touches ⟨op, dst.toNat, sa.toNat, sb.toNat, shm.toNat⟩)
    let runs (op : Nat) (c : Instr) (d : Dev) : Prop :=
      (awaits op = false → exec c s = .next { s with dev := d }) ∧ (awaits op = true → exec c s = .next s)
    let m := if bits shm.toNat 8 6 = 0 then 64 else bits shm.toNat 8 6
    let sh := bits shm.toNat 0 6
    let a := x.src th.val imm.toNat sa.toNat
    let b0 := x.src th.val imm.toNat sb.toNat
    let shift := shifted b0 sh (bits shm.toNat 6 2)
    let b := if bit shm.toNat 14 then shift else shift % 2 ^ m
    let narrow := if bit shm.toNat 14 then m else 64
    let nib (w r : Nat) : Nat := b2n (bit (r % 2 ^ w) (w - 1)) * 2 + b2n (r % 2 ^ w = 0)
    let writes (w r : Nat) : Dev :=
      let y := x.write dst.toNat (r % 2 ^ w)
      s.dev.setThread th.val (if bit shm.toNat 15 then (if side then { y with flagsB := nib w r } else { y with flagsA := nib w r }) else y)
    (srcLegal sb.toNat = true →
      runs 1 (.mov th side dst sa sb shm imm) (writes narrow b) ∧
      runs 14 (.clz th side dst sa sb shm imm) (writes narrow (clz64 b)) ∧
      runs 15 (.popc th side dst sa sb shm imm) (writes narrow ((List.range 64).filter (bit b)).length) ∧
      runs 17 (.fold16 th side dst sa sb shm imm) (writes narrow (onesSum [bits b 0 16, bits b 16 16, bits b 32 16, bits b 48 16]))) ∧
    (srcLegal sa.toNat = true → runs 9 (.ext th side dst sa sb shm imm) (writes 64 (a / 2 ^ sh % 2 ^ m))) ∧
    (srcLegal sa.toNat = true → srcLegal sb.toNat = true →
      runs 4 (.and th side dst sa sb shm imm) (writes narrow (Nat.land a b)) ∧
      runs 5 (.or th side dst sa sb shm imm) (writes narrow (Nat.lor a b)) ∧
      runs 6 (.xor th side dst sa sb shm imm) (writes narrow (Nat.xor a b)) ∧
      runs 7 (.andn th side dst sa sb shm imm) (writes narrow (Nat.land a (2 ^ 64 - 1 - b))) ∧
      runs 8 (.ins th side dst sa sb shm imm) (writes 64 (putBits a sh m b0 % 2 ^ 64)) ∧
      runs 16 (.add1c th side dst sa sb shm imm) (writes narrow (onesSum [a % 65536, b % 65536])))) ∧
  (∀ (s : State) (th : Fin 8192) (side : Bool) (dst sa sb : BitVec 6) (shm : BitVec 16) (imm : Word) (off : BitVec 8) (len flg : BitVec 4),
    s.dev.mayIssue th.val = true →
    let ended : Host.Outcome State Fault Refusal := .next { s with dev := s.dev.endByTrap th.val 5 false false }
    let x := s.dev.thread th.val
    let ends (op : Nat) (c : Instr) : Prop := x.awaits (AluF.touches ⟨op, dst.toNat, sa.toNat, sb.toNat, shm.toNat⟩) = false → exec c s = ended
    let bad (dir : Nat) (c : Instr) : Prop := x.awaits (HpF.touches ⟨off.toNat, len.toNat, dir, dst.toNat, flg.toNat⟩) = false → exec c s = ended
    ((dstLegal dst.toNat = false ∨ srcLegal sa.toNat = false ∨ srcLegal sb.toNat = false) →
      ends 2 (.add th side dst sa sb shm imm) ∧ ends 3 (.sub th side dst sa sb shm imm) ∧ ends 4 (.and th side dst sa sb shm imm) ∧
      ends 5 (.or th side dst sa sb shm imm) ∧ ends 6 (.xor th side dst sa sb shm imm) ∧ ends 7 (.andn th side dst sa sb shm imm) ∧
      ends 8 (.ins th side dst sa sb shm imm) ∧ ends 12 (.minu th side dst sa sb shm imm) ∧ ends 13 (.maxu th side dst sa sb shm imm) ∧
      ends 16 (.add1c th side dst sa sb shm imm) ∧ ends 18 (.subsat th side dst sa sb shm imm)) ∧
    (dst ≠ 0x3F → ends 10 (.cmp th side dst sa sb shm imm) ∧
      ends 11 (.tst th side dst sa sb shm imm)) ∧
    ((10 ≤ len.toNat ∨ len = 9 ∧ dst.toNat % 2 = 1) →
      bad 0 (.headToRegister th off len dst flg imm) ∧
      bad 1 (.registerToHead th off len dst flg imm) ∧
      bad 2 (.metadataToRegister th off len dst flg imm) ∧
      bad 3 (.registerToMetadata th off len dst flg imm)))

/-- O28. CLZ, FOLD16 and ADD1C compute the leading-zero count and the ones'-complement sums. Follows 07_microword.md, R123. -/
def Obligations.CountsAndSumsAreRight : Prop :=
  ∀ v : Nat, v < 2 ^ 64 →
    clz64 v ≤ 64 ∧ (v ≠ 0 → bit v (63 - clz64 v) = true ∧ clz64 v < 64) ∧ (∀ i, i < 64 → 64 - clz64 v ≤ i → bit v i = false) ∧
    fold16 v < 65536 ∧ fold16 v % 65535 = v % 65535 ∧
    ∀ a b, a < 65536 → b < 65536 → onesSum [a, b] < 65536 ∧ onesSum [a, b] % 65535 = (a + b) % 65535 ∧ (onesSum [a, b] = 0 → a = 0 ∧ b = 0)

/-- O29. The head port moves 1 to 8 bytes, or a pair of registers, between head or metadata and the registers in either byte
order; a move of a register that a lookup has still to write waits. Follows 07_microword.md, R125, R132. -/
def Obligations.TheHeadPortMovesBytes : Prop :=
  ∀ (s : State) (th : Fin 8192) (off : BitVec 8) (len : BitVec 4) (reg : BitVec 6) (flg : BitVec 4) (imm : Word),
    s.dev.mayIssue th.val = true → 0 < len.toNat →
    let x := s.dev.thread th.val
    let runs (dir : Nat) (c : Instr) (d : Dev) : Prop :=
      let awaits := x.awaits (HpF.touches ⟨off.toNat, len.toNat, dir, reg.toNat, flg.toNat⟩)
      (awaits = false → exec c s = .next { s with dev := d }) ∧ (awaits = true → exec c s = .next s)
    let f := flg.toNat
    let o := off.toNat + (if bit f 0 then x.reg (if bit f 1 then 31 else 30) % 512 else 0)
    let n := len.toNat
    let r := reg.toNat
    let load (b : List Byte) : Nat :=
      let v := if bit f 2 then leNat b else beNat b
      if bit f 3 then ofSigned 64 (toSigned (8 * b.length) v) else v
    let store (n v : Nat) : List Byte := if bit f 2 then leBytes n v else beBytes n v
    (n ≤ 8 → r < 32 →
      runs 0 (.headToRegister th off len reg flg imm) (s.dev.setThread th.val (x.setReg r (load (slice (x.hb.take 256) o n)))) ∧
      runs 2 (.metadataToRegister th off len reg flg imm) (s.dev.setThread th.val (x.setReg r (load (slice (x.md.take 64) o n))))) ∧
    (n = 9 → r < 32 → r % 2 = 0 → bit f 3 = false →
      runs 0 (.headToRegister th off len reg flg imm) (s.dev.setThread th.val ((x.setReg r (load (slice (x.hb.take 256) o 8))).setReg (r + 1) (load (slice (x.hb.take 256) (o + 8) 8)))) ∧
      runs 2 (.metadataToRegister th off len reg flg imm) (s.dev.setThread th.val ((x.setReg r (load (slice (x.md.take 64) o 8))).setReg (r + 1) (load (slice (x.md.take 64) (o + 8) 8))))) ∧
    (n ≤ 8 → (r < 32 ∨ r = 63) → bit f 3 = false →
      let v := if r = 63 then imm.toNat else x.reg r
      runs 1 (.registerToHead th off len reg flg imm) (s.dev.setThread th.val (x.setHb ((splice x.hb o (store n v)).take 256))) ∧
      runs 3 (.registerToMetadata th off len reg flg imm) (s.dev.setThread th.val (x.setMd ((splice x.md o (store n v)).take 64)))) ∧
    (n = 9 → r < 32 → r % 2 = 0 → bit f 3 = false →
      let b := store 8 (x.reg r) ++ store 8 (x.reg (r + 1))
      runs 1 (.registerToHead th off len reg flg imm) (s.dev.setThread th.val (x.setHb ((splice x.hb o b).take 256))) ∧
      runs 3 (.registerToMetadata th off len reg flg imm) (s.dev.setThread th.val (x.setMd ((splice x.md o b).take 64))))

/-- O30. Each SEQ code moves the thread that its engine chooses to the address it names, or ends the pass with its outcome.
Follows 06_engine_fabric.md, 07_microword.md, R96, R104, R110, R118, R119, R136, R138, R151. -/
def Obligations.IssuesSequenceAndEndPasses : Prop :=
  (∀ (s : State) (th : Fin 8192) (chk : Fin 8) (w : Mw) (g : Dev), chk.val ≠ 7 → s.dev.pickThread th.val = some g → s.dev.issueKind th.val = .word w →
    let old := g.thread th.val
    let nib := old.cond th.val w.csel
    let next := (old.upc + 1) % 16384
    let d := ((g.csCorrected (th.val / 128) chk.val).bump64 (engPage (th.val / 128)) 0x120 1).unitsAct th.val w
    let y : Thread := { d.thread th.val with skipBrk := false, head := (d.thread th.val).head.map fun h => { h with issues := h.issues + 1 } }
    let x : Thread := { y with latch := nib }
    (w.seq = 0 → exec (.cont th chk) s = .next { s with dev := (d.setThread th.val { x with upc := next }).settleThread th.val }) ∧
    (w.seq = 1 → exec (.branch th chk) s = .next { s with dev := (d.setThread th.val { x with upc := formed w nib }).settleThread th.val }) ∧
    (w.seq = 2 → exec (.call th chk) s = .next { s with dev := (d.setThread th.val { x with stack := next :: x.stack, upc := formed w nib }).settleThread th.val }) ∧
    (w.seq = 3 → exec (.ret th chk) s = .next { s with dev := (d.setThread th.val { x with stack := x.stack.tail, upc := x.stack.headD 0 }).settleThread th.val }) ∧
    (w.seq = 4 → exec (.tret th chk) s = .next { s with dev := (d.setThread th.val x.resumeFrame).settleThread th.val }) ∧
    (w.seq = 5 → exec (.yield th chk) s = .next { s with dev := (d.setThread th.val { x with upc := formed w nib }).settleThread th.val }) ∧
    (w.seq = 6 → y.outstanding = true → exec (.wait th chk) s = .next { s with dev := (d.setThread th.val { y with st := 3, waitWord := some (w, old.upc) }).settleThread th.val }) ∧
    (w.seq = 6 → y.outstanding = false → exec (.wait th chk) s = .next { s with dev := (d.setThread th.val { y with latch := nib, upc := formed w nib }).settleThread th.val })) ∧
  (∀ (s : State) (th : Fin 8192) (chk : Fin 8) (w : Mw) (h : Head) (g : Dev), chk.val ≠ 7 → s.dev.pickThread th.val = some g → s.dev.issueKind th.val = .word w →
    let nib := (g.thread th.val).cond th.val w.csel
    let d0 := ((g.csCorrected (th.val / 128) chk.val).bump64 (engPage (th.val / 128)) 0x120 1).unitsAct th.val w
    let x : Thread := { d0.thread th.val with skipBrk := false, head := (d0.thread th.val).head.map fun h => { h with issues := h.issues + 1 }, latch := nib }
    let d := d0.setThread th.val x
    let y := d.thread th.val
    let m := y.mdWord 15
    let chan := d.get (pgPage h.pkt.pg) F.PG_PUNT_CH_CHAN
    let en := d.get (pgPage h.pkt.pg) F.PG_PUNT_CH_EN
    y.head = some h →
    (w.seq = 7 → exec (.endFwd th chk) s = .next { s with dev := (d.endPlaced th.val ⟨0, bits m 0 17, min 2 (bits m 17 2), 0, 0, h.pkt, h.md⟩).settleThread th.val }) ∧
    (w.seq = 8 → exec (.endMc th chk) s = .next { s with dev := (d.endPlaced th.val ⟨1, bits m 0 16, 0, 0, 0, h.pkt, h.md⟩).settleThread th.val }) ∧
    (w.seq = 9 → exec (.endDrop th chk) s = .next { s with dev := (d.endPass th.val ⟨2, 0, 0, 0, 0, h.pkt, h.md⟩).settleThread th.val }) ∧
    (w.seq = 10 → bit m 16 = false → exec (.endPunt th chk) s = .next { s with dev := (d.endPlaced th.val ⟨3, bits m 0 10, 0, bits m 10 6, 1, h.pkt, h.md⟩).settleThread th.val }) ∧
    (w.seq = 10 → bit m 16 = true → en = 1 → exec (.endPunt th chk) s = .next { s with dev := (d.endPlaced th.val ⟨3, chan, 0, bits m 10 6, 1, h.pkt, h.md⟩).settleThread th.val }) ∧
    (w.seq = 10 → bit m 16 = true → en = 0 → geometryOk h.pkt.flen (y.geometry h.pkt.flen) = true →
      exec (.endPunt th chk) s = .next { s with dev := (d.endPass th.val ⟨2, 0, 0, 0, 0, h.pkt, h.md⟩).settleThread th.val }) ∧
    (w.seq = 11 → d.running (pgPage (bits m 0 4)) = true → exec (.recirc th chk) s = .next { s with dev := ((d.engCnt (th.val / 128) 7).endPass th.val ⟨4, bits m 0 4, 0, 0, 0, h.pkt, h.md⟩).settleThread th.val }) ∧
    (w.seq = 11 → d.running (pgPage (bits m 0 4)) = false → exec (.recirc th chk) s = .next { s with dev := (d.endByTrap th.val 5 false false).settleThread th.val }) ∧
    (w.seq = 12 → exec (.abort th chk) s = .next { s with dev := (d.endByTrap th.val 5 true false).settleThread th.val }))

/-- O31. A trap, budget, epoch end, breakpoint or halt takes the thread's next issue slot, and debug writes reach the thread
they select. Follows 07_microword.md, 08_programs_and_epochs.md, R97, R117, R119, R135, R140. Which row carries the EPOCH end
is log entry 13. -/
def Obligations.TrapsAndDebugReachTheThread : Prop :=
  (∀ (s : State) (th : Fin 8192) (chk : Fin 8) (n : Fin 7) (cause upc slot : Nat) (h : Head) (g : Dev), s.dev.pickThread th.val = some g →
    let c := th.val / 128
    let x := s.dev.thread th.val
    (s.dev.issueKind th.val = .trap → x.held = some (cause, upc, slot) →
      let frame := BitVec.ofNat 64 (upc + x.latch * 2 ^ 14 + x.flagsA * 2 ^ 18 + x.flagsB * 2 ^ 22 + cause * 2 ^ 26 + slot * 2 ^ 29 + 2 ^ 32)
      let y : Thread := { x with held := none, frame := frame, upc := (s.dev.get (engPage c) F.ENG_IMG_TRAP_BASE + 16 * cause) % 16384 }
      exec (.trapEnter th) s = .next { s with dev := ((g.setThread th.val y).engCnt c 4).settleThread th.val }) ∧
    (s.dev.issueKind th.val = .budget → exec (.budget th) s = .next { s with dev := g.endByTrap th.val 3 false false }) ∧
    (s.dev.issueKind th.val = .epoch → exec (.branch th chk) s = .next { s with dev := g.endByTrap th.val 1 false false } ∧
      exec (.trapEnter th) s = .next { s with dev := g.endByTrap th.val 1 false false } ∧ exec (.budget th) s = .next { s with dev := g.endByTrap th.val 1 false false }) ∧
    ((∃ w, s.dev.issueKind th.val = .word w ∧ w.seq = 1) →
      exec (.branch th 7) s = .next { s with dev := (g.eccCount 4 (th.val / 4096) .bad).endByTrap th.val 5 false true }) ∧
    (((∃ w, s.dev.issueKind th.val = .word w) ∨ s.dev.issueKind th.val = .csUe) →
      let d : Dev := { g with cs := { g.cs with bad := g.cs.bad.wr false (16384 * c + x.upc % 16384) true } }
      let d := ((d.bump (engPage c) F.ENG_CS_CNT_UNCORR).eccCount 3 (c / 32) .bad).int (engPage c) 4
      exec (.csUe th) s = .next { s with dev := (d.err (engPage c) 0x22 x.upc).endByTrap th.val 5 false false }) ∧
    (let halted : Thread := { x with st := 5, haltReq := false, frame := x.frameOf x.upc 4 0 }
     (s.dev.issueKind th.val = .brk →
       exec (.debugBreak (th, n)) s = .next { s with dev := (((g.csCorrected c n.val).setThread th.val halted).engCnt c 4).int (engPage c) 3 }) ∧
     (s.dev.issueKind th.val = .halt → exec (.threadHalted th) s = .next { s with dev := ((g.setThread th.val halted).engCnt c 4).int (engPage c) 3 })) ∧
    (x.head = some h → s.dev.issueKind th.val = .budget →
      ∃ t, exec (.budget th) s = .next t ∧ (t.dev.thread th.val = Thread.init ∨ (t.dev.thread th.val).ended ≠ none))) ∧
  (∀ (s : State) (th : Fin 8192) (c : Fin 64) (lo hi : Word) (req : BitVec 16), s.dev.hostOpen = true → s.dev.lstate < 2 →
    let p := engPage (th.val / 128)
    let x := s.dev.thread th.val
    let i := s.dev.get (engPage c.val) F.ENG_DBG_ADDR_INDEX
    let v := lo.toNat + hi.toNat * 2 ^ 32
    let u := s.dev.dbgThread c.val
    (s.dev.pageOn p = true → x.st ≠ 0 → x.head ≠ none →
      ∃ t, exec (.halt th req) s = .next t ∧ t.dev.thread th.val = { x with haltReq := true } ∧ t.dev.get p F.ENG_DBG_CTL_ENGINE = th.val / 8 % 16 ∧
        t.dev.get p F.ENG_DBG_CTL_THREAD = th.val % 8 ∧ ∀ k, k ≠ th.val → t.dev.thread k = s.dev.thread k) ∧
    (s.dev.pageOn p = true → x.st = 5 →
      (∃ t, exec (.resumeContinue th req) s = .next t ∧ t.dev.thread th.val = { x.resumeFrame with st := 2, skipBrk := true }) ∧
      (∃ t, exec (.resumeVector th req) s = .next t ∧ t.dev.thread th.val = { x with st := 2, upc := (s.dev.get p F.ENG_IMG_TRAP_BASE + 64) % 16384 }) ∧
      (∃ t, exec (.resumeAbort th req) s = .next t ∧ (x.head ≠ none → t.dev.thread th.val = Thread.init ∨ (t.dev.thread th.val).ended ≠ none))) ∧
    (s.dev.pageOn (engPage c.val) = true → ∃ t, exec (.haltAll c req) s = .next t ∧
      ∀ k, k < 128 → (s.dev.thread (128 * c.val + k)).st ≠ 0 → (s.dev.thread (128 * c.val + k)).head ≠ none →
        t.dev.thread (128 * c.val + k) = { s.dev.thread (128 * c.val + k) with haltReq := true }) ∧
    (s.dev.pageOn (engPage c.val) = true → (s.dev.thread u).st = 5 → i < dbgUnits (s.dev.get (engPage c.val) F.ENG_DBG_ADDR_SPACE) → s.dev.get (engPage c.val) F.ENG_DBG_ADDR_SPACE = 0 →
      ∃ t, exec (.dbgDataWrite c lo hi req) s = .next t ∧ t.dev.thread u = (s.dev.thread u).setReg i v))

/-- O32. A lookup leaves the thread with its key, its status and result follow its table, and return to the registers it
named; counter bumps are posted. Follows 07_microword.md, 09_lookup_quadrants_and_hash.md, R126, R131, R128, R163, R164, R166,
R168. -/
def Obligations.LookupsLeaveAndReturn : Prop :=
  (∀ (s : State) (th : Fin 8192) (table : BitVec 10) (ksel rreg : BitVec 6) (te : Bool) (flg : Nat), s.dev.mayIssue th.val = true →
    let x := s.dev.thread th.val
    let l : LkF := ⟨table.toNat, ksel.toNat, rreg.toNat, flg, te⟩
    let w := s.dev.lkDesc th.val x l
    let q := s.dev.quadOf (th.val / 128)
    let c : Instr := if flg = 0 then .plainLookup th table ksel rreg te else if flg = 1 then .lookupWithLearn th table ksel rreg te else .lookupNoRefresh th table ksel rreg te
    flg < 3 → (x.slot (x.launched % 8)).busy = false → x.awaits (l.touches w) = false →
      (table = 0 → exec c s = .next s) ∧
      (l.illegal w = true → exec c s = .next { s with dev := s.dev.endByTrap th.val 5 false false }) ∧
      (table ≠ 0 → l.illegal w = false →
        let n := cdiv (dKb w) 64
        let key := joinRegs ((List.range n).map fun j => if ksel.toNat < 32 then x.reg (ksel.toNat + j) else x.mdDouble (ksel.toNat - 32 + j)) % 2 ^ dKb w
        ∃ t sl, exec c s = .next t ∧ t.pending = s.pending ∧ t.trust = s.trust ∧
          t.dev.thread th.val = { x.setLk (x.launched % 8) sl with launched := x.launched + 1 } ∧
          sl.busy = true ∧ sl.status = 0 ∧ sl.te = te ∧ sl.rreg = rreg.toNat ∧ sl.quad = q ∧ sl.desc = w ∧ sl.key = key ∧ sl.flg = flg ∧
          (sl.learns = true ↔ flg = 1 ∧ dLearn w = true ∧ dType w = 1 ∧ rreg ≠ 0x3F) ∧ (sl.fate = 1 ↔ df w 0 5 1 = 1 ∨ dType w = 0 ∨ dType w ≥ 5) ∧
          (∀ k, k ≠ th.val → t.dev.thread k = s.dev.thread k) ∧
          (s.dev.fn (lkpPage q) ≠ 0 → t.dev.get (lkpPage q) F.LKP_CNT_COUNT = satAdd 32 (s.dev.get (lkpPage q) F.LKP_CNT_COUNT) 1))) ∧
  (∀ (s : State) (th : Fin 8192) (k : Fin 8) (ecc : Ecc),
    let sl := (s.dev.thread th.val).slot k.val
    let r := (s.dev.lookupReturn sl ecc).1
    let d := (s.dev.lookupReturn sl ecc).2
    let x := (d.thread th.val).setLk k.val { sl with busy := false, status := r.status }
    (sl.busy = false → exec (.lookupResult th k ecc) s = .next s) ∧
    (sl.busy = true → x.ended.isSome = true → exec (.lookupResult th k ecc) s = .next { s with dev := (d.setThread th.val x).leave th.val }) ∧
    (sl.busy = true → x.ended = none → r.epoch = true →
      let y : Thread := { x with epochFail := true }
      exec (.lookupResult th k ecc) s = .next { s with dev := (d.setThread th.val (y.wake th.val)).settleThread th.val }) ∧
    (sl.busy = true → x.ended = none → r.epoch = false →
      let y := if sl.rreg = 0x3F then x else x.putResult sl.rreg (cdiv r.rb 64) r.res
      exec (.lookupResult th k ecc) s = .next { s with dev := (d.setThread th.val (y.wake th.val)).settleThread th.val })) ∧
  (∀ (d : Dev) (sl : LkSlot) (p : Nat) (rest : List Nat),
    let w := sl.desc
    let m := d.lkp.mem
    (sl.fate = 1 → d.lookupReturn sl .clean = (⟨0, 0, 0, true⟩, d)) ∧
    (sl.fate = 2 → d.lookupReturn sl .clean = (⟨8, 0, dRb w, false⟩, d)) ∧
    (sl.fate = 0 → dType w = 1 → hitsOf m sl.quad w sl.key = p :: rest →
      (d.lookupReturn sl .clean).1 = ⟨1 + b2n (bit (entryAt m sl.quad w p) 2) * 4, eRes w (entryAt m sl.quad w p), dRb w, false⟩) ∧
    (sl.fate = 0 → dType w = 1 → hitsOf m sl.quad w sl.key = [] → (d.lookupReturn sl .clean).1 = ⟨0, df w 4 0 32, dRb w, false⟩) ∧
    (sl.fate = 0 → dType w = 2 → sl.key < df w 6 0 26 →
      (d.lookupReturn sl .clean).1 = ⟨1, memNat m (lkWord sl.quad (dBase w + sl.key * directBytes w)) (directBytes w / 4) % 2 ^ dRb w, dRb w, false⟩) ∧
    (sl.fate = 0 → dType w = 2 → df w 6 0 26 ≤ sl.key → (d.lookupReturn sl .clean).1 = ⟨4, df w 4 0 32, dRb w, false⟩)) ∧
  (∀ (s : State) (th : Fin 8192) (imm : Word), s.dev.mayIssue th.val = true →
    let x := s.dev.thread th.val
    exec (.counterBump th 0 imm) s = .next s ∧
    exec (.counterBump th 1 imm) s = .next { s with dev := s.dev.postCounter (imm.toNat % 2 ^ 24) 1 (bits (x.mdWord 0) 8 14) } ∧
    (x.awaits [29] = false → exec (.counterBump th 2 imm) s = .next { s with dev := s.dev.postCounter (x.reg 29 % 2 ^ 24) 1 (bits (x.mdWord 0) 8 14) }) ∧
    exec (.counterBump th 3 imm) s = .next { s with dev := s.dev.endByTrap th.val 5 false false })

/-- O33. A lookup entry that is written reads back, leaves every other entry as it was, and its fields are what they were made
of. Follows 09_lookup_quadrants_and_hash.md, R161, R166. -/
def Obligations.EntriesReadBack : Prop :=
  ∀ (m : Map Word) (q : Nat) (w : List Word) (p p' e : Nat),
    entryAt (putEntry m q w p e) q w p = e % 2 ^ (4 + dKb w + dRb w) ∧
    (p' ≠ p → entryAt (putEntry m q w p e) q w p' = entryAt m q w p') ∧
    (Map.wf (fun _ => 0) m = true → Map.wf (fun _ => 0) (putEntry m q w p e) = true) ∧
    (∀ key v a s l res, eKey w (mkEntry w v a s l key res) = key % 2 ^ dKb w ∧ eRes w (mkEntry w v a s l key res) = res % 2 ^ dRb w ∧
      bit (mkEntry w v a s l key res) 0 = v ∧ bit (mkEntry w v a s l key res) 1 = a ∧ bit (mkEntry w v a s l key res) 2 = s ∧ bit (mkEntry w v a s l key res) 3 = l)

/-- O34. INSERT, UPDATE, DELETE and FIND run one at a time on the command registers, and a descriptor commit is checked.
Follows 09_lookup_quadrants_and_hash.md, R162, R169, R170. -/
def Obligations.LookupCommandsRunOneAtATime : Prop :=
  (∀ (s : State) (q : Fin 4) (req : BitVec 16) (t : Fin 1024) (data : Word) (ecc : Ecc) (r : List EngOp),
    let p := lkpPage q.val
    (s.dev.reachable p → s.dev.get p F.LKP_CMD_STAT_BUSY = 0 →
      let d := (s.dev.set p F.LKP_CMD_STAT_BUSY 1).set p F.LKP_CMD_STAT_DONE 0
      let go : Host.Outcome State Fault Refusal := .next { s with dev := d.putEngine q.val { d.engine q.val with ops := (d.engine q.val).ops ++ [.cmd] } }
      (s.dev.get p F.LKP_CMD_CTL_OP = 1 → exec (.insert q req) s = go) ∧ (s.dev.get p F.LKP_CMD_CTL_OP = 2 → exec (.update q req) s = go) ∧
      (s.dev.get p F.LKP_CMD_CTL_OP = 3 → exec (.delete q req) s = go) ∧ (s.dev.get p F.LKP_CMD_CTL_OP = 4 → exec (.find q req) s = go)) ∧
    ((s.dev.engine q.val).ops = .cmd :: r → s.dev.lkStore q.val = q.val →
      let d := s.dev.takeOp q.val
      let op := d.get p F.LKP_CMD_CTL_OP
      let w := d.desc q.val (d.get p F.LKP_CMD_CTL_TABLE)
      let key := d.cmdNat p F.LKP_CMD_KEY_KEY % 2 ^ dKb w
      let res := d.cmdNat p F.LKP_CMD_RES_RES
      let d1 := d.set p F.LKP_CMD_STAT_CTL 0
      1 ≤ op → op ≤ 4 →
      (dType w = 1 → exec (.lkpCommandDone q .clean) s = .next { s with dev := (d1.hashCmd q.val w op key res).ageTurns q.val }) ∧
      (dType w = 2 → key < df w 6 0 26 → exec (.lkpCommandDone q .clean) s = .next { s with dev := (d1.directCmd q.val w op key res).ageTurns q.val }) ∧
      (dType w ≠ 1 → (dType w = 2 → df w 6 0 26 ≤ key) →
        exec (.lkpCommandDone q ecc) s = .next { s with dev := (d1.cmdEnd q.val 4 0).ageTurns q.val }) ∧
      (dType w = 1 ∨ dType w = 2 ∧ key < df w 6 0 26 →
        let lines := d1.cmdLines q.val w op key
        let line := lines.getD ((Config.freeWord d1.fresh).toNat % lines.length) 0
        exec (.lkpCommandDone q .bad) s =
          .next { s with dev := ((({ d1 with fresh := d1.fresh + 1 } : Dev).bucketUe q.val line).cmdEnd q.val 5 0).ageTurns q.val })) ∧
    (s.dev.reachable p → t.val ≠ 0 →
      let w := (List.range 7).map (fun k => (Map.rd none s.dev.lkp.held (heldKey q.val t.val k)).getD (s.dev.word p (0x8000 + 32 * t.val + 4 * k))) ++ [data]
      let d : Dev := { s.dev with lkp := { s.dev.lkp with held := s.dev.lkp.held.dropRange (heldKey q.val t.val 0) (heldKey q.val t.val 8) } }
      (descCheck (d.lkBytes q.val) t.val w = none → exec (.descriptorCommit q t data 15 req) s = .next { s with dev := d.showRec p (0x8000 + 32 * t.val) 8 w }) ∧
      (∀ n, descCheck (d.lkBytes q.val) t.val w = some n →
        let c : Cap := { page := p, kinds := [0x21], off := 0x8000 + 32 * t.val + 28, data := data.toNat, write := true, req := req.toNat, d5 := t.val, d6 := n }
        exec (.descriptorCommit q t data 15 req) s = .next { s with dev := d.capture c }))) ∧
  (∀ (d : Dev) (q : Nat) (w : List Word) (key res : Nat),
    let p := lkpPage q
    let m := d.lkp.mem
    let st : Bool := decide (d.get p F.LKP_CMD_CTL_STATIC = 1)
    let learned : Bool := decide (d.get p F.LKP_CMD_CTL_LEARNED = 1)
    (hitsOf m q w key = [] →
      (∀ j, freeWay m q w (candidate w key 0) = some j →
        let pos := candidate w key 0 * 4 + j
        let d1 := (d.setMem (putEntry m q w pos (mkEntry w true false st learned key (withLstate w res 0)))).setEngine q { d.engine q with vp := (d.engine q).vp }
        d.hashCmd q w 1 key res = (((d1.bump p (F.LKP_CNT_COUNT.at 24) 0).set p F.LKP_CMD_POS_POS pos).cmdEnd q 0 0)) ∧
      d.hashCmd q w 2 key res = d.cmdEnd q 2 0 ∧ d.hashCmd q w 3 key res = d.cmdEnd q 2 0 ∧ d.hashCmd q w 4 key res = d.cmdEnd q 2 0) ∧
    (∀ pos r, hitsOf m q w key = pos :: r →
      let e := entryAt m q w pos
      let d1 := d.set p F.LKP_CMD_POS_POS pos
      d.hashCmd q w 1 key res = d1.cmdEnd q 1 0 ∧
      d.hashCmd q w 2 key res = (d1.setMem (putEntry m q w pos (mkEntry w true (bit e 1) st (bit e 3) key (withLstate w res (entryState w e))))).cmdEnd q 0 0 ∧
      d.hashCmd q w 3 key res = (d1.setMem (putEntry m q w pos (clrBit e 0))).cmdEnd q 0 0 ∧
      d.hashCmd q w 4 key res =
        ((d1.showRec p F.LKP_CMD_RES_RES.off 8 ((List.range 8).map fun k => BitVec.ofNat 32 (eRes w e / 2 ^ (32 * k)))).set p F.LKP_CMD_STAT_CTL (e % 16)).cmdEnd q 0 0))

/-- O35. Learning inserts, refreshes, holds or moves entries as its table says, a request read as uncorrectable is dropped, the
ager takes its turn or waits for it, and events are popped. Follows 09_lookup_quadrants_and_hash.md, R169, R175, R176, R179. The
ager's turn is log entry 85. -/
def Obligations.LearningFollowsItsTable : Prop :=
  ∀ (s : State) (q : Fin 4) (table : Fin 1024) (key data pos : Nat) (r : List EngOp) (req : BitVec 16),
    let d := s.dev.takeOp q.val
    let p := lrnPage q.val
    let w := d.desc q.val table.val
    let m := d.lkp.mem
    let e := entryAt m q.val w pos
    (dType w = 1 → dLearn w = true →
      ((s.dev.engine q.val).ops = .learn table.val false key data :: r → hitsOf m q.val w key = [] →
        exec (.learnNew (q, .clean)) s = .next { s with dev := (d.learnNew q.val table.val w key data).ageTurns q.val }) ∧
      (∀ l, (s.dev.engine q.val).ops = .learn table.val true key data :: r → hitsOf m q.val w key = pos :: l →
        (eRes w e % 2 ^ (dRb w - 16) = data → exec (.learnMove (q, .clean)) s =
          .next { s with dev := ((d.setMem (putEntry m q.val w pos (setBit e 1))).cnt p F.LRN_CNT_COUNT 3).ageTurns q.val }) ∧
        (eRes w e % 2 ^ (dRb w - 16) ≠ data → bit e 2 = true → exec (.learnMove (q, .clean)) s = .next { s with dev := (d.cnt p F.LRN_CNT_COUNT 7).ageTurns q.val }) ∧
        (eRes w e % 2 ^ (dRb w - 16) ≠ data → bit e 2 = false → 0 < bits (entryState w e) 4 4 → exec (.learnMove (q, .clean)) s = .next { s with dev := (d.cnt p F.LRN_CNT_COUNT 6).ageTurns q.val }) ∧
        (eRes w e % 2 ^ (dRb w - 16) ≠ data → bit e 2 = false → bits (entryState w e) 4 4 = 0 → exec (.learnMove (q, .clean)) s =
          .next { s with dev := (d.learnMove q.val table.val w key data pos).ageTurns q.val }))) ∧
    (∀ move, (s.dev.engine q.val).ops = .learn table.val move key data :: r →
      let lost := (((d.eccCount 7 (q.val / 2) .bad).cnt p F.LRN_CNT_COUNT 1).ageTurns q.val)
      (move = false → exec (.learnNew (q, .bad)) s = .next { s with dev := lost }) ∧
      (move = true → exec (.learnMove (q, .bad)) s = .next { s with dev := lost })) ∧
    ((s.dev.engine q.val).ops = .learn table.val false key data :: r → ¬(dType w = 1 ∧ dLearn w = true) →
      exec (.learnNew (q, .clean)) s = .next { s with dev := (d.cnt p F.LRN_CNT_COUNT 1).ageTurns q.val }) ∧
    (let w := s.dev.desc q.val table.val
     let x := entryAt s.dev.lkp.mem q.val w pos
     let v := visit (s.dev.get p F.LRN_SWEEP_AGE_LIMIT) (s.dev.get p F.LRN_SWEEP_AGE_EN = 1) w x
     let d1 := s.dev.setEngine q.val { s.dev.engine q.val with turns := 0 }
     s.dev.lkStore q.val = q.val → s.dev.running p = true → dType w = 1 → dLearn w = true → pos < 2 ^ (dNb w + 3) →
       ((s.dev.engine q.val).ops ≠ [] → (s.dev.engine q.val).turns < 15 →
         exec (.ageingVisit q table pos) s =
           .next { s with dev := s.dev.setEngine q.val { s.dev.engine q.val with visits := (s.dev.engine q.val).visits ++ [(table.val, pos)] } }) ∧
       ((s.dev.engine q.val).visits = [] → ((s.dev.engine q.val).ops = [] ∨ 15 ≤ (s.dev.engine q.val).turns) →
       (bit x 0 = false → exec (.ageingVisit q table pos) s = .next { s with dev := d1 }) ∧
       (bit x 0 = true → v.2 = false → exec (.ageingVisit q table pos) s = .next { s with dev := d1.setMem (putEntry d1.lkp.mem q.val w pos v.1) }) ∧
       (bit x 0 = true → v.2 = true → exec (.ageingVisit q table pos) s = .next { s with dev := ((d1.setMem (putEntry d1.lkp.mem q.val w pos v.1)).cnt p F.LRN_CNT_COUNT 8).learnEvent q.val 4 table.val pos (eKey w x) }))) ∧
    (s.dev.reachable p → exec (.lrnEvtPop q req) s = .next { s with dev := (s.dev.setEngine q.val { s.dev.engine q.val with evts := (s.dev.engine q.val).evts.drop 1 }).showEvts q.val })

/-- O36. TIME_CTL sets, steps, slews and aborts, a counter that jumps takes the gates with it, captures and timestamps queue and
pop, and TIME_FREQ is clamped. Follows 17_time_unit.md, R313, R314, R315, R319, R322, R324, R330. -/
def Obligations.TimeControl : Prop :=
  (∀ (s : State) (req : BitVec 16), s.dev.reachable 0x08 → s.dev.meshRole ≠ 2 →
    let adj := toSigned 32 (s.dev.get 0x08 F.TIME_ADJ_NS)
    let jumps (d : Dev) : Dev := if d.now = s.dev.now then d else d.placeGates
    (let v : Nat := (s.dev.get 0x08 (F.TIME_SET_VALUE.at 4) + s.dev.get 0x08 (F.TIME_SET_VALUE.at 8) % 65536 * 2 ^ 32) * 1000000000 + s.dev.get 0x08 F.TIME_SET_VALUE % 2 ^ 30
     exec (.set req) s = .next { s with dev := jumps ((s.dev.setTime { s.dev.time with frac := 0 }).moveTime v) }) ∧
    exec (.step req) s = .next { s with dev := jumps (s.dev.moveTime ((s.dev.now : Int) + adj)) } ∧
    (s.dev.get 0x08 F.TIME_STAT_SLEWING ≠ 1 → adj ≠ 0 →
      exec (.slew req) s = .next { s with dev := (s.dev.setTime { s.dev.time with slew := adj * 1000000, slewRate := 0 }).set 0x08 F.TIME_STAT_SLEWING 1 }) ∧
    (s.dev.get 0x08 F.TIME_STAT_SLEWING ≠ 1 → adj = 0 → exec (.slew req) s = .next { s with dev := (s.dev.setTime { s.dev.time with slew := 0 }).int 0x08 5 }) ∧
    exec (.timeAbort req) s = .next { s with dev := (s.dev.setTime { s.dev.time with slew := 0 }).set 0x08 F.TIME_STAT_SLEWING 0 } ∧
    (s.dev.get 0x08 F.TIME_STAT_SLEWING = 1 →
      let f : Int := (s.dev.time.frac : Int) + s.dev.time.slew * 2 ^ 32 / 1000000
      let d := (s.dev.setTime { s.dev.time with slew := 0, frac := (f % 2 ^ 32).toNat }).moveTime ((s.dev.now : Int) + f / 2 ^ 32)
      exec .slewComplete s = .next { s with dev := (d.set 0x08 F.TIME_STAT_SLEWING 0).int 0x08 5 }) ∧
    (s.dev.domOn 27 = true → s.dev.domOn 28 = true → exec .slaveAligned s = .next { s with dev := s.dev.set 0x09 F.TIME_STAT_ALIGNED 1 })) ∧
  (∀ (s : State) (i : Fin 8) (rising : Bool) (page : Fin 2) (req : BitVec 16),
    let t := s.dev.time
    let edge := s.dev.get 0x08 (F.TIME_CAP_CFG_EDGE.at (4 * i.val))
    let rec_ : List Word := [BitVec.ofNat 32 t.ns, BitVec.ofNat 32 t.sec, BitVec.ofNat 32 (t.sec / 2 ^ 32 + i.val * 2 ^ 16 + b2n rising * 2 ^ 19), 0]
    let d := (s.dev.setTime { t with caps := t.caps ++ [rec_] }).showCaps
    (s.dev.running 0x08 = true → bit edge (if rising then 0 else 1) = true →
      (t.caps = [] → exec (.capture i rising) s = .next { s with dev := d.int 0x08 0 }) ∧
      (t.caps ≠ [] → t.caps.length < 64 → exec (.capture i rising) s = .next { s with dev := d }) ∧
      (64 ≤ t.caps.length → exec (.capture i rising) s = .next { s with dev := (s.dev.bump 0x08 F.TIME_CAP_DEPTH_LOST).int 0x08 1 })) ∧
    ((s.dev.running 0x08 = false ∨ bit edge (if rising then 0 else 1) = false) → exec (.capture i rising) s = .next s) ∧
    (s.dev.reachable 0x08 → exec (.timeCapPop req) s = .next { s with dev := (s.dev.setTime { t with caps := t.caps.drop 1 }).showCaps }) ∧
    (s.dev.reachable (8 + page.val) → exec (.timeTxPop page req) s = .next { s with dev := s.dev.setTxFifo page.val ((s.dev.txFifo page.val).drop 1) }) ∧
    (s.dev.reachable (8 + page.val) → ∃ u, exec (.timeNowLatch page req) s = .next u ∧ u.dev.out = .readData (BitVec.ofNat 32 t.frac) :: s.dev.out ∧ u.dev.time = t ∧ u.trust = s.trust)) ∧
  (∀ (s : State) (v : Word) (req : BitVec 16), s.dev.reachable 0x08 →
    let f := v.toInt
    let c := max (-4294967) (min 4294967 f)
    ∃ t, exec (.regWrite 0 (65536 * 0x08 + 0x0108) v 15 req) s = .next t ∧ (t.dev.word 0x08 0x0108).toInt = c ∧
      (c = f → t = { s with dev := s.dev.setWord 0x08 0x0108 v }) ∧
      (c ≠ f → bit (s.dev.word 0x08 0x20).toNat 31 = false → bits (t.dev.word 0x08 0x20).toNat 24 6 = 0x20))

/-- O37. The time counter moves to the time asked, keeps nanoseconds below one second, and advances by its step and frequency
each cycle. Follows 17_time_unit.md, R312, R327. A remembered second boundary is log entry 111. -/
def Obligations.TheCounterKeepsTheTime : Prop :=
  ∀ (d : Dev) (v : Int), d.time.ns < 1000000000 → d.time.frac < 2 ^ 32 →
    (0 ≤ v → v < timeSpan → (d.moveTime v).now = v.toNat) ∧
    ((d.moveTime v).time.ns < 1000000000 ∧ (d.moveTime v).time.sec < 2 ^ 48) ∧
    (d.time.ppsDue = false → 0 ≤ v → v < timeSpan → v - d.now < 2 ^ 62 → d.now - v < 2 ^ 62 →
      ((d.moveTime v).time.ppsDue = true ↔ d.ppsOn = true ∧ (d.time.sec : Int) < v / 1000000000)) ∧
    (d.time.ppsDue = false → d.ppsOn = false → (d.moveTime v).time.ppsDue = false) ∧
    (d.timeRuns = false → d.advance = d) ∧
    (d.timeRuns = true → d.time.slew = 0 → d.time.sec < 2 ^ 48 - 1 →
      let f : Nat := ((d.time.frac : Int) + 2 ^ 32 + toSigned 32 (d.get 0x08 F.TIME_FREQ_FREQ)).toNat
      d.advance.now = d.now + f / 2 ^ 32 ∧ d.advance.time.frac = f % 2 ^ 32 ∧ d.advance.time.ns < 1000000000)

/-- O38. Chimes and PPS pulse at their times, and the mesh exchanges time between leader and followers. Follows
17_time_unit.md, R325, R327, R328, R382. Halving is towards minus infinity: log entry 110. -/
def Obligations.ChimesPulseAndMeshTimeIsExchanged : Prop :=
  (∀ (s : State) (c : Fin 8) (req : BitVec 16),
    let f (x : Fld) : Nat := s.dev.get 0x08 (x.at (32 * c.val))
    let start := s.dev.commitTime (f F.TIME_CHIME_START_S) (f F.TIME_CHIME_START_NS)
    let x : Chime := ⟨f F.TIME_CHIME_PERIODIC = 1, start, f F.TIME_CHIME_PERIOD_NS, f F.TIME_CHIME_WIDTH_NS, start⟩
    (s.dev.reachable 0x08 → s.dev.chimeBad c.val = false →
      (s.dev.due start = false → exec (.chimeArm c req) s = .next { s with dev := (s.dev.setChime c.val (some x)).chimeState c.val 1 }) ∧
      (s.dev.due start = true → x.periodic = false →
        exec (.chimeArm c req) s = .next { s with dev := (((s.dev.setPulse c.val true).chimeState c.val 3).int 0x08 4).setChime c.val none })) ∧
    (s.dev.reachable 0x08 → exec (.chimeCancel c req) s = .next { s with dev := ((s.dev.setChime c.val none).setPulse c.val false).chimeState c.val 0 }) ∧
    (∀ y, s.dev.chime c.val = some y → s.dev.running 0x08 = true → s.dev.due y.next = true →
      (y.periodic = false → exec (.chimePulse c) s = .next { s with dev := ((s.dev.setPulse c.val true).setChime c.val none).chimeState c.val 2 }) ∧
      (y.periodic = true →
        let n := ((s.dev.setPulse c.val true).chimeNext y)
        let d := (s.dev.setPulse c.val true).setChime c.val (some { y with next := n.1 })
        (n.2 = 0 → exec (.chimePulse c) s = .next { s with dev := d }) ∧
        (n.2 ≠ 0 → exec (.chimePulse c) s = .next { s with dev := (d.bump 0x08 (F.TIME_CHIME_SKIP.at (32 * c.val)) n.2).int 0x08 4 }))) ∧
    (s.dev.chime c.val = none → exec (.chimePulse c) s = .next s) ∧
    exec (.chimePulseEnd c) s = .next { s with dev := s.dev.setPulse c.val false } ∧
    (s.dev.time.ppsDue = true → s.dev.running 0x08 = true → s.dev.get 0x08 F.TIME_PPS_EN = 1 →
      exec .pps s = .next { s with dev := s.dev.setTime { s.dev.time with pps := true, ppsDue := false } }) ∧
    ((s.dev.time.ppsDue = false ∨ s.dev.get 0x08 F.TIME_PPS_EN = 0) → exec .pps s = .next s) ∧
    exec .ppsEnd s = .next { s with dev := s.dev.setTime { s.dev.time with pps := false } }) ∧
  (∀ (s : State) (port : Fin 16) (cell : List Byte) (src x t1 : Nat) (e : Exchange) (r : List Exchange) (d : Dev),
    (s.dev.meshRole = 1 → s.dev.running 0x08 = true →
      let to_ := (List.range 4).filter fun e => e ≠ s.dev.power.uxId && (s.dev.isMemberDev 0 e || s.dev.isMemberDev 1 e)
      let d0 := s.dev.setTime { s.dev.time with xseq := (s.dev.time.xseq + 1) % 65536 }
      exec .meshExchange s = .next { s with dev := to_.foldl (fun d e => match (d.portsTo e).head? with | some p => d.timeCell p 1 e s.dev.time.xseq d.now | none => d) d0 }) ∧
    (s.dev.meshRole ≠ 1 → exec .meshExchange s = .next s) ∧
    (s.dev.timeArrive port.val cell 1 = (some (src, x, t1), d) → d.meshRole = 2 → src = d.live 0x08 F.TIME_MESH_CFG_LEADER →
      let y : Exchange := ⟨src, port.val, x, t1, d.now, d.now⟩
      exec (.sync port cell) s = .next { s with dev := (d.setTime { d.time with exchanges := d.time.exchanges ++ [y] }).timeCell port.val 2 src x d.now }) ∧
    (s.dev.timeArrive port.val cell 2 = (some (src, x, t1), d) → d.meshRole = 1 → exec (.dreq port cell) s = .next { s with dev := d.timeCell port.val 3 src x d.now }) ∧
    (s.dev.timeArrive port.val cell 3 = (some (src, x, t1), d) → (d.time.exchanges.find? fun e => e.dev = src && e.xseq = x) = some e →
      let d1 := d.setTime { d.time with exchanges := d.time.exchanges.erase e }
      (d1.meshRole = 2 →
        let d2 := d1.meshUpdate ((((e.t2 : Int) - e.t1) - ((t1 : Int) - e.t3)) / 2)
        exec (.resp port cell) s = .next { s with dev := if d2.now = d1.now then d2 else d2.placeGates })) ∧
    (s.dev.time.exchanges = e :: r →
      exec .timeExchangeAbandon s = .next { s with dev := (s.dev.setTime { s.dev.time with exchanges := r }).cnt (uPage e.port) F.ULX_CNT_COUNT 3 }) ∧
    (s.dev.meshRole = 2 → s.dev.running 0x08 = true →
      let d0 := (s.dev.setTime { s.dev.time with good := 0 }).set 0x08 F.TIME_STAT_LOCK 0
      let d1 := if s.dev.get 0x08 F.TIME_STAT_LOCK = 1 then d0.int 0x08 6 else d0
      (d1.get 0x08 F.TIME_STAT_LOST = 1 → exec .meshLost s = .next { s with dev := d1 }) ∧
      (d1.get 0x08 F.TIME_STAT_LOST = 0 → exec .meshLost s = .next { s with dev := (d1.set 0x08 F.TIME_STAT_LOST 1).int 0x08 7 })))

/-- O39. The oldest offer of the source whose turn it is is admitted to its queue or dropped for its reason, and waiting cell
requesters are served in order within quotas. Follows 11_buffer_pool.md, 12_switch_core_and_admission.md, R203, R215, R216. Which
source is taken while all waiting packets fit one cycle is the command's: log entry 156. -/
def Obligations.AdmissionDecides : Prop :=
  ((∀ (s : State) (die : Fin 2) (src : Fin 3) (k : Nat) (g : Dev) (o : Offer) (rest : List Offer) (ecc : Ecc),
    let waiting := ((List.range 3).map fun j => (s.dev.offers die.val j).length).sum
    let turn := s.dev.grant (Rr.swc die.val) 3 ((List.range 3).filter fun j => !(s.dev.offers die.val j).isEmpty)
    (waiting ≤ 16 ∧ k = src.val ∧ g = s.dev ∨ 16 < waiting ∧ turn = (some k, g)) →
    g.offers die.val k = o :: rest → s.dev.active (swcPage die.val) = true → s.dev.active (tmPage (o.queue / 65536)) = true →
    (die.val = o.queue / 65536 ∨ s.dev.domOn 27 = true) →
    let d := g.setSwc { g.swc with offers := g.swc.offers.wr [] (3 * die.val + k) rest }
    let taken (x : Dev) : Dev := if (x.offers die.val 2).length < (s.dev.offers die.val 2).length then x.uluxGranted die.val else x
    let cells := (d.chain o.pkt.first).length
    let why := d.admissionCode die.val o.queue cells (min o.color 2) (decide (k ≠ 1) && !o.shared)
    let port := d.qPort o.queue
    let d0 := if k = 1 then d.pealReason die.val o.cntBase why (max 64 (o.pkt.len + 4)) else d
    (why ≠ 0 →
      let d1 := if k ≠ 1 ∧ d0.attached (d0.qNode o.queue) = true ∧ d0.isMember port = true then d0.cnt (carPage die.val) F.CAR_GLB_CNT_COUNT 0 else d0
      exec (.admission die src ecc) s = .next { s with dev := taken ((d1.dropCount port (why - 1)).letGo o.pkt.first o.pkt.owner o.shared o.final) }) ∧
    (why = 0 →
      let m := d0.ecnMark die.val o.queue (d0.cntOf die.val o.queue)
      let d1 := if m.1 = true then m.2.dropCount port 3 else m.2
      let d2 := if o.shared = true then d1 else d1.setOwners o.pkt.owner o.pkt.first 0
      let d3 := (d2.cntAdd die.val o.queue cells).cnt (swcPage die.val) F.SWC_CNT_COUNT 7
      let e : QEnt := ⟨o.pkt.first, o.pkt.len, o.pkt.owner, o.color, d3.time.ns, die.val, o.pkt.inport % 128, o.pkt.prio, m.1, o.shared, o.final, false, o.pkt.pfc, cells, [], 0, false⟩
      exec (.admission die src ecc) s = .next { s with dev := taken (d3.placeEnt o.queue (d0.qCells o.queue) e ecc) })) ∧
  (∀ (d : Dev) (die q n : Nat),
    let u := { d with swc := { d.swc with cnt := d.swc.cnt.wr 0 (131072 * die + q) (d.cntOf die q + n) } }
    d.cntAdd die q n = if d.sharedFree die ≠ 0 ∧ u.sharedFree die = 0 then u.int (swcPage die) 1 else u) ∧
  (∀ (d : Dev) (die q n : Nat),
    (d.adm die q F.SWC_ADM_PROF_ECN_EN = 0 → d.ecnMark die q n = (false, d)) ∧
    (d.adm die q F.SWC_ADM_PROF_ECN_EN ≠ 0 → d.adm die q F.SWC_ADM_PROF_ECN_SPILL = 1 → (d.queue q).spilled = true → d.ecnMark die q n = (true, d)) ∧
    (d.adm die q F.SWC_ADM_PROF_ECN_EN ≠ 0 → d.adm die q F.SWC_ADM_PROF_ECN_MAX ≤ n → d.ecnMark die q n = (true, d)) ∧
    (d.adm die q F.SWC_ADM_PROF_ECN_SPILL = 0 → n < d.adm die q F.SWC_ADM_PROF_ECN_MAX → n ≤ d.adm die q F.SWC_ADM_PROF_ECN_MIN → d.ecnMark die q n = (false, d)))) ∧
  (∀ (s : State) (die : Fin 2) (r : Fin 16) (w : CellWait) (l m : List (Nat × CellWait)),
    ((∀ x ∈ (s.dev.bpm die.val).waits, x.1 ≠ r.val) → exec (.cellGrantedAfterWait die r) s = .next s) ∧
    ((s.dev.bpm die.val).waits = l ++ (r.val, w) :: m → (∀ x ∈ l, x.1 ≠ r.val) →
      (s.dev.mayTake die.val r.val = false → exec (.cellGrantedAfterWait die r) s = .next s) ∧
      (s.dev.mayTake die.val r.val = true →
        let b : Bpm := { s.dev.bpm die.val with waits := l ++ m }
        exec (.cellGrantedAfterWait die r) s = .next { s with dev := (s.dev.setBpm die.val b).cellFor die.val w })) ∧
    (s.dev.mayTake die.val r.val = true ↔ s.dev.used die.val r.val < s.dev.quotaMax die.val r.val ∧
      (s.dev.used die.val r.val < s.dev.quotaMin die.val r.val ∨
        ((List.range 16).map fun q => s.dev.quotaMin die.val q - s.dev.used die.val q).sum < s.dev.freeCells die.val)))

/-- O40. Admission is refused when the queue is closed, at its cap, or beyond its minimum plus the dynamic threshold of the
free shared cells. Follows 12_switch_core_and_admission.md, R214, R215. -/
def Obligations.TheThresholdIsDynamic : Prop :=
  ∀ (d : Dev) (die q c k : Nat) (u : Bool),
    let n := d.cntOf die q
    let mn := d.adm die q F.SWC_ADM_PROF_MIN
    let code := d.adm die q (if k = 0 then F.SWC_ADM_PROF_ALPHA_G else if k = 1 then F.SWC_ADM_PROF_ALPHA_Y else F.SWC_ADM_PROF_ALPHA_R)
    let t := if code = 0 then 0 else d.sharedFree die * 2 ^ (code - 1) / 128
    (d.queueClosed q u = true → d.admissionCode die q c k u = 3) ∧
    (d.queueClosed q u = false → d.capBit die q = true → d.admissionCode die q c k u = 2) ∧
    (d.queueClosed q u = false → d.capBit die q = false → n + c ≤ mn → d.admissionCode die q c k u = 0) ∧
    (d.queueClosed q u = false → d.capBit die q = false → mn < n + c → 0 < c →
      (d.admissionCode die q c k u = 0 ↔ n + c - mn ≤ t ∧ (n + c - mn) - (n - mn) ≤ d.sharedFree die) ∧
      (d.admissionCode die q c k u = 1 ↔ t < n + c - mn ∨ d.sharedFree die < (n + c - mn) - (n - mn)))

/-- O41. The scheduler selects a queue of a ready port, its cells move to the endpoint, and the frame is sent with padding and
FCS. Follows 12_switch_core_and_admission.md, 13_egress_scheduling.md, R82, R222, R231. -/
def Obligations.FramesAreSelectedAndSent : Prop :=
  (∀ (s : State) (pg : Fin 16) (port m k q : Nat) (e : QEnt) (r : List QEnt),
    let die := pg.val / 8
    let d := s.dev
    let mine := (List.range 152).filter fun p => d.portHome p = some die && d.schedOf die p == pg.val && d.portReady die p
    let asks := mine.filter fun p => (d.portQueues p).any fun q => d.qSelectable q (decide (p < 128) && d.gapFill p)
    let g := d.grant (Rr.ports pg.val) 152 asks
    (d.running (tmPage die) = false → ∀ ecc, exec (.selection (pg, ecc)) s = .next s) ∧
    (d.running (tmPage die) = true → (∀ p ∈ mine, p < 128 → d.gate p = none) →
      (asks = [] → ∀ ecc, exec (.selection (pg, ecc)) s = .next s) ∧
      (let c := g.2.choose port (fun q => g.2.qSelectable q false)
       g.1 = some port → c.1 = some (m, k, q) → (g.2.queue q).ents = e :: r →
         exec (.selection (pg, .clean)) s = .next { s with dev := c.2.takeHead die port m k q e } ∧
         exec (.selection (pg, .bad)) s =
           let x := g.2.eccCount 6 die .bad
           .next { s with dev := (x.setQueue q { x.queue q with faulted := true }).flushQueue q })) ∧
    (d.running (tmPage die) = true → mine = [port] → port < 128 →
      let d1 := d.dropAllOversize port
      let d2 := (d1.grant (Rr.ports pg.val) 152 [port]).2
      let c := d2.choose port (fun q => d2.qSelectable q false)
      (d1.portQueues port).any (fun q => d1.qSelectable q (d1.gapFill port)) = true → (d2.gate port).isSome = true → d2.gapFill port = false →
      c.1 = some (m, k, q) → (d2.queue q).ents = e :: r →
        (d2.headFits port k e.frameLen = true → exec (.selection (pg, .clean)) s = .next { s with dev := c.2.takeHead die port m k q e }) ∧
        (d2.headFits port k e.frameLen = false →
          exec (.selection (pg, .clean)) s = .next { s with dev := c.2.setTm { c.2.tm with blocked := c.2.tm.blocked.wr none port (some k) } }))) ∧
  (∀ (s : State) (i : Fin 16) (a : Sel) (c : Nat) (cs : List Nat), s.dev.hif.punts = [] → (s.dev.ep 16).sel = [] →
    s.dev.ep i.val = ⟨[a], (s.dev.ep i.val).staged⟩ → a.cells = c :: cs → cs ≠ [] → a.direct = false → cellDie c = epDie i.val →
    (s.dev.ep i.val).used < 64 → s.dev.active (swcPage (epDie i.val)) = true → (∀ j, j < 17 → j ≠ i.val → s.dev.epWants j = []) →
    ∃ t, exec .cellTransfer s = .next t ∧ t.pending = s.pending ∧ t.trust = s.trust ∧
      t.dev.ep i.val = ⟨[{ a with cells := cs, staged := a.staged + 1 }], (s.dev.ep i.val).staged⟩ ∧
      (∀ j, j ≠ i.val → t.dev.ep j = s.dev.ep j) ∧ t.dev.hif = s.dev.hif ∧ t.dev.cells = s.dev.cells ∧ t.dev.tm = s.dev.tm) ∧
  (∀ (s : State) (a : HostPkt) (c : Nat) (cs : List Nat), s.dev.hif.punts = [] → (s.dev.ep 16).sel = [] →
    s.dev.hif.path = [a] → a.cells = c :: cs → cs ≠ [] → cellDie c = 0 → s.dev.hif.used < 64 → s.dev.active (swcPage 0) = true →
    (∀ j, j < 16 → s.dev.epWants j = []) →
    ∃ t, exec .cellTransfer s = .next t ∧ t.pending = s.pending ∧ t.trust = s.trust ∧
      t.dev.hif = { s.dev.hif with path := [{ a with cells := cs, staged := a.staged + 1 }] } ∧
      (∀ j, t.dev.ep j = s.dev.ep j) ∧ t.dev.cells = s.dev.cells ∧ t.dev.tm = s.dev.tm) ∧
  (∀ (s : State) (port : Fin 128) (x : Sel) (f : Tx),
    (s.dev.portState port.val = 1 → s.dev.tx port.val = none → s.dev.nextTx port.val = some x →
      let left := (s.dev.ep (portEp port.val)).remove x
      let d := s.dev.setEp (portEp port.val) (if x.cells = [] then left else (s.dev.ep (portEp port.val)).begin x)
      let b := d.buildFrame port.val x.ent
      exec (.frameTransmitStart port .clean) s = .next { s with dev := b.2.setTx port.val (some ⟨x.ent, x.queue, b.1, b.2.clk + b.2.wireNs port.val b.1.length⟩) } ∧
      (x.ent.ctl = false →
        let d1 := (s.dev.setEp (portEp port.val) left).eccCount 0 (cellDie x.ent.first) .bad
        exec (.frameTransmitStart port .bad) s = .next { s with dev := (d1.event (portPage port.val) 3 1 x.ent.first port.val 0).dropEnt x.queue x.ent })) ∧
    ((∀ p, s.dev.loops p = false) → s.dev.tx port.val = some f →
      let outran := s.dev.arriving f.ent.owner = true ∨ ∃ x ∈ (s.dev.ep (portEp port.val)).sel, x.port = port.val ∧ x.onWire = true
      let d0 := ((s.dev.chargeEnded port.val f).setTx port.val none).dropOnWire port.val
      let d := d0.emit (.frame port.val f.bytes)
      (f.ent.ctl = true → exec (.frameTransmitEnd port) s = .next { s with dev := d }) ∧
      (f.ent.ctl = false → ¬outran → exec (.frameTransmitEnd port) s = .next { s with dev := d.dropEnt f.queue f.ent }) ∧
      (f.ent.ctl = false → outran → s.dev.isBad f.ent.owner = false → exec (.frameTransmitEnd port) s =
        .next { s with dev := ((d0.endInverted port.val).emit (.frame port.val (invertFcs f.bytes))).dropEnt f.queue f.ent })) ∧
    (∀ (d : Dev) (p : Nat) (e : QEnt), e.ctl = false → e.ce = false → e.lead = [] → d.get (8 + p / 64) (F.TIME_PORT_TS_TX_MODE.at (8 * (p % 64))) = 0 →
      let b := (d.chainBytes e.first).take e.len
      let body := b ++ List.replicate (60 - b.length) 0
      d.buildFrame p e = (body ++ fcsOf body, d) ∧ (d.buildFrame p e).1.length = max 60 b.length + 4))

/-- O42. PFC frames pause and release priorities, expire, and are sent again while a priority stays above XON. Follows
12_switch_core_and_admission.md, R220, R221. Which counters count is log entry 94. -/
def Obligations.PauseFollowsReceivedFrames : Prop :=
  ∀ (s : State) (port : Fin 128) (prio : Fin 8) (en : BitVec 8) (times : List Nat),
    let p := swcPage (port.val / 64)
    let n := port.val % 64
    (s.dev.portOpen port.val = true → s.dev.isMember port.val = false → s.dev.admits port.val = false →
      exec (.pfcFrameReceive port en times) s = .next { s with dev := s.dev.pgCnt (port.val / 8) (port.val % 8) 0 }) ∧
    (s.dev.portOpen port.val = true → s.dev.isMember port.val = false → s.dev.admits port.val = true →
      let d := s.dev.pgCnt (port.val / 8) (port.val % 8) 5
      (d.get p (F.SWC_PFC_CFG_RX_EN.at (4 * n)) = 0 → exec (.pfcFrameReceive port en times) s = .next { s with dev := d }) ∧
      (d.get p (F.SWC_PFC_CFG_RX_EN.at (4 * n)) = 1 → exec (.pfcFrameReceive port en times) s =
        .next { s with dev := (setBits 8 en.toNat).foldl (fun d i => d.setPaused port.val i (decide (times.getD i 0 ≠ 0))) (d.cnt p F.SWC_CNT_COUNT 3) })) ∧
    (s.dev.pageOn p = true → exec (.pfcPauseExpire port prio) s = .next { s with dev := s.dev.setPaused port.val prio.val false }) ∧
    (bit (s.dev.get p (F.SWC_PFC_STAT_XOFF.at (4 * n))) prio.val = true → s.dev.pfcEnabled port.val prio.val = true → s.dev.get p F.SWC_PFC_THR_XON ≤ s.dev.pfcCount port.val prio.val →
      exec (.pfcRefresh port prio) s = .next { s with dev := s.dev.sendPfc port.val prio.val (s.dev.get p (F.SWC_PFC_CFG_QUANTA.at (4 * n))) }) ∧
    (s.dev.pfcCount port.val prio.val < s.dev.get p F.SWC_PFC_THR_XON → exec (.pfcRefresh port prio) s = .next s) ∧
    (∀ (d : Dev) (on : Bool) (q : Nat), (d.portQueues port.val).filter (fun q => d.qPfcEn q && d.qPrio q == prio.val) = [] →
      let f := F.SWC_PFC_STAT_PAUSED.at (4 * n)
      let t := d.setPaused port.val prio.val on
      bit (t.get p f) prio.val = on ∧ (∀ k, k < 8 → k ≠ prio.val → bit (t.get p f) k = bit (d.get p f) k) ∧ t.queue q = d.queue q)

/-- O43. Open spill pages are written to HBM, recalled in order below the recall level, and rings become ready. Follows
11_buffer_pool.md, R208, R209, R210. -/
def Obligations.SpillPagesAreWrittenAndRecalled : Prop :=
  ∀ (s : State) (q : Fin 131072) (g : Page) (l : List Page) (stack : Fin 4) (words : Reads 1024),
    let x := s.dev.queue q.val
    let die := q.val / 65536
    let low := decide (s.dev.qCells q.val < 16 * s.dev.get (bpmPage die) (F.BPM_SPILL_PROF_RECALL.at (4 * s.dev.qSpill q.val)))
    (x.seg = l ++ [g] → g.written = false → g.slots > 0 → s.dev.domOn (14 + pageStack g.ptr) = true →
      let d := s.dev.hbmWrite (pageStack g.ptr) 1 (pageAddr g.ptr) (g.image 0)
      exec (.openPageTimeout q) s =
        .next { s with dev := (d.setQueue q.val { x with seg := l ++ [{ g with written := true, data := [] }] }).cnt (bpmPage die) F.BPM_CNT_COUNT 3 }) ∧
    (low = false → exec (.recall q) s = .next s) ∧
    (low = true → x.seg = g :: l → g.recalling = false → g.written = true → g.lost = false → (l.filter (·.recalling)).length < 4 → s.dev.fn (hbmPage (pageStack g.ptr)) ≠ 0 →
      let d := s.dev.setQueue q.val { x with seg := { g with recalling := true } :: l }
      exec (.recall q) s = .next { s with dev := d.hbmAsk (pageStack g.ptr) 0 false (pageAddr g.ptr) 4096 }) ∧
    (low = true → x.seg = [] → x.partly = none →
      exec (.recall q) s = .next { s with dev := (s.dev.setQueue q.val { x with ents := x.ents ++ x.writer, writer := [] }).touchQueue q.val }) ∧
    (x.seg = g :: l → g.recalling = true → g.written = true → g.lost = false →
      let h := pageStack g.ptr
      let at_ : Nat → Nat := fun w => pageAddr g.ptr + 4 * w
      let r := s.dev.wordsRead h at_ (badReads words) (correctedReads words)
      exec (.recallReadDone q words) s =
        .next { s with dev := ((s.dev.hbmServe h 0 (pageAddr g.ptr) 4096).countWords h at_ r.1 r.2).takePageBack q.val g r.1 } ∧
      ∀ w, w < 1024 → (w ∈ r.1 ↔ (∃ i : Fin 1024, i.val = w ∧ (i, Ecc.bad) ∈ words) ∨ Map.rd false s.dev.hbmBad (hbmKey h (at_ w)) = true)) ∧
    ((s.dev.ring stack.val).valid = true → s.dev.running (bpmPage (stack.val / 2)) = true → s.dev.running (hbmPage stack.val) = true →
      s.dev.get (bpmPage (stack.val / 2)) (F.BPM_PG_STAT_READY.at (16 * (stack.val % 2))) = 0 →
      ∃ t, exec (.pageRingReady stack) s = .next t ∧ t.dev.ring stack.val = { PageRing.init with count := s.dev.ringSize stack.val, valid := true } ∧
        t.dev.get (bpmPage (stack.val / 2)) (F.BPM_PG_STAT_READY.at (16 * (stack.val % 2))) = 1 ∧
        t.dev.pgFree stack.val = s.dev.ringSize stack.val % 2 ^ 23 ∧
        (∀ i, i < s.dev.ringSize stack.val → Map.rd 0 t.dev.hbmMem (hbmKey stack.val (s.dev.ringBase stack.val) + i) = BitVec.ofNat 32 (s.dev.pgBase stack.val + i + stack.val * 2 ^ 23)))

/-- O44. The wheel wakes at most 128 shapers a slot, buckets refill at their rate, gates move at their boundaries, and rate
schedules apply at their time. Follows 13_egress_scheduling.md, R237, R240, R243, R244. Shapers run on the clock since the
island started: log entries 140 and 141. -/
def Obligations.ShapersGatesAndRatesKeepTime : Prop :=
  (∀ (s : State) (die : Fin 2) (e : Nat),
    let d := s.dev
    let key := 4096 * die.val + d.clk / 8 % 4096
    let next := 4096 * die.val + (d.clk / 8 + 1) % 4096
    let l := Map.rd [] d.tm.fine key
    let late := l.drop 128
    let d1 := d.setTm { d.tm with fine := (d.tm.fine.wr [] key []).wr [] next (late ++ Map.rd [] d.tm.fine next) }
    let ck := 4096 * die.val + d.clk / 32768 % 4096
    (l.length ≤ 128 → exec (.shaperWake die) s = .next { s with dev := l.foldl (fun d e => d.wakeEnt e) d1 }) ∧
    (128 < l.length → exec (.shaperWake die) s =
      .next { s with dev := (l.take 128).foldl (fun d e => d.wakeEnt e) ((d1.bump (tmPage die.val) (F.TM_CNT_COUNT.at 8) (l.length - 128)).int (tmPage die.val) 4) }) ∧
    exec (.coarseSlot die) s = .next { s with dev := (Map.rd [] d.tm.coarse ck).foldl (fun d e => d.place e ((d.bucket e).wake (d.entRate e))) (d.setTm { d.tm with coarse := d.tm.coarse.wr [] ck [] }) } ∧
    (0 < d.entRate e → (d.bucket e).paused = false → (d.bucket e).full = false →
      ((d.bucket e).refill (d.entRate e) (d.entLimit e) d.clk).tokens = min (d.entLimit e : Int) ((d.bucket e).tokens + (((d.clk - (d.bucket e).last) * d.entRate e * 65536 + (d.bucket e).frac) / 8000000 : Nat)))) ∧
  (∀ (s : State) (port : Fin 128) (g : Gate) (req : BitVec 16),
    let d := s.dev
    let p := tmPage (port.val / 64)
    let n := 16 * (port.val % 64)
    let endT : Nat := match g.idx with | none => g.base | some i => g.began + (g.entries.getD i (0, 0)).2
    (d.gate port.val = some g → d.due endT = false → exec (.gateBoundary port) s = .next s) ∧
    (d.gate port.val = some g → d.due endT = true → Map.rd none d.tm.blocked port.val = none →
      let i := match g.idx with | none => 0 | some i => (i + 1) % g.entries.length
      let g1 : Gate := { g with idx := some i, began := endT }
      exec (.gateBoundary port) s = .next { s with dev := (d.setTm { d.tm with gates := d.tm.gates.wr none port.val (some g1) }).touchPort port.val }) ∧
    (d.reachable p →
      (d.rsBad port.val = false → d.due (d.rsTime port.val).1 = false → d.get p (F.TM_RS_CTL_STATE.at n) ≠ 1 → ∃ t, exec (.rsArm port req) s = .next t ∧ t.pending = s.pending ∧ t.trust = s.trust ∧
        Map.rd none t.dev.tm.rs port.val = some ⟨d.get p (F.TM_RS_RATE.at n), (d.rsTime port.val).1⟩ ∧
        t.dev.get p (F.TM_RS_CTL_STATE.at n) = 1 ∧ t.dev.get p (F.TM_RS_CTL_DIR.at n) = (d.rsTime port.val).2 ∧ t.dev.entRate (portEnt port.val) = d.entRate (portEnt port.val)) ∧
      (d.get p (F.TM_RS_CTL_STATE.at n) = 1 →
        exec (.rsCancel port req) s = .next { s with dev := (d.set p (F.TM_RS_CTL_STATE.at n) 0).setTm { d.tm with rs := d.tm.rs.wr none port.val none } })) ∧
    (∀ e, Map.rd none d.tm.rs port.val = some e → d.get p (F.TM_RS_CTL_STATE.at n) = 1 → d.due e.time = true → d.running p = true →
      let t := d.rsApplyAs port.val e.rate 2
      exec (.rsApply port) s = .next { s with dev := t.setTm { t.tm with rs := t.tm.rs.wr none port.val none } }))

/-- O45. Replication walks a group's list one replica at a time, fences wait for the walk, and list entries are read and
written; a group entry read as uncorrectable ends its walk. Follows 14_peal_multicast.md, R252, R253, R255, R257, R259. -/
def Obligations.ReplicationWalksTheList : Prop :=
  ((∀ (s : State) (die : Fin 2) (k : McPkt) (rest : List McPkt), s.dev.active (pealPage die.val) = true → (s.dev.peal die.val).walk = none →
    (s.dev.peal die.val).queue = k :: rest → s.dev.isBad k.pkt.owner = false → s.dev.pealBad 0 die.val k.group = false →
    let p := pealPage die.val
    let d1 := (s.dev.setPealQueue die.val rest).cnt p F.PEAL_CNT_COUNT 0
    let g := s.dev.group die.val k.group
    (∀ es : Reads 8193, (0, Ecc.bad) ∈ es → exec (.replicationWalk die es) s =
      .next { s with dev := (((d1.setPealBad 0 die.val k.group true).eccCount 7 die.val .bad).listUe die.val k.group).freePkt k.pkt }) ∧
    (g.2.1 = 0 → exec (.replicationWalk die []) s = .next { s with dev := (d1.freePkt k.pkt).cnt p F.PEAL_CNT_COUNT 9 }) ∧
    (g.2.1 = 1 →
      let d2 := d1.setOwners k.pkt.owner k.pkt.first 0
      let d3 := d2.setPeal die.val { d2.peal die.val with walk := some (k, g, 0) }
      ∀ t, (d3.walkStep die.val k g 0 [] []).1 = some t →
        let x := t.peal die.val
        exec (.replicationWalk die []) s = .next { s with dev := t.setPeal die.val { x with walk := none, fence := if x.fence = 1 then 2 else x.fence } })) ∧
  (∀ (s : State) (die : Fin 2) (k : McPkt) (g : Nat × Nat × Nat × Bool) (i : Nat), (s.dev.peal die.val).walk = some (k, g, i) → i + 1 = g.2.1 →
    let b := cellDie k.pkt.first
    (s.dev.mayTake b 9 = false → exec (.editCellGranted die) s = .next s) ∧
    ((9, CellWait.edit die.val) ∈ (s.dev.bpm b).waits → s.dev.mayTake b 9 = true →
      let d := s.dev.setBpm b { s.dev.bpm b with waits := (s.dev.bpm b).waits.filter (fun w => w ≠ (9, .edit die.val)) }
      ∀ t, (d.walkStep die.val k g i [] []).1 = some t →
        let x := t.peal die.val
        exec (.editCellGranted die) s = .next { s with dev := t.setPeal die.val { x with walk := none, fence := if x.fence = 1 then 2 else x.fence } })) ∧
  (∀ (d : Dev) (die i : Nat) (k : McPkt) (g : Nat × Nat × Nat × Bool), d.isBad k.pkt.owner = false → d.pealBad 1 die (g.1 + i) = false →
    let e := (d.listEntry die (g.1 + i)).toNat
    let q := bits e 0 17
    let final := decide (i + 1 = g.2.1)
    let cb := if g.2.2.2 then g.2.2.1 + 1 else 0
    let f := max 64 (k.pkt.len + 4)
    let skip := fun why => some ((d.pealReason die cb why f).releaseOrFinal k.pkt.owner final)
    (bit e 19 = false → (d.walkStep die k g i [] []).1 = skip 5) ∧
    (bit e 19 = true → bits e 20 8 = k.pkt.inport → (d.walkStep die k g i [] []).1 = skip 4) ∧
    (bit e 19 = true → bits e 20 8 ≠ k.pkt.inport → d.attached (d.qNode q) = true → d.isMember (d.qPort q) = true → (d.walkStep die k g i [] []).1 = skip 7) ∧
    (bit e 19 = true → bits e 20 8 ≠ k.pkt.inport → d.isMember (d.qPort q) = false → bits e 28 12 = 0 → d.ulxMap die q = none → d.canOffer die 1 = true →
      (d.walkStep die k g i [] []).1 = some (d.offer die 1 ⟨q, bits e 17 2, k.pkt, true, final, cb⟩)))) ∧
  (∀ (s : State) (die : Fin 2) (req : BitVec 16) (i : Nat),
    let p := pealPage die.val
    let x := s.dev.peal die.val
    (s.dev.reachable p →
      exec (.fence die req) s = .next { s with dev := (s.dev.set p F.PEAL_FENCE_DONE 0).setPeal die.val { x with fence := if x.walk.isSome then 1 else 2 } }) ∧
    (x.fence = 2 → exec (.fenceDone die) s = .next { s with dev := ((s.dev.setPeal die.val { x with fence := 0 }).set p F.PEAL_FENCE_DONE 1).int p 0 }) ∧
    (x.fence ≠ 2 → exec (.fenceDone die) s = .next s) ∧
    (s.dev.reachable p → s.dev.pealIdx die.val = some (0, i) →
      (let e := s.dev.listEntry die.val i
       exec (.pealMemRead die req) s = .next { s with dev := (s.dev.setWord p 0x120 (e.setWidth 32)).setWord p 0x124 (BitVec.ofNat 32 (e.toNat / 2 ^ 32)) }) ∧
      (∃ t, exec (.pealMemWrite die req) s = .next t ∧ t.pending = s.pending ∧ t.trust = s.trust ∧
        t.dev.listEntry die.val i = BitVec.ofNat 64 ((s.dev.word p 0x120).toNat + (s.dev.word p 0x124).toNat * 2 ^ 32) ∧
        t.dev.pealBad 1 die.val i = false ∧ (∀ e j, e < 2 → j < 524288 → (e, j) ≠ (die.val, i) → t.dev.listEntry e j = s.dev.listEntry e j) ∧
        t.dev.pealMem.groups = s.dev.pealMem.groups ∧ t.dev.pealMem.edits = s.dev.pealMem.edits)))

/-- O46. A trunk message acts only on a member port with its type; contexts are installed, withdrawn and retried with their
messages; the miner halves and proposes. Follows 15_carillon_and_elision.md, R271, R280, R281, R283, R287, R289. The command
is its frame's arrival: log entry 104; commands on a context are log entry 105. -/
def Obligations.ContextsFollowTheirMessages : Prop :=
  ((∀ (s : State) (port : Fin 128) (frame : List Byte),
    let good : Nat → Prop := fun ty => s.dev.isMember port.val = true ∧ bit (shimFlg frame) 3 = true ∧ beAt (memberBody frame) 0 1 = ty
    let go := Host.Outcome.next { s with dev := s.dev.frameReceive port.val frame }
    (good 1 → exec (.install port frame) s = go) ∧ (good 2 → exec (.ack port frame) s = go) ∧ (good 3 → exec (.nack port frame) s = go) ∧
    (good 4 → exec (.withdraw port frame) s = go) ∧ (good 5 → exec (.wdack port frame) s = go) ∧ (good 6 → exec (.marker port frame) s = go) ∧
    (good 7 → exec (.stale port frame) s = go) ∧ (¬ good 1 → exec (.install port frame) s = .next s) ∧ (¬ good 2 → exec (.ack port frame) s = .next s) ∧
    (¬ good 3 → exec (.nack port frame) s = .next s) ∧ (¬ good 4 → exec (.withdraw port frame) s = .next s) ∧ (¬ good 5 → exec (.wdack port frame) s = .next s) ∧
    (¬ good 6 → exec (.marker port frame) s = .next s) ∧ (¬ good 7 → exec (.stale port frame) s = .next s)) ∧
  (∀ (d : Dev) (die t m seq c epo : Nat) (body : List Byte), d.running (eliPage die) = true → c < 4096 → epo < 16 →
    let x := d.txCtx die t c
    let y := d.rxCtx die t c
    (body.length = 8 → beAt body 0 1 = 6 → d.actAtArrival die t m seq body = d.setFloor t m seq) ∧
    (body.length = 8 → beAt body 2 2 = c + epo * 4096 → x.epo = epo →
      (beAt body 0 1 = 2 → x.state = 1 → d.actAtArrival die t m seq body = (d.setTxCtx die t c { x with state := 2 }).int (eliPage die) 1) ∧
      (beAt body 0 1 = 3 → x.state = 1 → d.actAtArrival die t m seq body = ((d.eliCnt die t 7).int (eliPage die) 2).ctxFree die t c) ∧
      (beAt body 0 1 = 5 → x.state = 3 → d.actAtArrival die t m seq body = d.ctxFree die t c) ∧
      (beAt body 0 1 = 7 → x.state = 2 → d.actAtArrival die t m seq body = d.startInstall die t c x.len x.nxt (x.template.take x.len) x.autoSet x.cand)) ∧
    (beAt body 0 1 = 1 → beAt body 2 2 = c + epo * 4096 →
      let len := beAt body 4 1
      let nxt := beAt body 5 1 % 4
      let run := slice body 8 len
      body.length = 8 + len → templateCode len nxt run = 0 → (y.epo ≠ epo ∨ y.valid = false) →
        d.actSequenced die t body = (d.setRxCtx die t c ⟨true, epo, len, nxt, y.pkts, slice run 0 128, y.noticed⟩).sendMessage die t false (msgBody 2 0 c epo 0 0 [])) ∧
    (beAt body 0 1 = 4 → beAt body 2 2 = c + epo * 4096 → body.length = 8 → y.epo = epo →
      d.actSequenced die t body = (d.setRxCtx die t c { y with valid := false }).sendMessage die t false (msgBody 5 0 c epo 0 0 []))) ∧
  (∀ (d : Dev) (die t : Nat) (body : List Byte), d.running (eliPage die) = false → beAt body 0 1 = 1 → body.length = 8 + beAt body 4 1 →
    d.actSequenced die t body = d.sendMessage die t false (msgBody 3 3 (beAt body 2 2 % 4096) (beAt body 2 2 / 4096) 0 0 [])) ∧
  (∀ a b, seqLater a b = true → seqLater b a = false)) ∧
  (∀ (s : State) (die : Fin 2) (t : Fin 16) (c : Fin 4096) (k : Fin 1024) (len : BitVec 8) (nxt : BitVec 2) (tp : List Byte) (req : BitVec 16),
    let d := s.dev
    let p := eliPage die.val
    let x := d.txCtx die.val t.val c.val
    let run := slice tp 0 len.toNat
    let bad := Host.Outcome.next { s with dev := d.err p 0x21 }
    let y := Map.rd Cand.init (d.miner die.val).cands k.val
    (d.pageOn p = true →
      (x.state = 0 → templateCode len.toNat nxt.toNat run = 0 → d.ctxTaken die.val t.val nxt.toNat run = false →
        exec (.ctxInstall die t c len nxt tp) s = .next { s with dev := d.startInstall die.val t.val c.val len.toNat nxt.toNat run false x.cand }) ∧
      ((x.state ≠ 0 ∨ templateCode len.toNat nxt.toNat run ≠ 0 ∨ d.ctxTaken die.val t.val nxt.toNat run = true) → exec (.ctxInstall die t c len nxt tp) s = bad) ∧
      (x.state = 1 ∨ x.state = 2 → exec (.ctxWithdraw die t c) s = .next { s with dev := d.startWithdraw die.val t.val c.val }) ∧
      (x.state = 0 ∨ x.state = 3 → exec (.ctxWithdraw die t c) s = bad) ∧
      (let d := d.setTxCtx die.val t.val c.val { x with cand := k.val }
       (y.used = false → exec (.ctxInstallCandidate die t c k) s = .next { s with dev := d.err p 0x21 }) ∧
       (y.used = true → x.state = 0 → templateCode y.template.length y.nxt y.template = 0 → d.ctxTaken die.val t.val y.nxt y.template = false →
         exec (.ctxInstallCandidate die t c k) s = .next { s with dev := d.startInstall die.val t.val c.val y.template.length y.nxt y.template false k.val }))) ∧
    (d.pageOn p = false → exec (.ctxInstall die t c len nxt tp) s = .next s ∧ exec (.ctxWithdraw die t c) s = .next s ∧ exec (.ctxInstallCandidate die t c k) s = .next s) ∧
    (d.trunkHome t.val = some die.val → d.running p = true →
      (x.state = 1 → x.tries < d.msgRetries die.val t.val → exec (.messageRetry t c) s =
        .next { s with dev := (d.setTxCtx die.val t.val c.val { x with tries := x.tries + 1 }).sendMessage die.val t.val true (msgBody 1 0 c.val x.epo x.len x.nxt (x.template.take x.len)) }) ∧
      (x.state = 1 → d.msgRetries die.val t.val ≤ x.tries → exec (.messageRetry t c) s = .next { s with dev := ((d.eliCnt die.val t.val 7).int p 2).ctxFree die.val t.val c.val }) ∧
      (x.state = 3 → x.tries < d.msgRetries die.val t.val → exec (.messageRetry t c) s =
        .next { s with dev := (d.setTxCtx die.val t.val c.val { x with tries := x.tries + 1 }).sendMessage die.val t.val true (msgBody 4 0 c.val x.epo 0 0 []) }) ∧
      (x.state = 3 → d.msgRetries die.val t.val ≤ x.tries → exec (.messageRetry t c) s = .next { s with dev := d.ctxFree die.val t.val c.val }) ∧
      (x.state = 0 ∨ x.state = 2 → exec (.messageRetry t c) s = .next s)) ∧
    (let e := d.startInstall die.val t.val c.val len.toNat nxt.toNat run false x.cand
     (e.txCtx die.val t.val c.val).state = 1 ∧ (e.txCtx die.val t.val c.val).epo = (x.epo + 1) % 16 ∧ (e.txCtx die.val t.val c.val).len = len.toNat) ∧
    (d.reachable p → exec (.eliPropPop die req) s = .next { s with dev := (d.setMiner die.val { d.miner die.val with props := (d.miner die.val).props.drop 1 }).showProps die.val }) ∧
    (d.running p = true → d.get p F.ELI_MINE_EN = 1 → (∀ i z, (i, z) ∈ (d.miner die.val).cands → z.used = true → z.saved - z.err < d.get p F.ELI_MINE_THR_MIN_SAVE) →
      exec (.minerInterval die) s = .next { s with dev := d.setMiner die.val { d.miner die.val with cands := (d.miner die.val).cands.map fun z => (z.1, { z.2 with saved := z.2.saved / 2, err := z.2.err / 2 }) } }) ∧
    (d.running p = false → exec (.minerInterval die) s = .next s))

/-- O47. A trunk releases in sequence order, skips gaps by time or by its floors, learns after a reset, sends markers and
gives restored heads to intake. Follows 15_carillon_and_elision.md, R270, R272, R273, R275. -/
def Obligations.TrunksReleaseInOrder : Prop :=
  (∀ (s : State) (t : Fin 16) (die : Fin 2) (o : Nat), s.dev.trunkHome t.val = some die.val → s.dev.running (carPage die.val) = true →
    let d := s.dev
    let x := d.trunk t.val
    (x.learn = true → exec (.resequencerCheck t) s = .next s) ∧
    (x.learn = false → x.hold = [] → exec (.resequencerCheck t) s = .next s) ∧
    (x.learn = false → (x.hold.map (·.time)).min? = some o → o + d.skewUs die.val t.val * 1000 ≤ d.power.clock →
      exec (.resequencerCheck t) s = .next { s with dev := d.skipGap die.val t.val 5 none }) ∧
    (x.learn = false → (x.hold.map (·.time)).min? = some o → d.power.clock < o + d.skewUs die.val t.val * 1000 →
      (d.floorsPassed die.val t.val = true → exec (.resequencerCheck t) s = .next { s with dev := d.skipGap die.val t.val 6 none }) ∧
      (d.floorsPassed die.val t.val = false → exec (.resequencerCheck t) s = .next s)) ∧
    (x.learn = true → x.learnSince ≠ none → exec (.learnEnd t) s = .next { s with dev := d.endLearn die.val t.val }) ∧
    (x.learn = false → exec (.learnEnd t) s = .next s) ∧
    (∀ h m, x.learn = true → ((d.setFloor t.val m (h.seq + 1)).takeIntoHold die.val t.val h).1 = true →
      ((d.arrive die.val t.val m h).trunk t.val).hold = x.hold ++ [{ h with recharged := true, time := d.power.clock }]) ∧
    (∀ h, x.learn = false → x.hold = [] → h.seq = x.next → h.seq < 2 ^ 24 → d.arriveInOrder die.val t.val 0 h =
      ((((d.setFloor t.val 0 (h.seq + 1)).release die.val t.val h).advanceNext t.val).drainAll die.val t.val)) ∧
    (∀ h, h.seq < 2 ^ 24 → x.next < 2 ^ 24 → seqLater x.next h.seq = true →
      let u := ((d.setTrunk t.val { x with lateRun := x.lateRun + 1 }).carCnt die.val t.val 3).dropHeld h
      (x.lateRun + 1 < u.get (carPage die.val) F.CAR_CFG_LATE_RESYNC → d.arriveInOrder die.val t.val 0 h = u) ∧
      (u.get (carPage die.val) F.CAR_CFG_LATE_RESYNC ≤ x.lateRun + 1 → d.arriveInOrder die.val t.val 0 h = u.enterLearn die.val t.val))) ∧
  (∀ (s : State) (t : Fin 16) (m : Fin 16) (die : Fin 2), s.dev.trunkHome t.val = some die.val →
    let d := s.dev
    let q := d.memQueue die.val t.val m.val
    (d.trunkOn t.val = true → d.running (carPage die.val) = true → (∀ j, j < 16 → j ≠ m.val → d.memEn die.val t.val j = false) →
      d.memEn die.val t.val m.val = true → d.portState (d.memPort die.val t.val m.val) = 1 →
      (∀ e ∈ (d.queue q).ents, e.ctl = false) →
      let e := ctlEnt (shimLead (d.trunk t.val).txSeq 0 12 (d.peerTrk die.val t.val) 0 0 ++ msgBody 6 0 0 0 0 0 [])
      exec (.markerSend t) s = .next { s with dev := (d.memberEnqueue q e).carCnt die.val t.val 1 }) ∧
    (d.trunkOn t.val = false → exec (.markerSend t) s = .next s) ∧
    ((∀ j, j < 16 → j ≠ t.val → (d.trunk j).restored = []) → d.active (pgPage (d.intakePg die.val t.val)) = true →
      ∀ r req n re, (d.trunk t.val).restored = [(r, req, n, re)] → (d.pg r.pkt.pg).depth < 1024 →
      ∃ u, exec (.restoredHeadIntake die) s = .next u ∧ u.pending = s.pending ∧ u.trust = s.trust ∧ (u.dev.trunk t.val).restored = []))

/-- O48. A stack's logical addresses map one to one onto 30 ranks of 768 MB by the grain, and the remap gives the physical
rank. Follows R292. -/
def Obligations.StackAddressesMapExactly : Prop :=
  ∀ (x : Hbm) (rate g a lr r : Nat), x.full = some (rate, g) → g ≤ 5 →
    let grain := 256 * 2 ^ g
    x.split a = (a / grain % 30, a / grain / 30 * grain + a % grain) ∧
    (a < hbmSize → (x.split a).1 < 30 ∧ (x.split a).2 < 768 * 2 ^ 20 ∧ x.join (x.split a).1 (x.split a).2 = a) ∧
    (lr < 30 → r < 768 * 2 ^ 20 → x.join lr r < hbmSize ∧ x.split (x.join lr r) = (lr, r)) ∧
    (∀ p, p < 32 → x.mig = none → (x.rank p).state = 1 → (x.rank p).lrank = (x.split a).1 →
      (∀ q, q < 32 → q ≠ p → ¬ (((x.rank q).state = 1 ∨ (x.rank q).state = 2) ∧ (x.rank q).lrank = (x.split a).1)) → x.phys a = p)

/-- O49. A stack trains to its configuration with zeroed contents or takes up a changed image, refreshes and closes rows but in
self-refresh, throttles or stops by temperature, and a slot goes to a request of the highest urgency. Follows
16_hbm_controller.md, R295, R296, R297, R298, R299, R301, R302. What training and refresh carry is log entries 107 and 108; the
image at a start without full training is log entry 153. -/
def Obligations.StacksTrainRefreshAndWatch : Prop :=
  (∀ (s : State) (h : Fin 4) (rank bank : Fin 32) (failed : List (Fin 32)),
    let d := s.dev
    let p := hbmPage h.val
    let x := d.hbm h.val
    let close : State := { s with dev := d.setHbm h.val { x with rows := x.rows.wr 0 (rank.val * 32 + bank.val) 0 } }
    let d1 := d.setHbm h.val { x with training := false }
    (x.training = false → exec (.trainingDone h none failed) s = .next s) ∧
    (x.training = true → x.fullNow = false → x.image = d.imageNow h.val → exec (.trainingDone h none failed) s = .next { s with dev := d1 }) ∧
    (x.training = true → x.fullNow = false → x.image ≠ d.imageNow h.val →
      exec (.trainingDone h none failed) s = .next { s with dev := (d1.takeImage h.val).showHbm h.val }) ∧
    (x.training = true → x.fullNow = true → ∀ c : Fin 3,
      (c.val ≠ 2 ∨ d.live p F.HBM_CFG_BIST = 1 → exec (.trainingDone h (some c) failed) s = .next { s with dev := d1.startFail p (3 + c.val) }) ∧
      (c.val = 2 → d.live p F.HBM_CFG_BIST ≠ 1 → exec (.trainingDone h (some c) failed) s = exec (.trainingDone h none failed) s)) ∧
    (x.training = true → x.fullNow = true → ∃ t, exec (.trainingDone h none []) s = .next t ∧ t.pending = s.pending ∧ t.trust = s.trust ∧
      t.dev.trained h.val = true ∧ (t.dev.hbm h.val).training = false ∧ (t.dev.hbm h.val).full = some (d.live p F.HBM_CFG_RATE, min 5 (d.live p F.HBM_CFG_GRAIN)) ∧
      (t.dev.hbm h.val).reqs = [] ∧ (t.dev.hbm h.val).rows = [] ∧
      (∀ q, q < 32 → (t.dev.hbm h.val).rank q = d.imageRank h.val q) ∧ (∀ a n, a + n ≤ hbmSize → a % 4 = 0 → t.dev.hbmRead h.val a n = List.replicate n 0)) ∧
    exec (.readRetrain h) s = .next s ∧
    exec (.openRowIdle h rank bank) s = .next close ∧
    (d.trained h.val = true → d.fn p ≠ 0 → exec (.refresh h rank bank 0) s = .next close) ∧
    exec (.refresh h rank bank 1) s = .next s ∧
    (d.trained h.val = true → d.fn p ≠ 0 → exec (.refresh h rank bank 2) s = .next { close with dev := close.dev.cnt p F.HBM_CNT_COUNT 5 }) ∧
    (d.fn p = 0 → ∀ how, exec (.refresh h rank bank how) s = .next s)) ∧
  (∀ (d e : Dev) (h rank : Nat) (l : List HbmReq) (q : HbmReq), d.hbmChoose h rank l = (some q, e) →
    q ∈ l ∧ ∀ r ∈ l, d.urgency h r ≤ d.urgency h q) ∧
  (∀ (s : State) (h : Fin 4) (t : Fin 256),
    let d := s.dev
    let p := hbmPage h.val
    let c := toSigned 8 t.val
    (d.domOn (14 + h.val) = false → exec (.hbmTempRead h t) s = .next s) ∧
    (d.domOn (14 + h.val) = true →
      (c < 105 ∨ (d.hbm h.val).hot = 0 → exec (.hbmTempRead h t) s = .next { s with dev := (d.hbmTemp h.val t.val).2.thermRelease }) ∧
      (105 ≤ c → 0 < (d.hbm h.val).hot →
        let u := (d.hbmTemp h.val t.val).2
        exec (.hbmTempRead h t) s = .next { s with dev := ((((u.setPower { u.power with thermLow := true }).err 0x02 0x25 (32 + h.val)).dropReq [14 + h.val]).switchOffNow [14 + h.val]) })) ∧
    (let u := (d.hbmTemp h.val t.val).2
     u.get p F.HBM_TEMP_TEMP = t.val ∧ (u.hbm h.val).hot = (if 105 ≤ c then (d.hbm h.val).hot + 1 else 0) ∧
     (d.get p F.HBM_STAT_THROTTLE = 0 → (u.get p F.HBM_STAT_THROTTLE = 1 ↔ (d.get p F.HBM_TEMP_HOT : Int) ≤ c)) ∧
     (d.get p F.HBM_STAT_THROTTLE = 1 → (u.get p F.HBM_STAT_THROTTLE = 0 ↔ c < (d.get p F.HBM_TEMP_HOT : Int) - 5))) ∧
    (d.fn p = 3 → d.domOn (14 + h.val) = true → exec (.hbmStopLimit h) s = .next { s with dev := d.dropStackPages h.val }) ∧
    (d.fn p ≠ 3 → exec (.hbmStopLimit h) s = .next s))

/-- O50. The patrol scrub counts and marks what it finds, ranks migrate page by page, and counter pairs add, read and clear.
Follows 16_hbm_controller.md, R303, R305, R306, R307, R308. -/
def Obligations.ScrubbingFindsAndCountersCount : Prop :=
  (∀ (s : State) (h : Fin 4) (a f t : Nat) (ecc : Ecc) (words : Reads 1024),
    let d := s.dev
    let p := hbmPage h.val
    let x := d.hbm h.val
    (d.trained h.val = true → d.get p F.HBM_SCRUB_HOURS ≠ 0 → a < hbmSize → Map.rd false d.hbmBad (hbmKey h.val a) = false →
      exec (.patrolScrub h a .clean) s = .next { s with dev := d.hbmNow h.val 6 false a 4 } ∧
      exec (.patrolScrub h a .corrected) s =
        .next { s with dev := (((d.hbmNow h.val 6 false a 4).hbmCe h.val a).hbmAsk h.val 6 true a 4).cnt p F.HBM_CNT_COUNT 2 } ∧
      exec (.patrolScrub h a .bad) s = .next { s with dev := ((d.hbmNow h.val 6 false a 4).hbmUe h.val a).markBad h.val a }) ∧
    (d.trained h.val = true → d.get p F.HBM_SCRUB_HOURS ≠ 0 → a < hbmSize → Map.rd false d.hbmBad (hbmKey h.val a) = true →
      exec (.patrolScrub h a ecc) s = .next { s with dev := ((d.hbmNow h.val 6 false a 4).hbmUe h.val a).markBad h.val a }) ∧
    (d.get p F.HBM_SCRUB_HOURS = 0 → exec (.patrolScrub h a ecc) s = .next s) ∧
    (x.mig = none → exec (.pageCopyDone h words) s = .next s) ∧
    (d.running p = false → exec (.pageCopyDone h words) s = .next s) ∧
    (x.mig = some (f, t) → d.running p = true →
      let n := (x.rank f).progress
      let pieces := x.pagePieces (x.rank f).lrank n
      (∀ w, w < 1024 → Map.rd false d.hbmBad (hbmKey h.val (x.join (x.rank f).lrank (n * 4096 + 4 * w))) = false) →
      let d1 := pieces.foldl (fun d a => d.hbmServe h.val 5 a.1 a.2) d
      let y := d1.hbm h.val
      let d2 := pieces.foldl (fun d a => d.hbmAsk h.val 5 true a.1 a.2) (d1.setHbm h.val (y.setRank f { y.rank f with progress := n + 1 }))
      let z := d2.hbm h.val
      (n + 1 ≠ 196608 → exec (.pageCopyDone h []) s = .next { s with dev := d2.askCopy h.val }) ∧
      (n + 1 = 196608 →
        let z := (z.setRank f { z.rank f with state := 3, progress := 196608 })
        let z := z.setRank t { z.rank t with state := 1 }
        exec (.pageCopyDone h []) s = .next { s with dev := (((d2.setHbm h.val { z with mig := none, failed := none }).cnt p F.HBM_CNT_COUNT 10).int p 3).nextMig h.val })) ∧
    (∃ u, exec (.ceWindowEnd h) s = .next u ∧ u.pending = s.pending ∧ u.trust = s.trust ∧
      (∀ r, r < 32 → (u.dev.hbm h.val).rank r = { x.rank r with ce := 0 }) ∧ (∀ k, k ≠ h.val → u.dev.hbm k = d.hbm k) ∧ u.dev.hbmMem = d.hbmMem)) ∧
  (∀ (s : State) (h : Fin 4) (c pk n : Nat) (r : List (Nat × Nat × Nat)) (l : CntLine) (req : BitVec 16) (ecc : Ecc),
    let d := s.dev
    let p := hbmPage h.val
    let x := d.hbm h.val
    (x.posted = [] → exec (.counterUpdate h ecc) s = .next s) ∧
    (x.posted = (c, pk, n) :: r → (d.counting h.val = false ∨ d.trained h.val = false ∨ (d.fn p ≠ 2 ∧ d.fn p ≠ 3)) →
      exec (.counterUpdate h ecc) s = .next { s with dev := (d.setHbm h.val { x with posted := r }).tally p (F.HBM_CNT_COUNT.at 24) }) ∧
    (x.posted = (c, pk, n) :: r → d.counting h.val = true → d.running p = true → d.trained h.val = true → x.lines = [l] → l.idx = c / 8 →
      ∃ t, exec (.counterUpdate h ecc) s = .next t ∧ t.pending = s.pending ∧ t.trust = s.trust ∧
        (t.dev.hbm h.val).pair c = (((x.pair c).1 + pk) % 2 ^ 64, ((x.pair c).2 + n) % 2 ^ 64) ∧
        (∀ k, k ≠ h.val → t.dev.hbm k = d.hbm k) ∧ (t.dev.hbm h.val).posted = r ∧ t.dev.hbmMem = d.hbmMem) ∧
    (d.reachable p → d.get p F.HBM_CNTR_STAT_BUSY ≠ 1 → d.get p F.HBM_CNTR_IDX_INDEX = c →
      let fail := fun k => Host.Outcome.next { s with dev := d.setWord p F.HBM_CNTR_STAT_BUSY.off (BitVec.ofNat 32 (4 + k * 8)) }
      (c % 4 ≠ h.val → exec (.counterRead h req) s = fail 1 ∧ exec (.counterReadClear h req) s = fail 1) ∧
      (c % 4 = h.val → d.counting h.val = false → exec (.counterRead h req) s = fail 2 ∧ exec (.counterReadClear h req) s = fail 2) ∧
      (c % 4 = h.val → d.counting h.val = true → d.trained h.val = true → x.lines = [l] → l.idx = c / 8 →
        (let y := { x with read := some (c, (x.pair c).1, (x.pair c).2, false, false) }
         exec (.counterRead h req) s = .next { s with dev := (d.setHbm h.val y).setWord p F.HBM_CNTR_STAT_BUSY.off 1 }) ∧
        (let y := { x.setPair c 0 0 with read := some (c, (x.pair c).1, (x.pair c).2, true, false) }
         exec (.counterReadClear h req) s = .next { s with dev := (d.setHbm h.val y).setWord p F.HBM_CNTR_STAT_BUSY.off 1 }))) ∧
    (∀ clear, x.read = some (c, pk, n, clear, false) →
      let u := (d.setHbm h.val { x with read := none }).showRec p F.HBM_CNTR_PKTS_PKTS.off 4 [BitVec.ofNat 32 pk, BitVec.ofNat 32 (pk / 2 ^ 32), BitVec.ofNat 32 n, BitVec.ofNat 32 (n / 2 ^ 32)]
      exec (.counterReadDone h ecc) s = .next { s with dev := (u.setWord p F.HBM_CNTR_STAT_BUSY.off 2).int p 0 }) ∧
    (x.read = none → exec (.counterReadDone h ecc) s = .next s))

/-- O51. Cages move through EMPTY, RESET, INIT and READY with their modules, and a scan visit reads flags and monitors by bus
reads that show on the pins. Follows 18_optical_modules.md, R334, R336, R337. Module codes are CMIS's (PRESUMED, log entry 113). -/
def Obligations.CagesAreScanned : Prop :=
  (∀ (s : State) (p : Fin 128) (mstate : BitVec 3) (ident : List Byte) (req : BitVec 16),
    let d := s.dev
    let st := d.cageState p.val
    let go := fun n => Host.Outcome.next { s with dev := d.cageSet p.val F.MOD_CAGE_STAT_STATE n }
    (Map.rd false d.mods.present p.val = true → exec (.moduleInsert p) s = .next s) ∧
    (Map.rd false d.mods.present p.val = false → exec (.moduleRemove p) s = .next s) ∧
    (Map.rd false d.mods.present p.val = false → d.modActive = true → st = 0 →
      exec (.moduleInsert p) s = .next { s with dev := ((d.setPresent p.val true).cageSet p.val F.MOD_CAGE_STAT_STATE 1).cnt modPage F.MOD_CNT_COUNT 4 }) ∧
    (Map.rd false d.mods.present p.val = true → d.modActive = true →
      exec (.moduleRemove p) s = .next { s with dev := (((d.setPresent p.val false).cageEmpty p.val).modEvent 2 p.val 0 0 0 0 0).cnt modPage F.MOD_CNT_COUNT 5 }) ∧
    (d.reachable modPage → d.modActive = true → st ≠ 0 → exec (.rstReq p req) s = .next { s with dev := (d.cageSet p.val F.MOD_CAGE_STAT_STATE 1).failTimed p.val }) ∧
    (d.reachable modPage → st = 0 → exec (.rstReq p req) s = .next s) ∧
    (d.modActive = true → st = 1 → exec (.resetRelease p) s = go 2) ∧
    (st ≠ 1 → exec (.resetRelease p) s = .next s) ∧
    (d.modActive = true → st = 2 →
      let u := (d.cageSet p.val F.MOD_CAGE_STAT_MSTATE mstate.toNat).busReads p.val [(0, 0, 0, 4)]
      let u2 := u.busReads p.val [(0, 0, 129, 61)]
      (mstate = 5 → exec (.initPoll p mstate ident) s = .next { s with dev := u.cageFault p.val 3 }) ∧
      (mstate ≠ 1 → mstate ≠ 3 → mstate ≠ 5 → exec (.initPoll p mstate ident) s = .next { s with dev := u }) ∧
      (mstate = 1 ∨ mstate = 3 → ident.length ≠ 65 → exec (.initPoll p mstate ident) s = .next { s with dev := u2.cageFault p.val 4 }) ∧
      (mstate = 1 ∨ mstate = 3 → ident.length = 65 →
        let lim := revLimited (ledNat ident 1 1)
        let v := (u2.ledgerInsert p.val ident).setCage p.val { Cage.init with limited := lim, known := (d.cage p.val).known }
        exec (.initPoll p mstate ident) s = .next { s with dev := (v.cageSet p.val F.MOD_CAGE_STAT_STATE 3).modEvent 1 p.val 0 0 0 (b2n lim) 0 }) ∧
      exec (.initTimeout p) s = .next { s with dev := d.cageFault p.val 2 }) ∧
    (st ≠ 2 → exec (.initPoll p mstate ident) s = .next s ∧ exec (.initTimeout p) s = .next s) ∧
    (∀ n, n < 8 → (d.cageSet p.val F.MOD_CAGE_STAT_STATE n).cageState p.val = n ∧ ∀ q : Fin 128, q ≠ p → (d.cageSet p.val F.MOD_CAGE_STAT_STATE n).cageState q.val = d.cageState q.val)) ∧
  (∀ (s : State) (p : Fin 128) (lower lanes : List Byte) (off : Byte) (w : Word) (irq : Bool), s.dev.running modPage = true →
    let d := s.dev
    let st := d.cageState p.val
    (st ≠ 3 → st ≠ 4 → exec (.scanVisit p lower lanes off w irq) s = .next s) ∧
    (d.busHeld (p.val / 8) = true → exec (.scanVisit p lower lanes off w irq) s = .next s) ∧
    (st = 3 → d.busHeld (p.val / 8) = false → (d.cage p.val).limited = false →
      let ms := ledNat lower 0 1 / 2 % 8
      ms ≠ 5 →
      let e := d.setUnseen (d.mods.unseen.erase p.val)
      let u := ((e.busReads p.val (e.scanReads p.val false)).cageSet p.val F.MOD_CAGE_STAT_MSTATE ms).cageSet p.val F.MOD_CAGE_STAT_INT (b2n irq)
      visitFlags lower lanes false = [] →
      let v := u.setCage p.val { u.cage p.val with flags := slice lower 0 11 ++ lanes }
      exec (.scanVisit p lower lanes off w irq) s = .next { s with dev := (v.visitLedger p.val (ms == 3 && off.toNat != 255)).watch p.val w }) ∧
    (∀ c l, (d.busReads c l).out = (l.map fun x => Out.modBus (c / 8) c false x.1 x.2.1 x.2.2.1 x.2.2.2 []).reverse ++ d.out) ∧
    (∀ q f l v, let t := d.raiseFlag p.val (q, f, l, v)
      q < 5 → f < 4 → t.ledgerOf (2 * p.val) = ledPut (d.ledgerOf (2 * p.val)) (84 + 4 * q + f) 1 (min 255 (ledNat (d.ledgerOf (2 * p.val)) (84 + 4 * q + f) 1 + 1))))

/-- O52. Module bus commands and timed writes run with their codes, and events, advisories and ledger pages are read. Follows
18_optical_modules.md, R334, R335, R338, R339, R340, R342. -/
def Obligations.ModuleCommandsRunToTheirEnd : Prop :=
  (∀ (s : State) (m : Fin 16) (nack : Bool) (bytes : List Byte) (req : BitVec 16),
    let d := s.dev
    let f : Fld → Nat := fun x => d.get modPage (x.at (cmdOff m.val))
    let op := f F.MOD_CMD_CTL_OP
    let bad := f F.MOD_CMD_CTL_LEN = 0 ∨ f F.MOD_CMD_CTL_LEN > 32 ∨ f F.MOD_CMD_ADDR_ADDR + f F.MOD_CMD_CTL_LEN > 256 ∨ d.running modPage = false
    let cage := 8 * m.val + f F.MOD_CMD_CTL_CAGE
    (d.reachable modPage → d.cmdBusy m.val = false →
      (op ≠ 1 → exec (.modCmdRead m req) s = .next s) ∧ (op ≠ 2 → exec (.modCmdWrite m req) s = .next s) ∧
      (∀ c, (c = .modCmdRead m req ∧ op = 1) ∨ (c = .modCmdWrite m req ∧ op = 2) →
        (bad → exec c s = .next { s with dev := d.cmdStat m.val 4 }) ∧
        (¬ bad → d.cageState cage = 0 → exec c s = .next { s with dev := (d.cmdStat m.val 3).int modPage 5 }) ∧
        (¬ bad → d.cageState cage ≠ 0 → exec c s = .next { s with dev := d.setWord modPage (0x0408 + cmdOff m.val) 1 }))) ∧
    (d.cmdBusy m.val = true →
      let u := if d.busHeld m.val then d else (d.setBusTries m.val 0).emit (.modRecover m.val)
      exec (.modCmdTimeout m) s = .next { s with dev := ((u.cmdStat m.val 2).cnt modPage F.MOD_CNT_COUNT 2).int modPage 5 }) ∧
    (d.cmdBusy m.val = false → exec (.modCmdTimeout m) s = .next s ∧ exec (.modCmdDone m nack bytes) s = .next s) ∧
    (d.cmdBusy m.val = true → d.busHeld m.val = false →
      let regs := (List.range 8).flatMap fun i => leBytes 4 (d.word modPage (0x0420 + cmdOff m.val + 4 * i)).toNat
      let len := f F.MOD_CMD_CTL_LEN
      let bus := fun w l => d.busEnd cage w (f F.MOD_CMD_CTL_PAGE) (f F.MOD_CMD_CTL_BANK) (f F.MOD_CMD_ADDR_ADDR) len l
      let again := nack = true ∧ d.modActive = true ∧ d.busTries m.val < d.get modPage (F.MOD_BUS_RETRIES.at (16 * m.val))
      (again → exec (.modCmdDone m nack bytes) s = .next { s with dev := d.busRetry m.val }) ∧
      (¬ again → op = 2 → exec (.modCmdDone m nack bytes) s =
        .next { s with dev := (((bus true (regs.take len)).cmdStat m.val (if nack then 1 else 0)).int modPage 5) }) ∧
      (¬ again → op = 1 →
        let u := bus false []
        let data := slice bytes 0 len ++ regs.drop len
        (nack = true → exec (.modCmdDone m nack bytes) s = .next { s with dev := (u.cmdStat m.val 1).int modPage 5 }) ∧
        (nack = false → exec (.modCmdDone m nack bytes) s =
          .next { s with dev := ((u.showRec modPage (0x0420 + cmdOff m.val) 8 ((List.range 8).map fun i => BitVec.ofNat 32 (leNat (slice data (4 * i) 4)))).cmdStat m.val 0).int modPage 5 }))) ∧
    (d.modActive = true → (∀ k, k < 16 → d.timedW k = none) →
      (d.busTries m.val < d.get modPage (F.MOD_BUS_RETRIES.at (16 * m.val)) →
        exec (.busAttemptRetry m) s = .next { s with dev := (d.cnt modPage F.MOD_CNT_COUNT 1).setBusTries m.val (d.busTries m.val + 1) }) ∧
      (d.get modPage (F.MOD_BUS_RETRIES.at (16 * m.val)) ≤ d.busTries m.val → exec (.busAttemptRetry m) s = .next s))) ∧
  (∀ (s : State) (k : Fin 16) (t : Timed) (req : BitVec 16),
    let d := s.dev
    let f : Fld → Nat := fun x => d.get modPage (x.at (32 * k.val))
    (d.reachable modPage →
      (d.twBad k.val = false → ∃ u, exec (.twArm k req) s = .next u ∧ u.pending = s.pending ∧ u.trust = s.trust ∧ u.dev.twState k.val = 1 ∧
        ∃ data, u.dev.timedW k.val = some ⟨f F.MOD_TW_CAGE, f F.MOD_TW_PAGE, f F.MOD_TW_BANK, f F.MOD_TW_ADDR, data, d.commitTime (f F.MOD_TW_T_S) (f F.MOD_TW_T_NS), false⟩ ∧ data.length = f F.MOD_TW_LEN) ∧
      (d.twState k.val = 1 → exec (.twCancel k req) s = .next { s with dev := (d.setTimed k.val none).setTwState k.val 0 }) ∧
      (d.twState k.val ≠ 1 → exec (.twCancel k req) s = .next s)) ∧
    (d.timedW k.val = some t →
      (d.twState k.val = 1 → d.running modPage = true → d.due (t.time - 1000000) = true →
        (d.cageState t.cage = 3 → exec (.twReserve k) s = .next { s with dev := (d.setTwState k.val 2).setBusTries (t.cage / 8) 0 }) ∧
        (d.cageState t.cage ≠ 3 → exec (.twReserve k) s = .next { s with dev := ((d.setTimed k.val none).setTwState k.val 5).int modPage 4 })) ∧
      (d.due (t.time - 1000000) = false → exec (.twReserve k) s = .next s) ∧
      (d.twState k.val = 2 →
        let again := d.modActive = true ∧ d.busTries (t.cage / 8) < d.get modPage (F.MOD_BUS_RETRIES.at (16 * (t.cage / 8)))
        let u := d.busEnd t.cage true t.page t.bank t.addr t.data.length t.data
        let err := toSigned 64 (((d.now : Int) - t.time) % (2 ^ 64 : Nat)).toNat
        let lim := 2 * bitPeriod (d.get modPage (F.MOD_BUS_SPEED.at (16 * (t.cage / 8))))
        let v := (u.set modPage (F.MOD_TW_ACT_NS.at (32 * k.val)) d.time.ns).set modPage (F.MOD_TW_ERR_NS.at (32 * k.val)) (ofSigned 32 err)
        (again → exec (.twAck k false) s = .next { s with dev := d.busRetry (t.cage / 8) }) ∧
        (¬ again → exec (.twAck k false) s = .next { s with dev := ((u.setTimed k.val none).setTwState k.val 5).int modPage 4 }) ∧
        (t.again = false → -lim ≤ err → err ≤ lim → exec (.twAck k true) s = .next { s with dev := (v.setTimed k.val none).setTwState k.val 3 }) ∧
        ((t.again = true ∨ err < -lim ∨ lim < err) → exec (.twAck k true) s = .next { s with dev := ((v.setTimed k.val none).setTwState k.val 4).int modPage 4 })) ∧
      (d.twState k.val = 1 ∨ d.twState k.val = 2 → d.domOn 28 = true → d.fn modPage = 0 → d.due t.time = true →
        exec (.timedWriteTPassed k) s = .next { s with dev := ((d.setTimed k.val none).setTwState k.val 5).int modPage 4 })) ∧
    (d.fn modPage ≠ 0 → exec (.timedWriteTPassed k) s = .next s)) ∧
  (∀ (s : State) (req : BitVec 16), s.dev.reachable modPage →
    let d := s.dev
    let c := d.get modPage F.MOD_LED_IDX_CAGE
    let prev := d.get modPage F.MOD_LED_IDX_PREV
    (let u : Dev := { d with mods := { d.mods with evts := d.mods.evts.drop 1 } }
     exec (.modEvtPop req) s = .next { s with dev := (u.set modPage F.MOD_EVT_DEPTH_COUNT u.mods.evts.length).showRec modPage F.MOD_EVT_WORD.off 4 (u.mods.evts.headD []) }) ∧
    (let u : Dev := { d with mods := { d.mods with advs := d.mods.advs.drop 1 } }
     exec (.modAdvPop req) s = .next { s with dev := (u.set modPage F.MOD_ADV_DEPTH_COUNT u.mods.advs.length).showRec modPage F.MOD_ADV_REC_WORD.off 6 (u.mods.advs.headD []) }) ∧
    (let l := d.ledgerOf (2 * c + (if prev = 1 then 1 else 0))
     exec (.ledgerRead req) s = .next { s with dev := d.showRec modPage F.MOD_LED_DATA_DATA.off 32 ((List.range 32).map fun i => BitVec.ofNat 32 (ledNat l (4 * i) 4)) }) ∧
    (prev ≠ 1 →
      let data := (List.range 32).flatMap fun i => leBytes 4 (d.word modPage (0x0800 + 4 * i)).toNat
      exec (.ledgerWrite req) s = .next { s with dev := d.setLedger (2 * c) (splice (d.ledgerOf (2 * c)) 64 (slice data 64 12)) }))

/-- O53. PCIe events set the link status, power state, widths and completion timeout, and function-level and hot resets clear
the host function. Follows 19_host_interface.md, R346, R348, R349, R352, R353. PCIe's own values are PRESUMED (log entries 15,
116, 124); which L1 substate the link enters is a free value (log entry 167). -/
def Obligations.TheHostLinkFollowsItsEvents : Prop :=
  (∀ (s : State) (speed width : Fin 16) (flit up d3 : Bool) (code : BitVec 4) (tag : Fin 1024),
    let d := s.dev
    let w := d.get hifPage F.HIF_LINK_STAT_WIDTH
    let ms := fun n => Host.Outcome.next { s with dev := (d.set hifPage F.HIF_CPL_TMO_MS n).recovCheck }
    (d.hif.perst = true → exec .perstRelease s = .next { s with dev := d.setHif { d.hif with perst := false, training := d.domOn 29 } }) ∧
    (d.hif.perst = false → exec .perstRelease s = .next s) ∧
    (d.hif.waiting = [] →
      (d.hif.perst = false → d.domOn 29 = true → (d.hif.training = true ∨ d.lstate = 5) →
        let v := speed.val + width.val * 16 + b2n flit * 256 + b2n (decide (speed.val < 4 ∨ width.val < 8)) * 512 + d.get hifPage F.HIF_LINK_STAT_DSTATE * 2 ^ 13
        exec (.pcieLinkUp speed width flit) s = .next { s with dev := ((d.setWord hifPage 0x0100 (BitVec.ofNat 32 v)).setHif { d.hif with training := false, lanes := width.val }).sendPending }) ∧
      (d.domOn 29 = true → exec (.powerStateChange d3) s = .next { s with dev := (d.set hifPage F.HIF_LINK_STAT_DSTATE (if d3 then 3 else 0)).sendPending.settleInval }) ∧
      (Map.rd false d.hif.quarantined tag.val = true → exec (.quarantineEnd tag) s = .next { s with dev := d.quarantine tag.val false }) ∧
      (d.hif.tags = [] → (∀ x ∈ d.hif.chans, x.2.job = none) → d.lstate ≠ 5 → d.domOn 29 = true →
        let u := ({ d with fresh := d.fresh + 1 } : Dev).set hifPage F.HIF_LINK_STAT_LSTATE (2 + (Config.freeWord d.fresh).toNat % 3)
        exec .l1Entry s = .next { s with dev := if d.lstate < 2 then u.cnt hifPage F.HIF_CNT_COUNT 6 else u })) ∧
    (d.lstate = 5 → exec .l1Entry s = .next s) ∧
    (d.hif.waiting ≠ [] → exec .l1Entry s = .next s) ∧
    (Map.rd false d.hif.quarantined tag.val = false → exec (.quarantineEnd tag) s = .next s) ∧
    (d.get hifPage F.HIF_LINK_STAT_FLIT = 1 → d.lstate < 2 → d.domOn 29 = true →
      let n := if up then (if w < d.hif.lanes then 2 * w else w) else if w > 2 then w / 2 else w
      exec (.l0pChange up) s = .next { s with dev := (d.set hifPage F.HIF_LINK_STAT_WIDTH n).set hifPage F.HIF_LINK_STAT_LSTATE (if n < d.hif.lanes then 1 else 0) }) ∧
    (d.get hifPage F.HIF_LINK_STAT_FLIT = 0 → exec (.l0pChange up) s = .next s) ∧
    (d.domOn 29 = true → exec (.ctoValueWrite 0) s = ms 50 ∧ exec (.ctoValueWrite 5) s = ms 55 ∧ exec (.ctoValueWrite 6) s = ms 210 ∧
      exec (.ctoValueWrite 9) s = ms 900 ∧ exec (.ctoValueWrite 10) s = ms 3500 ∧
      (code ≠ 0 → code ≠ 5 → code ≠ 6 → code ≠ 9 → code ≠ 10 → exec (.ctoValueWrite code) s = .next { s with dev := d.err hifPage 0x20 }))) ∧
  (∀ (s : State) (perst : Bool),
    (s.dev.domOn 29 = false → exec .functionLevelReset s = .next s ∧ exec (.hotReset perst) s = .next { s with dev := s.dev.setHif { s.dev.hif with perst := s.dev.hif.perst || perst } }) ∧
    (s.dev.domOn 29 = true →
      let clear := fun (t : State) => t.pending = s.pending ∧ t.trust = s.trust ∧ t.dev.hif.chans = [] ∧ t.dev.hif.cached = [] ∧ t.dev.hif.waiting = [] ∧ t.dev.msix = ⟨[], []⟩ ∧
        t.dev.fn dmaPage = 0 ∧ t.dev.fn hifPage = 2 ∧ t.dev.get hifPage F.HIF_LINK_STAT_DSTATE = 0 ∧ (∀ n, n < 1024 → t.dev.chState n = 0) ∧
        t.dev.cells = s.dev.cells ∧ t.dev.buf = s.dev.buf ∧ t.dev.hbmMem = s.dev.hbmMem ∧ t.dev.tm = s.dev.tm ∧ t.dev.lkp = s.dev.lkp ∧ t.dev.car = s.dev.car
      (∃ t, exec .functionLevelReset s = .next t ∧ clear t ∧ t.dev.lstate = s.dev.lstate) ∧
      (∃ t, exec (.hotReset perst) s = .next t ∧ clear t ∧ t.dev.lstate = 5 ∧ t.dev.hif.perst = (s.dev.hif.perst || perst) ∧ t.dev.hif.training = !(s.dev.hif.perst || perst))))

/-- O54. Completions fill the device's outstanding reads; stray, failed and late ones are counted, and a link down is
recorded. Follows 19_host_interface.md, R348, R349, R350. -/
def Obligations.ReadsCompleteOrTimeOut : Prop :=
  ∀ (s : State) (tag : Fin 1024) (data : List Byte) (ok : Bool) (r : ReadTag), s.dev.domOn 29 = true →
    let d := s.dev
    let t := tag.val
    (Map.rd none d.hif.tags t = none →
      (Map.rd false d.hif.quarantined t = true → exec (.completion tag ok data) s = .next { s with dev := (d.cnt hifPage F.HIF_CNT_COUNT 2).int hifPage 1 }) ∧
      (Map.rd false d.hif.quarantined t = false → exec (.completion tag ok data) s = .next { s with dev := d.cnt hifPage F.HIF_CNT_COUNT 3 }) ∧
      exec (.completionTimeout tag) s = .next s) ∧
    (Map.rd none d.hif.tags t = some r →
      (r.got.length + data.length < r.len → exec (.completion tag true data) s = .next { s with dev := d.setReadTag t (some { r with got := r.got ++ data }) }) ∧
      (d.hif.waiting = [] → r.piece = 65535 → exec (.completion tag false data) s = .next { s with dev := (d.setReadTag t none).cnt hifPage F.HIF_CNT_COUNT 4 }) ∧
      (d.hif.waiting = [] → r.len ≤ r.got.length + data.length → r.piece ≠ 65535 → ∀ j p, (d.chan r.ch).job = some j → j.pieces[r.piece]? = some p →
        let j1 : Job := { j with pieces := j.pieces.set r.piece { p with data := some ((r.got ++ data).take r.len) } }
        (j1.whole = false ∨ j.kind = 0 ∨ j.kind = 3) →
          exec (.completion tag true data) s = .next { s with dev := (d.setReadTag t none).setChan r.ch { d.chan r.ch with job := some j1 } }) ∧
      (let u := ((d.setReadTag t none).quarantine t true).cnt hifPage F.HIF_CNT_COUNT 1
       let v := ((u.int hifPage 0).emit (.aer 0x4000)).event hifPage 7 5 t r.ch 0
       (r.piece = 65535 → d.hif.waiting = [] → exec (.completionTimeout tag) s = .next { s with dev := v }) ∧
       (r.piece ≠ 65535 → exec (.completionTimeout tag) s = .next { s with dev := (v.chError r.ch 2).pumpReads }))) ∧
    (d.lstate = 5 → exec .pcieDown s = .next s) ∧
    (d.lstate ≠ 5 → d.hif.tags = [] → (∀ x ∈ d.hif.chans, x.2.job = none) →
      let u := ((d.set hifPage F.HIF_LINK_STAT_LSTATE 5).cnt hifPage F.HIF_CNT_COUNT 7).cnt hifPage F.HIF_CNT_COUNT 5
      exec .pcieDown s = .next { s with dev := (u.int hifPage 2).event hifPage 8 5 0 0 0 })

/-- O55. DMA channels start with a checked context, stop and return to rest, and doorbells and descriptor fetches follow the
ring. Follows 19_host_interface.md, R354, R356, R357, R358, R364. -/
def Obligations.ChannelsAndDoorbells : Prop :=
  (∀ (s : State) (ch : Fin 1024) (req : BitVec 16),
    let d := s.dev
    let c := ch.val
    let x := d.chan c
    (d.reachable dmaPage →
      (d.chState c = 0 → d.running dmaPage = true →
        let u := (d.set dmaPage (F.DMA_CH_ERR_CODE.at (16 * c)) 0).setChState c 1
        exec (.channelStart ch req) s = .next { s with dev := (u.setChan c { u.chan c with ctx := none, descs := [], unsig := 0, armed := false }).readCtx c 0 }) ∧
      (d.chState c = 1 → exec (.channelStart ch req) s = .next { s with dev := d.setChPending c false } ∧ exec (.channelStop ch req) s = .next { s with dev := d.setChPending c true }) ∧
      (d.chState c = 2 → exec (.channelStart ch req) s = .next s ∧ exec (.channelStop ch req) s = .next { s with dev := d.setChState c 3 }) ∧
      (d.chState c = 3 → exec (.channelStart ch req) s = .next { s with dev := d.setChPending c true } ∧ exec (.channelStop ch req) s = .next { s with dev := d.setChPending c false }) ∧
      (d.chState c = 4 → exec (.channelStop ch req) s = .next { s with dev := d.setChState c 3 }) ∧
      (d.chState c = 0 → exec (.channelStop ch req) s = .next s)) ∧
    (∀ j, d.chState c = 1 → x.job = some j → j.kind = 0 → j.whole = true →
      let cx := ctxOf j.bytes
      let code := d.ctxCheck c cx
      let pend := d.chPending c
      let u := (d.setChan c { x with ctx := some cx, job := none, armed := cx.intEn, unsig := 0, descs := [] }).setChPending c false
      (code = 0 → pend = false → exec (.channelStartDone ch) s = .next { s with dev := (u.setWord dmaPage (0x4004 + 16 * c) 0).setChState c 2 }) ∧
      (code = 0 → pend = true → exec (.channelStartDone ch) s = .next { s with dev := ((u.setWord dmaPage (0x4004 + 16 * c) 0).setChState c 2).setChState c 3 }) ∧
      (code ≠ 0 → exec (.channelStartDone ch) s = .next { s with dev :=
        ((((u.set dmaPage (F.DMA_CH_ERR_CODE.at (16 * c)) 3).set dmaPage (F.DMA_CH_ERR_IDX.at (16 * c)) code).setChState c 0).err dmaPage 0x21).int dmaPage 2 })) ∧
    (2 ≤ d.chState c → exec (.channelStartDone ch) s = .next s) ∧
    (d.chState c = 3 → x.job = none → d.d3hot = false →
      let u := (d.dropJob c).unwaitInject c
      let v := ((u.setChan c { u.chan c with descs := [] }).ctxBack c).setChState c 0
      v.get dmaPage F.DMA_CTX_INVAL_BUSY = 0 → v.chPending c = false → exec (.channelStopDone ch) s = .next { s with dev := v }) ∧
    (d.chState c ≠ 3 ∨ d.d3hot = true → exec (.channelStopDone ch) s = .next s) ∧
    (∀ n, n < 5 → (d.setChState c n).chState c = n ∧ ∀ k : Fin 1024, k ≠ ch → (d.setChState c n).chState k.val = d.chState k.val) ∧
    (∀ e : Fin 1024, d.reachable dmaPage → d.get dmaPage F.DMA_CTX_INVAL_BUSY = 0 → d.hif.cached = [] → (∀ y ∈ d.hif.chans, y.2.inval = false) →
      ∃ t, exec (.dmaCtxInval (BitVec.ofNat 32 (0x8000 + e.val)) 15 req) s = .next t ∧ t.pending = s.pending ∧ t.trust = s.trust ∧
        t.dev.get dmaPage F.DMA_CTX_INVAL_BUSY = 0 ∧ t.dev.hif = d.hif)) ∧
  (∀ (s : State) (ch : Fin 1024) (v : BitVec 16) (req : BitVec 16) (cx : Ctx),
    let d := s.dev
    let c := ch.val
    let x := d.chan c
    (d.hostOpen = true → d.lstate < 2 → d.chState c = 2 → x.ctx = some cx →
      ((v.toNat + 65536 - d.chHead c) % 65536 ≤ 2 ^ cx.ringLog →
        exec (.dbTail ch (v.setWidth 32) 15 req) s = .next { s with dev := d.set dmaPage (F.DMA_CH_IDX_TAIL.at (16 * c)) v.toNat }) ∧
      (2 ^ cx.ringLog < (v.toNat + 65536 - d.chHead c) % 65536 →
        let r : Cap := { page := dmaPage, kinds := [0x22], off := 512 * c % 65536, data := v.toNat, write := true, req := req.toNat, d5 := 512 * c }
        exec (.dbTail ch (v.setWidth 32) 15 req) s = .next { s with dev := d.capture r }) ∧
      (let u := d.setChan c { x with armed := true }
       (d.chHead c = v.toNat → exec (.dbArm ch (v.setWidth 32) 15 req) s = .next { s with dev := u }) ∧
       (d.chHead c ≠ v.toNat → cx.intEn = true →
         exec (.dbArm ch (v.setWidth 32) 15 req) s = .next { s with dev := (u.setChan c { x with armed := false, unsig := 0 }).sendMsix cx.vector }))) ∧
    (d.chState c = 2 → x.job = none → d.hostShut = false → d.hif.cached.contains c = true → x.ctx = some cx → cx.typ ≠ 2 →
      let at_ := (d.chHead c + x.descs.length) % 65536
      let n := min 8 (min (d.chFree c - x.descs.length) (2 ^ cx.ringLog - at_ % 2 ^ cx.ringLog))
      let u := d.setHif { d.hif with cached := d.hif.cached.filter (· ≠ c) ++ [c] }
      n ≠ 0 → exec (.descriptorFetch ch) s = .next { s with dev := u.startJob c 2 [(cx.ring + 16 * (at_ % 2 ^ cx.ringLog), 16 * n)] }) ∧
    (d.chState c ≠ 2 → exec (.descriptorFetch ch) s = .next s) ∧
    (x.ctx = some cx → 0 < x.unsig → cx.coalUs ≠ 0 → cx.intEn = true → x.armed = true →
      exec (.coalTimeout ch) s = .next { s with dev := (d.setChan c { x with armed := false, unsig := 0 }).sendMsix cx.vector }) ∧
    (x.ctx = some cx → (x.unsig = 0 ∨ cx.coalUs = 0) → exec (.coalTimeout ch) s = .next s))

/-- O56. A packet whole in the staging of the host path is written to host buffers, injected packets enter intake, and
write-list records are performed in order. Follows 19_host_interface.md, R360, R361, R362. Record byte order and what UNITS counts are log entries 46 and 121. -/
def Obligations.PacketsCrossTheHost : Prop :=
  ∀ (s : State) (ch : Fin 1024) (h : HostPkt) (p : Punt) (l : List HostPkt) (cx : Ctx) (e : Desc) (r : List Desc) (j : Job),
    let d := s.dev
    let c := ch.val
    let x := d.chan c
    let gone := d.setHif { d.hif with staged := l }
    (d.hif.staged = [] → exec (.puntDelivery ch) s = .next s) ∧
    (d.hif.staged = h :: l → d.arriving h.punt.pkt.owner = true → exec (.puntDelivery ch) s = .next s) ∧
    (d.hif.staged = h :: l → h.punt = p → p.ch = c → d.domOn 29 = true → p.held = none → d.arriving p.pkt.owner = false → d.isBad p.pkt.owner = true →
      exec (.puntDelivery ch) s = .next { s with dev := (gone.badDrop p.pkt.owner).freePkt p.pkt }) ∧
    (d.hif.staged = h :: l → h.punt = p → p.ch = c → d.domOn 29 = true → p.held = none → d.arriving p.pkt.owner = false → d.isBad p.pkt.owner = false →
      (d.chState c ≠ 2 ∨ d.get hifPage F.HIF_LINK_STAT_DSTATE ≠ 0 → exec (.puntDelivery ch) s = .next { s with dev := gone.puntDrop p }) ∧
      (d.chState c = 2 → d.get hifPage F.HIF_LINK_STAT_DSTATE = 0 → d.lstate ≠ 5 → x.job = none → d.hif.cached.contains c = true → x.ctx = some cx → cx.typ = 1 →
        x.descs = e :: r → 1 ≤ d.chFree c →
        let all := p.record ++ (gone.chainBytes p.pkt.first).take p.pkt.len
        0 < all.length → all.length ≤ 2 ^ (cx.bufLog + 8) →
        let g := (gone.setHif { gone.hif with cached := gone.hif.cached.filter (· ≠ c) ++ [c] }).postHost e.addr all true
        let dw := p.src + p.reason % 64 * 8 + p.pkt.inport % 256 * 512 + p.hport * 2 ^ 17
        let h := g.descDone c all.length 0 dw true true false
        let k := h.setChan c { h.chan c with units := (h.chan c).units + 1, bytes := (h.chan c).bytes + all.length }
        exec (.puntDelivery ch) s = .next { s with dev := (k.cnt dmaPage F.DMA_CNT_COUNT 0).freePkt p.pkt })) ∧
    (x.ctx = some cx → x.job = some j → j.kind = 3 → j.whole = true → d.chState c = 2 → d.hostShut = false →
      (cx.typ = 2 → packetSpan x.descs = some (1, true) → x.descs = e :: r → d.injectOpen cx = true → (d.pg cx.pg).depth < 1024 →
        (∀ die, die < 2 → ∀ w ∈ (d.bpm die).waits, w.2 ≠ .inject c) → ∀ f, (d.newChain (cx.pg / 8) 12 j.bytes).1 = some f →
        let b := j.bytes
        let u := (d.newChain (cx.pg / 8) 12 b).2
        let k : Pkt := ⟨f, f, b.length, b.length + 4, 144 + cx.inport, cx.pg, cx.lane, 0, false⟩
        let v := u.takeIntake cx.lane ⟨k, slice b 0 256, u.time.sec, u.time.ns, none⟩
        let w := (v.setChan c { v.chan c with job := none }).descDone c e.len 0 0 (bit e.flags 0) (bit e.flags 1) false
        let y := w.setChan c { w.chan c with units := (w.chan c).units + 1, bytes := (w.chan c).bytes + b.length }
        exec (.inject ch) s = .next { s with dev := ((y.cnt dmaPage F.DMA_CNT_COUNT 1).goOn c).settleInval }) ∧
      (cx.typ = 3 → j.bytes.length = 8 →
        let w0 := leNat (j.bytes.take 4)
        bits w0 29 3 ≤ 1 → bits w0 0 29 % 4 = 0 →
        let y := (⟨s.trust, d⟩ : Reach).write (bits w0 29 3) (bits w0 0 29) (BitVec.ofNat 32 (leNat (slice j.bytes 4 4))) 15 0xFFFF
        let u := (y.dev.setChan c { y.dev.chan c with job := none }).descDone c 8 0 1 false false false
        let v := u.setChan c { u.chan c with units := (u.chan c).units + 1, bytes := (u.chan c).bytes + 8 }
        exec (.writeList ch) s = .next { s with trust := y.trust, dev := ((v.bump dmaPage (F.DMA_CNT_COUNT.at 8) 1).goOn c).settleInval })) ∧
    (x.job = none ∨ d.hostShut = true → exec (.inject ch) s = .next s ∧ exec (.writeList ch) s = .next s)

/-- O57. A Ulux port trains, exchanges HELLO and comes UP, and accepts cells in link order, asking again for what it misses.
Follows 20_ulux_mesh.md, R370, R371, R372, R379. What a miswired record holds is log entry 128. -/
def Obligations.UluxLinksComeUpAndAcceptInOrder : Prop :=
  (∀ (s : State) (port : Fin 16) (cell : List Byte) (die : Fin 2) (v : BitVec 8) (req : BitVec 16),
    let d := s.dev
    let p := port.val
    let g := uPage p
    (d.pageOn g = true → d.uState p = 1 → exec (.ulxAligned port) s = .next { s with dev := (d.set g (F.ULX_PORT_STAT_STATE.at (4 * (p % 8))) 2).int g 0 }) ∧
    (d.uState p ≠ 1 → exec (.ulxAligned port) s = .next s) ∧
    (d.pageOn g = true → d.uState p = 2 →
      let body := [d.power.uxId, p, b2n (d.uport p).restart, d.initCred (p / 8) 0, d.initCred (p / 8) 1, d.initCred (p / 8) 2, d.initCred (p / 8) 3, d.live (ulxPage (p / 8)) F.ULX_CFG_MEMBERS]
      exec (.helloSend port) s = .next { s with dev := d.ulxSend p 3 (body.map (BitVec.ofNat 8)) }) ∧
    (d.uState p ≠ 2 → exec (.helloSend port) s = .next s ∧ (d.pageOn g = true → ucellOk cell = true → (cellHdr cell).kind = 3 → 2 ≤ d.uState p → exec (.hello port cell) s = .next s)) ∧
    (d.pageOn g = true → d.uState p = 2 → ucellOk cell = true → (cellHdr cell).kind = 3 → bit (beAt cell 10 1) 0 = false →
      let b := fun i => beAt cell (8 + i) 1
      let u := (d.set g (F.ULX_PORT_STAT_PEER_DEV.at (4 * (p % 8))) (b 0)).set g (F.ULX_PORT_STAT_PEER_PORT.at (4 * (p % 8))) (b 1)
      let wired := match d.uPeer p with
        | some e => b 0 == e && b 1 == 10 - 5 * (p / 5) + p % 5
        | none => d.mode == 5 && b 0 == d.power.uxId && b 1 == 15
      let good := wired && b 7 == u.live (ulxPage (p / 8)) F.ULX_CFG_MEMBERS
      (good = true →
        let y : UlxPort := { u.uport p with lseq := 4095, ack := 4095, nak := false, replay := [], restart := false, owed := [0, 0, 0, 0], cred := [b 3, b 4, b 5, b 6] }
        exec (.hello port cell) s = .next { s with dev := ((u.setUport p y).setUState p 3).updReach }) ∧
      (good = false → exec (.hello port cell) s = .next { s with dev := (u.setUState p 4).err g 0x22 p (b 0 + b 1 * 256 + b 7 * 65536) })) ∧
    (d.uUp p = true → exec (.ulxPortLeaveUp port) s = .next { s with dev := d.leaveUp p (if d.running g then 1 else 0) }) ∧
    (d.uUp p = false → exec (.ulxPortLeaveUp port) s = .next s) ∧
    (d.reachable (ulxPage die.val) →
      exec (.portRetrain die (v.setWidth 32) 15 req) s = .next { s with dev := (setBits 8 v.toNat).foldl (fun d i => if d.uState (8 * die.val + i) = 4 then d.setUState (8 * die.val + i) 1 else d) d })) ∧
  (∀ (s : State) (port : Fin 16) (cell : List Byte),
    let d := s.dev
    let p := port.val
    let h := cellHdr cell
    let x := d.uport p
    let left := match x.replay.findIdx? (·.lseq = h.ack) with | some i => x.replay.drop (i + 1) | none => x.replay
    let y : UlxPort := { x with replay := left, cred := (List.range 4).map fun v => x.cred.getD v 0 + h.cred.getD v 0, reach := h.reach }
    (d.pageOn (uPage p) = false ∨ d.uState p < 2 → exec (.data port cell) s = .next s ∧ exec (.null port cell) s = .next s ∧ exec (.nak port cell) s = .next s) ∧
    (d.uUp p = true → ucellOk cell = false →
      let u := (d.bump (uPage p) (F.ULX_PORT_CNT_COUNT.at (16 * (p % 8) + 4))).ulxNak p
      exec (.data port cell) s = .next { s with dev := u } ∧ exec (.null port cell) s = .next { s with dev := u } ∧ exec (.nak port cell) s = .next { s with dev := u }) ∧
    (d.uUp p = true → ucellOk cell = true → h.reach = x.reach →
      (h.kind = 0 → exec (.null port cell) s = .next { s with dev := d.setUport p y }) ∧
      (h.kind = 2 → exec (.nak port cell) s = .next { s with dev := (d.setUport p y).replay p }) ∧
      (h.kind = 1 → h.vc < 2 → h.lseq = (x.ack + 1) % 4096 →
        let z : UlxPort := { y with ack := h.lseq, nak := false, rx := y.rx ++ [⟨h.vc, slice cell 8 244⟩] }
        exec (.data port cell) s = .next { s with dev := (d.setUport p z).pumpRx }) ∧
      (h.kind = 1 → h.vc < 2 → h.lseq ≠ (x.ack + 1) % 4096 → exec (.data port cell) s = .next { s with dev := (d.setUport p y).ulxNak p })))

/-- O58. A Ulux link replays unacknowledged cells up to its limit, sends within its credits, and every cell it makes reads
back as made. Follows 20_ulux_mesh.md, R370, R372, R377. The NULL is log entry 129. -/
def Obligations.LinksReplayAndSend : Prop :=
  ∀ (s : State) (port : Fin 16) (a : Sent) (r : List Sent),
    let d := s.dev
    let p := port.val
    let g := uPage p
    let x := d.uport p
    (d.uUp p = false → exec (.ackTimeout port) s = .next s ∧ exec (.ulxCellSend port) s = .next s) ∧
    (d.uUp p = true → x.replay = [] → exec (.ackTimeout port) s = .next s) ∧
    (d.uUp p = true → x.replay = a :: r → d.get g F.ULX_LINK_REPLAY_MAX ≤ a.resends →
      let u := d.bump g (F.ULX_PORT_CNT_COUNT.at (16 * (p % 8) + 12))
      exec (.ackTimeout port) s = .next { s with dev := (u.event g 9 5 p x.replay.length 0).leaveUp p 1 }) ∧
    (d.uUp p = true → x.replay = [a] → a.resends < d.get g F.ULX_LINK_REPLAY_MAX →
      let u := d.setUport p { x with replay := [{ a with resends := a.resends + 1 }] }
      exec (.ackTimeout port) s = .next { s with dev :=
        ((u.bump g (F.ULX_PORT_CNT_COUNT.at (16 * (p % 8) + 8))).ulxSendCell p 1 (cellHdr a.cell).vc a.lseq (slice a.cell 8 244)).2 }) ∧
    (∀ vc pl o, d.uUp p = true → x.replay.length < 1024 → x.out = (vc, pl) :: o → 0 < x.cred.getD vc 0 →
      exec (.ulxCellSend port) s = .next { s with dev := (d.setUport p { x with out := o }).ulxSendData p vc pl }) ∧
    (d.uUp p = true → x.out = [] → (∀ i, i < 16 → (d.uport i).rx = []) → d.ulx.again = [] → d.ulx.queues = [] →
      exec (.ulxCellSend port) s = .next { s with dev := d.ulxSend p 0 [] }) ∧
    (∀ (b : Dev) (q kind vc lseq : Nat) (pl : List Byte), kind < 16 → vc < 4 → lseq < 4096 → (b.uport q).ack < 4096 → b.direct4 < 16 →
      let c := (b.ulxSendCell q kind vc lseq pl).1
      ucellOk c = true ∧ (cellHdr c).kind = kind ∧ (cellHdr c).vc = vc ∧ (cellHdr c).lseq = lseq ∧ (cellHdr c).ack = (b.uport q).ack ∧ (cellHdr c).reach = b.direct4 ∧ slice c 8 244 = slice pl 0 244)

/-- O59. Mesh transactions are served through windows and time out, windows commit at once, streams skip gaps and unreachable
devices are lost. Follows 20_ulux_mesh.md, R378, R379, R380, R381. The answer's port is log entry 131, page 0x3B's windows log
entry 132. -/
def Obligations.MeshTransactionsAndStreams : Prop :=
  (∀ (s : State) (die : Fin 2) (dev : Fin 4) (sdie vc : Fin 2) (n c : Nat) (pl : List Byte),
    let d := s.dev
    let k := streamKey die.val dev.val sdie.val vc.val
    let x := d.stream k
    (x.held = [] → exec (.rsqTimeout die dev sdie vc) s = .next s) ∧
    (x.held = [(n, pl, c)] → n ≠ x.next → x.build = none →
      let u := ((d.setStream k { x with next := n }).peerCnt die.val dev.val 5).int (ulxPage die.val) 5
      exec (.rsqTimeout die dev sdie vc) s = .next { s with dev := (u.releaseStream k 1024).pumpRx }) ∧
    (bit (d.any4 0) dev.val = true ∨ bit (d.any4 1) dev.val = true → exec (.peerHoldExpire dev) s = .next s) ∧
    (bit (d.any4 0) dev.val = false → bit (d.any4 1) dev.val = false → d.ulx.queues = [] →
      exec (.peerHoldExpire dev) s = .next { s with dev := d.setUlx { d.ulx with lost := d.ulx.lost.wr false dev.val true, again := d.ulx.again.filter fun x => (routeOf x.2.2).dst ≠ dev.val } })) ∧
  (∀ (s : State) (die : Fin 2) (slot : Fin 4) (req : BitVec 16) (port : Fin 16) (cell : List Byte),
    let d := s.dev
    let p := ulxPage die.val
    let o := txnOff slot.val
    let busy := d.get p (F.ULX_TXN_BUSY.at o)
    (d.reachable p → d.txnHeld die.val slot.val = false →
      exec (.txnRead die slot req) s = .next { s with dev := (d.set p (F.ULX_TXN_OP.at o) 1).txnGo die.val slot.val } ∧
      exec (.txnWrite die slot req) s = .next { s with dev := (d.set p (F.ULX_TXN_OP.at o) 2).txnGo die.val slot.val }) ∧
    (busy = 0 → exec (.txnTimeout die slot) s = .next s) ∧
    (busy = 1 → exec (.txnTimeout die slot) s = .next { s with dev := ((d.setWord p (0x040C + o) (BitVec.ofNat 32 52)).int p 2).set p (F.ULX_TXN_QUAR.at o) 1 }) ∧
    exec (.txnQuarantineEnd die slot) s = .next { s with dev := d.set p (F.ULX_TXN_QUAR.at o) 0 } ∧
    (let x := d.uport port.val
     let h := cellHdr cell
     let left := match x.replay.findIdx? (·.lseq = h.ack) with | some i => x.replay.drop (i + 1) | none => x.replay
     let owed := x.owed.set h.vc (x.owed.getD h.vc 0 + 1)
     let y : UlxPort := { x with replay := left, cred := (List.range 4).map fun v => x.cred.getD v 0 + h.cred.getD v 0, reach := h.reach, ack := h.lseq, nak := false, owed := owed }
     let u := d.setUport port.val y
     d.uUp port.val = true → ucellOk cell = true → h.kind = 1 → h.reach = x.reach → h.lseq = (x.ack + 1) % 4096 →
       (h.vc = 3 → beAt cell 8 1 = 3 → beAt cell 12 2 = slot.val + 4 * die.val → busy = 1 → d.pageOn p = true →
         let code := beAt cell 11 1 % 4
         exec (.response port cell) s = .next { s with dev := ((u.setWord p (0x0408 + o) (BitVec.ofNat 32 (beAt cell 20 4))).setWord p (0x040C + o) (BitVec.ofNat 32 (2 + b2n (code ≠ 0) * 4 + code * 16))).int p 2 }) ∧
       (h.vc = 3 → beAt cell 8 1 ≠ 3 → exec (.response port cell) s = .next { s with dev := u.cnt (uPage port.val) F.ULX_CNT_COUNT 1 }) ∧
       (h.vc = 2 →
         let v := u.cnt (uPage port.val) F.ULX_CNT_COUNT 0
         let src := beAt cell 9 1 % 4
         let tag := beAt cell 12 2
         let addr := beAt cell 16 4
         (∀ st, v.translate src (beAt cell 10 1 % 2) addr (beAt cell 8 1 = 2) = .error st →
           exec (.request port cell) s = .next { s with dev := v.respond port.val src st tag addr 0 }) ∧
         (∀ bar off, beAt cell 8 1 = 2 → v.translate src (beAt cell 10 1 % 2) addr true = .ok (bar, off) →
           let r := (⟨s.trust, v⟩ : Reach).write (bar / 2) off (BitVec.ofNat 32 (beAt cell 20 4)) 15 (0xFFF0 + src)
           exec (.request port cell) s = .next { s with trust := r.trust, dev := r.dev.respond port.val src 0 tag addr (beAt cell 20 4) }) ∧
         (∀ bar off, beAt cell 8 1 = 1 → v.translate src (beAt cell 10 1 % 2) addr false = .ok (bar, off) →
           let r := (⟨s.trust, v⟩ : Reach).read (bar / 2) off (0xFFF0 + src) .clean
           exec (.request port cell) s = .next { s with trust := r.2.trust, dev := r.2.dev.respond port.val src 0 tag addr r.1.toNat }))) ∧
    (d.reachable p → d.get p F.ULX_WIN_COMMIT_BUSY = 0 → die.val = 1 →
      exec (.winCommit die req) s = .next { s with dev := (d.set p F.ULX_WIN_COMMIT_BUSY 1).set p F.ULX_WIN_COMMIT_DONE 0 }) ∧
    (d.reachable p → d.get p F.ULX_WIN_COMMIT_BUSY = 0 → die.val = 0 → ∃ t, exec (.winCommit die req) s = .next t ∧ t.pending = s.pending ∧ t.trust = s.trust ∧
      (∀ w, w < 8 → Map.rd Window.init t.dev.ulx.windows w = ⟨d.word p (0x0500 + 16 * w), d.word p (0x0504 + 16 * w), d.word p (0x0508 + 16 * w)⟩) ∧
      t.dev.get p F.ULX_WIN_COMMIT_BUSY = 1 ∧ t.dev.get p F.ULX_WIN_COMMIT_DONE = 0) ∧
    (d.get p F.ULX_WIN_COMMIT_BUSY = 1 → exec (.winCommitDone die) s = .next { s with dev := ((d.set p F.ULX_WIN_COMMIT_BUSY 0).set p F.ULX_WIN_COMMIT_DONE 1).int p 4 }) ∧
    (d.get p F.ULX_WIN_COMMIT_BUSY = 0 → exec (.winCommitDone die) s = .next s))

/-- O60. A write of ULX_LINK or ULX_TXN_TMO raises TXN_TMO.US to four times the replay span, recording CFG_INCONSISTENT.
Follows R374. -/
def Obligations.ReplayFitsTheTransactionTimeout : Prop :=
  ∀ (s : State) (die : Fin 2) (v : Word) (req : BitVec 16) (o : Nat),
    let p := ulxPage die.val
    (o = 0x0108 ∨ o = 0x010C) → s.dev.reachable p → ∃ t, exec (.regWrite 0 (65536 * p + o) v 15 req) s = .next t ∧
      let lim : Nat → Nat → Nat → Nat := fun lo hi x => max lo (min hi x)
      let max_ := if o = 0x0108 then lim 1 15 (bits v.toNat 16 4) else s.dev.get p F.ULX_LINK_REPLAY_MAX
      let ack := if o = 0x0108 then lim 100 65535 (bits v.toNat 0 16) else s.dev.get p F.ULX_LINK_ACK_TMO_NS
      let us := if o = 0x010C then lim 10 65535 (bits v.toNat 0 16) else s.dev.get p F.ULX_TXN_TMO_US
      let n := max_ * ack
      t.dev.get p F.ULX_LINK_REPLAY_MAX = max_ ∧ t.dev.get p F.ULX_LINK_ACK_TMO_NS = ack ∧
      (n ≤ us * 250 → t.dev.get p F.ULX_TXN_TMO_US = us) ∧
      (us * 250 < n → t.dev.get p F.ULX_TXN_TMO_US = (4 * n + 999) / 1000 ∧ bit (t.dev.word p 0x10).toNat 3 = true ∧ bit (t.dev.word p 0x20).toNat 23 = true ∧
        (bit (s.dev.word p 0x20).toNat 31 = false → bits (t.dev.word p 0x20).toNat 24 6 = 0x21))
end

