-- ==== Sys2Proof/Laws/Bits.lean ====
section
/-! SUPPORT. Bit fields: what a field of a combined or a masked number reads as. -/

namespace Sys2Proof.Machine

theorem testBit_eq_bit (v i : Nat) : v.testBit i = bit v i := by
  simp only [bit, Nat.testBit, Nat.shiftRight_eq_div_pow, Nat.and_comm 1, Nat.and_one_is_mod]
  rcases Nat.mod_two_eq_zero_or_one (v / 2 ^ i) with h | h <;> simp [h]

theorem bits_eq_shift (v l w : Nat) : bits v l w = (v >>> l) % 2 ^ w := by
  rw [bits, Nat.shiftRight_eq_div_pow]

theorem bits_testBit (v l w i : Nat) : (bits v l w).testBit i = (decide (i < w) && v.testBit (l + i)) := by
  rw [bits_eq_shift, Nat.testBit_mod_two_pow, Nat.testBit_shiftRight]

/-- A field of two numbers combined is the fields combined. -/
theorem bits_lor (a b l w : Nat) : bits (Nat.lor a b) l w = Nat.lor (bits a l w) (bits b l w) := by
  apply Nat.eq_of_testBit_eq
  intro i
  show (bits (a ||| b) l w).testBit i = (bits a l w ||| bits b l w).testBit i
  simp only [Nat.testBit_or, bits_testBit]
  cases decide (i < w) <;> simp

/-- A field of a masked number is the masked field. -/
theorem bits_land (a b l w : Nat) : bits (Nat.land a b) l w = Nat.land (bits a l w) (bits b l w) := by
  apply Nat.eq_of_testBit_eq
  intro i
  show (bits (a &&& b) l w).testBit i = (bits a l w &&& bits b l w).testBit i
  simp only [Nat.testBit_and, bits_testBit]
  cases decide (i < w) <;> simp

theorem bit_lor (a b i : Nat) : bit (Nat.lor a b) i = (bit a i || bit b i) := by
  rw [← testBit_eq_bit, ← testBit_eq_bit, ← testBit_eq_bit]; exact Nat.testBit_or a b i

theorem bit_land (a b i : Nat) : bit (Nat.land a b) i = (bit a i && bit b i) := by
  rw [← testBit_eq_bit, ← testBit_eq_bit, ← testBit_eq_bit]; exact Nat.testBit_and a b i

theorem bits_lt (v l w : Nat) : bits v l w < 2 ^ w := Nat.mod_lt _ (by positivity)

/-- Writing a field with the value it has changes nothing. -/
theorem putBits_bits (v l w : Nat) : putBits v l w (bits v l w) = v := by
  unfold putBits
  rw [Nat.mod_eq_of_lt (bits_lt v l w), bits, pow_add, ← Nat.div_div_eq_div_mul]
  have h1 := Nat.div_add_mod v (2 ^ l)
  have h2 := Nat.div_add_mod (v / 2 ^ l) (2 ^ w)
  generalize v / 2 ^ l / 2 ^ w = a at *
  generalize v / 2 ^ l % 2 ^ w = b at *
  generalize v % 2 ^ l = c at *
  rw [← h1, ← h2]; ring

/-- A field just written reads as the value written, cut to its width. -/
theorem bits_putBits (v l w x : Nat) : bits (putBits v l w x) l w = x % 2 ^ w := by
  unfold putBits bits
  have hc : v % 2 ^ l < 2 ^ l := Nat.mod_lt _ (by positivity)
  have hp : 0 < 2 ^ l := by positivity
  have h : v % 2 ^ l + x % 2 ^ w * 2 ^ l + v / 2 ^ (l + w) * 2 ^ (l + w)
      = v % 2 ^ l + 2 ^ l * (x % 2 ^ w + 2 ^ w * (v / 2 ^ (l + w))) := by rw [pow_add]; ring
  rw [h, Nat.add_mul_div_left _ _ hp, Nat.div_eq_of_lt hc, Nat.zero_add, Nat.add_mul_mod_self_left, Nat.mod_mod]

theorem putBits_lt (v l w x n : Nat) (hv : v < 2 ^ n) (h : l + w ≤ n) : putBits v l w x < 2 ^ n := by
  unfold putBits
  obtain ⟨k, rfl⟩ := Nat.exists_eq_add_of_le h
  have h1 : v % 2 ^ l < 2 ^ l := Nat.mod_lt _ (by positivity)
  have h2 : x % 2 ^ w < 2 ^ w := Nat.mod_lt _ (by positivity)
  have h3 : v / 2 ^ (l + w) < 2 ^ k := by
    rw [Nat.div_lt_iff_lt_mul (by positivity), Nat.mul_comm, ← pow_add]; exact hv
  have e3 : (2 : Nat) ^ (l + w) = 2 ^ w * 2 ^ l := by rw [pow_add, Nat.mul_comm]
  rw [pow_add (2 : Nat) (l + w) k]
  generalize v / 2 ^ (l + w) = a at *
  generalize x % 2 ^ w = b at *
  generalize v % 2 ^ l = c at *
  have e1 : (b + 1) * 2 ^ l ≤ 2 ^ w * 2 ^ l := Nat.mul_le_mul_right _ h2
  have e2 : (a + 1) * 2 ^ (l + w) ≤ 2 ^ k * 2 ^ (l + w) := Nat.mul_le_mul_right _ h3
  nlinarith

/-- A field apart from the one written reads as before. -/
theorem bits_putBits_ne (v l w x l' w' : Nat) (h : l' + w' ≤ l ∨ l + w ≤ l') : bits (putBits v l w x) l' w' = bits v l' w' := by
  apply Nat.eq_of_testBit_eq
  intro i
  rw [bits_testBit, bits_testBit]
  by_cases hi : i < w'
  · simp only [hi, decide_true, Bool.true_and]
    rcases h with h | h
    · have e1 : (putBits v l w x) % 2 ^ l = v % 2 ^ l := by
        unfold putBits
        rw [pow_add, show v % 2 ^ l + x % 2 ^ w * 2 ^ l + v / (2 ^ l * 2 ^ w) * (2 ^ l * 2 ^ w)
            = v % 2 ^ l + 2 ^ l * (x % 2 ^ w + v / (2 ^ l * 2 ^ w) * 2 ^ w) by ring, Nat.add_mul_mod_self_left, Nat.mod_mod]
      have t : ∀ n, (n % 2 ^ l).testBit (l' + i) = n.testBit (l' + i) := fun n => by
        rw [Nat.testBit_mod_two_pow]; simp [show l' + i < l by omega]
      rw [← t, e1, t]
    · have e1 : (putBits v l w x) / 2 ^ (l + w) = v / 2 ^ (l + w) := by
        unfold putBits
        have h1 : v % 2 ^ l < 2 ^ l := Nat.mod_lt _ (by positivity)
        have h2 : x % 2 ^ w < 2 ^ w := Nat.mod_lt _ (by positivity)
        have e2 : x % 2 ^ w * 2 ^ l + 2 ^ l ≤ 2 ^ w * 2 ^ l := by
          have := Nat.mul_le_mul_right (2 ^ l) (show x % 2 ^ w + 1 ≤ 2 ^ w by omega)
          simpa [Nat.add_mul] using this
        have e3 : (2 : Nat) ^ (l + w) = 2 ^ w * 2 ^ l := by rw [pow_add, Nat.mul_comm]
        rw [Nat.add_mul_div_right _ _ (by positivity), Nat.div_eq_of_lt (by rw [e3]; omega), Nat.zero_add]
      have t : ∀ n : Nat, n.testBit (l' + i) = (n / 2 ^ (l + w)).testBit (l' + i - (l + w)) := fun n => by
        rw [← Nat.shiftRight_eq_div_pow, Nat.testBit_shiftRight]; congr 1; omega
      rw [t, e1, ← t]
  · simp [hi]

end Sys2Proof.Machine
end

