-- ==== Sys2Proof/Laws/Maps.lean ====
section
/-! SUPPORT. Sparse stores: what a read gives after a write, and that every operation keeps the canonical form. -/

namespace Sys2Proof

variable {α : Type}

/-! Reads after writes -/

theorem Map.rd_erase_same (d : α) (m : Map α) (x : Nat) : Map.rd d (Map.erase m x) x = d := by
  induction m with
  | nil => rfl
  | cons e r ih => 
    obtain ⟨k, v⟩ := e
    by_cases h : x = k
    · subst h; simpa [Map.erase] using ih
    · simpa [Map.erase, Map.rd, h] using ih

theorem Map.rd_erase_ne (d : α) (m : Map α) {x y : Nat} (h : y ≠ x) : Map.rd d (Map.erase m x) y = Map.rd d m y := by
  induction m with
  | nil => rfl
  | cons e r ih =>
    obtain ⟨k, v⟩ := e
    by_cases hx : x = k
    · subst hx; simp [Map.erase, Map.rd, h, ih]
    · simp only [Map.erase, if_neg hx, Map.rd, ih]

theorem Map.rd_insert_same (d : α) (m : Map α) (x : Nat) (v : α) (h : ∀ e ∈ m, e.1 ≠ x) : Map.rd d (Map.insert m x v) x = v := by
  induction m with
  | nil => simp [Map.insert, Map.rd]
  | cons e r ih =>
    obtain ⟨k, u⟩ := e
    have hk : x ≠ k := fun hh => h (k, u) (by simp) hh.symm
    by_cases hlt : x < k
    · simp [Map.insert, Map.rd, hlt]
    · simp only [Map.insert, if_neg hlt, Map.rd, if_neg hk]
      exact ih fun e he => h e (by simp [he])

theorem Map.rd_insert_ne (d : α) (m : Map α) {x y : Nat} (v : α) (h : y ≠ x) : Map.rd d (Map.insert m x v) y = Map.rd d m y := by
  induction m with
  | nil => simp [Map.insert, Map.rd, h]
  | cons e r ih =>
    obtain ⟨k, u⟩ := e
    by_cases hlt : x < k
    · simp [Map.insert, Map.rd, hlt, h]
    · simp only [Map.insert, if_neg hlt, Map.rd, ih]

theorem Map.erase_not_mem (m : Map α) (x : Nat) : ∀ e ∈ Map.erase m x, e.1 ≠ x := by
  induction m with
  | nil => simp [Map.erase]
  | cons e r ih =>
    obtain ⟨k, v⟩ := e
    by_cases hx : x = k
    · subst hx
      simp only [Map.erase, if_true]
      exact ih
    · intro e he
      simp only [Map.erase, if_neg hx, List.mem_cons] at he
      rcases he with rfl | he
      · exact fun hh => hx hh.symm
      · exact ih e he

/-- A key just written reads as the value written. -/
@[simp] theorem Map.rd_wr_same [DecidableEq α] (d : α) (m : Map α) (x : Nat) (v : α) : Map.rd d (Map.wr d m x v) x = v := by
  unfold Map.wr
  split
  · next h => rw [h]; exact Map.rd_erase_same d m x
  · exact Map.rd_insert_same d _ x v (Map.erase_not_mem m x)

/-- A write leaves every other key as it was. -/
theorem Map.rd_wr_ne [DecidableEq α] (d e : α) (m : Map α) {x y : Nat} (v : α) (h : y ≠ x) :
    Map.rd d (Map.wr e m x v) y = Map.rd d m y := by
  unfold Map.wr
  split
  · exact Map.rd_erase_ne d m h
  · rw [Map.rd_insert_ne d _ v h]; exact Map.rd_erase_ne d m h

@[simp] theorem Map.rd_put_same (d : α) (m : Map α) (x : Nat) (v : α) : Map.rd d (Map.put m x v) x = v :=
  Map.rd_insert_same d _ x v (Map.erase_not_mem m x)

theorem Map.rd_put_ne (d : α) (m : Map α) {x y : Nat} (v : α) (h : y ≠ x) : Map.rd d (Map.put m x v) y = Map.rd d m y := by
  unfold Map.put; rw [Map.rd_insert_ne d _ v h]; exact Map.rd_erase_ne d m h

/-! The canonical form -/

theorem Map.rising_iff (m : Map α) : Map.rising m = true ↔ List.Pairwise (fun a b => a.1 < b.1) m := by
  induction m with
  | nil => simp [Map.rising]
  | cons e r ih =>
    cases r with
    | nil => simp [Map.rising]
    | cons e' r' =>
      obtain ⟨k, v⟩ := e
      obtain ⟨k', v'⟩ := e'
      rw [List.pairwise_cons]
      simp only [Map.rising, Bool.and_eq_true, decide_eq_true_eq, ih]
      constructor
      · rintro ⟨h1, h2⟩
        refine ⟨fun a ha => ?_, h2⟩
        rcases List.mem_cons.1 ha with rfl | ha
        · exact h1
        · exact lt_trans h1 ((List.pairwise_cons.1 h2).1 a ha)
      · rintro ⟨h1, h2⟩
        exact ⟨h1 (k', v') (by simp), h2⟩

theorem Map.erase_eq_filter (m : Map α) (x : Nat) : Map.erase m x = List.filter (fun e => decide (e.1 ≠ x)) m := by
  induction m with
  | nil => rfl
  | cons e r ih =>
    obtain ⟨k, v⟩ := e
    by_cases h : x = k
    · subst h
      simpa [Map.erase] using ih
    · have h' : k ≠ x := fun hh => h hh.symm
      simp [Map.erase, h, h', ih]

theorem Map.mem_insert (m : Map α) (x : Nat) (v : α) (e : Nat × α) (h : e ∈ Map.insert m x v) : e = (x, v) ∨ e ∈ m := by
  induction m with
  | nil => simpa [Map.insert] using h
  | cons a r ih =>
    obtain ⟨k, u⟩ := a
    by_cases hlt : x < k
    · simpa [Map.insert, hlt] using h
    · simp only [Map.insert, if_neg hlt, List.mem_cons] at h
      rcases h with rfl | h
      · simp
      · rcases ih h with h | h <;> simp [h]

theorem Map.insert_rising (m : Map α) (x : Nat) (v : α) (h : List.Pairwise (fun a b => a.1 < b.1) m) (hx : ∀ e ∈ m, e.1 ≠ x) :
    List.Pairwise (fun a b => a.1 < b.1) (Map.insert m x v) := by
  induction m with
  | nil => simp [Map.insert]
  | cons a r ih =>
    obtain ⟨k, u⟩ := a
    have hk : k ≠ x := hx (k, u) (by simp)
    rw [List.pairwise_cons] at h
    by_cases hlt : x < k
    · simp only [Map.insert, if_pos hlt, List.pairwise_cons, List.mem_cons]
      refine ⟨?_, h⟩
      rintro e (rfl | he)
      · exact hlt
      · exact lt_trans hlt (h.1 e he)
    · simp only [Map.insert, if_neg hlt, List.pairwise_cons]
      refine ⟨fun e he => ?_, ih h.2 fun e he => hx e (by simp [he])⟩
      rcases Map.mem_insert r x v e he with rfl | he
      · simp only; omega
      · exact h.1 e he

/-- A write keeps the canonical form. -/
theorem Map.wr_wf [DecidableEq α] (d : Nat → α) (m : Map α) (x : Nat) (v : α) (h : Map.wf d m = true) :
    Map.wf d (Map.wr (d x) m x v) = true := by
  simp only [Map.wf, Bool.and_eq_true, Map.rising_iff, List.all_eq_true] at h ⊢
  obtain ⟨h1, h2⟩ := h
  have he : List.Pairwise (fun a b => a.1 < b.1) (Map.erase m x) := by rw [Map.erase_eq_filter]; exact h1.filter _
  have hm : ∀ e ∈ Map.erase m x, decide (e.2 ≠ d e.1) = true := by
    intro e hh; rw [Map.erase_eq_filter] at hh; exact h2 e (List.mem_filter.1 hh).1
  unfold Map.wr
  split
  · exact ⟨he, hm⟩
  · next hv =>
    refine ⟨Map.insert_rising _ x v he (Map.erase_not_mem m x), fun e hh => ?_⟩
    rcases Map.mem_insert _ x v e hh with rfl | hh
    · simpa using hv
    · exact hm e hh

/-- Dropping a range of keys keeps the canonical form. -/
theorem Map.dropRange_wf [DecidableEq α] (d : Nat → α) (m : Map α) (lo hi : Nat) (h : Map.wf d m = true) :
    Map.wf d (Map.dropRange m lo hi) = true := by
  simp only [Map.wf, Bool.and_eq_true, Map.rising_iff, List.all_eq_true, Map.dropRange] at h ⊢
  exact ⟨h.1.filter _, fun e he => h.2 e (List.mem_filter.1 he).1⟩

theorem Map.rd_dropRange_out (d : α) (m : Map α) (lo hi : Nat) {x : Nat} (h : x < lo ∨ hi ≤ x) :
    Map.rd d (Map.dropRange m lo hi) x = Map.rd d m x := by
  induction m with
  | nil => rfl
  | cons e r ih =>
    obtain ⟨k, v⟩ := e
    have hc : Map.dropRange ((k, v) :: r) lo hi = if k < lo ∨ hi ≤ k then (k, v) :: Map.dropRange r lo hi else Map.dropRange r lo hi := by
      simp only [Map.dropRange, List.filter_cons, Bool.or_eq_true, decide_eq_true_eq]
    rw [hc]
    by_cases hk : k < lo ∨ hi ≤ k
    · simp only [if_pos hk, Map.rd, ih]
    · have hx : x ≠ k := by rintro rfl; exact hk h
      simp only [if_neg hk, Map.rd, if_neg hx, ih]

/-! Writing a key twice -/

theorem Map.erase_insert (m : Map α) (x : Nat) (v : α) : Map.erase (Map.insert m x v) x = Map.erase m x := by
  induction m with
  | nil => simp [Map.insert, Map.erase]
  | cons e r ih =>
    obtain ⟨k, u⟩ := e
    unfold Map.insert
    split
    · simp [Map.erase]
    · simp only [Map.erase, ih]

theorem Map.erase_erase (m : Map α) (x : Nat) : Map.erase (Map.erase m x) x = Map.erase m x := by
  simp only [Map.erase_eq_filter, List.filter_filter, Bool.and_self]

theorem Map.wr_wr [DecidableEq α] (d : α) (m : Map α) (x : Nat) (u v : α) : Map.wr d (Map.wr d m x u) x v = Map.wr d m x v := by
  have h : Map.erase (Map.wr d m x u) x = Map.erase m x := by
    unfold Map.wr
    split
    · exact Map.erase_erase m x
    · rw [Map.erase_insert, Map.erase_erase]
  unfold Map.wr at h ⊢
  rw [h]

end Sys2Proof
end

