-- ==== Sys2Proof/Laws/Regs.lean ====
section
/-! SUPPORT. Registers: what a register or a field reads as after another was written, and what the shared operations leave alone. -/

namespace Sys2Proof.Machine

theorem csrKey_inj {p o p' o' : Nat} (ho : o < 65536) (ho' : o' < 65536) (h : csrKey p o = csrKey p' o') : p = p' ∧ o = o' := by
  unfold csrKey at h; omega

@[simp] theorem Dev.word_setWord_same (d : Dev) (p o : Nat) (w : Word) : (d.setWord p o w).word p o = w := by
  simp [Dev.word, Dev.setWord]

theorem Dev.word_setWord_ne (d : Dev) (p o p' o' : Nat) (w : Word) (h : csrKey p' o' ≠ csrKey p o) :
    (d.setWord p o w).word p' o' = d.word p' o' := by
  simp only [Dev.word, Dev.setWord]; exact Map.rd_wr_ne _ _ _ _ h

/-- A field just written reads as the value written, cut to its width. -/
theorem Dev.get_set_same (d : Dev) (p : Nat) (f : Fld) (v : Nat) (h : f.lsb + f.wd ≤ 32) : (d.set p f v).get p f = v % 2 ^ f.wd := by
  unfold Dev.get Dev.set
  rw [Dev.word_setWord_same, BitVec.toNat_ofNat,
    Nat.mod_eq_of_lt (putBits_lt _ _ _ _ 32 (d.word p f.off).isLt h), bits_putBits]

/-- A field of another register reads as before. -/
theorem Dev.get_set_ne (d : Dev) (p p' : Nat) (f f' : Fld) (v : Nat) (h : csrKey p' f'.off ≠ csrKey p f.off) :
    (d.set p f v).get p' f' = d.get p' f' := by
  unfold Dev.get Dev.set; rw [Dev.word_setWord_ne _ _ _ _ _ _ h]

/-- A field of the same register apart from the one written reads as before. -/
theorem Dev.get_set_apart (d : Dev) (p : Nat) (f f' : Fld) (v : Nat) (ho : f'.off = f.off) (h : f.lsb + f.wd ≤ 32)
    (hd : f'.lsb + f'.wd ≤ f.lsb ∨ f.lsb + f.wd ≤ f'.lsb) : (d.set p f v).get p f' = d.get p f' := by
  unfold Dev.get Dev.set
  rw [ho, Dev.word_setWord_same, BitVec.toNat_ofNat,
    Nat.mod_eq_of_lt (putBits_lt _ _ _ _ 32 (d.word p f.off).isLt h), bits_putBits_ne _ _ _ _ _ _ hd]

end Sys2Proof.Machine
end

