-- ==== Sys2Proof/Laws/Host.lean ====
section
/-! SUPPORT. Host accesses: the path from a command to the register it names, and the writes that only carry out an action. -/

namespace Sys2Proof.Machine

theorem Dev.wakeLink_eq (d : Dev) (h : d.lstate < 2) : d.wakeLink = d := by
  unfold Dev.wakeLink; rw [if_neg (by omega)]

/-- A host write of a register on a page that answers is the register write alone. -/
theorem Reach.hostWrite_reg (x : Reach) (p o : Nat) (v : Word) (req : Nat) (h : x.dev.reachable p) (ho : o < 65536) (h4 : o % 4 = 0)
    (ht : isTrust p o = false) : x.hostWrite 0 (65536 * p + o) v 15 req = ⟨x.trust, x.dev.regWrite p o v req⟩ := by
  obtain ⟨h1, h2, h3, h5⟩ := h
  have e1 : (65536 * p + o) / 65536 = p := by omega
  have e2 : (65536 * p + o) % 65536 / 4 * 4 = o := by omega
  simp only [Reach.hostWrite, h1, if_true, Reach.write, Reach.write0, e1, e2, ht, Dev.csrWrite, if_neg h3, Dev.wakeLink_eq _ h2, h5]
  simp

/-- A host read of a register on a page that answers. -/
theorem Reach.hostRead_reg (x : Reach) (p o req : Nat) (e : Ecc) (h : x.dev.reachable p) (ho : o < 65536) (h4 : o % 4 = 0)
    (ht : isTrust p o = false) :
    x.hostRead 0 (65536 * p + o) req e = ⟨x.trust, (x.dev.regRead p o req).2.emit (.readData (x.dev.regRead p o req).1)⟩ := by
  obtain ⟨h1, h2, h3, h5⟩ := h
  have e1 : (65536 * p + o) / 65536 = p := by omega
  have e2 : (65536 * p + o) % 65536 / 4 * 4 = o := by omega
  simp only [Reach.hostRead, h1, if_true, Reach.read, Reach.read0, e1, e2, ht, Dev.csrRead, if_neg h3, Dev.wakeLink_eq _ h2, h5]
  simp

/-- Fields whose bits a write leaves as they read keep their value. -/
theorem RegDesc.newWord_keep (r : RegDesc) (mode old v : Nat)
    (h : ∀ f ∈ r.fields, f.acc = .rw ∨ f.acc = .rwl → bits v f.lsb f.wd = bits old f.lsb f.wd) (hw : ∀ f ∈ r.fields, f.acc ≠ .w1c) :
    r.newWord mode old v = old := by
  unfold RegDesc.newWord
  generalize hl : r.fields = l at h hw
  clear hl
  induction l with
  | nil => rfl
  | cons f l ih =>
    have hf := h f (by simp)
    have hwf := hw f (by simp)
    simp only [List.foldl_cons]
    have e : ∀ z, z = old → List.foldl (fun w (f : FieldDesc) => match f.acc with
        | .rw => putBits w f.lsb f.wd (bits v f.lsb f.wd)
        | .rwl => if mode = 2 then w else putBits w f.lsb f.wd (bits v f.lsb f.wd)
        | .w1c => putBits w f.lsb f.wd (Nat.land (bits w f.lsb f.wd) (2 ^ f.wd - 1 - bits v f.lsb f.wd))
        | _ => w) z l = old := by
      rintro z rfl
      exact ih (fun f' hf' => h f' (by simp [hf'])) (fun f' hf' => hw f' (by simp [hf']))
    apply e
    cases ha : f.acc <;> simp_all [putBits_bits]

/-- What a register must be for a write of its action bits `b` to store nothing: no W1C field, no shadow, no bit of `b` outside
its WO fields. A closed condition on the register table. -/
def RegDesc.actionOnly (r : RegDesc) (b : Nat) : Bool :=
  (r.half == .single) && (r.fields.all fun f => f.acc != .w1c && f.acc != .w1s && !f.shadow && f.acc != .rwl) &&
    (r.fields.any fun f => f.acc == .wo) &&
    (Nat.land b (2 ^ 32 - 1 - r.mask fun _ => true) == 0) && (Nat.land r.keepMask (2 ^ 32 - 1 - r.mask fun _ => true) == 0) &&
    (r.fields.all fun f => f.acc == .wo || (bits b f.lsb f.wd == 0 && bits r.keepMask f.lsb f.wd == 2 ^ f.wd - 1 && decide (f.lsb + f.wd ≤ 32))) &&
    decide (b < 2 ^ 32)

theorem land_ones (v l w : Nat) : Nat.land (bits v l w) (2 ^ w - 1) = bits v l w := by
  show bits v l w &&& (2 ^ w - 1) = _
  rw [Nat.and_two_pow_sub_one_eq_mod, Nat.mod_eq_of_lt (bits_lt v l w)]

/-- The word such a write carries. -/
def actWord (cur keep b : Nat) : Nat := Nat.lor (Nat.land cur keep) b

theorem actWord_lt (cur keep b : Nat) (hc : cur < 2 ^ 32) (hb : b < 2 ^ 32) : actWord cur keep b < 2 ^ 32 := by
  refine Nat.or_lt_two_pow (lt_of_le_of_lt ?_ hc) hb
  exact Nat.and_le_left

theorem actWord_keeps (cur keep b l w : Nat) (hb : bits b l w = 0) (hk : bits keep l w = 2 ^ w - 1) :
    bits (actWord cur keep b) l w = bits cur l w := by
  unfold actWord
  rw [bits_lor, bits_land, hb, hk, land_ones]
  show bits cur l w ||| 0 = _
  simp

theorem actWord_rsv (cur keep b m : Nat) (hk : Nat.land keep m = 0) (hb : Nat.land b m = 0) : Nat.land (actWord cur keep b) m = 0 := by
  show (cur &&& keep ||| b) &&& m = 0
  have hk' : keep &&& m = 0 := hk
  have hb' : b &&& m = 0 := hb
  rw [Nat.and_or_distrib_right, Nat.and_assoc, hk', hb']; simp

/-- Such a write is recorded under no kind. -/
theorem judge_action (r : RegDesc) (b mode cur : Nat) (h : r.actionOnly b = true) :
    judgeWrite (some r) mode cur (actWord cur r.keepMask b) = [] := by
  simp only [RegDesc.actionOnly, Bool.and_eq_true, List.all_eq_true, List.any_eq_true, beq_iff_eq, bne_iff_ne, Bool.or_eq_true,
    decide_eq_true_eq] at h
  obtain ⟨⟨⟨⟨⟨⟨-, h2⟩, ⟨g, hg, hgw⟩⟩, h4⟩, h5⟩, h6⟩, -⟩ := h
  have hr : Nat.land (actWord cur r.keepMask b) (2 ^ 32 - 1 - r.mask fun _ => true) = 0 :=
    actWord_rsv _ _ _ _ h5 h4
  have hall : (r.fields.all fun f => f.acc = .ro || f.acc = .ro1 || f.acc = .rc) = false := by
    rw [List.all_eq_false]; exact ⟨g, hg, by simp [hgw]⟩
  have hd : ∀ f ∈ r.fields, f.acc = .ro ∨ f.acc = .rwl →
      bits (actWord cur r.keepMask b) f.lsb f.wd = bits cur f.lsb f.wd := by
    intro f hf ha
    rcases h6 f hf with h | ⟨⟨h7, h8⟩, -⟩
    · simp [h] at ha
    · exact actWord_keeps _ _ _ _ _ h7 h8
  have n1 : (r.fields.any fun f => decide (f.acc = .ro) && (bits (actWord cur r.keepMask b) f.lsb f.wd !=
      bits cur f.lsb f.wd)) = false := by
    rw [List.any_eq_false]; intro f hf
    by_cases ha : f.acc = .ro
    · rw [hd f hf (Or.inl ha)]; simp
    · simp [ha]
  have n2 : (r.fields.any fun f => decide (f.acc = .rwl) && (bits (actWord cur r.keepMask b) f.lsb f.wd !=
      bits cur f.lsb f.wd)) = false := by
    rw [List.any_eq_false]; intro f hf
    by_cases ha : f.acc = .rwl
    · rw [hd f hf (Or.inr ha)]; simp
    · simp [ha]
  simp only [judgeWrite, hall, if_pos hr, n1, n2, Bool.false_eq_true, and_false, if_false, List.append_nil]

/-- A capture of no kind records nothing. -/
@[simp] theorem Dev.capture_nil (d : Dev) (p o v q d5 d6 d7 : Nat) (w : Bool) : d.capture ⟨p, [], o, v, w, q, d5, d6, d7⟩ = d := rfl

/-- What a write of action bits finds at its register: nothing special about the register, and values that storing leaves alone. -/
structure ActsAt (d : Dev) (p o b : Nat) (r : RegDesc) : Prop where
  at_ : regAt p o = some r
  only : r.actionOnly b = true
  low : 0x100 ≤ o
  mode : ¬(p = 0x01 ∧ o = 0x0100)
  pwr : p ≠ 0x02
  desc : ¬(pageKind p = .lkp ∧ 0x8020 ≤ o)
  shown : d.shown p o = d.word p o
  keep : d.keepFields p o (d.word p o).toNat (d.word p o).toNat = ((d.word p o).toNat, [])
  clamp : clampWord (pageKind p) o (d.word p o).toNat = (d.word p o).toNat
  bound : d.boundCheck p o = (d, [])
  swc : pageKind p ≠ .swc

/-- The number that a write of action bits carries. -/
def Dev.actNum (d : Dev) (p o b : Nat) (r : RegDesc) : Nat := actWord (d.word p o).toNat r.keepMask b

/-- A write of action bits that is not ignored and not refused only acts. -/
theorem Dev.regWrite_action (d : Dev) (p o b req : Nat) (r : RegDesc) (h : ActsAt d p o b r)
    (hi : d.ignores p o (d.actNum p o b r) = []) (hf : d.actRefused p o (d.actNum p o b r) = none) :
    d.regWrite p o (BitVec.ofNat 32 (d.actNum p o b r)) req = d.act p o (d.actNum p o b r) (d.word p o).toNat := by
  have ho := h.only
  simp only [RegDesc.actionOnly, Bool.and_eq_true, List.all_eq_true, List.any_eq_true, beq_iff_eq, bne_iff_ne, Bool.or_eq_true,
    decide_eq_true_eq, Bool.not_eq_true'] at ho
  obtain ⟨⟨⟨⟨⟨⟨g1, g2⟩, g3⟩, g4⟩, g5⟩, g6⟩, g7⟩ := ho
  have hlt : d.actNum p o b r < 2 ^ 32 := actWord_lt _ _ _ (d.word p o).isLt g7
  have hn : (BitVec.ofNat 32 (d.actNum p o b r)).toNat = d.actNum p o b r := by
    rw [BitVec.toNat_ofNat, Nat.mod_eq_of_lt hlt]
  have hj : judgeWrite (some r) d.mode (d.shown p o).toNat (d.actNum p o b r) = [] := by
    rw [h.shown]; exact judge_action r b d.mode (d.word p o).toNat h.only
  have hnew : r.newWord d.mode (d.word p o).toNat (d.actNum p o b r) = (d.word p o).toNat := by
    refine r.newWord_keep _ _ _ (fun f hf ha => ?_) fun f hf => (g2 f hf).1.1.1
    rcases g6 f hf with hw | ⟨⟨h7, h8⟩, -⟩
    · rcases ha with ha | ha <;> simp [ha] at hw
    · exact actWord_keeps _ _ _ _ _ h7 h8
  have hsm : (r.mask fun f => f.shadow && (f.acc = .rw || (f.acc = .rwl && d.mode != 2))) = 0 := by
    unfold RegDesc.mask
    rw [List.filter_eq_nil_iff.2]
    · rfl
    · intro f hf; simp [(g2 f hf).1.2]
  have hwait : (r.mask fun f => f.shadow) = 0 := by
    unfold RegDesc.mask
    rw [List.filter_eq_nil_iff.2]
    · rfl
    · intro f hf; simp [(g2 f hf).1.2]
  have hstore : d.storeWord p o r (d.actNum p o b r) = (d, []) := by
    simp only [Dev.storeWord, hnew, h.keep, h.clamp, hsm, hwait]; simp
  have l1 : o ≠ 0x08 := by have := h.low; omega
  have l2 : ¬ o < 0x100 := by have := h.low; omega
  simp only [Dev.regWrite, hn, if_neg h.mode, h.pwr, false_and, if_false, if_neg h.desc, h.at_, hj, hi, ne_eq, not_true_eq_false,
    if_neg l1, if_neg l2, g1, hstore, h.bound, if_neg h.swc, hf, List.append_nil, Dev.capture_nil]

/-- A command that carries out an action of a register on a page that answers only acts. -/
theorem Reach.act_eq (x : Reach) (p o b req : Nat) (r : RegDesc) (hr : x.dev.reachable p) (ho : o < 65536) (h4 : o % 4 = 0)
    (ht : isTrust p o = false) (h : ActsAt x.dev p o b r)
    (hi : x.dev.ignores p o (x.dev.actNum p o b r) = []) (hf : x.dev.actRefused p o (x.dev.actNum p o b r) = none) :
    x.act p o b req = ⟨x.trust, x.dev.act p o (x.dev.actNum p o b r) (x.dev.word p o).toNat⟩ := by
  have e : Nat.lor (x.defined p o) b = x.dev.actNum p o b r := by
    simp [Reach.defined, h.at_, Dev.actNum, actWord, Reach.shown, ht, h.shown]
  unfold Reach.act
  rw [e, Reach.hostWrite_reg x p o _ req hr ho h4 ht, Dev.regWrite_action _ _ _ _ _ r h hi hf]

theorem Dev.actNum_wo (d : Dev) (p o b : Nat) (r : RegDesc) (h : r.keepMask = 0) : d.actNum p o b r = b := by
  unfold Dev.actNum actWord; rw [h]
  show ((d.word p o).toNat &&& 0) ||| b = b
  simp

/-- The same for a register that has nothing but WO and W1S fields. -/
theorem Reach.act_wo (x : Reach) (p o b req : Nat) (r : RegDesc) (hr : x.dev.reachable p) (ho : o < 65536) (h4 : o % 4 = 0)
    (ht : isTrust p o = false) (h : ActsAt x.dev p o b r) (hk : r.keepMask = 0)
    (hi : x.dev.ignores p o b = []) (hf : x.dev.actRefused p o b = none) :
    x.act p o b req = ⟨x.trust, x.dev.act p o b (x.dev.word p o).toNat⟩ := by
  have e := Dev.actNum_wo x.dev p o b r hk
  rw [Reach.act_eq x p o b req r hr ho h4 ht h (by rw [e]; exact hi) (by rw [e]; exact hf), e]

/-- A command whose host access changes only the block. -/
theorem runHost_eq (f : Reach → Reach) (s : State) (d : Dev) (h : f ⟨s.trust, s.dev⟩ = ⟨s.trust, d⟩) :
    runHost f s = .next { s with dev := d } := by simp [runHost, h]

/-- A command that changes only the block. -/
theorem next_dev {s : State} {d d' : Dev} (h : d = d') :
    (Host.Outcome.next { s with dev := d } : Host.Outcome State Fault Refusal) = .next { s with dev := d' } := by subst h; rfl

/-- An action bit reads 1 in the number written; a WO bit that is not asked for reads 0. -/
theorem Dev.actNum_bit (d : Dev) (p o b i : Nat) (r : RegDesc) (h : bit r.keepMask i = false) : bit (d.actNum p o b r) i = bit b i := by
  rw [Dev.actNum, actWord, bit_lor, bit_land, h]; simp

end Sys2Proof.Machine
end

