-- ==== Sys2Proof/Laws/Actions.lean ====
section
/-! SUPPORT. What each command that carries out a register's action comes to: the effect of that action alone. -/

set_option linter.unusedSimpArgs false

namespace Sys2Proof.Machine

/-! Kinds and numbers of the pages of a block -/

theorem pageKind_pg (i : Fin 16) : pageKind (pgPage i.val) = .pg := by revert i; decide
theorem pageInst_pg (i : Fin 16) : pageInst (pgPage i.val) = i.val := by revert i; decide
theorem pageKind_lkp (i : Fin 4) : pageKind (lkpPage i.val) = .lkp := by revert i; decide
theorem pageInst_lkp (i : Fin 4) : pageInst (lkpPage i.val) = i.val := by revert i; decide
theorem pageKind_lrn (i : Fin 4) : pageKind (lrnPage i.val) = .lrn := by revert i; decide
theorem pageInst_lrn (i : Fin 4) : pageInst (lrnPage i.val) = i.val := by revert i; decide
theorem pageKind_ord (i : Fin 2) : pageKind (ordPage i.val) = .ord := by revert i; decide
theorem pageInst_ord (i : Fin 2) : pageInst (ordPage i.val) = i.val := by revert i; decide
theorem pageKind_bpm (i : Fin 2) : pageKind (bpmPage i.val) = .bpm := by revert i; decide
theorem pageInst_bpm (i : Fin 2) : pageInst (bpmPage i.val) = i.val := by revert i; decide
theorem pageKind_swc (i : Fin 2) : pageKind (swcPage i.val) = .swc := by revert i; decide
theorem pageInst_swc (i : Fin 2) : pageInst (swcPage i.val) = i.val := by revert i; decide
theorem pageKind_tm (i : Fin 2) : pageKind (tmPage i.val) = .tm := by revert i; decide
theorem pageInst_tm (i : Fin 2) : pageInst (tmPage i.val) = i.val := by revert i; decide
theorem pageKind_hbm (i : Fin 4) : pageKind (hbmPage i.val) = .hbm := by revert i; decide
theorem pageInst_hbm (i : Fin 4) : pageInst (hbmPage i.val) = i.val := by revert i; decide
theorem pageKind_peal (i : Fin 2) : pageKind (pealPage i.val) = .peal := by revert i; decide
theorem pageInst_peal (i : Fin 2) : pageInst (pealPage i.val) = i.val := by revert i; decide
theorem pageKind_car (i : Fin 2) : pageKind (carPage i.val) = .car := by revert i; decide
theorem pageInst_car (i : Fin 2) : pageInst (carPage i.val) = i.val := by revert i; decide
theorem pageKind_eli (i : Fin 2) : pageKind (eliPage i.val) = .eli := by revert i; decide
theorem pageInst_eli (i : Fin 2) : pageInst (eliPage i.val) = i.val := by revert i; decide
theorem pageKind_ulx (i : Fin 2) : pageKind (ulxPage i.val) = .ulx := by revert i; decide
theorem pageInst_ulx (i : Fin 2) : pageInst (ulxPage i.val) = i.val := by revert i; decide
theorem pageKind_eng (i : Fin 64) : pageKind (engPage i.val) = .eng := by revert i; decide
theorem pageInst_eng (i : Fin 64) : pageInst (engPage i.val) = i.val := by revert i; decide

/-! The actions -/

/-- ERR_LOG_POP -/
theorem Reach.act_logPop (x : Reach) (req : Nat) (hr : x.dev.reachable (0x04)) :
    x.act (0x04) (0x0110) 1 req = ⟨x.trust, x.dev.logPop⟩ := by
  have hA : ActsAt x.dev (0x04) (0x0110) 1 ⟨0x0110, 1, 65536, 1, 4, .single, [⟨0, 1, .wo, 0, false⟩]⟩ := by
    refine ⟨?_, by decide, by omega, ?_, ?_, ?_, ?_, ?_, ?_, ?_, ?_⟩
    · clear * -; decide
    · rintro ⟨h, -⟩; clear * - h; revert h; decide
    · clear * -; decide
    · simp [pageKind, pageInst, PageKind.base, dmaPage]
    · simp [Dev.shown, pageKind, pageInst, PageKind.base, dmaPage]
    · simp [Dev.keepFields, pageKind, pageInst, PageKind.base, dmaPage]
    · simp [clampWord, pageKind, pageInst, PageKind.base, dmaPage]
    · simp [Dev.boundCheck, pageKind, pageInst, PageKind.base, dmaPage]
    · clear * -; decide
  have ht : isTrust (0x04) (0x0110) = false := by decide
  rw [Reach.act_wo x _ _ _ _ _ hr (by omega) (by omega) ht hA (by decide) (by simp [Dev.ignores, pageKind, pageInst, PageKind.base, dmaPage, bit]) (by simp [Dev.actRefused, pageKind, pageInst, PageKind.base, dmaPage, bit])]
  simp [Dev.act, pageKind, pageInst, PageKind.base, dmaPage, bit]

/-- MOD_EVT_POP -/
theorem Reach.act_modEvt (x : Reach) (req : Nat) (hr : x.dev.reachable (0x07)) :
    x.act (0x07) (0x0140) 1 req = ⟨x.trust, x.dev.popModEvt⟩ := by
  have hA : ActsAt x.dev (0x07) (0x0140) 1 ⟨0x0140, 1, 65536, 1, 4, .single, [⟨0, 1, .wo, 0, false⟩]⟩ := by
    refine ⟨?_, by decide, by omega, ?_, ?_, ?_, ?_, ?_, ?_, ?_, ?_⟩
    · clear * -; decide
    · rintro ⟨h, -⟩; clear * - h; revert h; decide
    · clear * -; decide
    · simp [pageKind, pageInst, PageKind.base, dmaPage]
    · simp [Dev.shown, pageKind, pageInst, PageKind.base, dmaPage]
    · simp [Dev.keepFields, pageKind, pageInst, PageKind.base, dmaPage]
    · simp [clampWord, pageKind, pageInst, PageKind.base, dmaPage]
    · simp [Dev.boundCheck, pageKind, pageInst, PageKind.base, dmaPage]
    · clear * -; decide
  have ht : isTrust (0x07) (0x0140) = false := by decide
  rw [Reach.act_wo x _ _ _ _ _ hr (by omega) (by omega) ht hA (by decide) (by simp [Dev.ignores, pageKind, pageInst, PageKind.base, dmaPage, bit]) (by simp [Dev.actRefused, pageKind, pageInst, PageKind.base, dmaPage, bit])]
  simp [Dev.act, pageKind, pageInst, PageKind.base, dmaPage, bit]

/-- MOD_ADV_POP -/
theorem Reach.act_modAdv (x : Reach) (req : Nat) (hr : x.dev.reachable (0x07)) :
    x.act (0x07) (0x0178) 1 req = ⟨x.trust, x.dev.popAdv⟩ := by
  have hA : ActsAt x.dev (0x07) (0x0178) 1 ⟨0x0178, 1, 65536, 1, 4, .single, [⟨0, 1, .wo, 0, false⟩]⟩ := by
    refine ⟨?_, by decide, by omega, ?_, ?_, ?_, ?_, ?_, ?_, ?_, ?_⟩
    · clear * -; decide
    · rintro ⟨h, -⟩; clear * - h; revert h; decide
    · clear * -; decide
    · simp [pageKind, pageInst, PageKind.base, dmaPage]
    · simp [Dev.shown, pageKind, pageInst, PageKind.base, dmaPage]
    · simp [Dev.keepFields, pageKind, pageInst, PageKind.base, dmaPage]
    · simp [clampWord, pageKind, pageInst, PageKind.base, dmaPage]
    · simp [Dev.boundCheck, pageKind, pageInst, PageKind.base, dmaPage]
    · clear * -; decide
  have ht : isTrust (0x07) (0x0178) = false := by decide
  rw [Reach.act_wo x _ _ _ _ _ hr (by omega) (by omega) ht hA (by decide) (by simp [Dev.ignores, pageKind, pageInst, PageKind.base, dmaPage, bit]) (by simp [Dev.actRefused, pageKind, pageInst, PageKind.base, dmaPage, bit])]
  simp [Dev.act, pageKind, pageInst, PageKind.base, dmaPage, bit]

/-- TIME_CAP_POP -/
theorem Reach.act_capPop (x : Reach) (req : Nat) (hr : x.dev.reachable (0x08)) :
    x.act (0x08) (0x0340) 1 req = ⟨x.trust, x.dev.popCap⟩ := by
  have hA : ActsAt x.dev (0x08) (0x0340) 1 ⟨0x0340, 1, 65536, 1, 4, .single, [⟨0, 1, .wo, 0, false⟩]⟩ := by
    refine ⟨?_, by decide, by omega, ?_, ?_, ?_, ?_, ?_, ?_, ?_, ?_⟩
    · clear * -; decide
    · rintro ⟨h, -⟩; clear * - h; revert h; decide
    · clear * -; decide
    · simp [pageKind, pageInst, PageKind.base, dmaPage]
    · simp [Dev.shown, pageKind, pageInst, PageKind.base, dmaPage]
    · simp [Dev.keepFields, pageKind, pageInst, PageKind.base, dmaPage]
    · simp [clampWord, pageKind, pageInst, PageKind.base, dmaPage]
    · simp [Dev.boundCheck, pageKind, pageInst, PageKind.base, dmaPage]
    · clear * -; decide
  have ht : isTrust (0x08) (0x0340) = false := by decide
  rw [Reach.act_wo x _ _ _ _ _ hr (by omega) (by omega) ht hA (by decide) (by simp [Dev.ignores, pageKind, pageInst, PageKind.base, dmaPage, bit]) (by simp [Dev.actRefused, pageKind, pageInst, PageKind.base, dmaPage, bit])]
  simp [Dev.act, pageKind, pageInst, PageKind.base, dmaPage, bit]

/-- LKP_CMD_GO -/
theorem Reach.act_lkpGo (x : Reach) (q : Fin 4) (req : Nat) (hr : x.dev.reachable (lkpPage q.val)) (hb : x.dev.get (lkpPage q.val) F.LKP_CMD_STAT_BUSY ≠ 1) :
    x.act (lkpPage q.val) (0x010C) 1 req = ⟨x.trust, x.dev.lkpGo q.val⟩ := by
  have hA : ActsAt x.dev (lkpPage q.val) (0x010C) 1 ⟨0x010C, 1, 65536, 1, 4, .single, [⟨0, 1, .wo, 0, false⟩]⟩ := by
    refine ⟨?_, by decide, by omega, ?_, ?_, ?_, ?_, ?_, ?_, ?_, ?_⟩
    · clear * -; revert q; decide
    · rintro ⟨h, -⟩; clear * - h; revert h; revert q; decide
    · clear * -; revert q; decide
    · simp [pageKind_lkp, pageInst_lkp]
    · simp [Dev.shown, pageKind_lkp, pageInst_lkp, hb]
    · simp [Dev.keepFields, pageKind_lkp, pageInst_lkp, hb]
    · simp [clampWord, pageKind_lkp, pageInst_lkp, hb]
    · simp [Dev.boundCheck, pageKind_lkp, pageInst_lkp, hb]
    · clear * -; revert q; decide
  have ht : isTrust (lkpPage q.val) (0x010C) = false := by clear * -; revert q; decide
  rw [Reach.act_wo x _ _ _ _ _ hr (by omega) (by omega) ht hA (by decide) (by simp [Dev.ignores, pageKind_lkp, pageInst_lkp, bit, hb]) (by simp [Dev.actRefused, pageKind_lkp, pageInst_lkp, bit, hb])]
  simp [Dev.act, pageKind_lkp, pageInst_lkp, bit, hb]

/-- LRN_EVT_POP -/
theorem Reach.act_evtPop (x : Reach) (q : Fin 4) (req : Nat) (hr : x.dev.reachable (lrnPage q.val)) :
    x.act (lrnPage q.val) (0x0130) 1 req = ⟨x.trust, x.dev.popEvt q.val⟩ := by
  have hA : ActsAt x.dev (lrnPage q.val) (0x0130) 1 ⟨0x0130, 1, 65536, 1, 4, .single, [⟨0, 1, .wo, 0, false⟩]⟩ := by
    refine ⟨?_, by decide, by omega, ?_, ?_, ?_, ?_, ?_, ?_, ?_, ?_⟩
    · clear * -; revert q; decide
    · rintro ⟨h, -⟩; clear * - h; revert h; revert q; decide
    · clear * -; revert q; decide
    · simp [pageKind_lrn, pageInst_lrn]
    · simp [Dev.shown, pageKind_lrn, pageInst_lrn]
    · simp [Dev.keepFields, pageKind_lrn, pageInst_lrn]
    · simp [clampWord, pageKind_lrn, pageInst_lrn]
    · simp [Dev.boundCheck, pageKind_lrn, pageInst_lrn]
    · clear * -; revert q; decide
  have ht : isTrust (lrnPage q.val) (0x0130) = false := by clear * -; revert q; decide
  rw [Reach.act_wo x _ _ _ _ _ hr (by omega) (by omega) ht hA (by decide) (by simp [Dev.ignores, pageKind_lrn, pageInst_lrn, bit]) (by simp [Dev.actRefused, pageKind_lrn, pageInst_lrn, bit])]
  simp [Dev.act, pageKind_lrn, pageInst_lrn, bit]

/-- ELI_PROP_POP -/
theorem Reach.act_propPop (x : Reach) (i : Fin 2) (req : Nat) (hr : x.dev.reachable (eliPage i.val)) :
    x.act (eliPage i.val) (0x0120) 1 req = ⟨x.trust, x.dev.propPop i.val⟩ := by
  have hA : ActsAt x.dev (eliPage i.val) (0x0120) 1 ⟨0x0120, 1, 65536, 1, 4, .single, [⟨0, 1, .wo, 0, false⟩]⟩ := by
    refine ⟨?_, by decide, by omega, ?_, ?_, ?_, ?_, ?_, ?_, ?_, ?_⟩
    · clear * -; revert i; decide
    · rintro ⟨h, -⟩; clear * - h; revert h; revert i; decide
    · clear * -; revert i; decide
    · simp [pageKind_eli, pageInst_eli]
    · simp [Dev.shown, pageKind_eli, pageInst_eli]
    · simp [Dev.keepFields, pageKind_eli, pageInst_eli]
    · simp [clampWord, pageKind_eli, pageInst_eli]
    · simp [Dev.boundCheck, pageKind_eli, pageInst_eli]
    · clear * -; revert i; decide
  have ht : isTrust (eliPage i.val) (0x0120) = false := by clear * -; revert i; decide
  rw [Reach.act_wo x _ _ _ _ _ hr (by omega) (by omega) ht hA (by decide) (by simp [Dev.ignores, pageKind_eli, pageInst_eli, bit]) (by simp [Dev.actRefused, pageKind_eli, pageInst_eli, bit])]
  simp [Dev.act, pageKind_eli, pageInst_eli, bit]

/-- VERIFY -/
theorem Reach.act_verify (x : Reach) (c : Fin 64) (req : Nat) (hr : x.dev.reachable (engPage c.val)) (hb : x.dev.csOpen c.val = true) :
    x.act (engPage c.val) (0x0400) 1 req = ⟨x.trust, x.dev.startVerify c.val⟩ := by
  have hA : ActsAt x.dev (engPage c.val) (0x0400) 1 ⟨0x0400, 1, 65536, 1, 4, .single, [⟨0, 1, .wo, 0, false⟩]⟩ := by
    refine ⟨?_, by decide, by omega, ?_, ?_, ?_, ?_, ?_, ?_, ?_, ?_⟩
    · clear * -; revert c; decide
    · rintro ⟨h, -⟩; clear * - h; revert h; revert c; decide
    · clear * -; revert c; decide
    · simp [pageKind_eng, pageInst_eng]
    · simp [Dev.shown, pageKind_eng, pageInst_eng, hb]
    · simp [Dev.keepFields, pageKind_eng, pageInst_eng, hb]
    · simp [clampWord, pageKind_eng, pageInst_eng, hb]
    · simp [Dev.boundCheck, pageKind_eng, pageInst_eng, hb]
    · clear * -; revert c; decide
  have ht : isTrust (engPage c.val) (0x0400) = false := by clear * -; revert c; decide
  rw [Reach.act_wo x _ _ _ _ _ hr (by omega) (by omega) ht hA (by decide) (by simp [Dev.ignores, pageKind_eng, pageInst_eng, bit, hb]) (by simp [Dev.actRefused, pageKind_eng, pageInst_eng, bit, hb])]
  simp [Dev.act, pageKind_eng, pageInst_eng, bit, hb]

/-- COUNTER_READ -/
theorem Reach.act_cntrRead (x : Reach) (h : Fin 4) (req : Nat) (hr : x.dev.reachable (hbmPage h.val)) (hb : x.dev.get (hbmPage h.val) F.HBM_CNTR_STAT_BUSY ≠ 1) :
    x.act (hbmPage h.val) (0x012C) 1 req = ⟨x.trust, x.dev.counterRead h.val false⟩ := by
  have hA : ActsAt x.dev (hbmPage h.val) (0x012C) 1 ⟨0x012C, 1, 65536, 1, 4, .single, [⟨0, 1, .wo, 0, false⟩, ⟨1, 1, .wo, 0, false⟩]⟩ := by
    refine ⟨?_, by decide, by omega, ?_, ?_, ?_, ?_, ?_, ?_, ?_, ?_⟩
    · clear * -; revert h; decide
    · rintro ⟨h, -⟩; clear * - h; revert h; revert h; decide
    · clear * -; revert h; decide
    · simp [pageKind_hbm, pageInst_hbm]
    · simp [Dev.shown, pageKind_hbm, pageInst_hbm, hb]
    · simp [Dev.keepFields, pageKind_hbm, pageInst_hbm, hb]
    · simp [clampWord, pageKind_hbm, pageInst_hbm, hb]
    · simp [Dev.boundCheck, pageKind_hbm, pageInst_hbm, hb]
    · clear * -; revert h; decide
  have ht : isTrust (hbmPage h.val) (0x012C) = false := by clear * -; revert h; decide
  rw [Reach.act_wo x _ _ _ _ _ hr (by omega) (by omega) ht hA (by decide) (by simp [Dev.ignores, pageKind_hbm, pageInst_hbm, bit, hb]) (by simp [Dev.actRefused, pageKind_hbm, pageInst_hbm, bit, hb])]
  simp [Dev.act, pageKind_hbm, pageInst_hbm, bit, hb]

/-- COUNTER_READ_CLEAR -/
theorem Reach.act_cntrClear (x : Reach) (h : Fin 4) (req : Nat) (hr : x.dev.reachable (hbmPage h.val)) (hb : x.dev.get (hbmPage h.val) F.HBM_CNTR_STAT_BUSY ≠ 1) :
    x.act (hbmPage h.val) (0x012C) 3 req = ⟨x.trust, x.dev.counterRead h.val true⟩ := by
  have hA : ActsAt x.dev (hbmPage h.val) (0x012C) 3 ⟨0x012C, 1, 65536, 1, 4, .single, [⟨0, 1, .wo, 0, false⟩, ⟨1, 1, .wo, 0, false⟩]⟩ := by
    refine ⟨?_, by decide, by omega, ?_, ?_, ?_, ?_, ?_, ?_, ?_, ?_⟩
    · clear * -; revert h; decide
    · rintro ⟨h, -⟩; clear * - h; revert h; revert h; decide
    · clear * -; revert h; decide
    · simp [pageKind_hbm, pageInst_hbm]
    · simp [Dev.shown, pageKind_hbm, pageInst_hbm, hb]
    · simp [Dev.keepFields, pageKind_hbm, pageInst_hbm, hb]
    · simp [clampWord, pageKind_hbm, pageInst_hbm, hb]
    · simp [Dev.boundCheck, pageKind_hbm, pageInst_hbm, hb]
    · clear * -; revert h; decide
  have ht : isTrust (hbmPage h.val) (0x012C) = false := by clear * -; revert h; decide
  rw [Reach.act_wo x _ _ _ _ _ hr (by omega) (by omega) ht hA (by decide) (by simp [Dev.ignores, pageKind_hbm, pageInst_hbm, bit, hb]) (by simp [Dev.actRefused, pageKind_hbm, pageInst_hbm, bit, hb])]
  simp [Dev.act, pageKind_hbm, pageInst_hbm, bit, hb]

/-- FENCE -/
theorem Reach.act_fence (x : Reach) (i : Fin 2) (req : Nat) (hr : x.dev.reachable (pealPage i.val)) :
    x.act (pealPage i.val) (0x0104) 1 req = ⟨x.trust, x.dev.fence i.val⟩ := by
  have hA : ActsAt x.dev (pealPage i.val) (0x0104) 1 ⟨0x0104, 1, 65536, 1, 4, .single, [⟨0, 1, .wo, 0, false⟩, ⟨1, 1, .ro, 0, false⟩]⟩ := by
    refine ⟨?_, by decide, by omega, ?_, ?_, ?_, ?_, ?_, ?_, ?_, ?_⟩
    · clear * -; revert i; decide
    · rintro ⟨h, -⟩; clear * - h; revert h; revert i; decide
    · clear * -; revert i; decide
    · simp [pageKind_peal, pageInst_peal]
    · simp [Dev.shown, pageKind_peal, pageInst_peal]
    · simp [Dev.keepFields, pageKind_peal, pageInst_peal]
    · simp [clampWord, pageKind_peal, pageInst_peal]
    · simp [Dev.boundCheck, pageKind_peal, pageInst_peal]
    · clear * -; revert i; decide
  have ht : isTrust (pealPage i.val) (0x0104) = false := by clear * -; revert i; decide
  rw [Reach.act_eq x _ _ _ _ _ hr (by omega) (by omega) ht hA (by simp [Dev.ignores, pageKind_peal, pageInst_peal, Dev.actNum_bit _ _ _ _ 0 ⟨0x0104, 1, 65536, 1, 4, .single, [⟨0, 1, .wo, 0, false⟩, ⟨1, 1, .ro, 0, false⟩]⟩ (by decide), show bit 1 0 = true from rfl]) (by simp [Dev.actRefused, pageKind_peal, pageInst_peal, Dev.actNum_bit _ _ _ _ 0 ⟨0x0104, 1, 65536, 1, 4, .single, [⟨0, 1, .wo, 0, false⟩, ⟨1, 1, .ro, 0, false⟩]⟩ (by decide), show bit 1 0 = true from rfl])]
  simp [Dev.act, pageKind_peal, pageInst_peal, Dev.actNum_bit _ _ _ _ 0 ⟨0x0104, 1, 65536, 1, 4, .single, [⟨0, 1, .wo, 0, false⟩, ⟨1, 1, .ro, 0, false⟩]⟩ (by decide), show bit 1 0 = true from rfl]

/-- PEAL_MEM_READ -/
theorem Reach.act_pealRead (x : Reach) (i : Fin 2) (req : Nat) (hr : x.dev.reachable (pealPage i.val)) (hb : x.dev.memBad i.val 1 = false) :
    x.act (pealPage i.val) (0x0148) 1 req = ⟨x.trust, x.dev.pealMemRead i.val⟩ := by
  have hA : ActsAt x.dev (pealPage i.val) (0x0148) 1 ⟨0x0148, 1, 65536, 1, 4, .single, [⟨0, 1, .wo, 0, false⟩, ⟨1, 1, .wo, 0, false⟩]⟩ := by
    refine ⟨?_, by decide, by omega, ?_, ?_, ?_, ?_, ?_, ?_, ?_, ?_⟩
    · clear * -; revert i; decide
    · rintro ⟨h, -⟩; clear * - h; revert h; revert i; decide
    · clear * -; revert i; decide
    · simp [pageKind_peal, pageInst_peal]
    · simp [Dev.shown, pageKind_peal, pageInst_peal, hb]
    · simp [Dev.keepFields, pageKind_peal, pageInst_peal, hb]
    · simp [clampWord, pageKind_peal, pageInst_peal, hb]
    · simp [Dev.boundCheck, pageKind_peal, pageInst_peal, hb]
    · clear * -; revert i; decide
  have ht : isTrust (pealPage i.val) (0x0148) = false := by clear * -; revert i; decide
  rw [Reach.act_wo x _ _ _ _ _ hr (by omega) (by omega) ht hA (by decide) (by simp [Dev.ignores, pageKind_peal, pageInst_peal, bit, hb]) (by simp [Dev.actRefused, pageKind_peal, pageInst_peal, bit, hb])]
  simp [Dev.act, pageKind_peal, pageInst_peal, bit, hb]

/-- PEAL_MEM_WRITE -/
theorem Reach.act_pealWrite (x : Reach) (i : Fin 2) (req : Nat) (hr : x.dev.reachable (pealPage i.val)) (hb : x.dev.memBad i.val 2 = false) :
    x.act (pealPage i.val) (0x0148) 2 req = ⟨x.trust, x.dev.pealMemWrite i.val⟩ := by
  have hA : ActsAt x.dev (pealPage i.val) (0x0148) 2 ⟨0x0148, 1, 65536, 1, 4, .single, [⟨0, 1, .wo, 0, false⟩, ⟨1, 1, .wo, 0, false⟩]⟩ := by
    refine ⟨?_, by decide, by omega, ?_, ?_, ?_, ?_, ?_, ?_, ?_, ?_⟩
    · clear * -; revert i; decide
    · rintro ⟨h, -⟩; clear * - h; revert h; revert i; decide
    · clear * -; revert i; decide
    · simp [pageKind_peal, pageInst_peal]
    · simp [Dev.shown, pageKind_peal, pageInst_peal, hb]
    · simp [Dev.keepFields, pageKind_peal, pageInst_peal, hb]
    · simp [clampWord, pageKind_peal, pageInst_peal, hb]
    · simp [Dev.boundCheck, pageKind_peal, pageInst_peal, hb]
    · clear * -; revert i; decide
  have ht : isTrust (pealPage i.val) (0x0148) = false := by clear * -; revert i; decide
  rw [Reach.act_wo x _ _ _ _ _ hr (by omega) (by omega) ht hA (by decide) (by simp [Dev.ignores, pageKind_peal, pageInst_peal, bit, hb]) (by simp [Dev.actRefused, pageKind_peal, pageInst_peal, bit, hb])]
  simp [Dev.act, pageKind_peal, pageInst_peal, bit, hb]

/-- WIN_COMMIT -/
theorem Reach.act_winCommit (x : Reach) (i : Fin 2) (req : Nat) (hr : x.dev.reachable (ulxPage i.val)) (hb : x.dev.get (ulxPage i.val) F.ULX_WIN_COMMIT_BUSY ≠ 1) :
    x.act (ulxPage i.val) (0x0120) 1 req = ⟨x.trust, x.dev.winCommit i.val⟩ := by
  have hA : ActsAt x.dev (ulxPage i.val) (0x0120) 1 ⟨0x0120, 1, 65536, 1, 4, .single, [⟨0, 1, .wo, 0, false⟩, ⟨1, 1, .ro, 0, false⟩, ⟨2, 1, .ro, 0, false⟩]⟩ := by
    refine ⟨?_, by decide, by omega, ?_, ?_, ?_, ?_, ?_, ?_, ?_, ?_⟩
    · clear * -; revert i; decide
    · rintro ⟨h, -⟩; clear * - h; revert h; revert i; decide
    · clear * -; revert i; decide
    · simp [pageKind_ulx, pageInst_ulx]
    · simp [Dev.shown, pageKind_ulx, pageInst_ulx, hb]
    · simp [Dev.keepFields, pageKind_ulx, pageInst_ulx, hb]
    · simp [clampWord, pageKind_ulx, pageInst_ulx, hb]
    · simp [Dev.boundCheck, pageKind_ulx, pageInst_ulx, hb]
    · clear * -; revert i; decide
  have ht : isTrust (ulxPage i.val) (0x0120) = false := by clear * -; revert i; decide
  rw [Reach.act_eq x _ _ _ _ _ hr (by omega) (by omega) ht hA (by simp [Dev.ignores, pageKind_ulx, pageInst_ulx, Dev.actNum_bit _ _ _ _ 0 ⟨0x0120, 1, 65536, 1, 4, .single, [⟨0, 1, .wo, 0, false⟩, ⟨1, 1, .ro, 0, false⟩, ⟨2, 1, .ro, 0, false⟩]⟩ (by decide), show bit 1 0 = true from rfl, hb]) (by simp [Dev.actRefused, pageKind_ulx, pageInst_ulx, Dev.actNum_bit _ _ _ _ 0 ⟨0x0120, 1, 65536, 1, 4, .single, [⟨0, 1, .wo, 0, false⟩, ⟨1, 1, .ro, 0, false⟩, ⟨2, 1, .ro, 0, false⟩]⟩ (by decide), show bit 1 0 = true from rfl, hb])]
  simp [Dev.act, pageKind_ulx, pageInst_ulx, Dev.actNum_bit _ _ _ _ 0 ⟨0x0120, 1, 65536, 1, 4, .single, [⟨0, 1, .wo, 0, false⟩, ⟨1, 1, .ro, 0, false⟩, ⟨2, 1, .ro, 0, false⟩]⟩ (by decide), show bit 1 0 = true from rfl, hb]

/-- EPOCH_FLIP -/
theorem Reach.act_epochFlip (x : Reach) (i : Fin 2) (req : Nat) (hr : x.dev.reachable (ordPage i.val)) (hb : x.dev.get (ordPage i.val) (F.ORD_EPOCH_INFL_COUNT.at (4 * (1 - x.dev.get (ordPage i.val) F.ORD_EPOCH_CUR))) = 0) :
    x.act (ordPage i.val) (0x0300) 2 req = ⟨x.trust, x.dev.epochFlip i.val⟩ := by
  have hA : ActsAt x.dev (ordPage i.val) (0x0300) 2 ⟨0x0300, 1, 65536, 1, 4, .single, [⟨0, 1, .ro, 0, false⟩, ⟨1, 1, .wo, 0, false⟩]⟩ := by
    refine ⟨?_, by decide, by omega, ?_, ?_, ?_, ?_, ?_, ?_, ?_, ?_⟩
    · clear * -; revert i; decide
    · rintro ⟨h, -⟩; clear * - h; revert h; revert i; decide
    · clear * -; revert i; decide
    · simp [pageKind_ord, pageInst_ord]
    · simp [Dev.shown, pageKind_ord, pageInst_ord, hb]
    · simp [Dev.keepFields, pageKind_ord, pageInst_ord, hb]
    · simp [clampWord, pageKind_ord, pageInst_ord, hb]
    · simp [Dev.boundCheck, pageKind_ord, pageInst_ord, hb]
    · clear * -; revert i; decide
  have ht : isTrust (ordPage i.val) (0x0300) = false := by clear * -; revert i; decide
  rw [Reach.act_eq x _ _ _ _ _ hr (by omega) (by omega) ht hA (by simp [Dev.ignores, pageKind_ord, pageInst_ord, Dev.actNum_bit _ _ _ _ 1 ⟨0x0300, 1, 65536, 1, 4, .single, [⟨0, 1, .ro, 0, false⟩, ⟨1, 1, .wo, 0, false⟩]⟩ (by decide), show bit 2 1 = true from rfl, hb]) (by simp [Dev.actRefused, pageKind_ord, pageInst_ord, Dev.actNum_bit _ _ _ _ 1 ⟨0x0300, 1, 65536, 1, 4, .single, [⟨0, 1, .ro, 0, false⟩, ⟨1, 1, .wo, 0, false⟩]⟩ (by decide), show bit 2 1 = true from rfl, hb])]
  simp [Dev.act, pageKind_ord, pageInst_ord, Dev.actNum_bit _ _ _ _ 1 ⟨0x0300, 1, 65536, 1, 4, .single, [⟨0, 1, .ro, 0, false⟩, ⟨1, 1, .wo, 0, false⟩]⟩ (by decide), show bit 2 1 = true from rfl, hb]

/-- CHANNEL_START -/
theorem Reach.act_chStart (x : Reach) (ch : Fin 1024) (req : Nat) (hr : x.dev.reachable (dmaPage)) (hb : x.dev.chStartBad ch.val = false) :
    x.act (dmaPage) (0x4000 + 16 * ch.val) 1 req = ⟨x.trust, x.dev.chStart ch.val⟩ := by
  have hv := ch.isLt
  have e0 : (16384 + 16 * ch.val = 264) = False := eq_false (by omega)
  have e1 : (16384 + 16 * ch.val = 8) = False := eq_false (by omega)
  have l0 : (16384 + 16 * ch.val < 32768) = True := eq_true (by omega)
  have hA : ActsAt x.dev (dmaPage) (0x4000 + 16 * ch.val) 1 ⟨0x4000, 1024, 16, 1, 4, .single, [⟨0, 1, .wo, 0, false⟩, ⟨1, 1, .wo, 0, false⟩, ⟨2, 3, .ro, 0, false⟩, ⟨5, 1, .ro, 0, false⟩]⟩ := by
    refine ⟨?_, by decide, by omega, ?_, ?_, ?_, ?_, ?_, ?_, ?_, ?_⟩
    · clear * -; revert ch; decide +kernel
    · rintro ⟨h, -⟩; clear * - h; revert h; decide
    · clear * -; decide
    · simp [pageKind, pageInst, PageKind.base, dmaPage]
    · simp [Dev.shown, pageKind, pageInst, PageKind.base, dmaPage, hb, e0, e1, l0] <;> omega
    · simp [Dev.keepFields, pageKind, pageInst, PageKind.base, dmaPage, hb, e0, e1, l0] <;> omega
    · simp [clampWord, pageKind, pageInst, PageKind.base, dmaPage, hb, e0, e1, l0] <;> omega
    · simp [Dev.boundCheck, pageKind, pageInst, PageKind.base, dmaPage, hb, e0, e1, l0] <;> omega
    · clear * -; decide
  have ht : isTrust (dmaPage) (0x4000 + 16 * ch.val) = false := by clear * -; revert ch; decide +kernel
  rw [Reach.act_eq x _ _ _ _ _ hr (by omega) (by omega) ht hA (by simp [Dev.ignores, pageKind, pageInst, PageKind.base, dmaPage, Dev.actNum_bit _ _ _ _ 0 ⟨0x4000, 1024, 16, 1, 4, .single, [⟨0, 1, .wo, 0, false⟩, ⟨1, 1, .wo, 0, false⟩, ⟨2, 3, .ro, 0, false⟩, ⟨5, 1, .ro, 0, false⟩]⟩ (by decide), show bit 1 0 = true from rfl, Dev.actNum_bit _ _ _ _ 1 ⟨0x4000, 1024, 16, 1, 4, .single, [⟨0, 1, .wo, 0, false⟩, ⟨1, 1, .wo, 0, false⟩, ⟨2, 3, .ro, 0, false⟩, ⟨5, 1, .ro, 0, false⟩]⟩ (by decide), show bit 1 1 = false from rfl, hb, e0, e1, l0]) (by simp [Dev.actRefused, pageKind, pageInst, PageKind.base, dmaPage, Dev.actNum_bit _ _ _ _ 0 ⟨0x4000, 1024, 16, 1, 4, .single, [⟨0, 1, .wo, 0, false⟩, ⟨1, 1, .wo, 0, false⟩, ⟨2, 3, .ro, 0, false⟩, ⟨5, 1, .ro, 0, false⟩]⟩ (by decide), show bit 1 0 = true from rfl, Dev.actNum_bit _ _ _ _ 1 ⟨0x4000, 1024, 16, 1, 4, .single, [⟨0, 1, .wo, 0, false⟩, ⟨1, 1, .wo, 0, false⟩, ⟨2, 3, .ro, 0, false⟩, ⟨5, 1, .ro, 0, false⟩]⟩ (by decide), show bit 1 1 = false from rfl, hb, e0, e1, l0])]
  simp [Dev.act, pageKind, pageInst, PageKind.base, dmaPage, Dev.actNum_bit _ _ _ _ 0 ⟨0x4000, 1024, 16, 1, 4, .single, [⟨0, 1, .wo, 0, false⟩, ⟨1, 1, .wo, 0, false⟩, ⟨2, 3, .ro, 0, false⟩, ⟨5, 1, .ro, 0, false⟩]⟩ (by decide), show bit 1 0 = true from rfl, Dev.actNum_bit _ _ _ _ 1 ⟨0x4000, 1024, 16, 1, 4, .single, [⟨0, 1, .wo, 0, false⟩, ⟨1, 1, .wo, 0, false⟩, ⟨2, 3, .ro, 0, false⟩, ⟨5, 1, .ro, 0, false⟩]⟩ (by decide), show bit 1 1 = false from rfl, hb, e0, e1, l0]

/-- CHANNEL_STOP -/
theorem Reach.act_chStop (x : Reach) (ch : Fin 1024) (req : Nat) (hr : x.dev.reachable (dmaPage)) :
    x.act (dmaPage) (0x4000 + 16 * ch.val) 2 req = ⟨x.trust, x.dev.chStop ch.val⟩ := by
  have hv := ch.isLt
  have e0 : (16384 + 16 * ch.val = 264) = False := eq_false (by omega)
  have e1 : (16384 + 16 * ch.val = 8) = False := eq_false (by omega)
  have l0 : (16384 + 16 * ch.val < 32768) = True := eq_true (by omega)
  have hA : ActsAt x.dev (dmaPage) (0x4000 + 16 * ch.val) 2 ⟨0x4000, 1024, 16, 1, 4, .single, [⟨0, 1, .wo, 0, false⟩, ⟨1, 1, .wo, 0, false⟩, ⟨2, 3, .ro, 0, false⟩, ⟨5, 1, .ro, 0, false⟩]⟩ := by
    refine ⟨?_, by decide, by omega, ?_, ?_, ?_, ?_, ?_, ?_, ?_, ?_⟩
    · clear * -; revert ch; decide +kernel
    · rintro ⟨h, -⟩; clear * - h; revert h; decide
    · clear * -; decide
    · simp [pageKind, pageInst, PageKind.base, dmaPage]
    · simp [Dev.shown, pageKind, pageInst, PageKind.base, dmaPage, e0, e1, l0] <;> omega
    · simp [Dev.keepFields, pageKind, pageInst, PageKind.base, dmaPage, e0, e1, l0] <;> omega
    · simp [clampWord, pageKind, pageInst, PageKind.base, dmaPage, e0, e1, l0] <;> omega
    · simp [Dev.boundCheck, pageKind, pageInst, PageKind.base, dmaPage, e0, e1, l0] <;> omega
    · clear * -; decide
  have ht : isTrust (dmaPage) (0x4000 + 16 * ch.val) = false := by clear * -; revert ch; decide +kernel
  rw [Reach.act_eq x _ _ _ _ _ hr (by omega) (by omega) ht hA (by simp [Dev.ignores, pageKind, pageInst, PageKind.base, dmaPage, Dev.actNum_bit _ _ _ _ 0 ⟨0x4000, 1024, 16, 1, 4, .single, [⟨0, 1, .wo, 0, false⟩, ⟨1, 1, .wo, 0, false⟩, ⟨2, 3, .ro, 0, false⟩, ⟨5, 1, .ro, 0, false⟩]⟩ (by decide), show bit 2 0 = false from rfl, Dev.actNum_bit _ _ _ _ 1 ⟨0x4000, 1024, 16, 1, 4, .single, [⟨0, 1, .wo, 0, false⟩, ⟨1, 1, .wo, 0, false⟩, ⟨2, 3, .ro, 0, false⟩, ⟨5, 1, .ro, 0, false⟩]⟩ (by decide), show bit 2 1 = true from rfl, e0, e1, l0]) (by simp [Dev.actRefused, pageKind, pageInst, PageKind.base, dmaPage, Dev.actNum_bit _ _ _ _ 0 ⟨0x4000, 1024, 16, 1, 4, .single, [⟨0, 1, .wo, 0, false⟩, ⟨1, 1, .wo, 0, false⟩, ⟨2, 3, .ro, 0, false⟩, ⟨5, 1, .ro, 0, false⟩]⟩ (by decide), show bit 2 0 = false from rfl, Dev.actNum_bit _ _ _ _ 1 ⟨0x4000, 1024, 16, 1, 4, .single, [⟨0, 1, .wo, 0, false⟩, ⟨1, 1, .wo, 0, false⟩, ⟨2, 3, .ro, 0, false⟩, ⟨5, 1, .ro, 0, false⟩]⟩ (by decide), show bit 2 1 = true from rfl, e0, e1, l0])]
  simp [Dev.act, pageKind, pageInst, PageKind.base, dmaPage, Dev.actNum_bit _ _ _ _ 0 ⟨0x4000, 1024, 16, 1, 4, .single, [⟨0, 1, .wo, 0, false⟩, ⟨1, 1, .wo, 0, false⟩, ⟨2, 3, .ro, 0, false⟩, ⟨5, 1, .ro, 0, false⟩]⟩ (by decide), show bit 2 0 = false from rfl, Dev.actNum_bit _ _ _ _ 1 ⟨0x4000, 1024, 16, 1, 4, .single, [⟨0, 1, .wo, 0, false⟩, ⟨1, 1, .wo, 0, false⟩, ⟨2, 3, .ro, 0, false⟩, ⟨5, 1, .ro, 0, false⟩]⟩ (by decide), show bit 2 1 = true from rfl, e0, e1, l0]

/-- CHIME_ARM -/
theorem Reach.act_chimeArm (x : Reach) (c : Fin 8) (req : Nat) (hr : x.dev.reachable (0x08)) (hb : x.dev.chimeBad c.val = false) :
    x.act (0x08) (0x0200 + 32 * c.val) 1 req = ⟨x.trust, x.dev.chimeArm c.val⟩ := by
  have hv := c.isLt
  have e0 : (512 + 32 * c.val = 8) = False := eq_false (by omega)
  have e1 : (512 + 32 * c.val = 256) = False := eq_false (by omega)
  have e2 : (512 + 32 * c.val = 260) = False := eq_false (by omega)
  have e3 : (512 + 32 * c.val = 264) = False := eq_false (by omega)
  have e4 : (512 + 32 * c.val = 268) = False := eq_false (by omega)
  have e5 : (512 + 32 * c.val = 272) = False := eq_false (by omega)
  have e6 : (512 + 32 * c.val = 276) = False := eq_false (by omega)
  have e7 : (512 + 32 * c.val = 280) = False := eq_false (by omega)
  have e8 : (512 + 32 * c.val = 832) = False := eq_false (by omega)
  have e9 : (512 + 32 * c.val = 1568) = False := eq_false (by omega)
  have e10 : (512 + 32 * c.val = 320) = False := eq_false (by omega)
  have l0 : (512 + 32 * c.val < 280) = False := eq_false (by omega)
  have l1 : (512 + 32 * c.val < 292) = False := eq_false (by omega)
  have l2 : (512 + 32 * c.val < 768) = True := eq_true (by omega)
  have q0 : (1024 ≤ 512 + 32 * c.val) = False := by simp only [eq_iff_iff, iff_true, iff_false]; omega
  have q1 : (304 ≤ 512 + 32 * c.val ∧ 512 + 32 * c.val < 320) = False := by simp only [eq_iff_iff, iff_true, iff_false]; omega
  have hA : ActsAt x.dev (0x08) (0x0200 + 32 * c.val) 1 ⟨0x0200, 8, 32, 1, 4, .single, [⟨0, 1, .wo, 0, false⟩, ⟨1, 1, .wo, 0, false⟩, ⟨2, 1, .rw, 0, false⟩, ⟨3, 1, .rw, 0, false⟩, ⟨4, 2, .ro, 0, false⟩]⟩ := by
    refine ⟨?_, by decide, by omega, ?_, ?_, ?_, ?_, ?_, ?_, ?_, ?_⟩
    · clear * -; revert c; decide
    · rintro ⟨h, -⟩; clear * - h; revert h; decide
    · clear * -; decide
    · simp [pageKind, pageInst, PageKind.base, dmaPage]
    · simp [Dev.shown, pageKind, pageInst, PageKind.base, dmaPage, hb, e0, e1, e2, e3, e4, e5, e6, e7, e8, e9, e10, l0, l1, l2, q0, q1] <;> omega
    · simp [Dev.keepFields, pageKind, pageInst, PageKind.base, dmaPage, hb, e0, e1, e2, e3, e4, e5, e6, e7, e8, e9, e10, l0, l1, l2, q0, q1] <;> omega
    · simp [clampWord, pageKind, pageInst, PageKind.base, dmaPage, hb, e0, e1, e2, e3, e4, e5, e6, e7, e8, e9, e10, l0, l1, l2, q0, q1] <;> omega
    · simp [Dev.boundCheck, pageKind, pageInst, PageKind.base, dmaPage, hb, e0, e1, e2, e3, e4, e5, e6, e7, e8, e9, e10, l0, l1, l2, q0, q1] <;> omega
    · clear * -; decide
  have ht : isTrust (0x08) (0x0200 + 32 * c.val) = false := by clear * -; revert c; decide
  rw [Reach.act_eq x _ _ _ _ _ hr (by omega) (by omega) ht hA (by simp [Dev.ignores, pageKind, pageInst, PageKind.base, dmaPage, Dev.actNum_bit _ _ _ _ 0 ⟨0x0200, 8, 32, 1, 4, .single, [⟨0, 1, .wo, 0, false⟩, ⟨1, 1, .wo, 0, false⟩, ⟨2, 1, .rw, 0, false⟩, ⟨3, 1, .rw, 0, false⟩, ⟨4, 2, .ro, 0, false⟩]⟩ (by decide), show bit 1 0 = true from rfl, Dev.actNum_bit _ _ _ _ 1 ⟨0x0200, 8, 32, 1, 4, .single, [⟨0, 1, .wo, 0, false⟩, ⟨1, 1, .wo, 0, false⟩, ⟨2, 1, .rw, 0, false⟩, ⟨3, 1, .rw, 0, false⟩, ⟨4, 2, .ro, 0, false⟩]⟩ (by decide), show bit 1 1 = false from rfl, hb, e0, e1, e2, e3, e4, e5, e6, e7, e8, e9, e10, l0, l1, l2, q0, q1]) (by simp [Dev.actRefused, pageKind, pageInst, PageKind.base, dmaPage, Dev.actNum_bit _ _ _ _ 0 ⟨0x0200, 8, 32, 1, 4, .single, [⟨0, 1, .wo, 0, false⟩, ⟨1, 1, .wo, 0, false⟩, ⟨2, 1, .rw, 0, false⟩, ⟨3, 1, .rw, 0, false⟩, ⟨4, 2, .ro, 0, false⟩]⟩ (by decide), show bit 1 0 = true from rfl, Dev.actNum_bit _ _ _ _ 1 ⟨0x0200, 8, 32, 1, 4, .single, [⟨0, 1, .wo, 0, false⟩, ⟨1, 1, .wo, 0, false⟩, ⟨2, 1, .rw, 0, false⟩, ⟨3, 1, .rw, 0, false⟩, ⟨4, 2, .ro, 0, false⟩]⟩ (by decide), show bit 1 1 = false from rfl, hb, e0, e1, e2, e3, e4, e5, e6, e7, e8, e9, e10, l0, l1, l2, q0, q1])]
  simp [Dev.act, pageKind, pageInst, PageKind.base, dmaPage, Dev.actNum_bit _ _ _ _ 0 ⟨0x0200, 8, 32, 1, 4, .single, [⟨0, 1, .wo, 0, false⟩, ⟨1, 1, .wo, 0, false⟩, ⟨2, 1, .rw, 0, false⟩, ⟨3, 1, .rw, 0, false⟩, ⟨4, 2, .ro, 0, false⟩]⟩ (by decide), show bit 1 0 = true from rfl, Dev.actNum_bit _ _ _ _ 1 ⟨0x0200, 8, 32, 1, 4, .single, [⟨0, 1, .wo, 0, false⟩, ⟨1, 1, .wo, 0, false⟩, ⟨2, 1, .rw, 0, false⟩, ⟨3, 1, .rw, 0, false⟩, ⟨4, 2, .ro, 0, false⟩]⟩ (by decide), show bit 1 1 = false from rfl, hb, e0, e1, e2, e3, e4, e5, e6, e7, e8, e9, e10, l0, l1, l2, q0, q1]

/-- CHIME_CANCEL -/
theorem Reach.act_chimeCancel (x : Reach) (c : Fin 8) (req : Nat) (hr : x.dev.reachable (0x08)) :
    x.act (0x08) (0x0200 + 32 * c.val) 2 req = ⟨x.trust, x.dev.chimeCancel c.val⟩ := by
  have hv := c.isLt
  have e0 : (512 + 32 * c.val = 8) = False := eq_false (by omega)
  have e1 : (512 + 32 * c.val = 256) = False := eq_false (by omega)
  have e2 : (512 + 32 * c.val = 260) = False := eq_false (by omega)
  have e3 : (512 + 32 * c.val = 264) = False := eq_false (by omega)
  have e4 : (512 + 32 * c.val = 268) = False := eq_false (by omega)
  have e5 : (512 + 32 * c.val = 272) = False := eq_false (by omega)
  have e6 : (512 + 32 * c.val = 276) = False := eq_false (by omega)
  have e7 : (512 + 32 * c.val = 280) = False := eq_false (by omega)
  have e8 : (512 + 32 * c.val = 832) = False := eq_false (by omega)
  have e9 : (512 + 32 * c.val = 1568) = False := eq_false (by omega)
  have e10 : (512 + 32 * c.val = 320) = False := eq_false (by omega)
  have l0 : (512 + 32 * c.val < 280) = False := eq_false (by omega)
  have l1 : (512 + 32 * c.val < 292) = False := eq_false (by omega)
  have l2 : (512 + 32 * c.val < 768) = True := eq_true (by omega)
  have q0 : (1024 ≤ 512 + 32 * c.val) = False := by simp only [eq_iff_iff, iff_true, iff_false]; omega
  have q1 : (304 ≤ 512 + 32 * c.val ∧ 512 + 32 * c.val < 320) = False := by simp only [eq_iff_iff, iff_true, iff_false]; omega
  have hA : ActsAt x.dev (0x08) (0x0200 + 32 * c.val) 2 ⟨0x0200, 8, 32, 1, 4, .single, [⟨0, 1, .wo, 0, false⟩, ⟨1, 1, .wo, 0, false⟩, ⟨2, 1, .rw, 0, false⟩, ⟨3, 1, .rw, 0, false⟩, ⟨4, 2, .ro, 0, false⟩]⟩ := by
    refine ⟨?_, by decide, by omega, ?_, ?_, ?_, ?_, ?_, ?_, ?_, ?_⟩
    · clear * -; revert c; decide
    · rintro ⟨h, -⟩; clear * - h; revert h; decide
    · clear * -; decide
    · simp [pageKind, pageInst, PageKind.base, dmaPage]
    · simp [Dev.shown, pageKind, pageInst, PageKind.base, dmaPage, e0, e1, e2, e3, e4, e5, e6, e7, e8, e9, e10, l0, l1, l2, q0, q1] <;> omega
    · simp [Dev.keepFields, pageKind, pageInst, PageKind.base, dmaPage, e0, e1, e2, e3, e4, e5, e6, e7, e8, e9, e10, l0, l1, l2, q0, q1] <;> omega
    · simp [clampWord, pageKind, pageInst, PageKind.base, dmaPage, e0, e1, e2, e3, e4, e5, e6, e7, e8, e9, e10, l0, l1, l2, q0, q1] <;> omega
    · simp [Dev.boundCheck, pageKind, pageInst, PageKind.base, dmaPage, e0, e1, e2, e3, e4, e5, e6, e7, e8, e9, e10, l0, l1, l2, q0, q1] <;> omega
    · clear * -; decide
  have ht : isTrust (0x08) (0x0200 + 32 * c.val) = false := by clear * -; revert c; decide
  rw [Reach.act_eq x _ _ _ _ _ hr (by omega) (by omega) ht hA (by simp [Dev.ignores, pageKind, pageInst, PageKind.base, dmaPage, Dev.actNum_bit _ _ _ _ 0 ⟨0x0200, 8, 32, 1, 4, .single, [⟨0, 1, .wo, 0, false⟩, ⟨1, 1, .wo, 0, false⟩, ⟨2, 1, .rw, 0, false⟩, ⟨3, 1, .rw, 0, false⟩, ⟨4, 2, .ro, 0, false⟩]⟩ (by decide), show bit 2 0 = false from rfl, Dev.actNum_bit _ _ _ _ 1 ⟨0x0200, 8, 32, 1, 4, .single, [⟨0, 1, .wo, 0, false⟩, ⟨1, 1, .wo, 0, false⟩, ⟨2, 1, .rw, 0, false⟩, ⟨3, 1, .rw, 0, false⟩, ⟨4, 2, .ro, 0, false⟩]⟩ (by decide), show bit 2 1 = true from rfl, e0, e1, e2, e3, e4, e5, e6, e7, e8, e9, e10, l0, l1, l2, q0, q1]) (by simp [Dev.actRefused, pageKind, pageInst, PageKind.base, dmaPage, Dev.actNum_bit _ _ _ _ 0 ⟨0x0200, 8, 32, 1, 4, .single, [⟨0, 1, .wo, 0, false⟩, ⟨1, 1, .wo, 0, false⟩, ⟨2, 1, .rw, 0, false⟩, ⟨3, 1, .rw, 0, false⟩, ⟨4, 2, .ro, 0, false⟩]⟩ (by decide), show bit 2 0 = false from rfl, Dev.actNum_bit _ _ _ _ 1 ⟨0x0200, 8, 32, 1, 4, .single, [⟨0, 1, .wo, 0, false⟩, ⟨1, 1, .wo, 0, false⟩, ⟨2, 1, .rw, 0, false⟩, ⟨3, 1, .rw, 0, false⟩, ⟨4, 2, .ro, 0, false⟩]⟩ (by decide), show bit 2 1 = true from rfl, e0, e1, e2, e3, e4, e5, e6, e7, e8, e9, e10, l0, l1, l2, q0, q1])]
  simp [Dev.act, pageKind, pageInst, PageKind.base, dmaPage, Dev.actNum_bit _ _ _ _ 0 ⟨0x0200, 8, 32, 1, 4, .single, [⟨0, 1, .wo, 0, false⟩, ⟨1, 1, .wo, 0, false⟩, ⟨2, 1, .rw, 0, false⟩, ⟨3, 1, .rw, 0, false⟩, ⟨4, 2, .ro, 0, false⟩]⟩ (by decide), show bit 2 0 = false from rfl, Dev.actNum_bit _ _ _ _ 1 ⟨0x0200, 8, 32, 1, 4, .single, [⟨0, 1, .wo, 0, false⟩, ⟨1, 1, .wo, 0, false⟩, ⟨2, 1, .rw, 0, false⟩, ⟨3, 1, .rw, 0, false⟩, ⟨4, 2, .ro, 0, false⟩]⟩ (by decide), show bit 2 1 = true from rfl, e0, e1, e2, e3, e4, e5, e6, e7, e8, e9, e10, l0, l1, l2, q0, q1]

/-- RST_REQ -/
theorem Reach.act_cageReset (x : Reach) (p : Fin 128) (req : Nat) (hr : x.dev.reachable (0x07)) :
    x.act (0x07) (0x1000 + 4 * p.val) 2 req = ⟨x.trust, x.dev.cageReset p.val⟩ := by
  have hv := p.isLt
  have e0 : (4096 + 4 * p.val = 8) = False := eq_false (by omega)
  have e1 : (4096 + 4 * p.val = 256) = False := eq_false (by omega)
  have e2 : (4096 + 4 * p.val = 264) = False := eq_false (by omega)
  have e3 : (4096 + 4 * p.val = 276) = False := eq_false (by omega)
  have e4 : (4096 + 4 * p.val = 320) = False := eq_false (by omega)
  have e5 : (4096 + 4 * p.val = 376) = False := eq_false (by omega)
  have e6 : (4096 + 4 * p.val = 404) = False := eq_false (by omega)
  have l0 : (4096 + 4 * p.val < 2048) = False := eq_false (by omega)
  have l1 : (4096 + 4 * p.val < 1024) = False := eq_false (by omega)
  have l2 : (4096 + 4 * p.val < 3072) = False := eq_false (by omega)
  have l3 : (4096 + 4 * p.val < 3584) = False := eq_false (by omega)
  have l4 : (4096 + 4 * p.val < 4608) = True := eq_true (by omega)
  have hA : ActsAt x.dev (0x07) (0x1000 + 4 * p.val) 2 ⟨0x1000, 128, 4, 1, 4, .single, [⟨0, 1, .rw, 0, false⟩, ⟨1, 1, .wo, 0, false⟩, ⟨2, 1, .rw, 0, false⟩, ⟨3, 4, .rw, 0, false⟩]⟩ := by
    refine ⟨?_, by decide, by omega, ?_, ?_, ?_, ?_, ?_, ?_, ?_, ?_⟩
    · clear * -; revert p; decide
    · rintro ⟨h, -⟩; clear * - h; revert h; decide
    · clear * -; decide
    · simp [pageKind, pageInst, PageKind.base, dmaPage]
    · simp [Dev.shown, pageKind, pageInst, PageKind.base, dmaPage, e0, e1, e2, e3, e4, e5, e6, l0, l1, l2, l3, l4] <;> omega
    · simp [Dev.keepFields, pageKind, pageInst, PageKind.base, dmaPage, e0, e1, e2, e3, e4, e5, e6, l0, l1, l2, l3, l4] <;> omega
    · simp [clampWord, pageKind, pageInst, PageKind.base, dmaPage, e0, e1, e2, e3, e4, e5, e6, l0, l1, l2, l3, l4] <;> omega
    · simp [Dev.boundCheck, pageKind, pageInst, PageKind.base, dmaPage, e0, e1, e2, e3, e4, e5, e6, l0, l1, l2, l3, l4] <;> omega
    · clear * -; decide
  have ht : isTrust (0x07) (0x1000 + 4 * p.val) = false := by clear * -; revert p; decide
  rw [Reach.act_eq x _ _ _ _ _ hr (by omega) (by omega) ht hA (by simp [Dev.ignores, pageKind, pageInst, PageKind.base, dmaPage, Dev.actNum_bit _ _ _ _ 1 ⟨0x1000, 128, 4, 1, 4, .single, [⟨0, 1, .rw, 0, false⟩, ⟨1, 1, .wo, 0, false⟩, ⟨2, 1, .rw, 0, false⟩, ⟨3, 4, .rw, 0, false⟩]⟩ (by decide), show bit 2 1 = true from rfl, e0, e1, e2, e3, e4, e5, e6, l0, l1, l2, l3, l4]) (by simp [Dev.actRefused, pageKind, pageInst, PageKind.base, dmaPage, Dev.actNum_bit _ _ _ _ 1 ⟨0x1000, 128, 4, 1, 4, .single, [⟨0, 1, .rw, 0, false⟩, ⟨1, 1, .wo, 0, false⟩, ⟨2, 1, .rw, 0, false⟩, ⟨3, 4, .rw, 0, false⟩]⟩ (by decide), show bit 2 1 = true from rfl, e0, e1, e2, e3, e4, e5, e6, l0, l1, l2, l3, l4])]
  simp [Dev.act, pageKind, pageInst, PageKind.base, dmaPage, Dev.actNum_bit _ _ _ _ 1 ⟨0x1000, 128, 4, 1, 4, .single, [⟨0, 1, .rw, 0, false⟩, ⟨1, 1, .wo, 0, false⟩, ⟨2, 1, .rw, 0, false⟩, ⟨3, 4, .rw, 0, false⟩]⟩ (by decide), show bit 2 1 = true from rfl, e0, e1, e2, e3, e4, e5, e6, l0, l1, l2, l3, l4]

/-- TW_ARM -/
theorem Reach.act_twArm (x : Reach) (k : Fin 16) (req : Nat) (hr : x.dev.reachable (0x07)) (hb : x.dev.twBad k.val = false) :
    x.act (0x07) (0x0C04 + 32 * k.val) 16 req = ⟨x.trust, x.dev.twArm k.val⟩ := by
  have hv := k.isLt
  have e0 : (3076 + 32 * k.val = 8) = False := eq_false (by omega)
  have e1 : (3076 + 32 * k.val = 256) = False := eq_false (by omega)
  have e2 : (3076 + 32 * k.val = 264) = False := eq_false (by omega)
  have e3 : (3076 + 32 * k.val = 276) = False := eq_false (by omega)
  have e4 : (3076 + 32 * k.val = 320) = False := eq_false (by omega)
  have e5 : (3076 + 32 * k.val = 376) = False := eq_false (by omega)
  have e6 : (3076 + 32 * k.val = 404) = False := eq_false (by omega)
  have l0 : (3076 + 32 * k.val < 2048) = False := eq_false (by omega)
  have l1 : (3076 + 32 * k.val < 3584) = True := eq_true (by omega)
  have q0 : (3072 ≤ 3076 + 32 * k.val) = True := by simp only [eq_iff_iff, iff_true, iff_false]; omega
  have q1 : ((3076 + 32 * k.val - 3072) / 32) = k.val := by omega
  have hA : ActsAt x.dev (0x07) (0x0C04 + 32 * k.val) 16 ⟨0x0C04, 16, 32, 1, 4, .single, [⟨0, 4, .rw, 0, false⟩, ⟨4, 1, .wo, 0, false⟩, ⟨5, 1, .wo, 0, false⟩, ⟨6, 3, .ro, 0, false⟩]⟩ := by
    refine ⟨?_, by decide, by omega, ?_, ?_, ?_, ?_, ?_, ?_, ?_, ?_⟩
    · clear * -; revert k; decide
    · rintro ⟨h, -⟩; clear * - h; revert h; decide
    · clear * -; decide
    · simp [pageKind, pageInst, PageKind.base, dmaPage]
    · simp [Dev.shown, pageKind, pageInst, PageKind.base, dmaPage, hb, e0, e1, e2, e3, e4, e5, e6, l0, l1, q0, q1] <;> omega
    · simp [Dev.keepFields, pageKind, pageInst, PageKind.base, dmaPage, hb, e0, e1, e2, e3, e4, e5, e6, l0, l1, q0, q1] <;> omega
    · simp [clampWord, pageKind, pageInst, PageKind.base, dmaPage, hb, e0, e1, e2, e3, e4, e5, e6, l0, l1, q0, q1] <;> omega
    · simp [Dev.boundCheck, pageKind, pageInst, PageKind.base, dmaPage, hb, e0, e1, e2, e3, e4, e5, e6, l0, l1, q0, q1] <;> omega
    · clear * -; decide
  have ht : isTrust (0x07) (0x0C04 + 32 * k.val) = false := by clear * -; revert k; decide
  rw [Reach.act_eq x _ _ _ _ _ hr (by omega) (by omega) ht hA (by simp [Dev.ignores, pageKind, pageInst, PageKind.base, dmaPage, Dev.actNum_bit _ _ _ _ 4 ⟨0x0C04, 16, 32, 1, 4, .single, [⟨0, 4, .rw, 0, false⟩, ⟨4, 1, .wo, 0, false⟩, ⟨5, 1, .wo, 0, false⟩, ⟨6, 3, .ro, 0, false⟩]⟩ (by decide), show bit 16 4 = true from rfl, Dev.actNum_bit _ _ _ _ 5 ⟨0x0C04, 16, 32, 1, 4, .single, [⟨0, 4, .rw, 0, false⟩, ⟨4, 1, .wo, 0, false⟩, ⟨5, 1, .wo, 0, false⟩, ⟨6, 3, .ro, 0, false⟩]⟩ (by decide), show bit 16 5 = false from rfl, hb, e0, e1, e2, e3, e4, e5, e6, l0, l1, q0, q1]) (by simp [Dev.actRefused, pageKind, pageInst, PageKind.base, dmaPage, Dev.actNum_bit _ _ _ _ 4 ⟨0x0C04, 16, 32, 1, 4, .single, [⟨0, 4, .rw, 0, false⟩, ⟨4, 1, .wo, 0, false⟩, ⟨5, 1, .wo, 0, false⟩, ⟨6, 3, .ro, 0, false⟩]⟩ (by decide), show bit 16 4 = true from rfl, Dev.actNum_bit _ _ _ _ 5 ⟨0x0C04, 16, 32, 1, 4, .single, [⟨0, 4, .rw, 0, false⟩, ⟨4, 1, .wo, 0, false⟩, ⟨5, 1, .wo, 0, false⟩, ⟨6, 3, .ro, 0, false⟩]⟩ (by decide), show bit 16 5 = false from rfl, hb, e0, e1, e2, e3, e4, e5, e6, l0, l1, q0, q1])]
  simp [Dev.act, pageKind, pageInst, PageKind.base, dmaPage, Dev.actNum_bit _ _ _ _ 4 ⟨0x0C04, 16, 32, 1, 4, .single, [⟨0, 4, .rw, 0, false⟩, ⟨4, 1, .wo, 0, false⟩, ⟨5, 1, .wo, 0, false⟩, ⟨6, 3, .ro, 0, false⟩]⟩ (by decide), show bit 16 4 = true from rfl, Dev.actNum_bit _ _ _ _ 5 ⟨0x0C04, 16, 32, 1, 4, .single, [⟨0, 4, .rw, 0, false⟩, ⟨4, 1, .wo, 0, false⟩, ⟨5, 1, .wo, 0, false⟩, ⟨6, 3, .ro, 0, false⟩]⟩ (by decide), show bit 16 5 = false from rfl, hb, e0, e1, e2, e3, e4, e5, e6, l0, l1, q0, q1]

/-- TW_CANCEL -/
theorem Reach.act_twCancel (x : Reach) (k : Fin 16) (req : Nat) (hr : x.dev.reachable (0x07)) :
    x.act (0x07) (0x0C04 + 32 * k.val) 32 req = ⟨x.trust, x.dev.twCancel k.val⟩ := by
  have hv := k.isLt
  have e0 : (3076 + 32 * k.val = 8) = False := eq_false (by omega)
  have e1 : (3076 + 32 * k.val = 256) = False := eq_false (by omega)
  have e2 : (3076 + 32 * k.val = 264) = False := eq_false (by omega)
  have e3 : (3076 + 32 * k.val = 276) = False := eq_false (by omega)
  have e4 : (3076 + 32 * k.val = 320) = False := eq_false (by omega)
  have e5 : (3076 + 32 * k.val = 376) = False := eq_false (by omega)
  have e6 : (3076 + 32 * k.val = 404) = False := eq_false (by omega)
  have l0 : (3076 + 32 * k.val < 2048) = False := eq_false (by omega)
  have l1 : (3076 + 32 * k.val < 3584) = True := eq_true (by omega)
  have q0 : (3072 ≤ 3076 + 32 * k.val) = True := by simp only [eq_iff_iff, iff_true, iff_false]; omega
  have q1 : ((3076 + 32 * k.val - 3072) / 32) = k.val := by omega
  have hA : ActsAt x.dev (0x07) (0x0C04 + 32 * k.val) 32 ⟨0x0C04, 16, 32, 1, 4, .single, [⟨0, 4, .rw, 0, false⟩, ⟨4, 1, .wo, 0, false⟩, ⟨5, 1, .wo, 0, false⟩, ⟨6, 3, .ro, 0, false⟩]⟩ := by
    refine ⟨?_, by decide, by omega, ?_, ?_, ?_, ?_, ?_, ?_, ?_, ?_⟩
    · clear * -; revert k; decide
    · rintro ⟨h, -⟩; clear * - h; revert h; decide
    · clear * -; decide
    · simp [pageKind, pageInst, PageKind.base, dmaPage]
    · simp [Dev.shown, pageKind, pageInst, PageKind.base, dmaPage, e0, e1, e2, e3, e4, e5, e6, l0, l1, q0, q1] <;> omega
    · simp [Dev.keepFields, pageKind, pageInst, PageKind.base, dmaPage, e0, e1, e2, e3, e4, e5, e6, l0, l1, q0, q1] <;> omega
    · simp [clampWord, pageKind, pageInst, PageKind.base, dmaPage, e0, e1, e2, e3, e4, e5, e6, l0, l1, q0, q1] <;> omega
    · simp [Dev.boundCheck, pageKind, pageInst, PageKind.base, dmaPage, e0, e1, e2, e3, e4, e5, e6, l0, l1, q0, q1] <;> omega
    · clear * -; decide
  have ht : isTrust (0x07) (0x0C04 + 32 * k.val) = false := by clear * -; revert k; decide
  rw [Reach.act_eq x _ _ _ _ _ hr (by omega) (by omega) ht hA (by simp [Dev.ignores, pageKind, pageInst, PageKind.base, dmaPage, Dev.actNum_bit _ _ _ _ 4 ⟨0x0C04, 16, 32, 1, 4, .single, [⟨0, 4, .rw, 0, false⟩, ⟨4, 1, .wo, 0, false⟩, ⟨5, 1, .wo, 0, false⟩, ⟨6, 3, .ro, 0, false⟩]⟩ (by decide), show bit 32 4 = false from rfl, Dev.actNum_bit _ _ _ _ 5 ⟨0x0C04, 16, 32, 1, 4, .single, [⟨0, 4, .rw, 0, false⟩, ⟨4, 1, .wo, 0, false⟩, ⟨5, 1, .wo, 0, false⟩, ⟨6, 3, .ro, 0, false⟩]⟩ (by decide), show bit 32 5 = true from rfl, e0, e1, e2, e3, e4, e5, e6, l0, l1, q0, q1]) (by simp [Dev.actRefused, pageKind, pageInst, PageKind.base, dmaPage, Dev.actNum_bit _ _ _ _ 4 ⟨0x0C04, 16, 32, 1, 4, .single, [⟨0, 4, .rw, 0, false⟩, ⟨4, 1, .wo, 0, false⟩, ⟨5, 1, .wo, 0, false⟩, ⟨6, 3, .ro, 0, false⟩]⟩ (by decide), show bit 32 4 = false from rfl, Dev.actNum_bit _ _ _ _ 5 ⟨0x0C04, 16, 32, 1, 4, .single, [⟨0, 4, .rw, 0, false⟩, ⟨4, 1, .wo, 0, false⟩, ⟨5, 1, .wo, 0, false⟩, ⟨6, 3, .ro, 0, false⟩]⟩ (by decide), show bit 32 5 = true from rfl, e0, e1, e2, e3, e4, e5, e6, l0, l1, q0, q1])]
  simp [Dev.act, pageKind, pageInst, PageKind.base, dmaPage, Dev.actNum_bit _ _ _ _ 4 ⟨0x0C04, 16, 32, 1, 4, .single, [⟨0, 4, .rw, 0, false⟩, ⟨4, 1, .wo, 0, false⟩, ⟨5, 1, .wo, 0, false⟩, ⟨6, 3, .ro, 0, false⟩]⟩ (by decide), show bit 32 4 = false from rfl, Dev.actNum_bit _ _ _ _ 5 ⟨0x0C04, 16, 32, 1, 4, .single, [⟨0, 4, .rw, 0, false⟩, ⟨4, 1, .wo, 0, false⟩, ⟨5, 1, .wo, 0, false⟩, ⟨6, 3, .ro, 0, false⟩]⟩ (by decide), show bit 32 5 = true from rfl, e0, e1, e2, e3, e4, e5, e6, l0, l1, q0, q1]

/-- MOD_CMD_ADDR.GO -/
theorem Reach.act_modGo (x : Reach) (m : Fin 16) (req : Nat) (hr : x.dev.reachable (0x07)) (hb : x.dev.cmdBusy m.val = false) :
    x.act (0x07) (0x0404 + 64 * m.val) 256 req = ⟨x.trust, x.dev.modGo m.val⟩ := by
  have hv := m.isLt
  have e0 : (1028 + 64 * m.val = 8) = False := eq_false (by omega)
  have e1 : (1028 + 64 * m.val = 256) = False := eq_false (by omega)
  have e2 : (1028 + 64 * m.val = 264) = False := eq_false (by omega)
  have e3 : (1028 + 64 * m.val = 276) = False := eq_false (by omega)
  have e4 : (1028 + 64 * m.val = 320) = False := eq_false (by omega)
  have e5 : (1028 + 64 * m.val = 376) = False := eq_false (by omega)
  have e6 : (1028 + 64 * m.val = 404) = False := eq_false (by omega)
  have l0 : (1028 + 64 * m.val < 2048) = True := eq_true (by omega)
  have l1 : (1028 + 64 * m.val < 3072) = True := eq_true (by omega)
  have q0 : (1024 ≤ 1028 + 64 * m.val) = True := by simp only [eq_iff_iff, iff_true, iff_false]; omega
  have q1 : ((1028 + 64 * m.val - 1024) / 64) = m.val := by omega
  have hA : ActsAt x.dev (0x07) (0x0404 + 64 * m.val) 256 ⟨0x0404, 16, 64, 1, 4, .single, [⟨0, 8, .rw, 0, false⟩, ⟨8, 1, .wo, 0, false⟩]⟩ := by
    refine ⟨?_, by decide, by omega, ?_, ?_, ?_, ?_, ?_, ?_, ?_, ?_⟩
    · clear * -; revert m; decide
    · rintro ⟨h, -⟩; clear * - h; revert h; decide
    · clear * -; decide
    · simp [pageKind, pageInst, PageKind.base, dmaPage]
    · simp [Dev.shown, pageKind, pageInst, PageKind.base, dmaPage, hb, e0, e1, e2, e3, e4, e5, e6, l0, l1, q0, q1] <;> omega
    · simp [Dev.keepFields, pageKind, pageInst, PageKind.base, dmaPage, hb, e0, e1, e2, e3, e4, e5, e6, l0, l1, q0, q1] <;> omega
    · simp [clampWord, pageKind, pageInst, PageKind.base, dmaPage, hb, e0, e1, e2, e3, e4, e5, e6, l0, l1, q0, q1] <;> omega
    · simp [Dev.boundCheck, pageKind, pageInst, PageKind.base, dmaPage, hb, e0, e1, e2, e3, e4, e5, e6, l0, l1, q0, q1] <;> omega
    · clear * -; decide
  have ht : isTrust (0x07) (0x0404 + 64 * m.val) = false := by clear * -; revert m; decide
  rw [Reach.act_eq x _ _ _ _ _ hr (by omega) (by omega) ht hA (by simp [Dev.ignores, pageKind, pageInst, PageKind.base, dmaPage, Dev.actNum_bit _ _ _ _ 8 ⟨0x0404, 16, 64, 1, 4, .single, [⟨0, 8, .rw, 0, false⟩, ⟨8, 1, .wo, 0, false⟩]⟩ (by decide), show bit 256 8 = true from rfl, hb, e0, e1, e2, e3, e4, e5, e6, l0, l1, q0, q1]) (by simp [Dev.actRefused, pageKind, pageInst, PageKind.base, dmaPage, Dev.actNum_bit _ _ _ _ 8 ⟨0x0404, 16, 64, 1, 4, .single, [⟨0, 8, .rw, 0, false⟩, ⟨8, 1, .wo, 0, false⟩]⟩ (by decide), show bit 256 8 = true from rfl, hb, e0, e1, e2, e3, e4, e5, e6, l0, l1, q0, q1])]
  simp [Dev.act, pageKind, pageInst, PageKind.base, dmaPage, Dev.actNum_bit _ _ _ _ 8 ⟨0x0404, 16, 64, 1, 4, .single, [⟨0, 8, .rw, 0, false⟩, ⟨8, 1, .wo, 0, false⟩]⟩ (by decide), show bit 256 8 = true from rfl, hb, e0, e1, e2, e3, e4, e5, e6, l0, l1, q0, q1]

/-- SET -/
theorem Reach.act_timeSet (x : Reach) (req : Nat) (hr : x.dev.reachable (0x08)) (hb : x.dev.meshRole ≠ 2) :
    x.act (0x08) (0x0104) 1 req = ⟨x.trust, x.dev.timeControl 1⟩ := by
  have hA : ActsAt x.dev (0x08) (0x0104) 1 ⟨0x0104, 1, 65536, 1, 4, .single, [⟨0, 1, .wo, 0, false⟩, ⟨1, 1, .wo, 0, false⟩, ⟨2, 1, .wo, 0, false⟩, ⟨3, 1, .wo, 0, false⟩]⟩ := by
    refine ⟨?_, by decide, by omega, ?_, ?_, ?_, ?_, ?_, ?_, ?_, ?_⟩
    · clear * -; decide
    · rintro ⟨h, -⟩; clear * - h; revert h; decide
    · clear * -; decide
    · simp [pageKind, pageInst, PageKind.base, dmaPage]
    · simp [Dev.shown, pageKind, pageInst, PageKind.base, dmaPage, hb, Dev.timeConflict, b2n]
    · simp [Dev.keepFields, pageKind, pageInst, PageKind.base, dmaPage, hb, Dev.timeConflict, b2n]
    · simp [clampWord, pageKind, pageInst, PageKind.base, dmaPage, hb, Dev.timeConflict, b2n]
    · simp [Dev.boundCheck, pageKind, pageInst, PageKind.base, dmaPage, hb, Dev.timeConflict, b2n]
    · clear * -; decide
  have ht : isTrust (0x08) (0x0104) = false := by decide
  rw [Reach.act_wo x _ _ _ _ _ hr (by omega) (by omega) ht hA (by decide) (by simp [Dev.ignores, pageKind, pageInst, PageKind.base, dmaPage, bit, hb, Dev.timeConflict, b2n]) (by simp [Dev.actRefused, pageKind, pageInst, PageKind.base, dmaPage, bit, hb, Dev.timeConflict, b2n])]
  simp [Dev.act, pageKind, pageInst, PageKind.base, dmaPage, bit, hb, Dev.timeConflict, b2n]

/-- STEP -/
theorem Reach.act_timeStep (x : Reach) (req : Nat) (hr : x.dev.reachable (0x08)) (hb : x.dev.meshRole ≠ 2) :
    x.act (0x08) (0x0104) 2 req = ⟨x.trust, x.dev.timeControl 2⟩ := by
  have hA : ActsAt x.dev (0x08) (0x0104) 2 ⟨0x0104, 1, 65536, 1, 4, .single, [⟨0, 1, .wo, 0, false⟩, ⟨1, 1, .wo, 0, false⟩, ⟨2, 1, .wo, 0, false⟩, ⟨3, 1, .wo, 0, false⟩]⟩ := by
    refine ⟨?_, by decide, by omega, ?_, ?_, ?_, ?_, ?_, ?_, ?_, ?_⟩
    · clear * -; decide
    · rintro ⟨h, -⟩; clear * - h; revert h; decide
    · clear * -; decide
    · simp [pageKind, pageInst, PageKind.base, dmaPage]
    · simp [Dev.shown, pageKind, pageInst, PageKind.base, dmaPage, hb, Dev.timeConflict, b2n]
    · simp [Dev.keepFields, pageKind, pageInst, PageKind.base, dmaPage, hb, Dev.timeConflict, b2n]
    · simp [clampWord, pageKind, pageInst, PageKind.base, dmaPage, hb, Dev.timeConflict, b2n]
    · simp [Dev.boundCheck, pageKind, pageInst, PageKind.base, dmaPage, hb, Dev.timeConflict, b2n]
    · clear * -; decide
  have ht : isTrust (0x08) (0x0104) = false := by decide
  rw [Reach.act_wo x _ _ _ _ _ hr (by omega) (by omega) ht hA (by decide) (by simp [Dev.ignores, pageKind, pageInst, PageKind.base, dmaPage, bit, hb, Dev.timeConflict, b2n]) (by simp [Dev.actRefused, pageKind, pageInst, PageKind.base, dmaPage, bit, hb, Dev.timeConflict, b2n])]
  simp [Dev.act, pageKind, pageInst, PageKind.base, dmaPage, bit, hb, Dev.timeConflict, b2n]

/-- SLEW -/
theorem Reach.act_timeSlew (x : Reach) (req : Nat) (hr : x.dev.reachable (0x08)) (hb : x.dev.meshRole ≠ 2) (hs : x.dev.get 0x08 F.TIME_STAT_SLEWING ≠ 1) :
    x.act (0x08) (0x0104) 4 req = ⟨x.trust, x.dev.timeControl 4⟩ := by
  have hA : ActsAt x.dev (0x08) (0x0104) 4 ⟨0x0104, 1, 65536, 1, 4, .single, [⟨0, 1, .wo, 0, false⟩, ⟨1, 1, .wo, 0, false⟩, ⟨2, 1, .wo, 0, false⟩, ⟨3, 1, .wo, 0, false⟩]⟩ := by
    refine ⟨?_, by decide, by omega, ?_, ?_, ?_, ?_, ?_, ?_, ?_, ?_⟩
    · clear * -; decide
    · rintro ⟨h, -⟩; clear * - h; revert h; decide
    · clear * -; decide
    · simp [pageKind, pageInst, PageKind.base, dmaPage]
    · simp [Dev.shown, pageKind, pageInst, PageKind.base, dmaPage, hb, Dev.timeConflict, b2n, hs]
    · simp [Dev.keepFields, pageKind, pageInst, PageKind.base, dmaPage, hb, Dev.timeConflict, b2n, hs]
    · simp [clampWord, pageKind, pageInst, PageKind.base, dmaPage, hb, Dev.timeConflict, b2n, hs]
    · simp [Dev.boundCheck, pageKind, pageInst, PageKind.base, dmaPage, hb, Dev.timeConflict, b2n, hs]
    · clear * -; decide
  have ht : isTrust (0x08) (0x0104) = false := by decide
  rw [Reach.act_wo x _ _ _ _ _ hr (by omega) (by omega) ht hA (by decide) (by simp [Dev.ignores, pageKind, pageInst, PageKind.base, dmaPage, bit, hb, Dev.timeConflict, b2n, hs]) (by simp [Dev.actRefused, pageKind, pageInst, PageKind.base, dmaPage, bit, hb, Dev.timeConflict, b2n, hs])]
  simp [Dev.act, pageKind, pageInst, PageKind.base, dmaPage, bit, hb, Dev.timeConflict, b2n, hs]

/-- TIME_ABORT -/
theorem Reach.act_timeAbort (x : Reach) (req : Nat) (hr : x.dev.reachable (0x08)) (hb : x.dev.meshRole ≠ 2) :
    x.act (0x08) (0x0104) 8 req = ⟨x.trust, x.dev.timeControl 8⟩ := by
  have hA : ActsAt x.dev (0x08) (0x0104) 8 ⟨0x0104, 1, 65536, 1, 4, .single, [⟨0, 1, .wo, 0, false⟩, ⟨1, 1, .wo, 0, false⟩, ⟨2, 1, .wo, 0, false⟩, ⟨3, 1, .wo, 0, false⟩]⟩ := by
    refine ⟨?_, by decide, by omega, ?_, ?_, ?_, ?_, ?_, ?_, ?_, ?_⟩
    · clear * -; decide
    · rintro ⟨h, -⟩; clear * - h; revert h; decide
    · clear * -; decide
    · simp [pageKind, pageInst, PageKind.base, dmaPage]
    · simp [Dev.shown, pageKind, pageInst, PageKind.base, dmaPage, hb, Dev.timeConflict, b2n]
    · simp [Dev.keepFields, pageKind, pageInst, PageKind.base, dmaPage, hb, Dev.timeConflict, b2n]
    · simp [clampWord, pageKind, pageInst, PageKind.base, dmaPage, hb, Dev.timeConflict, b2n]
    · simp [Dev.boundCheck, pageKind, pageInst, PageKind.base, dmaPage, hb, Dev.timeConflict, b2n]
    · clear * -; decide
  have ht : isTrust (0x08) (0x0104) = false := by decide
  rw [Reach.act_wo x _ _ _ _ _ hr (by omega) (by omega) ht hA (by decide) (by simp [Dev.ignores, pageKind, pageInst, PageKind.base, dmaPage, bit, hb, Dev.timeConflict, b2n]) (by simp [Dev.actRefused, pageKind, pageInst, PageKind.base, dmaPage, bit, hb, Dev.timeConflict, b2n])]
  simp [Dev.act, pageKind, pageInst, PageKind.base, dmaPage, bit, hb, Dev.timeConflict, b2n]

/-- LEDGER_READ -/
theorem Reach.act_ledgerRead (x : Reach) (req : Nat) (hr : x.dev.reachable (0x07)) :
    x.act (0x07) (0x0194) 1 req = ⟨x.trust, x.dev.ledgerCmd 1⟩ := by
  have hA : ActsAt x.dev (0x07) (0x0194) 1 ⟨0x0194, 1, 65536, 1, 4, .single, [⟨0, 1, .wo, 0, false⟩, ⟨1, 1, .wo, 0, false⟩]⟩ := by
    refine ⟨?_, by decide, by omega, ?_, ?_, ?_, ?_, ?_, ?_, ?_, ?_⟩
    · clear * -; decide
    · rintro ⟨h, -⟩; clear * - h; revert h; decide
    · clear * -; decide
    · simp [pageKind, pageInst, PageKind.base, dmaPage]
    · simp [Dev.shown, pageKind, pageInst, PageKind.base, dmaPage]
    · simp [Dev.keepFields, pageKind, pageInst, PageKind.base, dmaPage]
    · simp [clampWord, pageKind, pageInst, PageKind.base, dmaPage]
    · simp [Dev.boundCheck, pageKind, pageInst, PageKind.base, dmaPage]
    · clear * -; decide
  have ht : isTrust (0x07) (0x0194) = false := by decide
  rw [Reach.act_wo x _ _ _ _ _ hr (by omega) (by omega) ht hA (by decide) (by simp [Dev.ignores, pageKind, pageInst, PageKind.base, dmaPage, bit]) (by simp [Dev.actRefused, pageKind, pageInst, PageKind.base, dmaPage, bit])]
  simp [Dev.act, pageKind, pageInst, PageKind.base, dmaPage, bit]

/-- LEDGER_WRITE -/
theorem Reach.act_ledgerWrite (x : Reach) (req : Nat) (hr : x.dev.reachable (0x07)) (hb : x.dev.get 0x07 F.MOD_LED_IDX_PREV ≠ 1) :
    x.act (0x07) (0x0194) 2 req = ⟨x.trust, x.dev.ledgerCmd 2⟩ := by
  have hA : ActsAt x.dev (0x07) (0x0194) 2 ⟨0x0194, 1, 65536, 1, 4, .single, [⟨0, 1, .wo, 0, false⟩, ⟨1, 1, .wo, 0, false⟩]⟩ := by
    refine ⟨?_, by decide, by omega, ?_, ?_, ?_, ?_, ?_, ?_, ?_, ?_⟩
    · clear * -; decide
    · rintro ⟨h, -⟩; clear * - h; revert h; decide
    · clear * -; decide
    · simp [pageKind, pageInst, PageKind.base, dmaPage]
    · simp [Dev.shown, pageKind, pageInst, PageKind.base, dmaPage, hb]
    · simp [Dev.keepFields, pageKind, pageInst, PageKind.base, dmaPage, hb]
    · simp [clampWord, pageKind, pageInst, PageKind.base, dmaPage, hb]
    · simp [Dev.boundCheck, pageKind, pageInst, PageKind.base, dmaPage, hb]
    · clear * -; decide
  have ht : isTrust (0x07) (0x0194) = false := by decide
  rw [Reach.act_wo x _ _ _ _ _ hr (by omega) (by omega) ht hA (by decide) (by simp [Dev.ignores, pageKind, pageInst, PageKind.base, dmaPage, bit, hb]) (by simp [Dev.actRefused, pageKind, pageInst, PageKind.base, dmaPage, bit, hb])]
  simp [Dev.act, pageKind, pageInst, PageKind.base, dmaPage, bit, hb]

theorem pageKind_time (i : Fin 2) : pageKind (8 + i.val) = .time := by revert i; decide
theorem pageInst_time (i : Fin 2) : pageInst (8 + i.val) = i.val := by revert i; decide

/-- TIME_TX_POP -/
theorem Reach.act_txPop (x : Reach) (i : Fin 2) (req : Nat) (hr : x.dev.reachable (8 + i.val)) :
    x.act (8 + i.val) (0x0620) 1 req = ⟨x.trust, x.dev.popTx i.val⟩ := by
  have hA : ActsAt x.dev (8 + i.val) (0x0620) 1 ⟨0x0620, 1, 65536, 1, 4, .single, [⟨0, 1, .wo, 0, false⟩]⟩ := by
    refine ⟨?_, by decide, by omega, ?_, ?_, ?_, ?_, ?_, ?_, ?_, ?_⟩
    · clear * -; revert i; decide
    · rintro ⟨h, -⟩; clear * - h; revert h; revert i; decide
    · clear * -; revert i; decide
    · simp [pageKind_time, pageInst_time]
    · simp [Dev.shown, pageKind_time, pageInst_time]
    · simp [Dev.keepFields, pageKind_time, pageInst_time]
    · simp [clampWord, pageKind_time, pageInst_time]
    · simp [Dev.boundCheck, pageKind_time, pageInst_time]
    · clear * -; revert i; decide
  have ht : isTrust (8 + i.val) (0x0620) = false := by clear * -; revert i; decide
  rw [Reach.act_wo x _ _ _ _ _ hr (by omega) (by omega) ht hA (by decide) (by simp [Dev.ignores, pageKind_time, pageInst_time, bit]) (by simp [Dev.actRefused, pageKind_time, pageInst_time, bit])]
  simp [Dev.act, pageKind_time, pageInst_time, bit]

theorem pageKind_tmPort (p : Fin 128) : pageKind (tmPage (p.val / 64)) = .tm := by revert p; decide
theorem pageInst_tmPort (p : Fin 128) : pageInst (tmPage (p.val / 64)) = p.val / 64 := by revert p; decide

/-- TM_RS_CTL (R243). -/
theorem Reach.act_rs (x : Reach) (p : Fin 128) (b req : Nat) (hr : x.dev.reachable (tmPage (p.val / 64)))
    (hb : b = 1 ∧ x.dev.rsBad p.val = false ∨ b = 2) :
    x.act (tmPage (p.val / 64)) (0x100C + 16 * (p.val % 64)) b req = ⟨x.trust, if b = 1 then x.dev.rsArm p.val else x.dev.rsCancel p.val⟩ := by
  have hv := p.isLt
  have hm : p.val % 64 < 64 := Nat.mod_lt _ (by decide)
  have e1 : (4108 + 16 * (p.val % 64) - 4096) / 16 = p.val % 64 := by omega
  have e2 : 64 * (p.val / 64) + p.val % 64 = p.val := by omega
  have e3 : (4108 + 16 * (p.val % 64)) % 16 = 12 := by omega
  have e4 : (4096 ≤ 4108 + 16 * (p.val % 64)) = True := eq_true (by omega)
  have e5 : (4108 + 16 * (p.val % 64) < 5120) = True := eq_true (by omega)
  have e6 : (16384 ≤ 4108 + 16 * (p.val % 64)) = False := eq_false (by omega)
  have e7 : (4108 + 16 * (p.val % 64) = 8) = False := eq_false (by omega)
  have e8 : (4108 + 16 * (p.val % 64) < 1632) = False := eq_false (by omega)
  have e9 : (4108 + 16 * (p.val % 64) < 2400) = False := eq_false (by omega)
  have hA : ActsAt x.dev (tmPage (p.val / 64)) (0x100C + 16 * (p.val % 64)) b ⟨0x100C, 64, 16, 1, 4, .single, [⟨0, 1, .wo, 0, false⟩, ⟨1, 1, .wo, 0, false⟩, ⟨2, 2, .ro, 0, false⟩, ⟨4, 2, .ro, 0, false⟩]⟩ := by
    refine ⟨?_, ?_, by omega, ?_, ?_, ?_, ?_, ?_, ?_, ?_, ?_⟩
    · clear * -; revert p; decide +kernel
    · rcases hb with ⟨rfl, -⟩ | rfl <;> decide
    · rintro ⟨h, -⟩; clear * - h; revert h; revert p; decide
    · clear * -; revert p; decide
    · simp [pageKind_tmPort, pageInst_tmPort]
    · simp [Dev.shown, pageKind_tmPort] <;> omega
    · simp [Dev.keepFields, pageKind_tmPort, e9]
    · simp [clampWord, pageKind_tmPort, e4, e8, e9]
    · simp [Dev.boundCheck, pageKind_tmPort]
    · simp [pageKind_tmPort]
  have ht : isTrust (tmPage (p.val / 64)) (0x100C + 16 * (p.val % 64)) = false := by clear * -; revert p; decide +kernel
  rcases hb with ⟨rfl, hb⟩ | rfl
  · rw [Reach.act_eq x _ _ _ _ _ hr (by omega) (by omega) ht hA
      (by simp [Dev.ignores, pageKind_tmPort, pageInst_tmPort, Dev.actNum_bit _ _ _ _ 0 ⟨0x100C, 64, 16, 1, 4, .single, [⟨0, 1, .wo, 0, false⟩, ⟨1, 1, .wo, 0, false⟩, ⟨2, 2, .ro, 0, false⟩, ⟨4, 2, .ro, 0, false⟩]⟩ (by decide), show bit 1 0 = true from rfl, Dev.actNum_bit _ _ _ _ 1 ⟨0x100C, 64, 16, 1, 4, .single, [⟨0, 1, .wo, 0, false⟩, ⟨1, 1, .wo, 0, false⟩, ⟨2, 2, .ro, 0, false⟩, ⟨4, 2, .ro, 0, false⟩]⟩ (by decide), show bit 1 1 = false from rfl, e1, e2, e3, e4, e5, e6, e7, hb])
      (by simp [Dev.actRefused, pageKind_tmPort])]
    simp [Dev.act, pageKind_tmPort, pageInst_tmPort, Dev.actNum_bit _ _ _ _ 0 ⟨0x100C, 64, 16, 1, 4, .single, [⟨0, 1, .wo, 0, false⟩, ⟨1, 1, .wo, 0, false⟩, ⟨2, 2, .ro, 0, false⟩, ⟨4, 2, .ro, 0, false⟩]⟩ (by decide), show bit 1 0 = true from rfl, e1, e2, e3, e4, e5]
  · rw [Reach.act_eq x _ _ _ _ _ hr (by omega) (by omega) ht hA
      (by simp [Dev.ignores, pageKind_tmPort, pageInst_tmPort, Dev.actNum_bit _ _ _ _ 0 ⟨0x100C, 64, 16, 1, 4, .single, [⟨0, 1, .wo, 0, false⟩, ⟨1, 1, .wo, 0, false⟩, ⟨2, 2, .ro, 0, false⟩, ⟨4, 2, .ro, 0, false⟩]⟩ (by decide), show bit 2 0 = false from rfl, e4, e5, e6, e7])
      (by simp [Dev.actRefused, pageKind_tmPort])]
    simp [Dev.act, pageKind_tmPort, pageInst_tmPort, Dev.actNum_bit _ _ _ _ 0 ⟨0x100C, 64, 16, 1, 4, .single, [⟨0, 1, .wo, 0, false⟩, ⟨1, 1, .wo, 0, false⟩, ⟨2, 2, .ro, 0, false⟩, ⟨4, 2, .ro, 0, false⟩]⟩ (by decide), show bit 2 0 = false from rfl, Dev.actNum_bit _ _ _ _ 1 ⟨0x100C, 64, 16, 1, 4, .single, [⟨0, 1, .wo, 0, false⟩, ⟨1, 1, .wo, 0, false⟩, ⟨2, 2, .ro, 0, false⟩, ⟨4, 2, .ro, 0, false⟩]⟩ (by decide), show bit 2 1 = true from rfl, e1, e2, e3, e4, e5]

/-- IMAGE_POLICY_LOCK (R149), on anchors that are not locked. -/
theorem Reach.act_lock (x : Reach) (req : Nat) (hr : x.dev.reachable 0x01) (hl : x.trust.lock = false) :
    x.act 0x01 0x0200 2 req = ⟨{ x.trust with lock := true }, x.dev⟩ := by
  obtain ⟨h1, h2, h3, h5⟩ := hr
  have hb : Nat.lor (x.defined 1 0x0200) 2 = b2n x.trust.sigReq + 2 := by
    have e : regAt 1 0x0200 = some ⟨0x0200, 1, 65536, 1, 4, .single, [⟨0, 1, .rw, 0, false⟩, ⟨1, 1, .w1s, 0, false⟩]⟩ := by decide
    simp only [Reach.defined, e, Reach.shown, show isTrust 1 0x0200 = true from by decide, if_true, Trust.word]
    cases x.trust.sigReq <;> decide
  have hm : (b2n x.trust.sigReq + 2) % 4294967296 = b2n x.trust.sigReq + 2 := by cases x.trust.sigReq <;> rfl
  have hk : x.trust.kinds 512 (b2n x.trust.sigReq + 2) = [] := by
    simp only [Trust.kinds, hl]; cases x.trust.sigReq <;> simp [b2n]
  simp only [Reach.act, hb, Reach.hostWrite, h1, if_true, Reach.write, Reach.write0, Dev.wakeLink_eq _ h2]
  simp [show isTrust 1 512 = true from by decide, h5, BitVec.toNat_ofNat, hm, hk, Trust.write, hl]
  constructor
  · cases x.trust.sigReq <;> rfl
  · cases x.trust.sigReq <;> rfl

end Sys2Proof.Machine
end

