-- ==== Sys2Proof/Laws/Bytes.lean ====
section
/-! SUPPORT. Byte lists: lengths, numbers as bytes, and the CRC of the cells a Ulux port sends. -/

namespace Sys2Proof.Machine

@[simp] theorem beBytes_length (n v : Nat) : (beBytes n v).length = n := by induction n <;> simp_all [beBytes]

@[simp] theorem slice_length (l : List Byte) (o n : Nat) : (slice l o n).length = n := by simp [slice]

theorem beNat_acc (l : List Byte) (a : Nat) : List.foldl (fun a (b : Byte) => a * 256 + b.toNat) a l = a * 256 ^ l.length + beNat l := by
  induction l generalizing a with
  | nil => simp [beNat]
  | cons b r ih => simp only [beNat, List.foldl_cons, List.length_cons]; rw [ih, ih (0 * 256 + b.toNat)]; ring

theorem beNat_beBytes (n v : Nat) : beNat (beBytes n v) = v % 256 ^ n := by
  induction n with
  | zero => simp [beBytes, beNat, Nat.mod_one]
  | succ n ih =>
    have h := beNat_acc (beBytes n v) (0 * 256 + (BitVec.ofNat 8 (v / 256 ^ n)).toNat)
    simp only [beBytes, beNat, List.foldl_cons] at h ⊢
    rw [h, ← beNat, ih]
    have hm : v % (256 ^ n * 256) = v % 256 ^ n + 256 ^ n * (v / 256 ^ n % 256) := Nat.mod_mul
    rw [BitVec.toNat_ofNat, beBytes_length, show (2 : Nat) ^ 8 = 256 by norm_num, show 256 ^ (n + 1) = 256 ^ n * 256 from pow_succ 256 n, hm]
    generalize v / 256 ^ n % 256 = x
    ring

theorem slice_append_right (a b : List Byte) (n : Nat) (h : b.length = n) : slice (a ++ b) a.length n = b := by
  simp [slice, ← h]

theorem crcBit_lt (c : Nat) (h : c < 2 ^ 32) : crcBit 0x82F63B78 c < 2 ^ 32 := by
  unfold crcBit
  split
  · exact Nat.xor_lt_two_pow (by omega) (by norm_num)
  · omega

theorem crcByte_lt (c : Nat) (b : Byte) (h : c < 2 ^ 32) : crcByte 0x82F63B78 c b < 2 ^ 32 := by
  have hb : Nat.xor c b.toNat < 2 ^ 32 := Nat.xor_lt_two_pow h (by have := b.isLt; omega)
  unfold crcByte
  exact crcBit_lt _ (crcBit_lt _ (crcBit_lt _ (crcBit_lt _ (crcBit_lt _ (crcBit_lt _ (crcBit_lt _ (crcBit_lt _ hb)))))))

theorem crcFold_lt (l : List Byte) (c : Nat) (h : c < 2 ^ 32) : l.foldl (crcByte 0x82F63B78) c < 2 ^ 32 := by
  induction l generalizing c with
  | nil => exact h
  | cons b r ih => exact ih _ (crcByte_lt c b h)

theorem crc32c_lt (i : Nat) (l : List Byte) (h : i < 2 ^ 32) : crc32c i l < 2 ^ 32 :=
  Nat.xor_lt_two_pow (crcFold_lt l i h) (by norm_num)

/-- Every cell that leaves a port passes its CRC (R370). -/
theorem ucellOk_ulxSendCell (d : Dev) (q kind vc lseq : Nat) (pl : List Byte) : ucellOk (d.ulxSendCell q kind vc lseq pl).1 = true := by
  simp only [Dev.ulxSendCell, ucellOk]
  generalize hb : beBytes 8 _ ++ slice pl 0 244 = b
  have hl : b.length = 252 := by rw [← hb]; simp
  have hs : slice (b ++ beBytes 4 (crc32c 0xFFFFFFFF b)) 252 4 = beBytes 4 (crc32c 0xFFFFFFFF b) := by
    rw [← hl]; exact slice_append_right _ _ _ (by simp)
  have ht : (b ++ beBytes 4 (crc32c 0xFFFFFFFF b)).take 252 = b := by rw [← hl]; simp
  have := crc32c_lt 0xFFFFFFFF b (by norm_num)
  simp only [beAt, hs, beNat_beBytes, ht]
  simp [hl]
  omega

end Sys2Proof.Machine
end

