-- ==== Sys2Proof/Laws/Ops.lean ====
section
/-! SUPPORT. What recording an event can change: interrupts, error capture, the event log and counts touch registers, the
MSI-X structures, the log and the outputs, and nothing else; and which registers. -/

namespace Sys2Proof.Machine

/-- `b` differs from `a` at most in its registers, MSI-X structures, event log and outputs. -/
def Dev.Records (a b : Dev) : Prop := { b with csr := a.csr, msix := a.msix, log := a.log, out := a.out } = a

theorem Dev.Records.refl (a : Dev) : a.Records a := rfl

theorem Dev.Records.trans {a b c : Dev} (h1 : a.Records b) (h2 : b.Records c) : a.Records c := by
  unfold Dev.Records at *
  exact (congrArg (fun d : Dev => { d with csr := a.csr, msix := a.msix, log := a.log, out := a.out }) h2).trans h1

theorem Dev.Records.power {a b : Dev} (h : a.Records b) : b.power = a.power := by
  have := congrArg Dev.power h; exact this
theorem Dev.Records.modes {a b : Dev} (h : a.Records b) : b.modes = a.modes := by
  have := congrArg Dev.modes h; exact this
theorem Dev.Records.time {a b : Dev} (h : a.Records b) : b.time = a.time := by
  have := congrArg Dev.time h; exact this
theorem Dev.Records.hif {a b : Dev} (h : a.Records b) : b.hif = a.hif := by
  have := congrArg Dev.hif h; exact this
theorem Dev.Records.eng {a b : Dev} (h : a.Records b) : b.eng = a.eng := by
  have := congrArg Dev.eng h; exact this
theorem Dev.Records.tm {a b : Dev} (h : a.Records b) : b.tm = a.tm := by
  have := congrArg Dev.tm h; exact this
theorem Dev.Records.swc {a b : Dev} (h : a.Records b) : b.swc = a.swc := by
  have := congrArg Dev.swc h; exact this
theorem Dev.Records.car {a b : Dev} (h : a.Records b) : b.car = a.car := by
  have := congrArg Dev.car h; exact this
theorem Dev.Records.lkp {a b : Dev} (h : a.Records b) : b.lkp = a.lkp := by
  have := congrArg Dev.lkp h; exact this
theorem Dev.Records.ulx {a b : Dev} (h : a.Records b) : b.ulx = a.ulx := by
  have := congrArg Dev.ulx h; exact this
theorem Dev.Records.mods {a b : Dev} (h : a.Records b) : b.mods = a.mods := by
  have := congrArg Dev.mods h; exact this
theorem Dev.Records.hbms {a b : Dev} (h : a.Records b) : b.hbms = a.hbms := by
  have := congrArg Dev.hbms h; exact this
theorem Dev.Records.ews {a b : Dev} (h : a.Records b) : b.ews = a.ews := by
  have := congrArg Dev.ews h; exact this
theorem Dev.Records.fresh {a b : Dev} (h : a.Records b) : b.fresh = a.fresh := by
  have := congrArg Dev.fresh h; exact this
theorem Dev.Records.cs {a b : Dev} (h : a.Records b) : b.cs = a.cs := by
  have := congrArg Dev.cs h; exact this
theorem Dev.Records.rr {a b : Dev} (h : a.Records b) : b.rr = a.rr := by
  have := congrArg Dev.rr h; exact this
theorem Dev.Records.pgs {a b : Dev} (h : a.Records b) : b.pgs = a.pgs := by
  have := congrArg Dev.pgs h; exact this
theorem Dev.Records.rx {a b : Dev} (h : a.Records b) : b.rx = a.rx := by
  have := congrArg Dev.rx h; exact this
theorem Dev.Records.badFrames {a b : Dev} (h : a.Records b) : b.badFrames = a.badFrames := by
  have := congrArg Dev.badFrames h; exact this
theorem Dev.Records.buf {a b : Dev} (h : a.Records b) : b.buf = a.buf := by
  have := congrArg Dev.buf h; exact this
theorem Dev.Records.cells {a b : Dev} (h : a.Records b) : b.cells = a.cells := by
  have := congrArg Dev.cells h; exact this
theorem Dev.Records.bpms {a b : Dev} (h : a.Records b) : b.bpms = a.bpms := by
  have := congrArg Dev.bpms h; exact this
theorem Dev.Records.rings {a b : Dev} (h : a.Records b) : b.rings = a.rings := by
  have := congrArg Dev.rings h; exact this
theorem Dev.Records.peals {a b : Dev} (h : a.Records b) : b.peals = a.peals := by
  have := congrArg Dev.peals h; exact this
theorem Dev.Records.pealMem {a b : Dev} (h : a.Records b) : b.pealMem = a.pealMem := by
  have := congrArg Dev.pealMem h; exact this
theorem Dev.Records.hbmMem {a b : Dev} (h : a.Records b) : b.hbmMem = a.hbmMem := by
  have := congrArg Dev.hbmMem h; exact this
theorem Dev.Records.hbmBad {a b : Dev} (h : a.Records b) : b.hbmBad = a.hbmBad := by
  have := congrArg Dev.hbmBad h; exact this

/-! The operations -/

theorem Dev.setWord_records (d : Dev) (p o : Nat) (w : Word) : d.Records (d.setWord p o w) := rfl
theorem Dev.set_records (d : Dev) (p : Nat) (f : Fld) (v : Nat) : d.Records (d.set p f v) := rfl
theorem Dev.tally_records (d : Dev) (p : Nat) (f : Fld) (n : Nat) : d.Records (d.tally p f n) := rfl
theorem Dev.bump_records (d : Dev) (p : Nat) (f : Fld) (n : Nat) : d.Records (d.bump p f n) := by
  unfold Dev.bump
  split
  · rfl
  · exact d.tally_records p f n
theorem Dev.cnt_records (d : Dev) (p : Nat) (f : Fld) (k : Nat) : d.Records (d.cnt p f k) := d.bump_records p _ 1
theorem Dev.emit_records (d : Dev) (o : Out) : d.Records (d.emit o) := rfl

theorem Dev.sendMsix_records (d : Dev) (v : Nat) : d.Records (d.sendMsix v) := by
  unfold Dev.sendMsix
  split
  · rfl
  · split
    · rfl
    · exact d.emit_records _

theorem Dev.sendRoute_records (d : Dev) (p : Nat) : d.Records (d.sendRoute p) := by
  unfold Dev.sendRoute
  split
  · exact d.sendMsix_records _
  · rfl

theorem Dev.raiseInt_records (d : Dev) (p m : Nat) : d.Records (d.raiseInt p m) := by
  unfold Dev.raiseInt
  dsimp only
  split
  · exact (d.setWord_records _ _ _).trans (Dev.setWord_records _ _ _ _)
  · exact d.setWord_records _ _ _

theorem Dev.setInt_records (d : Dev) (p m : Nat) : d.Records (d.setInt p m) := by
  unfold Dev.setInt
  dsimp only
  split
  · exact (d.raiseInt_records p m).trans (Dev.sendRoute_records _ p)
  · exact d.raiseInt_records p m

theorem Dev.int_records (d : Dev) (p i : Nat) : d.Records (d.int p i) := d.setInt_records p _

/-- A step that happens only under a condition. -/
theorem Dev.Records.ite {a b c : Dev} (p : Prop) [Decidable p] (h1 : a.Records b) (h2 : a.Records c) : a.Records (if p then b else c) := by
  split
  · exact h1
  · exact h2

theorem Dev.pushLog_records (d : Dev) (r : LogRec) : d.Records (d.pushLog r) := by
  unfold Dev.pushLog
  dsimp only
  have e : ∀ (ring : List (List Word)) (latch : Option (List Word)) (v w : Nat),
      d.Records ((({ d with log := { d.log with ring := ring, latch := latch } } : Dev).set 0x04 F.ERR_LOG_SEQ_SEQ v).set 0x04 F.ERR_LOG_STAT_COUNT w) :=
    fun ring latch v w => ((show d.Records { d with log := { d.log with ring := ring, latch := latch } } from rfl).trans (Dev.set_records _ _ _ _)).trans (Dev.set_records _ _ _ _)
  have i : ∀ (x : Dev) (p : Prop) [Decidable p] (k : Nat), d.Records x → d.Records (if p then x.int 0x04 k else x) :=
    fun x p _ k h => h.trans (.ite p (x.int_records _ _) (.refl x))
  refine i _ _ _ (i _ _ _ (i _ _ _ ?_))
  refine (e _ _ _ _).trans (.ite _ ?_ (.refl _))
  exact (Dev.bump_records _ _ _ _).trans (Dev.int_records _ _ _)

theorem Dev.post_records (d : Dev) (r : LogRec) : d.Records (d.post r) := by
  unfold Dev.post
  dsimp only
  exact (d.bump_records _ _ _).trans (.ite _ (Dev.pushLog_records _ r) (.refl _))

theorem Dev.event_records (d : Dev) (p e c a b f : Nat) : d.Records (d.event p e c a b f) := d.post_records _

theorem Dev.capture_records (d : Dev) (c : Cap) : d.Records (d.capture c) := by
  unfold Dev.capture
  split
  · exact .refl d
  · dsimp only
    refine Dev.Records.trans ?_ (Dev.post_records _ _)
    refine .ite _ (d.setWord_records _ _ _) ?_
    refine Dev.Records.trans ?_ (Dev.int_records _ _ _)
    exact (((((((d.setWord_records _ _ _).trans (Dev.setWord_records _ _ _ _)).trans (Dev.setWord_records _ _ _ _)).trans
      (Dev.setWord_records _ _ _ _)).trans (Dev.setWord_records _ _ _ _)).trans (Dev.setWord_records _ _ _ _)).trans
      (Dev.setWord_records _ _ _ _)).trans (Dev.setWord_records _ _ _ _)

theorem Dev.err_records (d : Dev) (p k a b c : Nat) : d.Records (d.err p k a b c) := d.capture_records _

theorem Dev.eccCount_records (d : Dev) (m die : Nat) (e : Ecc) : d.Records (d.eccCount m die e) := by
  cases e
  · exact .refl d
  · exact (d.bump_records _ _ _).trans (Dev.cnt_records _ _ _ _)
  · exact d.bump_records _ _ _

/-! Registers -/

/-- What registers read as depends on the register store alone. -/
theorem Dev.word_congr {a b : Dev} (h : a.csr = b.csr) (p o : Nat) : a.word p o = b.word p o := by
  unfold Dev.word; rw [h]

theorem Dev.get_congr {a b : Dev} (h : a.csr = b.csr) (p : Nat) (f : Fld) : a.get p f = b.get p f := by
  unfold Dev.get; rw [Dev.word_congr h]

theorem Dev.word_sendRoute (d : Dev) (p q o : Nat) : (d.sendRoute p).word q o = d.word q o := by
  unfold Dev.sendRoute Dev.sendMsix
  split
  · split
    · rfl
    · split <;> rfl
  · rfl

/-- Setting interrupt bits writes INT_STAT and INT_FIRST of the page alone. -/
theorem Dev.word_setInt (d : Dev) (p m q o : Nat) (h1 : csrKey q o ≠ csrKey p 0x10) (h2 : csrKey q o ≠ csrKey p 0x1C) :
    (d.setInt p m).word q o = d.word q o := by
  have e : (d.raiseInt p m).word q o = d.word q o := by
    unfold Dev.raiseInt
    dsimp only
    split
    · rw [Dev.word_setWord_ne _ _ _ _ _ _ h2, Dev.word_setWord_ne _ _ _ _ _ _ h1]
    · rw [Dev.word_setWord_ne _ _ _ _ _ _ h1]
  unfold Dev.setInt
  dsimp only
  split
  · rw [Dev.word_sendRoute, e]
  · exact e

theorem Dev.word_set_ne (d : Dev) (p : Nat) (f : Fld) (v q o : Nat) (h : csrKey q o ≠ csrKey p f.off) : (d.set p f v).word q o = d.word q o :=
  Dev.word_setWord_ne _ _ _ _ _ _ h

/-- The pages without a function always count (R68). -/
theorem Dev.bump_eq_tally (d : Dev) (p : Nat) (f : Fld) (n : Nat) (h : hasFunction p = false) : d.bump p f n = d.tally p f n := by
  simp [Dev.bump, h]

/-- Posting to the event log writes registers of the ERR page alone. -/
theorem Dev.word_post (d : Dev) (r : LogRec) (q o : Nat) (hq : q ≠ 4) (ho : o < 65536) (hc : r.cls < 8) : (d.post r).word q o = d.word q o := by
  have k : ∀ f : Fld, f.off < 65536 → csrKey q o ≠ csrKey 4 f.off := fun f hf => by unfold csrKey; omega
  have si : ∀ (x : Dev) (p : Prop) [Decidable p] (i : Nat), (if p then x.int 4 i else x).word q o = x.word q o := by
    intro x p _ i
    split
    · exact x.word_setInt 4 _ q o (by unfold csrKey; omega) (by unfold csrKey; omega)
    · rfl
  have pl : ∀ x : Dev, (x.pushLog r).word q o = x.word q o := by
    intro x
    unfold Dev.pushLog
    dsimp only
    rw [si, si, si]
    split
    · rw [show ∀ y : Dev, (y.int 4 1).word q o = y.word q o from fun y => y.word_setInt 4 _ q o (by unfold csrKey; omega) (by unfold csrKey; omega)]
      rw [Dev.bump_eq_tally _ _ _ _ rfl]
      unfold Dev.tally
      rw [Dev.word_set_ne _ _ _ _ _ _ (k _ (by decide)), Dev.word_set_ne _ _ _ _ _ _ (k _ (by decide)), Dev.word_set_ne _ _ _ _ _ _ (k _ (by decide))]
      rfl
    · rw [Dev.word_set_ne _ _ _ _ _ _ (k _ (by decide)), Dev.word_set_ne _ _ _ _ _ _ (k _ (by decide))]
      rfl
  have hb : (d.bump 4 (F.ERR_CNT_COUNT.at (4 * r.cls))).word q o = d.word q o := by
    rw [Dev.bump_eq_tally _ _ _ _ rfl]
    exact Dev.word_set_ne _ _ _ _ _ _ (k _ (by simp [Fld.at, F.ERR_CNT_COUNT]; omega))
  unfold Dev.post
  dsimp only
  split
  · rw [pl, hb]
  · exact hb

end Sys2Proof.Machine
end

