-- ==== Sys2Proof/Laws/Memory.lean ====
section
/-! SUPPORT. The addressed memories: every operation that writes one keeps the canonical form of all, a read after a write of
the same place gives what was written, and a write leaves every other place as it was. -/

namespace Sys2Proof.Machine

/-- What the canonical form says, memory by memory. -/
theorem Memory.wf_iff (d : Dev) : Memory.wf d = true ↔
    Map.wf (fun _ => zeroCell) d.buf = true ∧ Map.wf (fun _ => CellEntry.init) d.cells = true ∧ Map.wf (fun _ => 0) d.cs.words = true ∧
      Map.wf (fun _ => 0) d.lkp.mem = true ∧ Map.wf (fun _ => 0) d.hbmMem = true ∧ Map.wf (fun _ => false) d.hbmBad = true := by
  unfold Memory.wf
  simp only [Bool.and_eq_true, and_assoc]

/-- The form depends on the memories alone. -/
theorem Memory.wf_congr {a b : Dev} (h1 : b.buf = a.buf) (h2 : b.cells = a.cells) (h3 : b.cs = a.cs) (h4 : b.lkp = a.lkp)
    (h5 : b.hbmMem = a.hbmMem) (h6 : b.hbmBad = a.hbmBad) : Memory.wf b = Memory.wf a := by
  unfold Memory.wf; rw [h1, h2, h3, h4, h5, h6]

/-- Recording an event touches no memory. -/
theorem Dev.Records.memory {a b : Dev} (h : a.Records b) : Memory.wf b = Memory.wf a :=
  Memory.wf_congr h.buf h.cells h.cs h.lkp h.hbmMem h.hbmBad

theorem Memory.wf_reset : Memory.wf Dev.reset = true := by decide

/-! Packet buffer -/

theorem Dev.writeCell_wf (d : Dev) (c : Nat) (b : List Byte) (h : Memory.wf d = true) : Memory.wf (d.writeCell c b) = true := by
  rw [Memory.wf_iff] at *
  exact ⟨Map.wr_wf _ _ _ _ h.1, h.2⟩

theorem Dev.setCell_wf (d : Dev) (c : Nat) (e : CellEntry) (h : Memory.wf d = true) : Memory.wf (d.setCell c e) = true := by
  rw [Memory.wf_iff] at *
  exact ⟨h.1, Map.wr_wf _ _ _ _ h.2.1, h.2.2⟩

@[simp] theorem Dev.cell_setCell (d : Dev) (c : Nat) (e : CellEntry) : (d.setCell c e).cell c = e := Map.rd_wr_same _ _ _ _

theorem Dev.cell_setCell_ne (d : Dev) (e : CellEntry) {c k : Nat} (h : k ≠ c) : (d.setCell c e).cell k = d.cell k :=
  Map.rd_wr_ne _ _ _ _ h

@[simp] theorem Dev.cellBytes_writeCell (d : Dev) (c : Nat) (b : List Byte) :
    (d.writeCell c b).cellBytes c = splice (d.cellBytes c) 0 (b.take 256) := Map.rd_wr_same _ _ _ _

theorem Dev.cellBytes_writeCell_ne (d : Dev) (b : List Byte) {c k : Nat} (h : k ≠ c) : (d.writeCell c b).cellBytes k = d.cellBytes k :=
  Map.rd_wr_ne _ _ _ _ h

/-! Lookup memory -/

theorem memPut_wf (n : Nat) : ∀ (m : Map Word) (a v : Nat), Map.wf (fun _ => 0) m = true → Map.wf (fun _ => 0) (memPut m a n v) = true := by
  induction n with
  | zero => intro m a v h; exact h
  | succ n ih => intro m a v h; exact ih _ _ _ (Map.wr_wf (fun _ => 0) _ _ _ h)

theorem memPut_out (n : Nat) : ∀ (m : Map Word) (a v k : Nat), k < a ∨ a + n ≤ k → Map.rd 0 (memPut m a n v) k = Map.rd 0 m k := by
  induction n with
  | zero => intro m a v k _; rfl
  | succ n ih =>
    intro m a v k h
    rw [memPut, ih _ _ _ _ (by omega), Map.rd_wr_ne _ _ _ _ (by omega)]

theorem memNat_memPut (n : Nat) : ∀ (m : Map Word) (a v : Nat), memNat (memPut m a n v) a n = v % 2 ^ (32 * n) := by
  induction n with
  | zero => intro m a v; simp [memNat, Nat.mod_one]
  | succ n ih =>
    intro m a v
    have e : Map.rd 0 (memPut (m.wr 0 a (BitVec.ofNat 32 v)) (a + 1) n (v / 2 ^ 32)) a = BitVec.ofNat 32 v := by
      rw [memPut_out _ _ _ _ _ (by omega), Map.rd_wr_same]
    rw [memPut, memNat, e, ih, BitVec.toNat_ofNat, show 32 * (n + 1) = 32 + 32 * n by ring, pow_add, Nat.mod_mul]

theorem Dev.setMem_wf (d : Dev) (m : Map Word) (hm : Map.wf (fun _ => 0) m = true) (h : Memory.wf d = true) : Memory.wf (d.setMem m) = true := by
  rw [Memory.wf_iff] at *
  exact ⟨h.1, h.2.1, h.2.2.1, hm, h.2.2.2.2⟩

theorem putEntry_wf (m : Map Word) (q : Nat) (w : List Word) (p e : Nat) (h : Map.wf (fun _ => 0) m = true) :
    Map.wf (fun _ => 0) (putEntry m q w p e) = true := memPut_wf _ _ _ _ h

/-! Control stores -/

theorem Dev.csCommit_wf (d : Dev) (c a : Nat) (v : Word) (h : Memory.wf d = true) : Memory.wf (d.csCommit c a v) = true := by
  unfold Dev.csCommit
  rw [Memory.wf_iff] at *
  exact ⟨h.1, h.2.1, Map.wr_wf (fun _ => 0) d.cs.words _ _ h.2.2.1, h.2.2.2⟩

/-! HBM -/

theorem Dev.markBad_wf (d : Dev) (h a : Nat) (hw : Memory.wf d = true) : Memory.wf (d.markBad h a) = true := by
  rw [Memory.wf_iff] at *
  exact ⟨hw.1, hw.2.1, hw.2.2.1, hw.2.2.2.1, hw.2.2.2.2.1, Map.wr_wf (fun _ => false) d.hbmBad (hbmKey h a) true hw.2.2.2.2.2⟩

theorem Dev.hbmPut_wf (n : Nat) : ∀ (d : Dev) (k : Nat) (l : List Byte), Memory.wf d = true → Memory.wf (d.hbmPut n k l) = true := by
  induction n with
  | zero => intro d k l h; exact h
  | succ n ih =>
    intro d k l h
    apply ih
    rw [Memory.wf_iff] at *
    exact ⟨h.1, h.2.1, h.2.2.1, h.2.2.2.1, Map.wr_wf (fun _ => 0) d.hbmMem k _ h.2.2.2.2.1, Map.wr_wf (fun _ => false) d.hbmBad k false h.2.2.2.2.2⟩

/-- A read of words beyond a write gives what stood there. -/
theorem Dev.hbmPut_out (n : Nat) : ∀ (d : Dev) (k j : Nat) (l : List Byte), j < k ∨ k + n ≤ j →
    Map.rd 0 (d.hbmPut n k l).hbmMem j = Map.rd 0 d.hbmMem j := by
  induction n with
  | zero => intro d k j l _; rfl
  | succ n ih =>
    intro d k j l h
    rw [Dev.hbmPut, ih _ _ _ _ (by omega)]
    exact Map.rd_wr_ne _ _ _ _ (by omega)

/-- A word of a write reads back as its four bytes. -/
theorem Dev.hbmPut_in (n : Nat) : ∀ (d : Dev) (k i : Nat) (l : List Byte), i < n →
    Map.rd 0 (d.hbmPut n k l).hbmMem (k + i) = BitVec.ofNat 32 (leNat ((l.drop (4 * i)).take 4)) := by
  induction n with
  | zero => intro d k i l h; omega
  | succ n ih =>
    intro d k i l h
    rw [Dev.hbmPut]
    cases i with
    | zero => rw [Nat.add_zero, Dev.hbmPut_out _ _ _ _ _ (by omega)]; exact Map.rd_wr_same _ _ _ _
    | succ i =>
      rw [show k + (i + 1) = k + 1 + i by omega, ih _ _ _ _ (by omega), List.drop_drop, show 4 + 4 * i = 4 * (i + 1) by ring]

theorem Dev.cnt_memory (d : Dev) (p : Nat) (f : Fld) (i : Nat) : Memory.wf (d.cnt p f i) = Memory.wf d :=
  (Dev.cnt_records d p f i).memory

theorem Dev.setHbm_memory (d : Dev) (h : Nat) (x : Hbm) : Memory.wf (d.setHbm h x) = Memory.wf d := by
  simp only [Memory.wf, Dev.setHbm]

theorem Dev.hbmWrite_wf (d : Dev) (h port a : Nat) (l : List Byte) (hw : Memory.wf d = true) :
    Memory.wf (d.hbmWrite h port a l) = true := by
  unfold Dev.hbmWrite
  dsimp only
  apply Dev.hbmPut_wf
  rw [Dev.setHbm_memory]
  split
  · rw [Dev.cnt_memory]; exact hw
  · exact hw

theorem Dev.cnt_hbmMem (d : Dev) (p : Nat) (f : Fld) (i : Nat) : (d.cnt p f i).hbmMem = d.hbmMem := (Dev.cnt_records d p f i).hbmMem

theorem Dev.hbmMem_setHbm (d : Dev) (h : Nat) (x : Hbm) : (d.setHbm h x).hbmMem = d.hbmMem := rfl

/-- A write is its words put over the memory as it was. -/
theorem Dev.hbmWrite_mem (d : Dev) (h port a : Nat) (l : List Byte) :
    ∃ d' : Dev, d'.hbmMem = d.hbmMem ∧ d.hbmWrite h port a l = d'.hbmPut (cdiv l.length 4) (hbmKey h a) l := by
  unfold Dev.hbmWrite
  dsimp only
  refine ⟨_, ?_, rfl⟩
  rw [Dev.hbmMem_setHbm]
  split
  · exact Dev.cnt_hbmMem _ _ _ _
  · rfl

theorem leNat_lt : ∀ l : List Byte, leNat l < 2 ^ (8 * l.length)
  | [] => by decide
  | b :: l => by
    have hb := b.isLt
    have := leNat_lt l
    simp only [List.length_cons, leNat]
    rw [show 8 * (l.length + 1) = 8 * l.length + 8 by ring, pow_add]
    omega

theorem leBytes_length (n : Nat) : ∀ v, (leBytes n v).length = n := by
  induction n with
  | zero => intro v; rfl
  | succ n ih => intro v; simp [leBytes, ih]

theorem leBytes_leNat : ∀ l : List Byte, leBytes l.length (leNat l) = l
  | [] => rfl
  | b :: l => by
    have hb := b.isLt
    have e1 : (b.toNat + 256 * leNat l) / 256 = leNat l := by omega
    have e2 : BitVec.ofNat 8 (b.toNat + 256 * leNat l) = b := by
      apply BitVec.eq_of_toNat_eq
      rw [BitVec.toNat_ofNat]; omega
    simp only [List.length_cons, leBytes, leNat, e1, e2, leBytes_leNat l]

/-- Whole words written read back. -/
theorem Dev.hbmRead_hbmWrite (d : Dev) (h port a n : Nat) (l : List Byte) (hl : l.length = 4 * n) :
    (d.hbmWrite h port a l).hbmRead h a (4 * n) = l := by
  obtain ⟨d', -, he⟩ := d.hbmWrite_mem h port a l
  have hc : cdiv l.length 4 = n := by unfold cdiv; omega
  have hc2 : cdiv (4 * n) 4 = n := by unfold cdiv; omega
  unfold Dev.hbmRead
  rw [he, hc, hc2]
  have hw : ∀ i ∈ List.range n, leBytes 4 (Map.rd 0 (d'.hbmPut n (hbmKey h a) l).hbmMem (hbmKey h a + i)).toNat = (l.drop (4 * i)).take 4 := by
    intro i hi
    have hi : i < n := by simpa using hi
    have hlen : ((l.drop (4 * i)).take 4).length = 4 := by simp; omega
    have hlt : leNat ((l.drop (4 * i)).take 4) < 2 ^ 32 := by
      have := leNat_lt ((l.drop (4 * i)).take 4)
      rw [hlen] at this; simpa using this
    rw [Dev.hbmPut_in _ _ _ _ _ hi, BitVec.toNat_ofNat, Nat.mod_eq_of_lt hlt]
    have := leBytes_leNat ((l.drop (4 * i)).take 4)
    rwa [hlen] at this
  rw [List.flatMap_congr hw]
  have hj : ∀ k, k ≤ n → ((List.range k).flatMap fun i => (l.drop (4 * i)).take 4) = l.take (4 * k) := by
    intro k
    induction k with
    | zero => intro _; simp
    | succ k ih =>
      intro hk
      rw [List.range_succ, List.flatMap_append, ih (by omega)]
      simp only [List.flatMap_cons, List.flatMap_nil, List.append_nil]
      rw [show 4 * (k + 1) = 4 * k + 4 by ring, List.take_add]
  rw [hj n (le_refl n), List.take_take, min_self, ← hl, List.take_length]

/-- A read beyond the written words gives what stood there. -/
theorem Dev.hbmRead_hbmWrite_out (d : Dev) (h port a x n : Nat) (l : List Byte) (ha : a % 4 = 0) (hx : x % 4 = 0)
    (hd : x + n ≤ a ∨ a + 4 * ((l.length + 3) / 4) ≤ x) : (d.hbmWrite h port a l).hbmRead h x n = d.hbmRead h x n := by
  obtain ⟨d', hm, he⟩ := d.hbmWrite_mem h port a l
  unfold Dev.hbmRead
  congr 1
  apply List.flatMap_congr
  intro i hi
  have hi : i < cdiv n 4 := by simpa using hi
  rw [he, Dev.hbmPut_out, hm]
  unfold cdiv hbmKey at *
  omega

/-! Apertures (R31) -/

theorem Dev.aptPut_wf (d : Dev) (s : AptSpace) (b : Nat) (v : Word) (h : Memory.wf d = true) : Memory.wf (d.aptPut s b v) = true := by
  cases s with
  | none => exact h
  | quad q => exact d.setMem_wf _ (Map.wr_wf _ _ _ _ ((Memory.wf_iff d).1 h).2.2.2.1) h
  | stack k => exact d.hbmWrite_wf _ _ _ _ h
  | buffer die => exact d.writeCell_wf _ _ h

end Sys2Proof.Machine
end

