-- ==== Sys2Proof/Laws/State.lean ====
section
/-! SUPPORT. What each update of one field of the block leaves of every other field: one lemma per update and field, all true
by unfolding, so that no later proof unfolds a record update. -/

namespace Sys2Proof.Machine

/-! emit -/

@[simp] theorem Dev.emit_csr (d : Dev) (o : Out) : (d.emit o).csr = d.csr := rfl
@[simp] theorem Dev.emit_msix (d : Dev) (o : Out) : (d.emit o).msix = d.msix := rfl
@[simp] theorem Dev.emit_ews (d : Dev) (o : Out) : (d.emit o).ews = d.ews := rfl
@[simp] theorem Dev.emit_cs (d : Dev) (o : Out) : (d.emit o).cs = d.cs := rfl
@[simp] theorem Dev.emit_log (d : Dev) (o : Out) : (d.emit o).log = d.log := rfl
@[simp] theorem Dev.emit_out (d : Dev) (o : Out) : (d.emit o).out = o :: d.out := rfl
@[simp] theorem Dev.emit_fresh (d : Dev) (o : Out) : (d.emit o).fresh = d.fresh := rfl
@[simp] theorem Dev.emit_rr (d : Dev) (o : Out) : (d.emit o).rr = d.rr := rfl
@[simp] theorem Dev.emit_power (d : Dev) (o : Out) : (d.emit o).power = d.power := rfl
@[simp] theorem Dev.emit_modes (d : Dev) (o : Out) : (d.emit o).modes = d.modes := rfl
@[simp] theorem Dev.emit_time (d : Dev) (o : Out) : (d.emit o).time = d.time := rfl
@[simp] theorem Dev.emit_pgs (d : Dev) (o : Out) : (d.emit o).pgs = d.pgs := rfl
@[simp] theorem Dev.emit_rx (d : Dev) (o : Out) : (d.emit o).rx = d.rx := rfl
@[simp] theorem Dev.emit_badFrames (d : Dev) (o : Out) : (d.emit o).badFrames = d.badFrames := rfl
@[simp] theorem Dev.emit_buf (d : Dev) (o : Out) : (d.emit o).buf = d.buf := rfl
@[simp] theorem Dev.emit_cells (d : Dev) (o : Out) : (d.emit o).cells = d.cells := rfl
@[simp] theorem Dev.emit_bpms (d : Dev) (o : Out) : (d.emit o).bpms = d.bpms := rfl
@[simp] theorem Dev.emit_rings (d : Dev) (o : Out) : (d.emit o).rings = d.rings := rfl
@[simp] theorem Dev.emit_swc (d : Dev) (o : Out) : (d.emit o).swc = d.swc := rfl
@[simp] theorem Dev.emit_tm (d : Dev) (o : Out) : (d.emit o).tm = d.tm := rfl
@[simp] theorem Dev.emit_peals (d : Dev) (o : Out) : (d.emit o).peals = d.peals := rfl
@[simp] theorem Dev.emit_pealMem (d : Dev) (o : Out) : (d.emit o).pealMem = d.pealMem := rfl
@[simp] theorem Dev.emit_car (d : Dev) (o : Out) : (d.emit o).car = d.car := rfl
@[simp] theorem Dev.emit_eng (d : Dev) (o : Out) : (d.emit o).eng = d.eng := rfl
@[simp] theorem Dev.emit_lkp (d : Dev) (o : Out) : (d.emit o).lkp = d.lkp := rfl
@[simp] theorem Dev.emit_hbms (d : Dev) (o : Out) : (d.emit o).hbms = d.hbms := rfl
@[simp] theorem Dev.emit_hbmMem (d : Dev) (o : Out) : (d.emit o).hbmMem = d.hbmMem := rfl
@[simp] theorem Dev.emit_hbmBad (d : Dev) (o : Out) : (d.emit o).hbmBad = d.hbmBad := rfl
@[simp] theorem Dev.emit_mods (d : Dev) (o : Out) : (d.emit o).mods = d.mods := rfl
@[simp] theorem Dev.emit_hif (d : Dev) (o : Out) : (d.emit o).hif = d.hif := rfl
@[simp] theorem Dev.emit_ulx (d : Dev) (o : Out) : (d.emit o).ulx = d.ulx := rfl
@[simp] theorem Dev.emit_word (d : Dev) (o : Out) (q k : Nat) : (d.emit o).word q k = d.word q k := rfl
@[simp] theorem Dev.emit_get (d : Dev) (o : Out) (q : Nat) (g : Fld) : (d.emit o).get q g = d.get q g := rfl
@[simp] theorem Dev.emit_domState (d : Dev) (o : Out) (i : Nat) : (d.emit o).domState i = d.domState i := rfl
@[simp] theorem Dev.emit_fn (d : Dev) (o : Out) (q : Nat) : (d.emit o).fn q = d.fn q := rfl
@[simp] theorem Dev.emit_mode (d : Dev) (o : Out) : (d.emit o).mode = d.mode := rfl

/-! setPower -/

@[simp] theorem Dev.setPower_csr (d : Dev) (x : Power) : (d.setPower x).csr = d.csr := rfl
@[simp] theorem Dev.setPower_msix (d : Dev) (x : Power) : (d.setPower x).msix = d.msix := rfl
@[simp] theorem Dev.setPower_ews (d : Dev) (x : Power) : (d.setPower x).ews = d.ews := rfl
@[simp] theorem Dev.setPower_cs (d : Dev) (x : Power) : (d.setPower x).cs = d.cs := rfl
@[simp] theorem Dev.setPower_log (d : Dev) (x : Power) : (d.setPower x).log = d.log := rfl
@[simp] theorem Dev.setPower_out (d : Dev) (x : Power) : (d.setPower x).out = d.out := rfl
@[simp] theorem Dev.setPower_fresh (d : Dev) (x : Power) : (d.setPower x).fresh = d.fresh := rfl
@[simp] theorem Dev.setPower_rr (d : Dev) (x : Power) : (d.setPower x).rr = d.rr := rfl
@[simp] theorem Dev.setPower_power (d : Dev) (x : Power) : (d.setPower x).power = x := rfl
@[simp] theorem Dev.setPower_modes (d : Dev) (x : Power) : (d.setPower x).modes = d.modes := rfl
@[simp] theorem Dev.setPower_time (d : Dev) (x : Power) : (d.setPower x).time = d.time := rfl
@[simp] theorem Dev.setPower_pgs (d : Dev) (x : Power) : (d.setPower x).pgs = d.pgs := rfl
@[simp] theorem Dev.setPower_rx (d : Dev) (x : Power) : (d.setPower x).rx = d.rx := rfl
@[simp] theorem Dev.setPower_badFrames (d : Dev) (x : Power) : (d.setPower x).badFrames = d.badFrames := rfl
@[simp] theorem Dev.setPower_buf (d : Dev) (x : Power) : (d.setPower x).buf = d.buf := rfl
@[simp] theorem Dev.setPower_cells (d : Dev) (x : Power) : (d.setPower x).cells = d.cells := rfl
@[simp] theorem Dev.setPower_bpms (d : Dev) (x : Power) : (d.setPower x).bpms = d.bpms := rfl
@[simp] theorem Dev.setPower_rings (d : Dev) (x : Power) : (d.setPower x).rings = d.rings := rfl
@[simp] theorem Dev.setPower_swc (d : Dev) (x : Power) : (d.setPower x).swc = d.swc := rfl
@[simp] theorem Dev.setPower_tm (d : Dev) (x : Power) : (d.setPower x).tm = d.tm := rfl
@[simp] theorem Dev.setPower_peals (d : Dev) (x : Power) : (d.setPower x).peals = d.peals := rfl
@[simp] theorem Dev.setPower_pealMem (d : Dev) (x : Power) : (d.setPower x).pealMem = d.pealMem := rfl
@[simp] theorem Dev.setPower_car (d : Dev) (x : Power) : (d.setPower x).car = d.car := rfl
@[simp] theorem Dev.setPower_eng (d : Dev) (x : Power) : (d.setPower x).eng = d.eng := rfl
@[simp] theorem Dev.setPower_lkp (d : Dev) (x : Power) : (d.setPower x).lkp = d.lkp := rfl
@[simp] theorem Dev.setPower_hbms (d : Dev) (x : Power) : (d.setPower x).hbms = d.hbms := rfl
@[simp] theorem Dev.setPower_hbmMem (d : Dev) (x : Power) : (d.setPower x).hbmMem = d.hbmMem := rfl
@[simp] theorem Dev.setPower_hbmBad (d : Dev) (x : Power) : (d.setPower x).hbmBad = d.hbmBad := rfl
@[simp] theorem Dev.setPower_mods (d : Dev) (x : Power) : (d.setPower x).mods = d.mods := rfl
@[simp] theorem Dev.setPower_hif (d : Dev) (x : Power) : (d.setPower x).hif = d.hif := rfl
@[simp] theorem Dev.setPower_ulx (d : Dev) (x : Power) : (d.setPower x).ulx = d.ulx := rfl
@[simp] theorem Dev.setPower_word (d : Dev) (x : Power) (q k : Nat) : (d.setPower x).word q k = d.word q k := rfl
@[simp] theorem Dev.setPower_get (d : Dev) (x : Power) (q : Nat) (g : Fld) : (d.setPower x).get q g = d.get q g := rfl
@[simp] theorem Dev.setPower_domState (d : Dev) (x : Power) (i : Nat) : (d.setPower x).domState i = d.domState i := rfl
@[simp] theorem Dev.setPower_fn (d : Dev) (x : Power) (q : Nat) : (d.setPower x).fn q = d.fn q := rfl
@[simp] theorem Dev.setPower_mode (d : Dev) (x : Power) : (d.setPower x).mode = d.mode := rfl

/-! setModes -/

@[simp] theorem Dev.setModes_csr (d : Dev) (x : Modes) : (d.setModes x).csr = d.csr := rfl
@[simp] theorem Dev.setModes_msix (d : Dev) (x : Modes) : (d.setModes x).msix = d.msix := rfl
@[simp] theorem Dev.setModes_ews (d : Dev) (x : Modes) : (d.setModes x).ews = d.ews := rfl
@[simp] theorem Dev.setModes_cs (d : Dev) (x : Modes) : (d.setModes x).cs = d.cs := rfl
@[simp] theorem Dev.setModes_log (d : Dev) (x : Modes) : (d.setModes x).log = d.log := rfl
@[simp] theorem Dev.setModes_out (d : Dev) (x : Modes) : (d.setModes x).out = d.out := rfl
@[simp] theorem Dev.setModes_fresh (d : Dev) (x : Modes) : (d.setModes x).fresh = d.fresh := rfl
@[simp] theorem Dev.setModes_rr (d : Dev) (x : Modes) : (d.setModes x).rr = d.rr := rfl
@[simp] theorem Dev.setModes_power (d : Dev) (x : Modes) : (d.setModes x).power = d.power := rfl
@[simp] theorem Dev.setModes_modes (d : Dev) (x : Modes) : (d.setModes x).modes = x := rfl
@[simp] theorem Dev.setModes_time (d : Dev) (x : Modes) : (d.setModes x).time = d.time := rfl
@[simp] theorem Dev.setModes_pgs (d : Dev) (x : Modes) : (d.setModes x).pgs = d.pgs := rfl
@[simp] theorem Dev.setModes_rx (d : Dev) (x : Modes) : (d.setModes x).rx = d.rx := rfl
@[simp] theorem Dev.setModes_badFrames (d : Dev) (x : Modes) : (d.setModes x).badFrames = d.badFrames := rfl
@[simp] theorem Dev.setModes_buf (d : Dev) (x : Modes) : (d.setModes x).buf = d.buf := rfl
@[simp] theorem Dev.setModes_cells (d : Dev) (x : Modes) : (d.setModes x).cells = d.cells := rfl
@[simp] theorem Dev.setModes_bpms (d : Dev) (x : Modes) : (d.setModes x).bpms = d.bpms := rfl
@[simp] theorem Dev.setModes_rings (d : Dev) (x : Modes) : (d.setModes x).rings = d.rings := rfl
@[simp] theorem Dev.setModes_swc (d : Dev) (x : Modes) : (d.setModes x).swc = d.swc := rfl
@[simp] theorem Dev.setModes_tm (d : Dev) (x : Modes) : (d.setModes x).tm = d.tm := rfl
@[simp] theorem Dev.setModes_peals (d : Dev) (x : Modes) : (d.setModes x).peals = d.peals := rfl
@[simp] theorem Dev.setModes_pealMem (d : Dev) (x : Modes) : (d.setModes x).pealMem = d.pealMem := rfl
@[simp] theorem Dev.setModes_car (d : Dev) (x : Modes) : (d.setModes x).car = d.car := rfl
@[simp] theorem Dev.setModes_eng (d : Dev) (x : Modes) : (d.setModes x).eng = d.eng := rfl
@[simp] theorem Dev.setModes_lkp (d : Dev) (x : Modes) : (d.setModes x).lkp = d.lkp := rfl
@[simp] theorem Dev.setModes_hbms (d : Dev) (x : Modes) : (d.setModes x).hbms = d.hbms := rfl
@[simp] theorem Dev.setModes_hbmMem (d : Dev) (x : Modes) : (d.setModes x).hbmMem = d.hbmMem := rfl
@[simp] theorem Dev.setModes_hbmBad (d : Dev) (x : Modes) : (d.setModes x).hbmBad = d.hbmBad := rfl
@[simp] theorem Dev.setModes_mods (d : Dev) (x : Modes) : (d.setModes x).mods = d.mods := rfl
@[simp] theorem Dev.setModes_hif (d : Dev) (x : Modes) : (d.setModes x).hif = d.hif := rfl
@[simp] theorem Dev.setModes_ulx (d : Dev) (x : Modes) : (d.setModes x).ulx = d.ulx := rfl
@[simp] theorem Dev.setModes_word (d : Dev) (x : Modes) (q k : Nat) : (d.setModes x).word q k = d.word q k := rfl
@[simp] theorem Dev.setModes_get (d : Dev) (x : Modes) (q : Nat) (g : Fld) : (d.setModes x).get q g = d.get q g := rfl
@[simp] theorem Dev.setModes_domState (d : Dev) (x : Modes) (i : Nat) : (d.setModes x).domState i = d.domState i := rfl
@[simp] theorem Dev.setModes_fn (d : Dev) (x : Modes) (q : Nat) : (d.setModes x).fn q = d.fn q := rfl
@[simp] theorem Dev.setModes_mode (d : Dev) (x : Modes) : (d.setModes x).mode = d.mode := rfl

/-! setTime -/

@[simp] theorem Dev.setTime_csr (d : Dev) (x : TimeUnit) : (d.setTime x).csr = d.csr := rfl
@[simp] theorem Dev.setTime_msix (d : Dev) (x : TimeUnit) : (d.setTime x).msix = d.msix := rfl
@[simp] theorem Dev.setTime_ews (d : Dev) (x : TimeUnit) : (d.setTime x).ews = d.ews := rfl
@[simp] theorem Dev.setTime_cs (d : Dev) (x : TimeUnit) : (d.setTime x).cs = d.cs := rfl
@[simp] theorem Dev.setTime_log (d : Dev) (x : TimeUnit) : (d.setTime x).log = d.log := rfl
@[simp] theorem Dev.setTime_out (d : Dev) (x : TimeUnit) : (d.setTime x).out = d.out := rfl
@[simp] theorem Dev.setTime_fresh (d : Dev) (x : TimeUnit) : (d.setTime x).fresh = d.fresh := rfl
@[simp] theorem Dev.setTime_rr (d : Dev) (x : TimeUnit) : (d.setTime x).rr = d.rr := rfl
@[simp] theorem Dev.setTime_power (d : Dev) (x : TimeUnit) : (d.setTime x).power = d.power := rfl
@[simp] theorem Dev.setTime_modes (d : Dev) (x : TimeUnit) : (d.setTime x).modes = d.modes := rfl
@[simp] theorem Dev.setTime_time (d : Dev) (x : TimeUnit) : (d.setTime x).time = x := rfl
@[simp] theorem Dev.setTime_pgs (d : Dev) (x : TimeUnit) : (d.setTime x).pgs = d.pgs := rfl
@[simp] theorem Dev.setTime_rx (d : Dev) (x : TimeUnit) : (d.setTime x).rx = d.rx := rfl
@[simp] theorem Dev.setTime_badFrames (d : Dev) (x : TimeUnit) : (d.setTime x).badFrames = d.badFrames := rfl
@[simp] theorem Dev.setTime_buf (d : Dev) (x : TimeUnit) : (d.setTime x).buf = d.buf := rfl
@[simp] theorem Dev.setTime_cells (d : Dev) (x : TimeUnit) : (d.setTime x).cells = d.cells := rfl
@[simp] theorem Dev.setTime_bpms (d : Dev) (x : TimeUnit) : (d.setTime x).bpms = d.bpms := rfl
@[simp] theorem Dev.setTime_rings (d : Dev) (x : TimeUnit) : (d.setTime x).rings = d.rings := rfl
@[simp] theorem Dev.setTime_swc (d : Dev) (x : TimeUnit) : (d.setTime x).swc = d.swc := rfl
@[simp] theorem Dev.setTime_tm (d : Dev) (x : TimeUnit) : (d.setTime x).tm = d.tm := rfl
@[simp] theorem Dev.setTime_peals (d : Dev) (x : TimeUnit) : (d.setTime x).peals = d.peals := rfl
@[simp] theorem Dev.setTime_pealMem (d : Dev) (x : TimeUnit) : (d.setTime x).pealMem = d.pealMem := rfl
@[simp] theorem Dev.setTime_car (d : Dev) (x : TimeUnit) : (d.setTime x).car = d.car := rfl
@[simp] theorem Dev.setTime_eng (d : Dev) (x : TimeUnit) : (d.setTime x).eng = d.eng := rfl
@[simp] theorem Dev.setTime_lkp (d : Dev) (x : TimeUnit) : (d.setTime x).lkp = d.lkp := rfl
@[simp] theorem Dev.setTime_hbms (d : Dev) (x : TimeUnit) : (d.setTime x).hbms = d.hbms := rfl
@[simp] theorem Dev.setTime_hbmMem (d : Dev) (x : TimeUnit) : (d.setTime x).hbmMem = d.hbmMem := rfl
@[simp] theorem Dev.setTime_hbmBad (d : Dev) (x : TimeUnit) : (d.setTime x).hbmBad = d.hbmBad := rfl
@[simp] theorem Dev.setTime_mods (d : Dev) (x : TimeUnit) : (d.setTime x).mods = d.mods := rfl
@[simp] theorem Dev.setTime_hif (d : Dev) (x : TimeUnit) : (d.setTime x).hif = d.hif := rfl
@[simp] theorem Dev.setTime_ulx (d : Dev) (x : TimeUnit) : (d.setTime x).ulx = d.ulx := rfl
@[simp] theorem Dev.setTime_word (d : Dev) (x : TimeUnit) (q k : Nat) : (d.setTime x).word q k = d.word q k := rfl
@[simp] theorem Dev.setTime_get (d : Dev) (x : TimeUnit) (q : Nat) (g : Fld) : (d.setTime x).get q g = d.get q g := rfl
@[simp] theorem Dev.setTime_domState (d : Dev) (x : TimeUnit) (i : Nat) : (d.setTime x).domState i = d.domState i := rfl
@[simp] theorem Dev.setTime_fn (d : Dev) (x : TimeUnit) (q : Nat) : (d.setTime x).fn q = d.fn q := rfl
@[simp] theorem Dev.setTime_mode (d : Dev) (x : TimeUnit) : (d.setTime x).mode = d.mode := rfl

/-! setHif -/

@[simp] theorem Dev.setHif_csr (d : Dev) (x : HostIf) : (d.setHif x).csr = d.csr := rfl
@[simp] theorem Dev.setHif_msix (d : Dev) (x : HostIf) : (d.setHif x).msix = d.msix := rfl
@[simp] theorem Dev.setHif_ews (d : Dev) (x : HostIf) : (d.setHif x).ews = d.ews := rfl
@[simp] theorem Dev.setHif_cs (d : Dev) (x : HostIf) : (d.setHif x).cs = d.cs := rfl
@[simp] theorem Dev.setHif_log (d : Dev) (x : HostIf) : (d.setHif x).log = d.log := rfl
@[simp] theorem Dev.setHif_out (d : Dev) (x : HostIf) : (d.setHif x).out = d.out := rfl
@[simp] theorem Dev.setHif_fresh (d : Dev) (x : HostIf) : (d.setHif x).fresh = d.fresh := rfl
@[simp] theorem Dev.setHif_rr (d : Dev) (x : HostIf) : (d.setHif x).rr = d.rr := rfl
@[simp] theorem Dev.setHif_power (d : Dev) (x : HostIf) : (d.setHif x).power = d.power := rfl
@[simp] theorem Dev.setHif_modes (d : Dev) (x : HostIf) : (d.setHif x).modes = d.modes := rfl
@[simp] theorem Dev.setHif_time (d : Dev) (x : HostIf) : (d.setHif x).time = d.time := rfl
@[simp] theorem Dev.setHif_pgs (d : Dev) (x : HostIf) : (d.setHif x).pgs = d.pgs := rfl
@[simp] theorem Dev.setHif_rx (d : Dev) (x : HostIf) : (d.setHif x).rx = d.rx := rfl
@[simp] theorem Dev.setHif_badFrames (d : Dev) (x : HostIf) : (d.setHif x).badFrames = d.badFrames := rfl
@[simp] theorem Dev.setHif_buf (d : Dev) (x : HostIf) : (d.setHif x).buf = d.buf := rfl
@[simp] theorem Dev.setHif_cells (d : Dev) (x : HostIf) : (d.setHif x).cells = d.cells := rfl
@[simp] theorem Dev.setHif_bpms (d : Dev) (x : HostIf) : (d.setHif x).bpms = d.bpms := rfl
@[simp] theorem Dev.setHif_rings (d : Dev) (x : HostIf) : (d.setHif x).rings = d.rings := rfl
@[simp] theorem Dev.setHif_swc (d : Dev) (x : HostIf) : (d.setHif x).swc = d.swc := rfl
@[simp] theorem Dev.setHif_tm (d : Dev) (x : HostIf) : (d.setHif x).tm = d.tm := rfl
@[simp] theorem Dev.setHif_peals (d : Dev) (x : HostIf) : (d.setHif x).peals = d.peals := rfl
@[simp] theorem Dev.setHif_pealMem (d : Dev) (x : HostIf) : (d.setHif x).pealMem = d.pealMem := rfl
@[simp] theorem Dev.setHif_car (d : Dev) (x : HostIf) : (d.setHif x).car = d.car := rfl
@[simp] theorem Dev.setHif_eng (d : Dev) (x : HostIf) : (d.setHif x).eng = d.eng := rfl
@[simp] theorem Dev.setHif_lkp (d : Dev) (x : HostIf) : (d.setHif x).lkp = d.lkp := rfl
@[simp] theorem Dev.setHif_hbms (d : Dev) (x : HostIf) : (d.setHif x).hbms = d.hbms := rfl
@[simp] theorem Dev.setHif_hbmMem (d : Dev) (x : HostIf) : (d.setHif x).hbmMem = d.hbmMem := rfl
@[simp] theorem Dev.setHif_hbmBad (d : Dev) (x : HostIf) : (d.setHif x).hbmBad = d.hbmBad := rfl
@[simp] theorem Dev.setHif_mods (d : Dev) (x : HostIf) : (d.setHif x).mods = d.mods := rfl
@[simp] theorem Dev.setHif_hif (d : Dev) (x : HostIf) : (d.setHif x).hif = x := rfl
@[simp] theorem Dev.setHif_ulx (d : Dev) (x : HostIf) : (d.setHif x).ulx = d.ulx := rfl
@[simp] theorem Dev.setHif_word (d : Dev) (x : HostIf) (q k : Nat) : (d.setHif x).word q k = d.word q k := rfl
@[simp] theorem Dev.setHif_get (d : Dev) (x : HostIf) (q : Nat) (g : Fld) : (d.setHif x).get q g = d.get q g := rfl
@[simp] theorem Dev.setHif_domState (d : Dev) (x : HostIf) (i : Nat) : (d.setHif x).domState i = d.domState i := rfl
@[simp] theorem Dev.setHif_fn (d : Dev) (x : HostIf) (q : Nat) : (d.setHif x).fn q = d.fn q := rfl
@[simp] theorem Dev.setHif_mode (d : Dev) (x : HostIf) : (d.setHif x).mode = d.mode := rfl

/-! setEng -/

@[simp] theorem Dev.setEng_csr (d : Dev) (x : Engine) : (d.setEng x).csr = d.csr := rfl
@[simp] theorem Dev.setEng_msix (d : Dev) (x : Engine) : (d.setEng x).msix = d.msix := rfl
@[simp] theorem Dev.setEng_ews (d : Dev) (x : Engine) : (d.setEng x).ews = d.ews := rfl
@[simp] theorem Dev.setEng_cs (d : Dev) (x : Engine) : (d.setEng x).cs = d.cs := rfl
@[simp] theorem Dev.setEng_log (d : Dev) (x : Engine) : (d.setEng x).log = d.log := rfl
@[simp] theorem Dev.setEng_out (d : Dev) (x : Engine) : (d.setEng x).out = d.out := rfl
@[simp] theorem Dev.setEng_fresh (d : Dev) (x : Engine) : (d.setEng x).fresh = d.fresh := rfl
@[simp] theorem Dev.setEng_rr (d : Dev) (x : Engine) : (d.setEng x).rr = d.rr := rfl
@[simp] theorem Dev.setEng_power (d : Dev) (x : Engine) : (d.setEng x).power = d.power := rfl
@[simp] theorem Dev.setEng_modes (d : Dev) (x : Engine) : (d.setEng x).modes = d.modes := rfl
@[simp] theorem Dev.setEng_time (d : Dev) (x : Engine) : (d.setEng x).time = d.time := rfl
@[simp] theorem Dev.setEng_pgs (d : Dev) (x : Engine) : (d.setEng x).pgs = d.pgs := rfl
@[simp] theorem Dev.setEng_rx (d : Dev) (x : Engine) : (d.setEng x).rx = d.rx := rfl
@[simp] theorem Dev.setEng_badFrames (d : Dev) (x : Engine) : (d.setEng x).badFrames = d.badFrames := rfl
@[simp] theorem Dev.setEng_buf (d : Dev) (x : Engine) : (d.setEng x).buf = d.buf := rfl
@[simp] theorem Dev.setEng_cells (d : Dev) (x : Engine) : (d.setEng x).cells = d.cells := rfl
@[simp] theorem Dev.setEng_bpms (d : Dev) (x : Engine) : (d.setEng x).bpms = d.bpms := rfl
@[simp] theorem Dev.setEng_rings (d : Dev) (x : Engine) : (d.setEng x).rings = d.rings := rfl
@[simp] theorem Dev.setEng_swc (d : Dev) (x : Engine) : (d.setEng x).swc = d.swc := rfl
@[simp] theorem Dev.setEng_tm (d : Dev) (x : Engine) : (d.setEng x).tm = d.tm := rfl
@[simp] theorem Dev.setEng_peals (d : Dev) (x : Engine) : (d.setEng x).peals = d.peals := rfl
@[simp] theorem Dev.setEng_pealMem (d : Dev) (x : Engine) : (d.setEng x).pealMem = d.pealMem := rfl
@[simp] theorem Dev.setEng_car (d : Dev) (x : Engine) : (d.setEng x).car = d.car := rfl
@[simp] theorem Dev.setEng_eng (d : Dev) (x : Engine) : (d.setEng x).eng = x := rfl
@[simp] theorem Dev.setEng_lkp (d : Dev) (x : Engine) : (d.setEng x).lkp = d.lkp := rfl
@[simp] theorem Dev.setEng_hbms (d : Dev) (x : Engine) : (d.setEng x).hbms = d.hbms := rfl
@[simp] theorem Dev.setEng_hbmMem (d : Dev) (x : Engine) : (d.setEng x).hbmMem = d.hbmMem := rfl
@[simp] theorem Dev.setEng_hbmBad (d : Dev) (x : Engine) : (d.setEng x).hbmBad = d.hbmBad := rfl
@[simp] theorem Dev.setEng_mods (d : Dev) (x : Engine) : (d.setEng x).mods = d.mods := rfl
@[simp] theorem Dev.setEng_hif (d : Dev) (x : Engine) : (d.setEng x).hif = d.hif := rfl
@[simp] theorem Dev.setEng_ulx (d : Dev) (x : Engine) : (d.setEng x).ulx = d.ulx := rfl
@[simp] theorem Dev.setEng_word (d : Dev) (x : Engine) (q k : Nat) : (d.setEng x).word q k = d.word q k := rfl
@[simp] theorem Dev.setEng_get (d : Dev) (x : Engine) (q : Nat) (g : Fld) : (d.setEng x).get q g = d.get q g := rfl
@[simp] theorem Dev.setEng_domState (d : Dev) (x : Engine) (i : Nat) : (d.setEng x).domState i = d.domState i := rfl
@[simp] theorem Dev.setEng_fn (d : Dev) (x : Engine) (q : Nat) : (d.setEng x).fn q = d.fn q := rfl
@[simp] theorem Dev.setEng_mode (d : Dev) (x : Engine) : (d.setEng x).mode = d.mode := rfl

/-! setSwc -/

@[simp] theorem Dev.setSwc_csr (d : Dev) (x : Swc) : (d.setSwc x).csr = d.csr := rfl
@[simp] theorem Dev.setSwc_msix (d : Dev) (x : Swc) : (d.setSwc x).msix = d.msix := rfl
@[simp] theorem Dev.setSwc_ews (d : Dev) (x : Swc) : (d.setSwc x).ews = d.ews := rfl
@[simp] theorem Dev.setSwc_cs (d : Dev) (x : Swc) : (d.setSwc x).cs = d.cs := rfl
@[simp] theorem Dev.setSwc_log (d : Dev) (x : Swc) : (d.setSwc x).log = d.log := rfl
@[simp] theorem Dev.setSwc_out (d : Dev) (x : Swc) : (d.setSwc x).out = d.out := rfl
@[simp] theorem Dev.setSwc_fresh (d : Dev) (x : Swc) : (d.setSwc x).fresh = d.fresh := rfl
@[simp] theorem Dev.setSwc_rr (d : Dev) (x : Swc) : (d.setSwc x).rr = d.rr := rfl
@[simp] theorem Dev.setSwc_power (d : Dev) (x : Swc) : (d.setSwc x).power = d.power := rfl
@[simp] theorem Dev.setSwc_modes (d : Dev) (x : Swc) : (d.setSwc x).modes = d.modes := rfl
@[simp] theorem Dev.setSwc_time (d : Dev) (x : Swc) : (d.setSwc x).time = d.time := rfl
@[simp] theorem Dev.setSwc_pgs (d : Dev) (x : Swc) : (d.setSwc x).pgs = d.pgs := rfl
@[simp] theorem Dev.setSwc_rx (d : Dev) (x : Swc) : (d.setSwc x).rx = d.rx := rfl
@[simp] theorem Dev.setSwc_badFrames (d : Dev) (x : Swc) : (d.setSwc x).badFrames = d.badFrames := rfl
@[simp] theorem Dev.setSwc_buf (d : Dev) (x : Swc) : (d.setSwc x).buf = d.buf := rfl
@[simp] theorem Dev.setSwc_cells (d : Dev) (x : Swc) : (d.setSwc x).cells = d.cells := rfl
@[simp] theorem Dev.setSwc_bpms (d : Dev) (x : Swc) : (d.setSwc x).bpms = d.bpms := rfl
@[simp] theorem Dev.setSwc_rings (d : Dev) (x : Swc) : (d.setSwc x).rings = d.rings := rfl
@[simp] theorem Dev.setSwc_swc (d : Dev) (x : Swc) : (d.setSwc x).swc = x := rfl
@[simp] theorem Dev.setSwc_tm (d : Dev) (x : Swc) : (d.setSwc x).tm = d.tm := rfl
@[simp] theorem Dev.setSwc_peals (d : Dev) (x : Swc) : (d.setSwc x).peals = d.peals := rfl
@[simp] theorem Dev.setSwc_pealMem (d : Dev) (x : Swc) : (d.setSwc x).pealMem = d.pealMem := rfl
@[simp] theorem Dev.setSwc_car (d : Dev) (x : Swc) : (d.setSwc x).car = d.car := rfl
@[simp] theorem Dev.setSwc_eng (d : Dev) (x : Swc) : (d.setSwc x).eng = d.eng := rfl
@[simp] theorem Dev.setSwc_lkp (d : Dev) (x : Swc) : (d.setSwc x).lkp = d.lkp := rfl
@[simp] theorem Dev.setSwc_hbms (d : Dev) (x : Swc) : (d.setSwc x).hbms = d.hbms := rfl
@[simp] theorem Dev.setSwc_hbmMem (d : Dev) (x : Swc) : (d.setSwc x).hbmMem = d.hbmMem := rfl
@[simp] theorem Dev.setSwc_hbmBad (d : Dev) (x : Swc) : (d.setSwc x).hbmBad = d.hbmBad := rfl
@[simp] theorem Dev.setSwc_mods (d : Dev) (x : Swc) : (d.setSwc x).mods = d.mods := rfl
@[simp] theorem Dev.setSwc_hif (d : Dev) (x : Swc) : (d.setSwc x).hif = d.hif := rfl
@[simp] theorem Dev.setSwc_ulx (d : Dev) (x : Swc) : (d.setSwc x).ulx = d.ulx := rfl
@[simp] theorem Dev.setSwc_word (d : Dev) (x : Swc) (q k : Nat) : (d.setSwc x).word q k = d.word q k := rfl
@[simp] theorem Dev.setSwc_get (d : Dev) (x : Swc) (q : Nat) (g : Fld) : (d.setSwc x).get q g = d.get q g := rfl
@[simp] theorem Dev.setSwc_domState (d : Dev) (x : Swc) (i : Nat) : (d.setSwc x).domState i = d.domState i := rfl
@[simp] theorem Dev.setSwc_fn (d : Dev) (x : Swc) (q : Nat) : (d.setSwc x).fn q = d.fn q := rfl
@[simp] theorem Dev.setSwc_mode (d : Dev) (x : Swc) : (d.setSwc x).mode = d.mode := rfl

/-! setTm -/

@[simp] theorem Dev.setTm_csr (d : Dev) (x : Tm) : (d.setTm x).csr = d.csr := rfl
@[simp] theorem Dev.setTm_msix (d : Dev) (x : Tm) : (d.setTm x).msix = d.msix := rfl
@[simp] theorem Dev.setTm_ews (d : Dev) (x : Tm) : (d.setTm x).ews = d.ews := rfl
@[simp] theorem Dev.setTm_cs (d : Dev) (x : Tm) : (d.setTm x).cs = d.cs := rfl
@[simp] theorem Dev.setTm_log (d : Dev) (x : Tm) : (d.setTm x).log = d.log := rfl
@[simp] theorem Dev.setTm_out (d : Dev) (x : Tm) : (d.setTm x).out = d.out := rfl
@[simp] theorem Dev.setTm_fresh (d : Dev) (x : Tm) : (d.setTm x).fresh = d.fresh := rfl
@[simp] theorem Dev.setTm_rr (d : Dev) (x : Tm) : (d.setTm x).rr = d.rr := rfl
@[simp] theorem Dev.setTm_power (d : Dev) (x : Tm) : (d.setTm x).power = d.power := rfl
@[simp] theorem Dev.setTm_modes (d : Dev) (x : Tm) : (d.setTm x).modes = d.modes := rfl
@[simp] theorem Dev.setTm_time (d : Dev) (x : Tm) : (d.setTm x).time = d.time := rfl
@[simp] theorem Dev.setTm_pgs (d : Dev) (x : Tm) : (d.setTm x).pgs = d.pgs := rfl
@[simp] theorem Dev.setTm_rx (d : Dev) (x : Tm) : (d.setTm x).rx = d.rx := rfl
@[simp] theorem Dev.setTm_badFrames (d : Dev) (x : Tm) : (d.setTm x).badFrames = d.badFrames := rfl
@[simp] theorem Dev.setTm_buf (d : Dev) (x : Tm) : (d.setTm x).buf = d.buf := rfl
@[simp] theorem Dev.setTm_cells (d : Dev) (x : Tm) : (d.setTm x).cells = d.cells := rfl
@[simp] theorem Dev.setTm_bpms (d : Dev) (x : Tm) : (d.setTm x).bpms = d.bpms := rfl
@[simp] theorem Dev.setTm_rings (d : Dev) (x : Tm) : (d.setTm x).rings = d.rings := rfl
@[simp] theorem Dev.setTm_swc (d : Dev) (x : Tm) : (d.setTm x).swc = d.swc := rfl
@[simp] theorem Dev.setTm_tm (d : Dev) (x : Tm) : (d.setTm x).tm = x := rfl
@[simp] theorem Dev.setTm_peals (d : Dev) (x : Tm) : (d.setTm x).peals = d.peals := rfl
@[simp] theorem Dev.setTm_pealMem (d : Dev) (x : Tm) : (d.setTm x).pealMem = d.pealMem := rfl
@[simp] theorem Dev.setTm_car (d : Dev) (x : Tm) : (d.setTm x).car = d.car := rfl
@[simp] theorem Dev.setTm_eng (d : Dev) (x : Tm) : (d.setTm x).eng = d.eng := rfl
@[simp] theorem Dev.setTm_lkp (d : Dev) (x : Tm) : (d.setTm x).lkp = d.lkp := rfl
@[simp] theorem Dev.setTm_hbms (d : Dev) (x : Tm) : (d.setTm x).hbms = d.hbms := rfl
@[simp] theorem Dev.setTm_hbmMem (d : Dev) (x : Tm) : (d.setTm x).hbmMem = d.hbmMem := rfl
@[simp] theorem Dev.setTm_hbmBad (d : Dev) (x : Tm) : (d.setTm x).hbmBad = d.hbmBad := rfl
@[simp] theorem Dev.setTm_mods (d : Dev) (x : Tm) : (d.setTm x).mods = d.mods := rfl
@[simp] theorem Dev.setTm_hif (d : Dev) (x : Tm) : (d.setTm x).hif = d.hif := rfl
@[simp] theorem Dev.setTm_ulx (d : Dev) (x : Tm) : (d.setTm x).ulx = d.ulx := rfl
@[simp] theorem Dev.setTm_word (d : Dev) (x : Tm) (q k : Nat) : (d.setTm x).word q k = d.word q k := rfl
@[simp] theorem Dev.setTm_get (d : Dev) (x : Tm) (q : Nat) (g : Fld) : (d.setTm x).get q g = d.get q g := rfl
@[simp] theorem Dev.setTm_domState (d : Dev) (x : Tm) (i : Nat) : (d.setTm x).domState i = d.domState i := rfl
@[simp] theorem Dev.setTm_fn (d : Dev) (x : Tm) (q : Nat) : (d.setTm x).fn q = d.fn q := rfl
@[simp] theorem Dev.setTm_mode (d : Dev) (x : Tm) : (d.setTm x).mode = d.mode := rfl

/-! setCar -/

@[simp] theorem Dev.setCar_csr (d : Dev) (x : Carillon) : (d.setCar x).csr = d.csr := rfl
@[simp] theorem Dev.setCar_msix (d : Dev) (x : Carillon) : (d.setCar x).msix = d.msix := rfl
@[simp] theorem Dev.setCar_ews (d : Dev) (x : Carillon) : (d.setCar x).ews = d.ews := rfl
@[simp] theorem Dev.setCar_cs (d : Dev) (x : Carillon) : (d.setCar x).cs = d.cs := rfl
@[simp] theorem Dev.setCar_log (d : Dev) (x : Carillon) : (d.setCar x).log = d.log := rfl
@[simp] theorem Dev.setCar_out (d : Dev) (x : Carillon) : (d.setCar x).out = d.out := rfl
@[simp] theorem Dev.setCar_fresh (d : Dev) (x : Carillon) : (d.setCar x).fresh = d.fresh := rfl
@[simp] theorem Dev.setCar_rr (d : Dev) (x : Carillon) : (d.setCar x).rr = d.rr := rfl
@[simp] theorem Dev.setCar_power (d : Dev) (x : Carillon) : (d.setCar x).power = d.power := rfl
@[simp] theorem Dev.setCar_modes (d : Dev) (x : Carillon) : (d.setCar x).modes = d.modes := rfl
@[simp] theorem Dev.setCar_time (d : Dev) (x : Carillon) : (d.setCar x).time = d.time := rfl
@[simp] theorem Dev.setCar_pgs (d : Dev) (x : Carillon) : (d.setCar x).pgs = d.pgs := rfl
@[simp] theorem Dev.setCar_rx (d : Dev) (x : Carillon) : (d.setCar x).rx = d.rx := rfl
@[simp] theorem Dev.setCar_badFrames (d : Dev) (x : Carillon) : (d.setCar x).badFrames = d.badFrames := rfl
@[simp] theorem Dev.setCar_buf (d : Dev) (x : Carillon) : (d.setCar x).buf = d.buf := rfl
@[simp] theorem Dev.setCar_cells (d : Dev) (x : Carillon) : (d.setCar x).cells = d.cells := rfl
@[simp] theorem Dev.setCar_bpms (d : Dev) (x : Carillon) : (d.setCar x).bpms = d.bpms := rfl
@[simp] theorem Dev.setCar_rings (d : Dev) (x : Carillon) : (d.setCar x).rings = d.rings := rfl
@[simp] theorem Dev.setCar_swc (d : Dev) (x : Carillon) : (d.setCar x).swc = d.swc := rfl
@[simp] theorem Dev.setCar_tm (d : Dev) (x : Carillon) : (d.setCar x).tm = d.tm := rfl
@[simp] theorem Dev.setCar_peals (d : Dev) (x : Carillon) : (d.setCar x).peals = d.peals := rfl
@[simp] theorem Dev.setCar_pealMem (d : Dev) (x : Carillon) : (d.setCar x).pealMem = d.pealMem := rfl
@[simp] theorem Dev.setCar_car (d : Dev) (x : Carillon) : (d.setCar x).car = x := rfl
@[simp] theorem Dev.setCar_eng (d : Dev) (x : Carillon) : (d.setCar x).eng = d.eng := rfl
@[simp] theorem Dev.setCar_lkp (d : Dev) (x : Carillon) : (d.setCar x).lkp = d.lkp := rfl
@[simp] theorem Dev.setCar_hbms (d : Dev) (x : Carillon) : (d.setCar x).hbms = d.hbms := rfl
@[simp] theorem Dev.setCar_hbmMem (d : Dev) (x : Carillon) : (d.setCar x).hbmMem = d.hbmMem := rfl
@[simp] theorem Dev.setCar_hbmBad (d : Dev) (x : Carillon) : (d.setCar x).hbmBad = d.hbmBad := rfl
@[simp] theorem Dev.setCar_mods (d : Dev) (x : Carillon) : (d.setCar x).mods = d.mods := rfl
@[simp] theorem Dev.setCar_hif (d : Dev) (x : Carillon) : (d.setCar x).hif = d.hif := rfl
@[simp] theorem Dev.setCar_ulx (d : Dev) (x : Carillon) : (d.setCar x).ulx = d.ulx := rfl
@[simp] theorem Dev.setCar_word (d : Dev) (x : Carillon) (q k : Nat) : (d.setCar x).word q k = d.word q k := rfl
@[simp] theorem Dev.setCar_get (d : Dev) (x : Carillon) (q : Nat) (g : Fld) : (d.setCar x).get q g = d.get q g := rfl
@[simp] theorem Dev.setCar_domState (d : Dev) (x : Carillon) (i : Nat) : (d.setCar x).domState i = d.domState i := rfl
@[simp] theorem Dev.setCar_fn (d : Dev) (x : Carillon) (q : Nat) : (d.setCar x).fn q = d.fn q := rfl
@[simp] theorem Dev.setCar_mode (d : Dev) (x : Carillon) : (d.setCar x).mode = d.mode := rfl

/-! setUlx -/

@[simp] theorem Dev.setUlx_csr (d : Dev) (x : Ulux) : (d.setUlx x).csr = d.csr := rfl
@[simp] theorem Dev.setUlx_msix (d : Dev) (x : Ulux) : (d.setUlx x).msix = d.msix := rfl
@[simp] theorem Dev.setUlx_ews (d : Dev) (x : Ulux) : (d.setUlx x).ews = d.ews := rfl
@[simp] theorem Dev.setUlx_cs (d : Dev) (x : Ulux) : (d.setUlx x).cs = d.cs := rfl
@[simp] theorem Dev.setUlx_log (d : Dev) (x : Ulux) : (d.setUlx x).log = d.log := rfl
@[simp] theorem Dev.setUlx_out (d : Dev) (x : Ulux) : (d.setUlx x).out = d.out := rfl
@[simp] theorem Dev.setUlx_fresh (d : Dev) (x : Ulux) : (d.setUlx x).fresh = d.fresh := rfl
@[simp] theorem Dev.setUlx_rr (d : Dev) (x : Ulux) : (d.setUlx x).rr = d.rr := rfl
@[simp] theorem Dev.setUlx_power (d : Dev) (x : Ulux) : (d.setUlx x).power = d.power := rfl
@[simp] theorem Dev.setUlx_modes (d : Dev) (x : Ulux) : (d.setUlx x).modes = d.modes := rfl
@[simp] theorem Dev.setUlx_time (d : Dev) (x : Ulux) : (d.setUlx x).time = d.time := rfl
@[simp] theorem Dev.setUlx_pgs (d : Dev) (x : Ulux) : (d.setUlx x).pgs = d.pgs := rfl
@[simp] theorem Dev.setUlx_rx (d : Dev) (x : Ulux) : (d.setUlx x).rx = d.rx := rfl
@[simp] theorem Dev.setUlx_badFrames (d : Dev) (x : Ulux) : (d.setUlx x).badFrames = d.badFrames := rfl
@[simp] theorem Dev.setUlx_buf (d : Dev) (x : Ulux) : (d.setUlx x).buf = d.buf := rfl
@[simp] theorem Dev.setUlx_cells (d : Dev) (x : Ulux) : (d.setUlx x).cells = d.cells := rfl
@[simp] theorem Dev.setUlx_bpms (d : Dev) (x : Ulux) : (d.setUlx x).bpms = d.bpms := rfl
@[simp] theorem Dev.setUlx_rings (d : Dev) (x : Ulux) : (d.setUlx x).rings = d.rings := rfl
@[simp] theorem Dev.setUlx_swc (d : Dev) (x : Ulux) : (d.setUlx x).swc = d.swc := rfl
@[simp] theorem Dev.setUlx_tm (d : Dev) (x : Ulux) : (d.setUlx x).tm = d.tm := rfl
@[simp] theorem Dev.setUlx_peals (d : Dev) (x : Ulux) : (d.setUlx x).peals = d.peals := rfl
@[simp] theorem Dev.setUlx_pealMem (d : Dev) (x : Ulux) : (d.setUlx x).pealMem = d.pealMem := rfl
@[simp] theorem Dev.setUlx_car (d : Dev) (x : Ulux) : (d.setUlx x).car = d.car := rfl
@[simp] theorem Dev.setUlx_eng (d : Dev) (x : Ulux) : (d.setUlx x).eng = d.eng := rfl
@[simp] theorem Dev.setUlx_lkp (d : Dev) (x : Ulux) : (d.setUlx x).lkp = d.lkp := rfl
@[simp] theorem Dev.setUlx_hbms (d : Dev) (x : Ulux) : (d.setUlx x).hbms = d.hbms := rfl
@[simp] theorem Dev.setUlx_hbmMem (d : Dev) (x : Ulux) : (d.setUlx x).hbmMem = d.hbmMem := rfl
@[simp] theorem Dev.setUlx_hbmBad (d : Dev) (x : Ulux) : (d.setUlx x).hbmBad = d.hbmBad := rfl
@[simp] theorem Dev.setUlx_mods (d : Dev) (x : Ulux) : (d.setUlx x).mods = d.mods := rfl
@[simp] theorem Dev.setUlx_hif (d : Dev) (x : Ulux) : (d.setUlx x).hif = d.hif := rfl
@[simp] theorem Dev.setUlx_ulx (d : Dev) (x : Ulux) : (d.setUlx x).ulx = x := rfl
@[simp] theorem Dev.setUlx_word (d : Dev) (x : Ulux) (q k : Nat) : (d.setUlx x).word q k = d.word q k := rfl
@[simp] theorem Dev.setUlx_get (d : Dev) (x : Ulux) (q : Nat) (g : Fld) : (d.setUlx x).get q g = d.get q g := rfl
@[simp] theorem Dev.setUlx_domState (d : Dev) (x : Ulux) (i : Nat) : (d.setUlx x).domState i = d.domState i := rfl
@[simp] theorem Dev.setUlx_fn (d : Dev) (x : Ulux) (q : Nat) : (d.setUlx x).fn q = d.fn q := rfl
@[simp] theorem Dev.setUlx_mode (d : Dev) (x : Ulux) : (d.setUlx x).mode = d.mode := rfl

/-! setMem -/

@[simp] theorem Dev.setMem_csr (d : Dev) (m : Map Word) : (d.setMem m).csr = d.csr := rfl
@[simp] theorem Dev.setMem_msix (d : Dev) (m : Map Word) : (d.setMem m).msix = d.msix := rfl
@[simp] theorem Dev.setMem_ews (d : Dev) (m : Map Word) : (d.setMem m).ews = d.ews := rfl
@[simp] theorem Dev.setMem_cs (d : Dev) (m : Map Word) : (d.setMem m).cs = d.cs := rfl
@[simp] theorem Dev.setMem_log (d : Dev) (m : Map Word) : (d.setMem m).log = d.log := rfl
@[simp] theorem Dev.setMem_out (d : Dev) (m : Map Word) : (d.setMem m).out = d.out := rfl
@[simp] theorem Dev.setMem_fresh (d : Dev) (m : Map Word) : (d.setMem m).fresh = d.fresh := rfl
@[simp] theorem Dev.setMem_rr (d : Dev) (m : Map Word) : (d.setMem m).rr = d.rr := rfl
@[simp] theorem Dev.setMem_power (d : Dev) (m : Map Word) : (d.setMem m).power = d.power := rfl
@[simp] theorem Dev.setMem_modes (d : Dev) (m : Map Word) : (d.setMem m).modes = d.modes := rfl
@[simp] theorem Dev.setMem_time (d : Dev) (m : Map Word) : (d.setMem m).time = d.time := rfl
@[simp] theorem Dev.setMem_pgs (d : Dev) (m : Map Word) : (d.setMem m).pgs = d.pgs := rfl
@[simp] theorem Dev.setMem_rx (d : Dev) (m : Map Word) : (d.setMem m).rx = d.rx := rfl
@[simp] theorem Dev.setMem_badFrames (d : Dev) (m : Map Word) : (d.setMem m).badFrames = d.badFrames := rfl
@[simp] theorem Dev.setMem_buf (d : Dev) (m : Map Word) : (d.setMem m).buf = d.buf := rfl
@[simp] theorem Dev.setMem_cells (d : Dev) (m : Map Word) : (d.setMem m).cells = d.cells := rfl
@[simp] theorem Dev.setMem_bpms (d : Dev) (m : Map Word) : (d.setMem m).bpms = d.bpms := rfl
@[simp] theorem Dev.setMem_rings (d : Dev) (m : Map Word) : (d.setMem m).rings = d.rings := rfl
@[simp] theorem Dev.setMem_swc (d : Dev) (m : Map Word) : (d.setMem m).swc = d.swc := rfl
@[simp] theorem Dev.setMem_tm (d : Dev) (m : Map Word) : (d.setMem m).tm = d.tm := rfl
@[simp] theorem Dev.setMem_peals (d : Dev) (m : Map Word) : (d.setMem m).peals = d.peals := rfl
@[simp] theorem Dev.setMem_pealMem (d : Dev) (m : Map Word) : (d.setMem m).pealMem = d.pealMem := rfl
@[simp] theorem Dev.setMem_car (d : Dev) (m : Map Word) : (d.setMem m).car = d.car := rfl
@[simp] theorem Dev.setMem_eng (d : Dev) (m : Map Word) : (d.setMem m).eng = d.eng := rfl
@[simp] theorem Dev.setMem_hbms (d : Dev) (m : Map Word) : (d.setMem m).hbms = d.hbms := rfl
@[simp] theorem Dev.setMem_hbmMem (d : Dev) (m : Map Word) : (d.setMem m).hbmMem = d.hbmMem := rfl
@[simp] theorem Dev.setMem_hbmBad (d : Dev) (m : Map Word) : (d.setMem m).hbmBad = d.hbmBad := rfl
@[simp] theorem Dev.setMem_mods (d : Dev) (m : Map Word) : (d.setMem m).mods = d.mods := rfl
@[simp] theorem Dev.setMem_hif (d : Dev) (m : Map Word) : (d.setMem m).hif = d.hif := rfl
@[simp] theorem Dev.setMem_ulx (d : Dev) (m : Map Word) : (d.setMem m).ulx = d.ulx := rfl
@[simp] theorem Dev.setMem_word (d : Dev) (m : Map Word) (q k : Nat) : (d.setMem m).word q k = d.word q k := rfl
@[simp] theorem Dev.setMem_get (d : Dev) (m : Map Word) (q : Nat) (g : Fld) : (d.setMem m).get q g = d.get q g := rfl
@[simp] theorem Dev.setMem_domState (d : Dev) (m : Map Word) (i : Nat) : (d.setMem m).domState i = d.domState i := rfl
@[simp] theorem Dev.setMem_fn (d : Dev) (m : Map Word) (q : Nat) : (d.setMem m).fn q = d.fn q := rfl
@[simp] theorem Dev.setMem_mode (d : Dev) (m : Map Word) : (d.setMem m).mode = d.mode := rfl

/-! setEngine -/

@[simp] theorem Dev.setEngine_csr (d : Dev) (q : Nat) (x : Lkp) : (d.setEngine q x).csr = d.csr := rfl
@[simp] theorem Dev.setEngine_msix (d : Dev) (q : Nat) (x : Lkp) : (d.setEngine q x).msix = d.msix := rfl
@[simp] theorem Dev.setEngine_ews (d : Dev) (q : Nat) (x : Lkp) : (d.setEngine q x).ews = d.ews := rfl
@[simp] theorem Dev.setEngine_cs (d : Dev) (q : Nat) (x : Lkp) : (d.setEngine q x).cs = d.cs := rfl
@[simp] theorem Dev.setEngine_log (d : Dev) (q : Nat) (x : Lkp) : (d.setEngine q x).log = d.log := rfl
@[simp] theorem Dev.setEngine_out (d : Dev) (q : Nat) (x : Lkp) : (d.setEngine q x).out = d.out := rfl
@[simp] theorem Dev.setEngine_fresh (d : Dev) (q : Nat) (x : Lkp) : (d.setEngine q x).fresh = d.fresh := rfl
@[simp] theorem Dev.setEngine_rr (d : Dev) (q : Nat) (x : Lkp) : (d.setEngine q x).rr = d.rr := rfl
@[simp] theorem Dev.setEngine_power (d : Dev) (q : Nat) (x : Lkp) : (d.setEngine q x).power = d.power := rfl
@[simp] theorem Dev.setEngine_modes (d : Dev) (q : Nat) (x : Lkp) : (d.setEngine q x).modes = d.modes := rfl
@[simp] theorem Dev.setEngine_time (d : Dev) (q : Nat) (x : Lkp) : (d.setEngine q x).time = d.time := rfl
@[simp] theorem Dev.setEngine_pgs (d : Dev) (q : Nat) (x : Lkp) : (d.setEngine q x).pgs = d.pgs := rfl
@[simp] theorem Dev.setEngine_rx (d : Dev) (q : Nat) (x : Lkp) : (d.setEngine q x).rx = d.rx := rfl
@[simp] theorem Dev.setEngine_badFrames (d : Dev) (q : Nat) (x : Lkp) : (d.setEngine q x).badFrames = d.badFrames := rfl
@[simp] theorem Dev.setEngine_buf (d : Dev) (q : Nat) (x : Lkp) : (d.setEngine q x).buf = d.buf := rfl
@[simp] theorem Dev.setEngine_cells (d : Dev) (q : Nat) (x : Lkp) : (d.setEngine q x).cells = d.cells := rfl
@[simp] theorem Dev.setEngine_bpms (d : Dev) (q : Nat) (x : Lkp) : (d.setEngine q x).bpms = d.bpms := rfl
@[simp] theorem Dev.setEngine_rings (d : Dev) (q : Nat) (x : Lkp) : (d.setEngine q x).rings = d.rings := rfl
@[simp] theorem Dev.setEngine_swc (d : Dev) (q : Nat) (x : Lkp) : (d.setEngine q x).swc = d.swc := rfl
@[simp] theorem Dev.setEngine_tm (d : Dev) (q : Nat) (x : Lkp) : (d.setEngine q x).tm = d.tm := rfl
@[simp] theorem Dev.setEngine_peals (d : Dev) (q : Nat) (x : Lkp) : (d.setEngine q x).peals = d.peals := rfl
@[simp] theorem Dev.setEngine_pealMem (d : Dev) (q : Nat) (x : Lkp) : (d.setEngine q x).pealMem = d.pealMem := rfl
@[simp] theorem Dev.setEngine_car (d : Dev) (q : Nat) (x : Lkp) : (d.setEngine q x).car = d.car := rfl
@[simp] theorem Dev.setEngine_eng (d : Dev) (q : Nat) (x : Lkp) : (d.setEngine q x).eng = d.eng := rfl
@[simp] theorem Dev.setEngine_hbms (d : Dev) (q : Nat) (x : Lkp) : (d.setEngine q x).hbms = d.hbms := rfl
@[simp] theorem Dev.setEngine_hbmMem (d : Dev) (q : Nat) (x : Lkp) : (d.setEngine q x).hbmMem = d.hbmMem := rfl
@[simp] theorem Dev.setEngine_hbmBad (d : Dev) (q : Nat) (x : Lkp) : (d.setEngine q x).hbmBad = d.hbmBad := rfl
@[simp] theorem Dev.setEngine_mods (d : Dev) (q : Nat) (x : Lkp) : (d.setEngine q x).mods = d.mods := rfl
@[simp] theorem Dev.setEngine_hif (d : Dev) (q : Nat) (x : Lkp) : (d.setEngine q x).hif = d.hif := rfl
@[simp] theorem Dev.setEngine_ulx (d : Dev) (q : Nat) (x : Lkp) : (d.setEngine q x).ulx = d.ulx := rfl
@[simp] theorem Dev.setEngine_word (d : Dev) (q : Nat) (x : Lkp) (p k : Nat) : (d.setEngine q x).word p k = d.word p k := rfl
@[simp] theorem Dev.setEngine_get (d : Dev) (q : Nat) (x : Lkp) (p : Nat) (g : Fld) : (d.setEngine q x).get p g = d.get p g := rfl
@[simp] theorem Dev.setEngine_domState (d : Dev) (q : Nat) (x : Lkp) (i : Nat) : (d.setEngine q x).domState i = d.domState i := rfl
@[simp] theorem Dev.setEngine_fn (d : Dev) (q : Nat) (x : Lkp) (p : Nat) : (d.setEngine q x).fn p = d.fn p := rfl
@[simp] theorem Dev.setEngine_mode (d : Dev) (q : Nat) (x : Lkp) : (d.setEngine q x).mode = d.mode := rfl

/-! setCage -/

@[simp] theorem Dev.setCage_csr (d : Dev) (p : Nat) (x : Cage) : (d.setCage p x).csr = d.csr := rfl
@[simp] theorem Dev.setCage_msix (d : Dev) (p : Nat) (x : Cage) : (d.setCage p x).msix = d.msix := rfl
@[simp] theorem Dev.setCage_ews (d : Dev) (p : Nat) (x : Cage) : (d.setCage p x).ews = d.ews := rfl
@[simp] theorem Dev.setCage_cs (d : Dev) (p : Nat) (x : Cage) : (d.setCage p x).cs = d.cs := rfl
@[simp] theorem Dev.setCage_log (d : Dev) (p : Nat) (x : Cage) : (d.setCage p x).log = d.log := rfl
@[simp] theorem Dev.setCage_out (d : Dev) (p : Nat) (x : Cage) : (d.setCage p x).out = d.out := rfl
@[simp] theorem Dev.setCage_fresh (d : Dev) (p : Nat) (x : Cage) : (d.setCage p x).fresh = d.fresh := rfl
@[simp] theorem Dev.setCage_rr (d : Dev) (p : Nat) (x : Cage) : (d.setCage p x).rr = d.rr := rfl
@[simp] theorem Dev.setCage_power (d : Dev) (p : Nat) (x : Cage) : (d.setCage p x).power = d.power := rfl
@[simp] theorem Dev.setCage_modes (d : Dev) (p : Nat) (x : Cage) : (d.setCage p x).modes = d.modes := rfl
@[simp] theorem Dev.setCage_time (d : Dev) (p : Nat) (x : Cage) : (d.setCage p x).time = d.time := rfl
@[simp] theorem Dev.setCage_pgs (d : Dev) (p : Nat) (x : Cage) : (d.setCage p x).pgs = d.pgs := rfl
@[simp] theorem Dev.setCage_rx (d : Dev) (p : Nat) (x : Cage) : (d.setCage p x).rx = d.rx := rfl
@[simp] theorem Dev.setCage_badFrames (d : Dev) (p : Nat) (x : Cage) : (d.setCage p x).badFrames = d.badFrames := rfl
@[simp] theorem Dev.setCage_buf (d : Dev) (p : Nat) (x : Cage) : (d.setCage p x).buf = d.buf := rfl
@[simp] theorem Dev.setCage_cells (d : Dev) (p : Nat) (x : Cage) : (d.setCage p x).cells = d.cells := rfl
@[simp] theorem Dev.setCage_bpms (d : Dev) (p : Nat) (x : Cage) : (d.setCage p x).bpms = d.bpms := rfl
@[simp] theorem Dev.setCage_rings (d : Dev) (p : Nat) (x : Cage) : (d.setCage p x).rings = d.rings := rfl
@[simp] theorem Dev.setCage_swc (d : Dev) (p : Nat) (x : Cage) : (d.setCage p x).swc = d.swc := rfl
@[simp] theorem Dev.setCage_tm (d : Dev) (p : Nat) (x : Cage) : (d.setCage p x).tm = d.tm := rfl
@[simp] theorem Dev.setCage_peals (d : Dev) (p : Nat) (x : Cage) : (d.setCage p x).peals = d.peals := rfl
@[simp] theorem Dev.setCage_pealMem (d : Dev) (p : Nat) (x : Cage) : (d.setCage p x).pealMem = d.pealMem := rfl
@[simp] theorem Dev.setCage_car (d : Dev) (p : Nat) (x : Cage) : (d.setCage p x).car = d.car := rfl
@[simp] theorem Dev.setCage_eng (d : Dev) (p : Nat) (x : Cage) : (d.setCage p x).eng = d.eng := rfl
@[simp] theorem Dev.setCage_lkp (d : Dev) (p : Nat) (x : Cage) : (d.setCage p x).lkp = d.lkp := rfl
@[simp] theorem Dev.setCage_hbms (d : Dev) (p : Nat) (x : Cage) : (d.setCage p x).hbms = d.hbms := rfl
@[simp] theorem Dev.setCage_hbmMem (d : Dev) (p : Nat) (x : Cage) : (d.setCage p x).hbmMem = d.hbmMem := rfl
@[simp] theorem Dev.setCage_hbmBad (d : Dev) (p : Nat) (x : Cage) : (d.setCage p x).hbmBad = d.hbmBad := rfl
@[simp] theorem Dev.setCage_hif (d : Dev) (p : Nat) (x : Cage) : (d.setCage p x).hif = d.hif := rfl
@[simp] theorem Dev.setCage_ulx (d : Dev) (p : Nat) (x : Cage) : (d.setCage p x).ulx = d.ulx := rfl
@[simp] theorem Dev.setCage_word (d : Dev) (p : Nat) (x : Cage) (q k : Nat) : (d.setCage p x).word q k = d.word q k := rfl
@[simp] theorem Dev.setCage_get (d : Dev) (p : Nat) (x : Cage) (q : Nat) (g : Fld) : (d.setCage p x).get q g = d.get q g := rfl
@[simp] theorem Dev.setCage_domState (d : Dev) (p : Nat) (x : Cage) (i : Nat) : (d.setCage p x).domState i = d.domState i := rfl
@[simp] theorem Dev.setCage_fn (d : Dev) (p : Nat) (x : Cage) (q : Nat) : (d.setCage p x).fn q = d.fn q := rfl
@[simp] theorem Dev.setCage_mode (d : Dev) (p : Nat) (x : Cage) : (d.setCage p x).mode = d.mode := rfl

/-! setBusTries -/

@[simp] theorem Dev.setBusTries_csr (d : Dev) (m n : Nat) : (d.setBusTries m n).csr = d.csr := rfl
@[simp] theorem Dev.setBusTries_msix (d : Dev) (m n : Nat) : (d.setBusTries m n).msix = d.msix := rfl
@[simp] theorem Dev.setBusTries_ews (d : Dev) (m n : Nat) : (d.setBusTries m n).ews = d.ews := rfl
@[simp] theorem Dev.setBusTries_cs (d : Dev) (m n : Nat) : (d.setBusTries m n).cs = d.cs := rfl
@[simp] theorem Dev.setBusTries_log (d : Dev) (m n : Nat) : (d.setBusTries m n).log = d.log := rfl
@[simp] theorem Dev.setBusTries_out (d : Dev) (m n : Nat) : (d.setBusTries m n).out = d.out := rfl
@[simp] theorem Dev.setBusTries_fresh (d : Dev) (m n : Nat) : (d.setBusTries m n).fresh = d.fresh := rfl
@[simp] theorem Dev.setBusTries_rr (d : Dev) (m n : Nat) : (d.setBusTries m n).rr = d.rr := rfl
@[simp] theorem Dev.setBusTries_power (d : Dev) (m n : Nat) : (d.setBusTries m n).power = d.power := rfl
@[simp] theorem Dev.setBusTries_modes (d : Dev) (m n : Nat) : (d.setBusTries m n).modes = d.modes := rfl
@[simp] theorem Dev.setBusTries_time (d : Dev) (m n : Nat) : (d.setBusTries m n).time = d.time := rfl
@[simp] theorem Dev.setBusTries_pgs (d : Dev) (m n : Nat) : (d.setBusTries m n).pgs = d.pgs := rfl
@[simp] theorem Dev.setBusTries_rx (d : Dev) (m n : Nat) : (d.setBusTries m n).rx = d.rx := rfl
@[simp] theorem Dev.setBusTries_badFrames (d : Dev) (m n : Nat) : (d.setBusTries m n).badFrames = d.badFrames := rfl
@[simp] theorem Dev.setBusTries_buf (d : Dev) (m n : Nat) : (d.setBusTries m n).buf = d.buf := rfl
@[simp] theorem Dev.setBusTries_cells (d : Dev) (m n : Nat) : (d.setBusTries m n).cells = d.cells := rfl
@[simp] theorem Dev.setBusTries_bpms (d : Dev) (m n : Nat) : (d.setBusTries m n).bpms = d.bpms := rfl
@[simp] theorem Dev.setBusTries_rings (d : Dev) (m n : Nat) : (d.setBusTries m n).rings = d.rings := rfl
@[simp] theorem Dev.setBusTries_swc (d : Dev) (m n : Nat) : (d.setBusTries m n).swc = d.swc := rfl
@[simp] theorem Dev.setBusTries_tm (d : Dev) (m n : Nat) : (d.setBusTries m n).tm = d.tm := rfl
@[simp] theorem Dev.setBusTries_peals (d : Dev) (m n : Nat) : (d.setBusTries m n).peals = d.peals := rfl
@[simp] theorem Dev.setBusTries_pealMem (d : Dev) (m n : Nat) : (d.setBusTries m n).pealMem = d.pealMem := rfl
@[simp] theorem Dev.setBusTries_car (d : Dev) (m n : Nat) : (d.setBusTries m n).car = d.car := rfl
@[simp] theorem Dev.setBusTries_eng (d : Dev) (m n : Nat) : (d.setBusTries m n).eng = d.eng := rfl
@[simp] theorem Dev.setBusTries_lkp (d : Dev) (m n : Nat) : (d.setBusTries m n).lkp = d.lkp := rfl
@[simp] theorem Dev.setBusTries_hbms (d : Dev) (m n : Nat) : (d.setBusTries m n).hbms = d.hbms := rfl
@[simp] theorem Dev.setBusTries_hbmMem (d : Dev) (m n : Nat) : (d.setBusTries m n).hbmMem = d.hbmMem := rfl
@[simp] theorem Dev.setBusTries_hbmBad (d : Dev) (m n : Nat) : (d.setBusTries m n).hbmBad = d.hbmBad := rfl
@[simp] theorem Dev.setBusTries_hif (d : Dev) (m n : Nat) : (d.setBusTries m n).hif = d.hif := rfl
@[simp] theorem Dev.setBusTries_ulx (d : Dev) (m n : Nat) : (d.setBusTries m n).ulx = d.ulx := rfl
@[simp] theorem Dev.setBusTries_word (d : Dev) (m n : Nat) (q k : Nat) : (d.setBusTries m n).word q k = d.word q k := rfl
@[simp] theorem Dev.setBusTries_get (d : Dev) (m n : Nat) (q : Nat) (g : Fld) : (d.setBusTries m n).get q g = d.get q g := rfl
@[simp] theorem Dev.setBusTries_domState (d : Dev) (m n : Nat) (i : Nat) : (d.setBusTries m n).domState i = d.domState i := rfl
@[simp] theorem Dev.setBusTries_fn (d : Dev) (m n : Nat) (q : Nat) : (d.setBusTries m n).fn q = d.fn q := rfl
@[simp] theorem Dev.setBusTries_mode (d : Dev) (m n : Nat) : (d.setBusTries m n).mode = d.mode := rfl

/-! setTimed -/

@[simp] theorem Dev.setTimed_csr (d : Dev) (k : Nat) (x : Option Timed) : (d.setTimed k x).csr = d.csr := rfl
@[simp] theorem Dev.setTimed_msix (d : Dev) (k : Nat) (x : Option Timed) : (d.setTimed k x).msix = d.msix := rfl
@[simp] theorem Dev.setTimed_ews (d : Dev) (k : Nat) (x : Option Timed) : (d.setTimed k x).ews = d.ews := rfl
@[simp] theorem Dev.setTimed_cs (d : Dev) (k : Nat) (x : Option Timed) : (d.setTimed k x).cs = d.cs := rfl
@[simp] theorem Dev.setTimed_log (d : Dev) (k : Nat) (x : Option Timed) : (d.setTimed k x).log = d.log := rfl
@[simp] theorem Dev.setTimed_out (d : Dev) (k : Nat) (x : Option Timed) : (d.setTimed k x).out = d.out := rfl
@[simp] theorem Dev.setTimed_fresh (d : Dev) (k : Nat) (x : Option Timed) : (d.setTimed k x).fresh = d.fresh := rfl
@[simp] theorem Dev.setTimed_rr (d : Dev) (k : Nat) (x : Option Timed) : (d.setTimed k x).rr = d.rr := rfl
@[simp] theorem Dev.setTimed_power (d : Dev) (k : Nat) (x : Option Timed) : (d.setTimed k x).power = d.power := rfl
@[simp] theorem Dev.setTimed_modes (d : Dev) (k : Nat) (x : Option Timed) : (d.setTimed k x).modes = d.modes := rfl
@[simp] theorem Dev.setTimed_time (d : Dev) (k : Nat) (x : Option Timed) : (d.setTimed k x).time = d.time := rfl
@[simp] theorem Dev.setTimed_pgs (d : Dev) (k : Nat) (x : Option Timed) : (d.setTimed k x).pgs = d.pgs := rfl
@[simp] theorem Dev.setTimed_rx (d : Dev) (k : Nat) (x : Option Timed) : (d.setTimed k x).rx = d.rx := rfl
@[simp] theorem Dev.setTimed_badFrames (d : Dev) (k : Nat) (x : Option Timed) : (d.setTimed k x).badFrames = d.badFrames := rfl
@[simp] theorem Dev.setTimed_buf (d : Dev) (k : Nat) (x : Option Timed) : (d.setTimed k x).buf = d.buf := rfl
@[simp] theorem Dev.setTimed_cells (d : Dev) (k : Nat) (x : Option Timed) : (d.setTimed k x).cells = d.cells := rfl
@[simp] theorem Dev.setTimed_bpms (d : Dev) (k : Nat) (x : Option Timed) : (d.setTimed k x).bpms = d.bpms := rfl
@[simp] theorem Dev.setTimed_rings (d : Dev) (k : Nat) (x : Option Timed) : (d.setTimed k x).rings = d.rings := rfl
@[simp] theorem Dev.setTimed_swc (d : Dev) (k : Nat) (x : Option Timed) : (d.setTimed k x).swc = d.swc := rfl
@[simp] theorem Dev.setTimed_tm (d : Dev) (k : Nat) (x : Option Timed) : (d.setTimed k x).tm = d.tm := rfl
@[simp] theorem Dev.setTimed_peals (d : Dev) (k : Nat) (x : Option Timed) : (d.setTimed k x).peals = d.peals := rfl
@[simp] theorem Dev.setTimed_pealMem (d : Dev) (k : Nat) (x : Option Timed) : (d.setTimed k x).pealMem = d.pealMem := rfl
@[simp] theorem Dev.setTimed_car (d : Dev) (k : Nat) (x : Option Timed) : (d.setTimed k x).car = d.car := rfl
@[simp] theorem Dev.setTimed_eng (d : Dev) (k : Nat) (x : Option Timed) : (d.setTimed k x).eng = d.eng := rfl
@[simp] theorem Dev.setTimed_lkp (d : Dev) (k : Nat) (x : Option Timed) : (d.setTimed k x).lkp = d.lkp := rfl
@[simp] theorem Dev.setTimed_hbms (d : Dev) (k : Nat) (x : Option Timed) : (d.setTimed k x).hbms = d.hbms := rfl
@[simp] theorem Dev.setTimed_hbmMem (d : Dev) (k : Nat) (x : Option Timed) : (d.setTimed k x).hbmMem = d.hbmMem := rfl
@[simp] theorem Dev.setTimed_hbmBad (d : Dev) (k : Nat) (x : Option Timed) : (d.setTimed k x).hbmBad = d.hbmBad := rfl
@[simp] theorem Dev.setTimed_hif (d : Dev) (k : Nat) (x : Option Timed) : (d.setTimed k x).hif = d.hif := rfl
@[simp] theorem Dev.setTimed_ulx (d : Dev) (k : Nat) (x : Option Timed) : (d.setTimed k x).ulx = d.ulx := rfl
@[simp] theorem Dev.setTimed_word (d : Dev) (k : Nat) (x : Option Timed) (p o : Nat) : (d.setTimed k x).word p o = d.word p o := rfl
@[simp] theorem Dev.setTimed_get (d : Dev) (k : Nat) (x : Option Timed) (q : Nat) (g : Fld) : (d.setTimed k x).get q g = d.get q g := rfl
@[simp] theorem Dev.setTimed_domState (d : Dev) (k : Nat) (x : Option Timed) (i : Nat) : (d.setTimed k x).domState i = d.domState i := rfl
@[simp] theorem Dev.setTimed_fn (d : Dev) (k : Nat) (x : Option Timed) (q : Nat) : (d.setTimed k x).fn q = d.fn q := rfl
@[simp] theorem Dev.setTimed_mode (d : Dev) (k : Nat) (x : Option Timed) : (d.setTimed k x).mode = d.mode := rfl

/-! setCell -/

@[simp] theorem Dev.setCell_csr (d : Dev) (c : Nat) (x : CellEntry) : (d.setCell c x).csr = d.csr := rfl
@[simp] theorem Dev.setCell_msix (d : Dev) (c : Nat) (x : CellEntry) : (d.setCell c x).msix = d.msix := rfl
@[simp] theorem Dev.setCell_ews (d : Dev) (c : Nat) (x : CellEntry) : (d.setCell c x).ews = d.ews := rfl
@[simp] theorem Dev.setCell_cs (d : Dev) (c : Nat) (x : CellEntry) : (d.setCell c x).cs = d.cs := rfl
@[simp] theorem Dev.setCell_log (d : Dev) (c : Nat) (x : CellEntry) : (d.setCell c x).log = d.log := rfl
@[simp] theorem Dev.setCell_out (d : Dev) (c : Nat) (x : CellEntry) : (d.setCell c x).out = d.out := rfl
@[simp] theorem Dev.setCell_fresh (d : Dev) (c : Nat) (x : CellEntry) : (d.setCell c x).fresh = d.fresh := rfl
@[simp] theorem Dev.setCell_rr (d : Dev) (c : Nat) (x : CellEntry) : (d.setCell c x).rr = d.rr := rfl
@[simp] theorem Dev.setCell_power (d : Dev) (c : Nat) (x : CellEntry) : (d.setCell c x).power = d.power := rfl
@[simp] theorem Dev.setCell_modes (d : Dev) (c : Nat) (x : CellEntry) : (d.setCell c x).modes = d.modes := rfl
@[simp] theorem Dev.setCell_time (d : Dev) (c : Nat) (x : CellEntry) : (d.setCell c x).time = d.time := rfl
@[simp] theorem Dev.setCell_pgs (d : Dev) (c : Nat) (x : CellEntry) : (d.setCell c x).pgs = d.pgs := rfl
@[simp] theorem Dev.setCell_rx (d : Dev) (c : Nat) (x : CellEntry) : (d.setCell c x).rx = d.rx := rfl
@[simp] theorem Dev.setCell_badFrames (d : Dev) (c : Nat) (x : CellEntry) : (d.setCell c x).badFrames = d.badFrames := rfl
@[simp] theorem Dev.setCell_buf (d : Dev) (c : Nat) (x : CellEntry) : (d.setCell c x).buf = d.buf := rfl
@[simp] theorem Dev.setCell_bpms (d : Dev) (c : Nat) (x : CellEntry) : (d.setCell c x).bpms = d.bpms := rfl
@[simp] theorem Dev.setCell_rings (d : Dev) (c : Nat) (x : CellEntry) : (d.setCell c x).rings = d.rings := rfl
@[simp] theorem Dev.setCell_swc (d : Dev) (c : Nat) (x : CellEntry) : (d.setCell c x).swc = d.swc := rfl
@[simp] theorem Dev.setCell_tm (d : Dev) (c : Nat) (x : CellEntry) : (d.setCell c x).tm = d.tm := rfl
@[simp] theorem Dev.setCell_peals (d : Dev) (c : Nat) (x : CellEntry) : (d.setCell c x).peals = d.peals := rfl
@[simp] theorem Dev.setCell_pealMem (d : Dev) (c : Nat) (x : CellEntry) : (d.setCell c x).pealMem = d.pealMem := rfl
@[simp] theorem Dev.setCell_car (d : Dev) (c : Nat) (x : CellEntry) : (d.setCell c x).car = d.car := rfl
@[simp] theorem Dev.setCell_eng (d : Dev) (c : Nat) (x : CellEntry) : (d.setCell c x).eng = d.eng := rfl
@[simp] theorem Dev.setCell_lkp (d : Dev) (c : Nat) (x : CellEntry) : (d.setCell c x).lkp = d.lkp := rfl
@[simp] theorem Dev.setCell_hbms (d : Dev) (c : Nat) (x : CellEntry) : (d.setCell c x).hbms = d.hbms := rfl
@[simp] theorem Dev.setCell_hbmMem (d : Dev) (c : Nat) (x : CellEntry) : (d.setCell c x).hbmMem = d.hbmMem := rfl
@[simp] theorem Dev.setCell_hbmBad (d : Dev) (c : Nat) (x : CellEntry) : (d.setCell c x).hbmBad = d.hbmBad := rfl
@[simp] theorem Dev.setCell_mods (d : Dev) (c : Nat) (x : CellEntry) : (d.setCell c x).mods = d.mods := rfl
@[simp] theorem Dev.setCell_hif (d : Dev) (c : Nat) (x : CellEntry) : (d.setCell c x).hif = d.hif := rfl
@[simp] theorem Dev.setCell_ulx (d : Dev) (c : Nat) (x : CellEntry) : (d.setCell c x).ulx = d.ulx := rfl
@[simp] theorem Dev.setCell_word (d : Dev) (c : Nat) (x : CellEntry) (q k : Nat) : (d.setCell c x).word q k = d.word q k := rfl
@[simp] theorem Dev.setCell_get (d : Dev) (c : Nat) (x : CellEntry) (q : Nat) (g : Fld) : (d.setCell c x).get q g = d.get q g := rfl
@[simp] theorem Dev.setCell_domState (d : Dev) (c : Nat) (x : CellEntry) (i : Nat) : (d.setCell c x).domState i = d.domState i := rfl
@[simp] theorem Dev.setCell_fn (d : Dev) (c : Nat) (x : CellEntry) (q : Nat) : (d.setCell c x).fn q = d.fn q := rfl
@[simp] theorem Dev.setCell_mode (d : Dev) (c : Nat) (x : CellEntry) : (d.setCell c x).mode = d.mode := rfl

/-! setBpm -/

@[simp] theorem Dev.setBpm_csr (d : Dev) (die : Nat) (x : Bpm) : (d.setBpm die x).csr = d.csr := rfl
@[simp] theorem Dev.setBpm_msix (d : Dev) (die : Nat) (x : Bpm) : (d.setBpm die x).msix = d.msix := rfl
@[simp] theorem Dev.setBpm_ews (d : Dev) (die : Nat) (x : Bpm) : (d.setBpm die x).ews = d.ews := rfl
@[simp] theorem Dev.setBpm_cs (d : Dev) (die : Nat) (x : Bpm) : (d.setBpm die x).cs = d.cs := rfl
@[simp] theorem Dev.setBpm_log (d : Dev) (die : Nat) (x : Bpm) : (d.setBpm die x).log = d.log := rfl
@[simp] theorem Dev.setBpm_out (d : Dev) (die : Nat) (x : Bpm) : (d.setBpm die x).out = d.out := rfl
@[simp] theorem Dev.setBpm_fresh (d : Dev) (die : Nat) (x : Bpm) : (d.setBpm die x).fresh = d.fresh := rfl
@[simp] theorem Dev.setBpm_rr (d : Dev) (die : Nat) (x : Bpm) : (d.setBpm die x).rr = d.rr := rfl
@[simp] theorem Dev.setBpm_power (d : Dev) (die : Nat) (x : Bpm) : (d.setBpm die x).power = d.power := rfl
@[simp] theorem Dev.setBpm_modes (d : Dev) (die : Nat) (x : Bpm) : (d.setBpm die x).modes = d.modes := rfl
@[simp] theorem Dev.setBpm_time (d : Dev) (die : Nat) (x : Bpm) : (d.setBpm die x).time = d.time := rfl
@[simp] theorem Dev.setBpm_pgs (d : Dev) (die : Nat) (x : Bpm) : (d.setBpm die x).pgs = d.pgs := rfl
@[simp] theorem Dev.setBpm_rx (d : Dev) (die : Nat) (x : Bpm) : (d.setBpm die x).rx = d.rx := rfl
@[simp] theorem Dev.setBpm_badFrames (d : Dev) (die : Nat) (x : Bpm) : (d.setBpm die x).badFrames = d.badFrames := rfl
@[simp] theorem Dev.setBpm_buf (d : Dev) (die : Nat) (x : Bpm) : (d.setBpm die x).buf = d.buf := rfl
@[simp] theorem Dev.setBpm_cells (d : Dev) (die : Nat) (x : Bpm) : (d.setBpm die x).cells = d.cells := rfl
@[simp] theorem Dev.setBpm_rings (d : Dev) (die : Nat) (x : Bpm) : (d.setBpm die x).rings = d.rings := rfl
@[simp] theorem Dev.setBpm_swc (d : Dev) (die : Nat) (x : Bpm) : (d.setBpm die x).swc = d.swc := rfl
@[simp] theorem Dev.setBpm_tm (d : Dev) (die : Nat) (x : Bpm) : (d.setBpm die x).tm = d.tm := rfl
@[simp] theorem Dev.setBpm_peals (d : Dev) (die : Nat) (x : Bpm) : (d.setBpm die x).peals = d.peals := rfl
@[simp] theorem Dev.setBpm_pealMem (d : Dev) (die : Nat) (x : Bpm) : (d.setBpm die x).pealMem = d.pealMem := rfl
@[simp] theorem Dev.setBpm_car (d : Dev) (die : Nat) (x : Bpm) : (d.setBpm die x).car = d.car := rfl
@[simp] theorem Dev.setBpm_eng (d : Dev) (die : Nat) (x : Bpm) : (d.setBpm die x).eng = d.eng := rfl
@[simp] theorem Dev.setBpm_lkp (d : Dev) (die : Nat) (x : Bpm) : (d.setBpm die x).lkp = d.lkp := rfl
@[simp] theorem Dev.setBpm_hbms (d : Dev) (die : Nat) (x : Bpm) : (d.setBpm die x).hbms = d.hbms := rfl
@[simp] theorem Dev.setBpm_hbmMem (d : Dev) (die : Nat) (x : Bpm) : (d.setBpm die x).hbmMem = d.hbmMem := rfl
@[simp] theorem Dev.setBpm_hbmBad (d : Dev) (die : Nat) (x : Bpm) : (d.setBpm die x).hbmBad = d.hbmBad := rfl
@[simp] theorem Dev.setBpm_mods (d : Dev) (die : Nat) (x : Bpm) : (d.setBpm die x).mods = d.mods := rfl
@[simp] theorem Dev.setBpm_hif (d : Dev) (die : Nat) (x : Bpm) : (d.setBpm die x).hif = d.hif := rfl
@[simp] theorem Dev.setBpm_ulx (d : Dev) (die : Nat) (x : Bpm) : (d.setBpm die x).ulx = d.ulx := rfl
@[simp] theorem Dev.setBpm_word (d : Dev) (die : Nat) (x : Bpm) (q k : Nat) : (d.setBpm die x).word q k = d.word q k := rfl
@[simp] theorem Dev.setBpm_get (d : Dev) (die : Nat) (x : Bpm) (q : Nat) (g : Fld) : (d.setBpm die x).get q g = d.get q g := rfl
@[simp] theorem Dev.setBpm_domState (d : Dev) (die : Nat) (x : Bpm) (i : Nat) : (d.setBpm die x).domState i = d.domState i := rfl
@[simp] theorem Dev.setBpm_fn (d : Dev) (die : Nat) (x : Bpm) (q : Nat) : (d.setBpm die x).fn q = d.fn q := rfl
@[simp] theorem Dev.setBpm_mode (d : Dev) (die : Nat) (x : Bpm) : (d.setBpm die x).mode = d.mode := rfl

/-! setRing -/

@[simp] theorem Dev.setRing_csr (d : Dev) (h : Nat) (x : PageRing) : (d.setRing h x).csr = d.csr := rfl
@[simp] theorem Dev.setRing_msix (d : Dev) (h : Nat) (x : PageRing) : (d.setRing h x).msix = d.msix := rfl
@[simp] theorem Dev.setRing_ews (d : Dev) (h : Nat) (x : PageRing) : (d.setRing h x).ews = d.ews := rfl
@[simp] theorem Dev.setRing_cs (d : Dev) (h : Nat) (x : PageRing) : (d.setRing h x).cs = d.cs := rfl
@[simp] theorem Dev.setRing_log (d : Dev) (h : Nat) (x : PageRing) : (d.setRing h x).log = d.log := rfl
@[simp] theorem Dev.setRing_out (d : Dev) (h : Nat) (x : PageRing) : (d.setRing h x).out = d.out := rfl
@[simp] theorem Dev.setRing_fresh (d : Dev) (h : Nat) (x : PageRing) : (d.setRing h x).fresh = d.fresh := rfl
@[simp] theorem Dev.setRing_rr (d : Dev) (h : Nat) (x : PageRing) : (d.setRing h x).rr = d.rr := rfl
@[simp] theorem Dev.setRing_power (d : Dev) (h : Nat) (x : PageRing) : (d.setRing h x).power = d.power := rfl
@[simp] theorem Dev.setRing_modes (d : Dev) (h : Nat) (x : PageRing) : (d.setRing h x).modes = d.modes := rfl
@[simp] theorem Dev.setRing_time (d : Dev) (h : Nat) (x : PageRing) : (d.setRing h x).time = d.time := rfl
@[simp] theorem Dev.setRing_pgs (d : Dev) (h : Nat) (x : PageRing) : (d.setRing h x).pgs = d.pgs := rfl
@[simp] theorem Dev.setRing_rx (d : Dev) (h : Nat) (x : PageRing) : (d.setRing h x).rx = d.rx := rfl
@[simp] theorem Dev.setRing_badFrames (d : Dev) (h : Nat) (x : PageRing) : (d.setRing h x).badFrames = d.badFrames := rfl
@[simp] theorem Dev.setRing_buf (d : Dev) (h : Nat) (x : PageRing) : (d.setRing h x).buf = d.buf := rfl
@[simp] theorem Dev.setRing_cells (d : Dev) (h : Nat) (x : PageRing) : (d.setRing h x).cells = d.cells := rfl
@[simp] theorem Dev.setRing_bpms (d : Dev) (h : Nat) (x : PageRing) : (d.setRing h x).bpms = d.bpms := rfl
@[simp] theorem Dev.setRing_swc (d : Dev) (h : Nat) (x : PageRing) : (d.setRing h x).swc = d.swc := rfl
@[simp] theorem Dev.setRing_tm (d : Dev) (h : Nat) (x : PageRing) : (d.setRing h x).tm = d.tm := rfl
@[simp] theorem Dev.setRing_peals (d : Dev) (h : Nat) (x : PageRing) : (d.setRing h x).peals = d.peals := rfl
@[simp] theorem Dev.setRing_pealMem (d : Dev) (h : Nat) (x : PageRing) : (d.setRing h x).pealMem = d.pealMem := rfl
@[simp] theorem Dev.setRing_car (d : Dev) (h : Nat) (x : PageRing) : (d.setRing h x).car = d.car := rfl
@[simp] theorem Dev.setRing_eng (d : Dev) (h : Nat) (x : PageRing) : (d.setRing h x).eng = d.eng := rfl
@[simp] theorem Dev.setRing_lkp (d : Dev) (h : Nat) (x : PageRing) : (d.setRing h x).lkp = d.lkp := rfl
@[simp] theorem Dev.setRing_hbms (d : Dev) (h : Nat) (x : PageRing) : (d.setRing h x).hbms = d.hbms := rfl
@[simp] theorem Dev.setRing_hbmMem (d : Dev) (h : Nat) (x : PageRing) : (d.setRing h x).hbmMem = d.hbmMem := rfl
@[simp] theorem Dev.setRing_hbmBad (d : Dev) (h : Nat) (x : PageRing) : (d.setRing h x).hbmBad = d.hbmBad := rfl
@[simp] theorem Dev.setRing_mods (d : Dev) (h : Nat) (x : PageRing) : (d.setRing h x).mods = d.mods := rfl
@[simp] theorem Dev.setRing_hif (d : Dev) (h : Nat) (x : PageRing) : (d.setRing h x).hif = d.hif := rfl
@[simp] theorem Dev.setRing_ulx (d : Dev) (h : Nat) (x : PageRing) : (d.setRing h x).ulx = d.ulx := rfl
@[simp] theorem Dev.setRing_word (d : Dev) (h : Nat) (x : PageRing) (q k : Nat) : (d.setRing h x).word q k = d.word q k := rfl
@[simp] theorem Dev.setRing_get (d : Dev) (h : Nat) (x : PageRing) (q : Nat) (g : Fld) : (d.setRing h x).get q g = d.get q g := rfl
@[simp] theorem Dev.setRing_domState (d : Dev) (h : Nat) (x : PageRing) (i : Nat) : (d.setRing h x).domState i = d.domState i := rfl
@[simp] theorem Dev.setRing_fn (d : Dev) (h : Nat) (x : PageRing) (q : Nat) : (d.setRing h x).fn q = d.fn q := rfl
@[simp] theorem Dev.setRing_mode (d : Dev) (h : Nat) (x : PageRing) : (d.setRing h x).mode = d.mode := rfl

/-! setHbm -/

@[simp] theorem Dev.setHbm_csr (d : Dev) (h : Nat) (x : Hbm) : (d.setHbm h x).csr = d.csr := rfl
@[simp] theorem Dev.setHbm_msix (d : Dev) (h : Nat) (x : Hbm) : (d.setHbm h x).msix = d.msix := rfl
@[simp] theorem Dev.setHbm_ews (d : Dev) (h : Nat) (x : Hbm) : (d.setHbm h x).ews = d.ews := rfl
@[simp] theorem Dev.setHbm_cs (d : Dev) (h : Nat) (x : Hbm) : (d.setHbm h x).cs = d.cs := rfl
@[simp] theorem Dev.setHbm_log (d : Dev) (h : Nat) (x : Hbm) : (d.setHbm h x).log = d.log := rfl
@[simp] theorem Dev.setHbm_out (d : Dev) (h : Nat) (x : Hbm) : (d.setHbm h x).out = d.out := rfl
@[simp] theorem Dev.setHbm_fresh (d : Dev) (h : Nat) (x : Hbm) : (d.setHbm h x).fresh = d.fresh := rfl
@[simp] theorem Dev.setHbm_rr (d : Dev) (h : Nat) (x : Hbm) : (d.setHbm h x).rr = d.rr := rfl
@[simp] theorem Dev.setHbm_power (d : Dev) (h : Nat) (x : Hbm) : (d.setHbm h x).power = d.power := rfl
@[simp] theorem Dev.setHbm_modes (d : Dev) (h : Nat) (x : Hbm) : (d.setHbm h x).modes = d.modes := rfl
@[simp] theorem Dev.setHbm_time (d : Dev) (h : Nat) (x : Hbm) : (d.setHbm h x).time = d.time := rfl
@[simp] theorem Dev.setHbm_pgs (d : Dev) (h : Nat) (x : Hbm) : (d.setHbm h x).pgs = d.pgs := rfl
@[simp] theorem Dev.setHbm_rx (d : Dev) (h : Nat) (x : Hbm) : (d.setHbm h x).rx = d.rx := rfl
@[simp] theorem Dev.setHbm_badFrames (d : Dev) (h : Nat) (x : Hbm) : (d.setHbm h x).badFrames = d.badFrames := rfl
@[simp] theorem Dev.setHbm_buf (d : Dev) (h : Nat) (x : Hbm) : (d.setHbm h x).buf = d.buf := rfl
@[simp] theorem Dev.setHbm_cells (d : Dev) (h : Nat) (x : Hbm) : (d.setHbm h x).cells = d.cells := rfl
@[simp] theorem Dev.setHbm_bpms (d : Dev) (h : Nat) (x : Hbm) : (d.setHbm h x).bpms = d.bpms := rfl
@[simp] theorem Dev.setHbm_rings (d : Dev) (h : Nat) (x : Hbm) : (d.setHbm h x).rings = d.rings := rfl
@[simp] theorem Dev.setHbm_swc (d : Dev) (h : Nat) (x : Hbm) : (d.setHbm h x).swc = d.swc := rfl
@[simp] theorem Dev.setHbm_tm (d : Dev) (h : Nat) (x : Hbm) : (d.setHbm h x).tm = d.tm := rfl
@[simp] theorem Dev.setHbm_peals (d : Dev) (h : Nat) (x : Hbm) : (d.setHbm h x).peals = d.peals := rfl
@[simp] theorem Dev.setHbm_pealMem (d : Dev) (h : Nat) (x : Hbm) : (d.setHbm h x).pealMem = d.pealMem := rfl
@[simp] theorem Dev.setHbm_car (d : Dev) (h : Nat) (x : Hbm) : (d.setHbm h x).car = d.car := rfl
@[simp] theorem Dev.setHbm_eng (d : Dev) (h : Nat) (x : Hbm) : (d.setHbm h x).eng = d.eng := rfl
@[simp] theorem Dev.setHbm_lkp (d : Dev) (h : Nat) (x : Hbm) : (d.setHbm h x).lkp = d.lkp := rfl
@[simp] theorem Dev.setHbm_hbmMem (d : Dev) (h : Nat) (x : Hbm) : (d.setHbm h x).hbmMem = d.hbmMem := rfl
@[simp] theorem Dev.setHbm_hbmBad (d : Dev) (h : Nat) (x : Hbm) : (d.setHbm h x).hbmBad = d.hbmBad := rfl
@[simp] theorem Dev.setHbm_mods (d : Dev) (h : Nat) (x : Hbm) : (d.setHbm h x).mods = d.mods := rfl
@[simp] theorem Dev.setHbm_hif (d : Dev) (h : Nat) (x : Hbm) : (d.setHbm h x).hif = d.hif := rfl
@[simp] theorem Dev.setHbm_ulx (d : Dev) (h : Nat) (x : Hbm) : (d.setHbm h x).ulx = d.ulx := rfl
@[simp] theorem Dev.setHbm_word (d : Dev) (h : Nat) (x : Hbm) (q k : Nat) : (d.setHbm h x).word q k = d.word q k := rfl
@[simp] theorem Dev.setHbm_get (d : Dev) (h : Nat) (x : Hbm) (q : Nat) (g : Fld) : (d.setHbm h x).get q g = d.get q g := rfl
@[simp] theorem Dev.setHbm_domState (d : Dev) (h : Nat) (x : Hbm) (i : Nat) : (d.setHbm h x).domState i = d.domState i := rfl
@[simp] theorem Dev.setHbm_fn (d : Dev) (h : Nat) (x : Hbm) (q : Nat) : (d.setHbm h x).fn q = d.fn q := rfl
@[simp] theorem Dev.setHbm_mode (d : Dev) (h : Nat) (x : Hbm) : (d.setHbm h x).mode = d.mode := rfl

/-! hbmAsk -/

@[simp] theorem Dev.hbmAsk_csr (d : Dev) (h p : Nat) (b : Bool) (a n : Nat) : (d.hbmAsk h p b a n).csr = d.csr := rfl
@[simp] theorem Dev.hbmAsk_msix (d : Dev) (h p : Nat) (b : Bool) (a n : Nat) : (d.hbmAsk h p b a n).msix = d.msix := rfl
@[simp] theorem Dev.hbmAsk_ews (d : Dev) (h p : Nat) (b : Bool) (a n : Nat) : (d.hbmAsk h p b a n).ews = d.ews := rfl
@[simp] theorem Dev.hbmAsk_cs (d : Dev) (h p : Nat) (b : Bool) (a n : Nat) : (d.hbmAsk h p b a n).cs = d.cs := rfl
@[simp] theorem Dev.hbmAsk_log (d : Dev) (h p : Nat) (b : Bool) (a n : Nat) : (d.hbmAsk h p b a n).log = d.log := rfl
@[simp] theorem Dev.hbmAsk_out (d : Dev) (h p : Nat) (b : Bool) (a n : Nat) : (d.hbmAsk h p b a n).out = d.out := rfl
@[simp] theorem Dev.hbmAsk_fresh (d : Dev) (h p : Nat) (b : Bool) (a n : Nat) : (d.hbmAsk h p b a n).fresh = d.fresh := rfl
@[simp] theorem Dev.hbmAsk_rr (d : Dev) (h p : Nat) (b : Bool) (a n : Nat) : (d.hbmAsk h p b a n).rr = d.rr := rfl
@[simp] theorem Dev.hbmAsk_power (d : Dev) (h p : Nat) (b : Bool) (a n : Nat) : (d.hbmAsk h p b a n).power = d.power := rfl
@[simp] theorem Dev.hbmAsk_modes (d : Dev) (h p : Nat) (b : Bool) (a n : Nat) : (d.hbmAsk h p b a n).modes = d.modes := rfl
@[simp] theorem Dev.hbmAsk_time (d : Dev) (h p : Nat) (b : Bool) (a n : Nat) : (d.hbmAsk h p b a n).time = d.time := rfl
@[simp] theorem Dev.hbmAsk_pgs (d : Dev) (h p : Nat) (b : Bool) (a n : Nat) : (d.hbmAsk h p b a n).pgs = d.pgs := rfl
@[simp] theorem Dev.hbmAsk_rx (d : Dev) (h p : Nat) (b : Bool) (a n : Nat) : (d.hbmAsk h p b a n).rx = d.rx := rfl
@[simp] theorem Dev.hbmAsk_badFrames (d : Dev) (h p : Nat) (b : Bool) (a n : Nat) : (d.hbmAsk h p b a n).badFrames = d.badFrames := rfl
@[simp] theorem Dev.hbmAsk_buf (d : Dev) (h p : Nat) (b : Bool) (a n : Nat) : (d.hbmAsk h p b a n).buf = d.buf := rfl
@[simp] theorem Dev.hbmAsk_cells (d : Dev) (h p : Nat) (b : Bool) (a n : Nat) : (d.hbmAsk h p b a n).cells = d.cells := rfl
@[simp] theorem Dev.hbmAsk_bpms (d : Dev) (h p : Nat) (b : Bool) (a n : Nat) : (d.hbmAsk h p b a n).bpms = d.bpms := rfl
@[simp] theorem Dev.hbmAsk_rings (d : Dev) (h p : Nat) (b : Bool) (a n : Nat) : (d.hbmAsk h p b a n).rings = d.rings := rfl
@[simp] theorem Dev.hbmAsk_swc (d : Dev) (h p : Nat) (b : Bool) (a n : Nat) : (d.hbmAsk h p b a n).swc = d.swc := rfl
@[simp] theorem Dev.hbmAsk_tm (d : Dev) (h p : Nat) (b : Bool) (a n : Nat) : (d.hbmAsk h p b a n).tm = d.tm := rfl
@[simp] theorem Dev.hbmAsk_peals (d : Dev) (h p : Nat) (b : Bool) (a n : Nat) : (d.hbmAsk h p b a n).peals = d.peals := rfl
@[simp] theorem Dev.hbmAsk_pealMem (d : Dev) (h p : Nat) (b : Bool) (a n : Nat) : (d.hbmAsk h p b a n).pealMem = d.pealMem := rfl
@[simp] theorem Dev.hbmAsk_car (d : Dev) (h p : Nat) (b : Bool) (a n : Nat) : (d.hbmAsk h p b a n).car = d.car := rfl
@[simp] theorem Dev.hbmAsk_eng (d : Dev) (h p : Nat) (b : Bool) (a n : Nat) : (d.hbmAsk h p b a n).eng = d.eng := rfl
@[simp] theorem Dev.hbmAsk_lkp (d : Dev) (h p : Nat) (b : Bool) (a n : Nat) : (d.hbmAsk h p b a n).lkp = d.lkp := rfl
@[simp] theorem Dev.hbmAsk_hbmMem (d : Dev) (h p : Nat) (b : Bool) (a n : Nat) : (d.hbmAsk h p b a n).hbmMem = d.hbmMem := rfl
@[simp] theorem Dev.hbmAsk_hbmBad (d : Dev) (h p : Nat) (b : Bool) (a n : Nat) : (d.hbmAsk h p b a n).hbmBad = d.hbmBad := rfl
@[simp] theorem Dev.hbmAsk_mods (d : Dev) (h p : Nat) (b : Bool) (a n : Nat) : (d.hbmAsk h p b a n).mods = d.mods := rfl
@[simp] theorem Dev.hbmAsk_hif (d : Dev) (h p : Nat) (b : Bool) (a n : Nat) : (d.hbmAsk h p b a n).hif = d.hif := rfl
@[simp] theorem Dev.hbmAsk_ulx (d : Dev) (h p : Nat) (b : Bool) (a n : Nat) : (d.hbmAsk h p b a n).ulx = d.ulx := rfl
@[simp] theorem Dev.hbmAsk_word (d : Dev) (h p : Nat) (b : Bool) (a n : Nat) (q k : Nat) : (d.hbmAsk h p b a n).word q k = d.word q k := rfl
@[simp] theorem Dev.hbmAsk_get (d : Dev) (h p : Nat) (b : Bool) (a n : Nat) (q : Nat) (g : Fld) : (d.hbmAsk h p b a n).get q g = d.get q g := rfl
@[simp] theorem Dev.hbmAsk_domState (d : Dev) (h p : Nat) (b : Bool) (a n : Nat) (i : Nat) : (d.hbmAsk h p b a n).domState i = d.domState i := rfl
@[simp] theorem Dev.hbmAsk_fn (d : Dev) (h p : Nat) (b : Bool) (a n : Nat) (q : Nat) : (d.hbmAsk h p b a n).fn q = d.fn q := rfl
@[simp] theorem Dev.hbmAsk_mode (d : Dev) (h p : Nat) (b : Bool) (a n : Nat) : (d.hbmAsk h p b a n).mode = d.mode := rfl

/-! markBad -/

@[simp] theorem Dev.markBad_csr (d : Dev) (h a : Nat) : (d.markBad h a).csr = d.csr := rfl
@[simp] theorem Dev.markBad_msix (d : Dev) (h a : Nat) : (d.markBad h a).msix = d.msix := rfl
@[simp] theorem Dev.markBad_ews (d : Dev) (h a : Nat) : (d.markBad h a).ews = d.ews := rfl
@[simp] theorem Dev.markBad_cs (d : Dev) (h a : Nat) : (d.markBad h a).cs = d.cs := rfl
@[simp] theorem Dev.markBad_log (d : Dev) (h a : Nat) : (d.markBad h a).log = d.log := rfl
@[simp] theorem Dev.markBad_out (d : Dev) (h a : Nat) : (d.markBad h a).out = d.out := rfl
@[simp] theorem Dev.markBad_fresh (d : Dev) (h a : Nat) : (d.markBad h a).fresh = d.fresh := rfl
@[simp] theorem Dev.markBad_rr (d : Dev) (h a : Nat) : (d.markBad h a).rr = d.rr := rfl
@[simp] theorem Dev.markBad_power (d : Dev) (h a : Nat) : (d.markBad h a).power = d.power := rfl
@[simp] theorem Dev.markBad_modes (d : Dev) (h a : Nat) : (d.markBad h a).modes = d.modes := rfl
@[simp] theorem Dev.markBad_time (d : Dev) (h a : Nat) : (d.markBad h a).time = d.time := rfl
@[simp] theorem Dev.markBad_pgs (d : Dev) (h a : Nat) : (d.markBad h a).pgs = d.pgs := rfl
@[simp] theorem Dev.markBad_rx (d : Dev) (h a : Nat) : (d.markBad h a).rx = d.rx := rfl
@[simp] theorem Dev.markBad_badFrames (d : Dev) (h a : Nat) : (d.markBad h a).badFrames = d.badFrames := rfl
@[simp] theorem Dev.markBad_buf (d : Dev) (h a : Nat) : (d.markBad h a).buf = d.buf := rfl
@[simp] theorem Dev.markBad_cells (d : Dev) (h a : Nat) : (d.markBad h a).cells = d.cells := rfl
@[simp] theorem Dev.markBad_bpms (d : Dev) (h a : Nat) : (d.markBad h a).bpms = d.bpms := rfl
@[simp] theorem Dev.markBad_rings (d : Dev) (h a : Nat) : (d.markBad h a).rings = d.rings := rfl
@[simp] theorem Dev.markBad_swc (d : Dev) (h a : Nat) : (d.markBad h a).swc = d.swc := rfl
@[simp] theorem Dev.markBad_tm (d : Dev) (h a : Nat) : (d.markBad h a).tm = d.tm := rfl
@[simp] theorem Dev.markBad_peals (d : Dev) (h a : Nat) : (d.markBad h a).peals = d.peals := rfl
@[simp] theorem Dev.markBad_pealMem (d : Dev) (h a : Nat) : (d.markBad h a).pealMem = d.pealMem := rfl
@[simp] theorem Dev.markBad_car (d : Dev) (h a : Nat) : (d.markBad h a).car = d.car := rfl
@[simp] theorem Dev.markBad_eng (d : Dev) (h a : Nat) : (d.markBad h a).eng = d.eng := rfl
@[simp] theorem Dev.markBad_lkp (d : Dev) (h a : Nat) : (d.markBad h a).lkp = d.lkp := rfl
@[simp] theorem Dev.markBad_hbms (d : Dev) (h a : Nat) : (d.markBad h a).hbms = d.hbms := rfl
@[simp] theorem Dev.markBad_hbmMem (d : Dev) (h a : Nat) : (d.markBad h a).hbmMem = d.hbmMem := rfl
@[simp] theorem Dev.markBad_mods (d : Dev) (h a : Nat) : (d.markBad h a).mods = d.mods := rfl
@[simp] theorem Dev.markBad_hif (d : Dev) (h a : Nat) : (d.markBad h a).hif = d.hif := rfl
@[simp] theorem Dev.markBad_ulx (d : Dev) (h a : Nat) : (d.markBad h a).ulx = d.ulx := rfl
@[simp] theorem Dev.markBad_word (d : Dev) (h a : Nat) (q k : Nat) : (d.markBad h a).word q k = d.word q k := rfl
@[simp] theorem Dev.markBad_get (d : Dev) (h a : Nat) (q : Nat) (g : Fld) : (d.markBad h a).get q g = d.get q g := rfl
@[simp] theorem Dev.markBad_domState (d : Dev) (h a : Nat) (i : Nat) : (d.markBad h a).domState i = d.domState i := rfl
@[simp] theorem Dev.markBad_fn (d : Dev) (h a : Nat) (q : Nat) : (d.markBad h a).fn q = d.fn q := rfl
@[simp] theorem Dev.markBad_mode (d : Dev) (h a : Nat) : (d.markBad h a).mode = d.mode := rfl

/-! setPeal -/

@[simp] theorem Dev.setPeal_csr (d : Dev) (die : Nat) (x : Peal) : (d.setPeal die x).csr = d.csr := rfl
@[simp] theorem Dev.setPeal_msix (d : Dev) (die : Nat) (x : Peal) : (d.setPeal die x).msix = d.msix := rfl
@[simp] theorem Dev.setPeal_ews (d : Dev) (die : Nat) (x : Peal) : (d.setPeal die x).ews = d.ews := rfl
@[simp] theorem Dev.setPeal_cs (d : Dev) (die : Nat) (x : Peal) : (d.setPeal die x).cs = d.cs := rfl
@[simp] theorem Dev.setPeal_log (d : Dev) (die : Nat) (x : Peal) : (d.setPeal die x).log = d.log := rfl
@[simp] theorem Dev.setPeal_out (d : Dev) (die : Nat) (x : Peal) : (d.setPeal die x).out = d.out := rfl
@[simp] theorem Dev.setPeal_fresh (d : Dev) (die : Nat) (x : Peal) : (d.setPeal die x).fresh = d.fresh := rfl
@[simp] theorem Dev.setPeal_rr (d : Dev) (die : Nat) (x : Peal) : (d.setPeal die x).rr = d.rr := rfl
@[simp] theorem Dev.setPeal_power (d : Dev) (die : Nat) (x : Peal) : (d.setPeal die x).power = d.power := rfl
@[simp] theorem Dev.setPeal_modes (d : Dev) (die : Nat) (x : Peal) : (d.setPeal die x).modes = d.modes := rfl
@[simp] theorem Dev.setPeal_time (d : Dev) (die : Nat) (x : Peal) : (d.setPeal die x).time = d.time := rfl
@[simp] theorem Dev.setPeal_pgs (d : Dev) (die : Nat) (x : Peal) : (d.setPeal die x).pgs = d.pgs := rfl
@[simp] theorem Dev.setPeal_rx (d : Dev) (die : Nat) (x : Peal) : (d.setPeal die x).rx = d.rx := rfl
@[simp] theorem Dev.setPeal_badFrames (d : Dev) (die : Nat) (x : Peal) : (d.setPeal die x).badFrames = d.badFrames := rfl
@[simp] theorem Dev.setPeal_buf (d : Dev) (die : Nat) (x : Peal) : (d.setPeal die x).buf = d.buf := rfl
@[simp] theorem Dev.setPeal_cells (d : Dev) (die : Nat) (x : Peal) : (d.setPeal die x).cells = d.cells := rfl
@[simp] theorem Dev.setPeal_bpms (d : Dev) (die : Nat) (x : Peal) : (d.setPeal die x).bpms = d.bpms := rfl
@[simp] theorem Dev.setPeal_rings (d : Dev) (die : Nat) (x : Peal) : (d.setPeal die x).rings = d.rings := rfl
@[simp] theorem Dev.setPeal_swc (d : Dev) (die : Nat) (x : Peal) : (d.setPeal die x).swc = d.swc := rfl
@[simp] theorem Dev.setPeal_tm (d : Dev) (die : Nat) (x : Peal) : (d.setPeal die x).tm = d.tm := rfl
@[simp] theorem Dev.setPeal_pealMem (d : Dev) (die : Nat) (x : Peal) : (d.setPeal die x).pealMem = d.pealMem := rfl
@[simp] theorem Dev.setPeal_car (d : Dev) (die : Nat) (x : Peal) : (d.setPeal die x).car = d.car := rfl
@[simp] theorem Dev.setPeal_eng (d : Dev) (die : Nat) (x : Peal) : (d.setPeal die x).eng = d.eng := rfl
@[simp] theorem Dev.setPeal_lkp (d : Dev) (die : Nat) (x : Peal) : (d.setPeal die x).lkp = d.lkp := rfl
@[simp] theorem Dev.setPeal_hbms (d : Dev) (die : Nat) (x : Peal) : (d.setPeal die x).hbms = d.hbms := rfl
@[simp] theorem Dev.setPeal_hbmMem (d : Dev) (die : Nat) (x : Peal) : (d.setPeal die x).hbmMem = d.hbmMem := rfl
@[simp] theorem Dev.setPeal_hbmBad (d : Dev) (die : Nat) (x : Peal) : (d.setPeal die x).hbmBad = d.hbmBad := rfl
@[simp] theorem Dev.setPeal_mods (d : Dev) (die : Nat) (x : Peal) : (d.setPeal die x).mods = d.mods := rfl
@[simp] theorem Dev.setPeal_hif (d : Dev) (die : Nat) (x : Peal) : (d.setPeal die x).hif = d.hif := rfl
@[simp] theorem Dev.setPeal_ulx (d : Dev) (die : Nat) (x : Peal) : (d.setPeal die x).ulx = d.ulx := rfl
@[simp] theorem Dev.setPeal_word (d : Dev) (die : Nat) (x : Peal) (q k : Nat) : (d.setPeal die x).word q k = d.word q k := rfl
@[simp] theorem Dev.setPeal_get (d : Dev) (die : Nat) (x : Peal) (q : Nat) (g : Fld) : (d.setPeal die x).get q g = d.get q g := rfl
@[simp] theorem Dev.setPeal_domState (d : Dev) (die : Nat) (x : Peal) (i : Nat) : (d.setPeal die x).domState i = d.domState i := rfl
@[simp] theorem Dev.setPeal_fn (d : Dev) (die : Nat) (x : Peal) (q : Nat) : (d.setPeal die x).fn q = d.fn q := rfl
@[simp] theorem Dev.setPeal_mode (d : Dev) (die : Nat) (x : Peal) : (d.setPeal die x).mode = d.mode := rfl

/-! setEw -/

@[simp] theorem Dev.setEw_csr (d : Dev) (w : Nat) (x : EntryWindow) : (d.setEw w x).csr = d.csr := rfl
@[simp] theorem Dev.setEw_msix (d : Dev) (w : Nat) (x : EntryWindow) : (d.setEw w x).msix = d.msix := rfl
@[simp] theorem Dev.setEw_cs (d : Dev) (w : Nat) (x : EntryWindow) : (d.setEw w x).cs = d.cs := rfl
@[simp] theorem Dev.setEw_log (d : Dev) (w : Nat) (x : EntryWindow) : (d.setEw w x).log = d.log := rfl
@[simp] theorem Dev.setEw_out (d : Dev) (w : Nat) (x : EntryWindow) : (d.setEw w x).out = d.out := rfl
@[simp] theorem Dev.setEw_fresh (d : Dev) (w : Nat) (x : EntryWindow) : (d.setEw w x).fresh = d.fresh := rfl
@[simp] theorem Dev.setEw_rr (d : Dev) (w : Nat) (x : EntryWindow) : (d.setEw w x).rr = d.rr := rfl
@[simp] theorem Dev.setEw_power (d : Dev) (w : Nat) (x : EntryWindow) : (d.setEw w x).power = d.power := rfl
@[simp] theorem Dev.setEw_modes (d : Dev) (w : Nat) (x : EntryWindow) : (d.setEw w x).modes = d.modes := rfl
@[simp] theorem Dev.setEw_time (d : Dev) (w : Nat) (x : EntryWindow) : (d.setEw w x).time = d.time := rfl
@[simp] theorem Dev.setEw_pgs (d : Dev) (w : Nat) (x : EntryWindow) : (d.setEw w x).pgs = d.pgs := rfl
@[simp] theorem Dev.setEw_rx (d : Dev) (w : Nat) (x : EntryWindow) : (d.setEw w x).rx = d.rx := rfl
@[simp] theorem Dev.setEw_badFrames (d : Dev) (w : Nat) (x : EntryWindow) : (d.setEw w x).badFrames = d.badFrames := rfl
@[simp] theorem Dev.setEw_buf (d : Dev) (w : Nat) (x : EntryWindow) : (d.setEw w x).buf = d.buf := rfl
@[simp] theorem Dev.setEw_cells (d : Dev) (w : Nat) (x : EntryWindow) : (d.setEw w x).cells = d.cells := rfl
@[simp] theorem Dev.setEw_bpms (d : Dev) (w : Nat) (x : EntryWindow) : (d.setEw w x).bpms = d.bpms := rfl
@[simp] theorem Dev.setEw_rings (d : Dev) (w : Nat) (x : EntryWindow) : (d.setEw w x).rings = d.rings := rfl
@[simp] theorem Dev.setEw_swc (d : Dev) (w : Nat) (x : EntryWindow) : (d.setEw w x).swc = d.swc := rfl
@[simp] theorem Dev.setEw_tm (d : Dev) (w : Nat) (x : EntryWindow) : (d.setEw w x).tm = d.tm := rfl
@[simp] theorem Dev.setEw_peals (d : Dev) (w : Nat) (x : EntryWindow) : (d.setEw w x).peals = d.peals := rfl
@[simp] theorem Dev.setEw_pealMem (d : Dev) (w : Nat) (x : EntryWindow) : (d.setEw w x).pealMem = d.pealMem := rfl
@[simp] theorem Dev.setEw_car (d : Dev) (w : Nat) (x : EntryWindow) : (d.setEw w x).car = d.car := rfl
@[simp] theorem Dev.setEw_eng (d : Dev) (w : Nat) (x : EntryWindow) : (d.setEw w x).eng = d.eng := rfl
@[simp] theorem Dev.setEw_lkp (d : Dev) (w : Nat) (x : EntryWindow) : (d.setEw w x).lkp = d.lkp := rfl
@[simp] theorem Dev.setEw_hbms (d : Dev) (w : Nat) (x : EntryWindow) : (d.setEw w x).hbms = d.hbms := rfl
@[simp] theorem Dev.setEw_hbmMem (d : Dev) (w : Nat) (x : EntryWindow) : (d.setEw w x).hbmMem = d.hbmMem := rfl
@[simp] theorem Dev.setEw_hbmBad (d : Dev) (w : Nat) (x : EntryWindow) : (d.setEw w x).hbmBad = d.hbmBad := rfl
@[simp] theorem Dev.setEw_mods (d : Dev) (w : Nat) (x : EntryWindow) : (d.setEw w x).mods = d.mods := rfl
@[simp] theorem Dev.setEw_hif (d : Dev) (w : Nat) (x : EntryWindow) : (d.setEw w x).hif = d.hif := rfl
@[simp] theorem Dev.setEw_ulx (d : Dev) (w : Nat) (x : EntryWindow) : (d.setEw w x).ulx = d.ulx := rfl
@[simp] theorem Dev.setEw_word (d : Dev) (w : Nat) (x : EntryWindow) (q k : Nat) : (d.setEw w x).word q k = d.word q k := rfl
@[simp] theorem Dev.setEw_get (d : Dev) (w : Nat) (x : EntryWindow) (q : Nat) (g : Fld) : (d.setEw w x).get q g = d.get q g := rfl
@[simp] theorem Dev.setEw_domState (d : Dev) (w : Nat) (x : EntryWindow) (i : Nat) : (d.setEw w x).domState i = d.domState i := rfl
@[simp] theorem Dev.setEw_fn (d : Dev) (w : Nat) (x : EntryWindow) (q : Nat) : (d.setEw w x).fn q = d.fn q := rfl
@[simp] theorem Dev.setEw_mode (d : Dev) (w : Nat) (x : EntryWindow) : (d.setEw w x).mode = d.mode := rfl

/-! setWord -/

@[simp] theorem Dev.setWord_msix (d : Dev) (p o : Nat) (w : Word) : (d.setWord p o w).msix = d.msix := rfl
@[simp] theorem Dev.setWord_ews (d : Dev) (p o : Nat) (w : Word) : (d.setWord p o w).ews = d.ews := rfl
@[simp] theorem Dev.setWord_cs (d : Dev) (p o : Nat) (w : Word) : (d.setWord p o w).cs = d.cs := rfl
@[simp] theorem Dev.setWord_log (d : Dev) (p o : Nat) (w : Word) : (d.setWord p o w).log = d.log := rfl
@[simp] theorem Dev.setWord_out (d : Dev) (p o : Nat) (w : Word) : (d.setWord p o w).out = d.out := rfl
@[simp] theorem Dev.setWord_fresh (d : Dev) (p o : Nat) (w : Word) : (d.setWord p o w).fresh = d.fresh := rfl
@[simp] theorem Dev.setWord_rr (d : Dev) (p o : Nat) (w : Word) : (d.setWord p o w).rr = d.rr := rfl
@[simp] theorem Dev.setWord_power (d : Dev) (p o : Nat) (w : Word) : (d.setWord p o w).power = d.power := rfl
@[simp] theorem Dev.setWord_modes (d : Dev) (p o : Nat) (w : Word) : (d.setWord p o w).modes = d.modes := rfl
@[simp] theorem Dev.setWord_time (d : Dev) (p o : Nat) (w : Word) : (d.setWord p o w).time = d.time := rfl
@[simp] theorem Dev.setWord_pgs (d : Dev) (p o : Nat) (w : Word) : (d.setWord p o w).pgs = d.pgs := rfl
@[simp] theorem Dev.setWord_rx (d : Dev) (p o : Nat) (w : Word) : (d.setWord p o w).rx = d.rx := rfl
@[simp] theorem Dev.setWord_badFrames (d : Dev) (p o : Nat) (w : Word) : (d.setWord p o w).badFrames = d.badFrames := rfl
@[simp] theorem Dev.setWord_buf (d : Dev) (p o : Nat) (w : Word) : (d.setWord p o w).buf = d.buf := rfl
@[simp] theorem Dev.setWord_cells (d : Dev) (p o : Nat) (w : Word) : (d.setWord p o w).cells = d.cells := rfl
@[simp] theorem Dev.setWord_bpms (d : Dev) (p o : Nat) (w : Word) : (d.setWord p o w).bpms = d.bpms := rfl
@[simp] theorem Dev.setWord_rings (d : Dev) (p o : Nat) (w : Word) : (d.setWord p o w).rings = d.rings := rfl
@[simp] theorem Dev.setWord_swc (d : Dev) (p o : Nat) (w : Word) : (d.setWord p o w).swc = d.swc := rfl
@[simp] theorem Dev.setWord_tm (d : Dev) (p o : Nat) (w : Word) : (d.setWord p o w).tm = d.tm := rfl
@[simp] theorem Dev.setWord_peals (d : Dev) (p o : Nat) (w : Word) : (d.setWord p o w).peals = d.peals := rfl
@[simp] theorem Dev.setWord_pealMem (d : Dev) (p o : Nat) (w : Word) : (d.setWord p o w).pealMem = d.pealMem := rfl
@[simp] theorem Dev.setWord_car (d : Dev) (p o : Nat) (w : Word) : (d.setWord p o w).car = d.car := rfl
@[simp] theorem Dev.setWord_eng (d : Dev) (p o : Nat) (w : Word) : (d.setWord p o w).eng = d.eng := rfl
@[simp] theorem Dev.setWord_lkp (d : Dev) (p o : Nat) (w : Word) : (d.setWord p o w).lkp = d.lkp := rfl
@[simp] theorem Dev.setWord_hbms (d : Dev) (p o : Nat) (w : Word) : (d.setWord p o w).hbms = d.hbms := rfl
@[simp] theorem Dev.setWord_hbmMem (d : Dev) (p o : Nat) (w : Word) : (d.setWord p o w).hbmMem = d.hbmMem := rfl
@[simp] theorem Dev.setWord_hbmBad (d : Dev) (p o : Nat) (w : Word) : (d.setWord p o w).hbmBad = d.hbmBad := rfl
@[simp] theorem Dev.setWord_mods (d : Dev) (p o : Nat) (w : Word) : (d.setWord p o w).mods = d.mods := rfl
@[simp] theorem Dev.setWord_hif (d : Dev) (p o : Nat) (w : Word) : (d.setWord p o w).hif = d.hif := rfl
@[simp] theorem Dev.setWord_ulx (d : Dev) (p o : Nat) (w : Word) : (d.setWord p o w).ulx = d.ulx := rfl

/-! set -/

@[simp] theorem Dev.set_msix (d : Dev) (p : Nat) (f : Fld) (v : Nat) : (d.set p f v).msix = d.msix := rfl
@[simp] theorem Dev.set_ews (d : Dev) (p : Nat) (f : Fld) (v : Nat) : (d.set p f v).ews = d.ews := rfl
@[simp] theorem Dev.set_cs (d : Dev) (p : Nat) (f : Fld) (v : Nat) : (d.set p f v).cs = d.cs := rfl
@[simp] theorem Dev.set_log (d : Dev) (p : Nat) (f : Fld) (v : Nat) : (d.set p f v).log = d.log := rfl
@[simp] theorem Dev.set_out (d : Dev) (p : Nat) (f : Fld) (v : Nat) : (d.set p f v).out = d.out := rfl
@[simp] theorem Dev.set_fresh (d : Dev) (p : Nat) (f : Fld) (v : Nat) : (d.set p f v).fresh = d.fresh := rfl
@[simp] theorem Dev.set_rr (d : Dev) (p : Nat) (f : Fld) (v : Nat) : (d.set p f v).rr = d.rr := rfl
@[simp] theorem Dev.set_power (d : Dev) (p : Nat) (f : Fld) (v : Nat) : (d.set p f v).power = d.power := rfl
@[simp] theorem Dev.set_modes (d : Dev) (p : Nat) (f : Fld) (v : Nat) : (d.set p f v).modes = d.modes := rfl
@[simp] theorem Dev.set_time (d : Dev) (p : Nat) (f : Fld) (v : Nat) : (d.set p f v).time = d.time := rfl
@[simp] theorem Dev.set_pgs (d : Dev) (p : Nat) (f : Fld) (v : Nat) : (d.set p f v).pgs = d.pgs := rfl
@[simp] theorem Dev.set_rx (d : Dev) (p : Nat) (f : Fld) (v : Nat) : (d.set p f v).rx = d.rx := rfl
@[simp] theorem Dev.set_badFrames (d : Dev) (p : Nat) (f : Fld) (v : Nat) : (d.set p f v).badFrames = d.badFrames := rfl
@[simp] theorem Dev.set_buf (d : Dev) (p : Nat) (f : Fld) (v : Nat) : (d.set p f v).buf = d.buf := rfl
@[simp] theorem Dev.set_cells (d : Dev) (p : Nat) (f : Fld) (v : Nat) : (d.set p f v).cells = d.cells := rfl
@[simp] theorem Dev.set_bpms (d : Dev) (p : Nat) (f : Fld) (v : Nat) : (d.set p f v).bpms = d.bpms := rfl
@[simp] theorem Dev.set_rings (d : Dev) (p : Nat) (f : Fld) (v : Nat) : (d.set p f v).rings = d.rings := rfl
@[simp] theorem Dev.set_swc (d : Dev) (p : Nat) (f : Fld) (v : Nat) : (d.set p f v).swc = d.swc := rfl
@[simp] theorem Dev.set_tm (d : Dev) (p : Nat) (f : Fld) (v : Nat) : (d.set p f v).tm = d.tm := rfl
@[simp] theorem Dev.set_peals (d : Dev) (p : Nat) (f : Fld) (v : Nat) : (d.set p f v).peals = d.peals := rfl
@[simp] theorem Dev.set_pealMem (d : Dev) (p : Nat) (f : Fld) (v : Nat) : (d.set p f v).pealMem = d.pealMem := rfl
@[simp] theorem Dev.set_car (d : Dev) (p : Nat) (f : Fld) (v : Nat) : (d.set p f v).car = d.car := rfl
@[simp] theorem Dev.set_eng (d : Dev) (p : Nat) (f : Fld) (v : Nat) : (d.set p f v).eng = d.eng := rfl
@[simp] theorem Dev.set_lkp (d : Dev) (p : Nat) (f : Fld) (v : Nat) : (d.set p f v).lkp = d.lkp := rfl
@[simp] theorem Dev.set_hbms (d : Dev) (p : Nat) (f : Fld) (v : Nat) : (d.set p f v).hbms = d.hbms := rfl
@[simp] theorem Dev.set_hbmMem (d : Dev) (p : Nat) (f : Fld) (v : Nat) : (d.set p f v).hbmMem = d.hbmMem := rfl
@[simp] theorem Dev.set_hbmBad (d : Dev) (p : Nat) (f : Fld) (v : Nat) : (d.set p f v).hbmBad = d.hbmBad := rfl
@[simp] theorem Dev.set_mods (d : Dev) (p : Nat) (f : Fld) (v : Nat) : (d.set p f v).mods = d.mods := rfl
@[simp] theorem Dev.set_hif (d : Dev) (p : Nat) (f : Fld) (v : Nat) : (d.set p f v).hif = d.hif := rfl
@[simp] theorem Dev.set_ulx (d : Dev) (p : Nat) (f : Fld) (v : Nat) : (d.set p f v).ulx = d.ulx := rfl

/-! latch -/

@[simp] theorem Dev.latch_msix (d : Dev) (p o : Nat) (w : Word) : (d.latch p o w).msix = d.msix := rfl
@[simp] theorem Dev.latch_ews (d : Dev) (p o : Nat) (w : Word) : (d.latch p o w).ews = d.ews := rfl
@[simp] theorem Dev.latch_cs (d : Dev) (p o : Nat) (w : Word) : (d.latch p o w).cs = d.cs := rfl
@[simp] theorem Dev.latch_log (d : Dev) (p o : Nat) (w : Word) : (d.latch p o w).log = d.log := rfl
@[simp] theorem Dev.latch_out (d : Dev) (p o : Nat) (w : Word) : (d.latch p o w).out = d.out := rfl
@[simp] theorem Dev.latch_fresh (d : Dev) (p o : Nat) (w : Word) : (d.latch p o w).fresh = d.fresh := rfl
@[simp] theorem Dev.latch_rr (d : Dev) (p o : Nat) (w : Word) : (d.latch p o w).rr = d.rr := rfl
@[simp] theorem Dev.latch_power (d : Dev) (p o : Nat) (w : Word) : (d.latch p o w).power = d.power := rfl
@[simp] theorem Dev.latch_modes (d : Dev) (p o : Nat) (w : Word) : (d.latch p o w).modes = d.modes := rfl
@[simp] theorem Dev.latch_time (d : Dev) (p o : Nat) (w : Word) : (d.latch p o w).time = d.time := rfl
@[simp] theorem Dev.latch_pgs (d : Dev) (p o : Nat) (w : Word) : (d.latch p o w).pgs = d.pgs := rfl
@[simp] theorem Dev.latch_rx (d : Dev) (p o : Nat) (w : Word) : (d.latch p o w).rx = d.rx := rfl
@[simp] theorem Dev.latch_badFrames (d : Dev) (p o : Nat) (w : Word) : (d.latch p o w).badFrames = d.badFrames := rfl
@[simp] theorem Dev.latch_buf (d : Dev) (p o : Nat) (w : Word) : (d.latch p o w).buf = d.buf := rfl
@[simp] theorem Dev.latch_cells (d : Dev) (p o : Nat) (w : Word) : (d.latch p o w).cells = d.cells := rfl
@[simp] theorem Dev.latch_bpms (d : Dev) (p o : Nat) (w : Word) : (d.latch p o w).bpms = d.bpms := rfl
@[simp] theorem Dev.latch_rings (d : Dev) (p o : Nat) (w : Word) : (d.latch p o w).rings = d.rings := rfl
@[simp] theorem Dev.latch_swc (d : Dev) (p o : Nat) (w : Word) : (d.latch p o w).swc = d.swc := rfl
@[simp] theorem Dev.latch_tm (d : Dev) (p o : Nat) (w : Word) : (d.latch p o w).tm = d.tm := rfl
@[simp] theorem Dev.latch_peals (d : Dev) (p o : Nat) (w : Word) : (d.latch p o w).peals = d.peals := rfl
@[simp] theorem Dev.latch_pealMem (d : Dev) (p o : Nat) (w : Word) : (d.latch p o w).pealMem = d.pealMem := rfl
@[simp] theorem Dev.latch_car (d : Dev) (p o : Nat) (w : Word) : (d.latch p o w).car = d.car := rfl
@[simp] theorem Dev.latch_eng (d : Dev) (p o : Nat) (w : Word) : (d.latch p o w).eng = d.eng := rfl
@[simp] theorem Dev.latch_lkp (d : Dev) (p o : Nat) (w : Word) : (d.latch p o w).lkp = d.lkp := rfl
@[simp] theorem Dev.latch_hbms (d : Dev) (p o : Nat) (w : Word) : (d.latch p o w).hbms = d.hbms := rfl
@[simp] theorem Dev.latch_hbmMem (d : Dev) (p o : Nat) (w : Word) : (d.latch p o w).hbmMem = d.hbmMem := rfl
@[simp] theorem Dev.latch_hbmBad (d : Dev) (p o : Nat) (w : Word) : (d.latch p o w).hbmBad = d.hbmBad := rfl
@[simp] theorem Dev.latch_mods (d : Dev) (p o : Nat) (w : Word) : (d.latch p o w).mods = d.mods := rfl
@[simp] theorem Dev.latch_hif (d : Dev) (p o : Nat) (w : Word) : (d.latch p o w).hif = d.hif := rfl
@[simp] theorem Dev.latch_ulx (d : Dev) (p o : Nat) (w : Word) : (d.latch p o w).ulx = d.ulx := rfl

/-! holdLow -/

@[simp] theorem Dev.holdLow_msix (d : Dev) (p o : Nat) (w : Word) : (d.holdLow p o w).msix = d.msix := rfl
@[simp] theorem Dev.holdLow_ews (d : Dev) (p o : Nat) (w : Word) : (d.holdLow p o w).ews = d.ews := rfl
@[simp] theorem Dev.holdLow_cs (d : Dev) (p o : Nat) (w : Word) : (d.holdLow p o w).cs = d.cs := rfl
@[simp] theorem Dev.holdLow_log (d : Dev) (p o : Nat) (w : Word) : (d.holdLow p o w).log = d.log := rfl
@[simp] theorem Dev.holdLow_out (d : Dev) (p o : Nat) (w : Word) : (d.holdLow p o w).out = d.out := rfl
@[simp] theorem Dev.holdLow_fresh (d : Dev) (p o : Nat) (w : Word) : (d.holdLow p o w).fresh = d.fresh := rfl
@[simp] theorem Dev.holdLow_rr (d : Dev) (p o : Nat) (w : Word) : (d.holdLow p o w).rr = d.rr := rfl
@[simp] theorem Dev.holdLow_power (d : Dev) (p o : Nat) (w : Word) : (d.holdLow p o w).power = d.power := rfl
@[simp] theorem Dev.holdLow_modes (d : Dev) (p o : Nat) (w : Word) : (d.holdLow p o w).modes = d.modes := rfl
@[simp] theorem Dev.holdLow_time (d : Dev) (p o : Nat) (w : Word) : (d.holdLow p o w).time = d.time := rfl
@[simp] theorem Dev.holdLow_pgs (d : Dev) (p o : Nat) (w : Word) : (d.holdLow p o w).pgs = d.pgs := rfl
@[simp] theorem Dev.holdLow_rx (d : Dev) (p o : Nat) (w : Word) : (d.holdLow p o w).rx = d.rx := rfl
@[simp] theorem Dev.holdLow_badFrames (d : Dev) (p o : Nat) (w : Word) : (d.holdLow p o w).badFrames = d.badFrames := rfl
@[simp] theorem Dev.holdLow_buf (d : Dev) (p o : Nat) (w : Word) : (d.holdLow p o w).buf = d.buf := rfl
@[simp] theorem Dev.holdLow_cells (d : Dev) (p o : Nat) (w : Word) : (d.holdLow p o w).cells = d.cells := rfl
@[simp] theorem Dev.holdLow_bpms (d : Dev) (p o : Nat) (w : Word) : (d.holdLow p o w).bpms = d.bpms := rfl
@[simp] theorem Dev.holdLow_rings (d : Dev) (p o : Nat) (w : Word) : (d.holdLow p o w).rings = d.rings := rfl
@[simp] theorem Dev.holdLow_swc (d : Dev) (p o : Nat) (w : Word) : (d.holdLow p o w).swc = d.swc := rfl
@[simp] theorem Dev.holdLow_tm (d : Dev) (p o : Nat) (w : Word) : (d.holdLow p o w).tm = d.tm := rfl
@[simp] theorem Dev.holdLow_peals (d : Dev) (p o : Nat) (w : Word) : (d.holdLow p o w).peals = d.peals := rfl
@[simp] theorem Dev.holdLow_pealMem (d : Dev) (p o : Nat) (w : Word) : (d.holdLow p o w).pealMem = d.pealMem := rfl
@[simp] theorem Dev.holdLow_car (d : Dev) (p o : Nat) (w : Word) : (d.holdLow p o w).car = d.car := rfl
@[simp] theorem Dev.holdLow_eng (d : Dev) (p o : Nat) (w : Word) : (d.holdLow p o w).eng = d.eng := rfl
@[simp] theorem Dev.holdLow_lkp (d : Dev) (p o : Nat) (w : Word) : (d.holdLow p o w).lkp = d.lkp := rfl
@[simp] theorem Dev.holdLow_hbms (d : Dev) (p o : Nat) (w : Word) : (d.holdLow p o w).hbms = d.hbms := rfl
@[simp] theorem Dev.holdLow_hbmMem (d : Dev) (p o : Nat) (w : Word) : (d.holdLow p o w).hbmMem = d.hbmMem := rfl
@[simp] theorem Dev.holdLow_hbmBad (d : Dev) (p o : Nat) (w : Word) : (d.holdLow p o w).hbmBad = d.hbmBad := rfl
@[simp] theorem Dev.holdLow_mods (d : Dev) (p o : Nat) (w : Word) : (d.holdLow p o w).mods = d.mods := rfl
@[simp] theorem Dev.holdLow_hif (d : Dev) (p o : Nat) (w : Word) : (d.holdLow p o w).hif = d.hif := rfl
@[simp] theorem Dev.holdLow_ulx (d : Dev) (p o : Nat) (w : Word) : (d.holdLow p o w).ulx = d.ulx := rfl

/-! dropLow -/

@[simp] theorem Dev.dropLow_msix (d : Dev) (p o : Nat) : (d.dropLow p o).msix = d.msix := rfl
@[simp] theorem Dev.dropLow_ews (d : Dev) (p o : Nat) : (d.dropLow p o).ews = d.ews := rfl
@[simp] theorem Dev.dropLow_cs (d : Dev) (p o : Nat) : (d.dropLow p o).cs = d.cs := rfl
@[simp] theorem Dev.dropLow_log (d : Dev) (p o : Nat) : (d.dropLow p o).log = d.log := rfl
@[simp] theorem Dev.dropLow_out (d : Dev) (p o : Nat) : (d.dropLow p o).out = d.out := rfl
@[simp] theorem Dev.dropLow_fresh (d : Dev) (p o : Nat) : (d.dropLow p o).fresh = d.fresh := rfl
@[simp] theorem Dev.dropLow_rr (d : Dev) (p o : Nat) : (d.dropLow p o).rr = d.rr := rfl
@[simp] theorem Dev.dropLow_power (d : Dev) (p o : Nat) : (d.dropLow p o).power = d.power := rfl
@[simp] theorem Dev.dropLow_modes (d : Dev) (p o : Nat) : (d.dropLow p o).modes = d.modes := rfl
@[simp] theorem Dev.dropLow_time (d : Dev) (p o : Nat) : (d.dropLow p o).time = d.time := rfl
@[simp] theorem Dev.dropLow_pgs (d : Dev) (p o : Nat) : (d.dropLow p o).pgs = d.pgs := rfl
@[simp] theorem Dev.dropLow_rx (d : Dev) (p o : Nat) : (d.dropLow p o).rx = d.rx := rfl
@[simp] theorem Dev.dropLow_badFrames (d : Dev) (p o : Nat) : (d.dropLow p o).badFrames = d.badFrames := rfl
@[simp] theorem Dev.dropLow_buf (d : Dev) (p o : Nat) : (d.dropLow p o).buf = d.buf := rfl
@[simp] theorem Dev.dropLow_cells (d : Dev) (p o : Nat) : (d.dropLow p o).cells = d.cells := rfl
@[simp] theorem Dev.dropLow_bpms (d : Dev) (p o : Nat) : (d.dropLow p o).bpms = d.bpms := rfl
@[simp] theorem Dev.dropLow_rings (d : Dev) (p o : Nat) : (d.dropLow p o).rings = d.rings := rfl
@[simp] theorem Dev.dropLow_swc (d : Dev) (p o : Nat) : (d.dropLow p o).swc = d.swc := rfl
@[simp] theorem Dev.dropLow_tm (d : Dev) (p o : Nat) : (d.dropLow p o).tm = d.tm := rfl
@[simp] theorem Dev.dropLow_peals (d : Dev) (p o : Nat) : (d.dropLow p o).peals = d.peals := rfl
@[simp] theorem Dev.dropLow_pealMem (d : Dev) (p o : Nat) : (d.dropLow p o).pealMem = d.pealMem := rfl
@[simp] theorem Dev.dropLow_car (d : Dev) (p o : Nat) : (d.dropLow p o).car = d.car := rfl
@[simp] theorem Dev.dropLow_eng (d : Dev) (p o : Nat) : (d.dropLow p o).eng = d.eng := rfl
@[simp] theorem Dev.dropLow_lkp (d : Dev) (p o : Nat) : (d.dropLow p o).lkp = d.lkp := rfl
@[simp] theorem Dev.dropLow_hbms (d : Dev) (p o : Nat) : (d.dropLow p o).hbms = d.hbms := rfl
@[simp] theorem Dev.dropLow_hbmMem (d : Dev) (p o : Nat) : (d.dropLow p o).hbmMem = d.hbmMem := rfl
@[simp] theorem Dev.dropLow_hbmBad (d : Dev) (p o : Nat) : (d.dropLow p o).hbmBad = d.hbmBad := rfl
@[simp] theorem Dev.dropLow_mods (d : Dev) (p o : Nat) : (d.dropLow p o).mods = d.mods := rfl
@[simp] theorem Dev.dropLow_hif (d : Dev) (p o : Nat) : (d.dropLow p o).hif = d.hif := rfl
@[simp] theorem Dev.dropLow_ulx (d : Dev) (p o : Nat) : (d.dropLow p o).ulx = d.ulx := rfl

end Sys2Proof.Machine
end

