-- ==== Sys2Proof/Laws/Trust.lean ====
section
/-! SUPPORT. The trust anchors (R149): what a write of one of their registers does, and that no host access, write list or mesh
request changes them in another way. -/

namespace Sys2Proof.Machine

/-- While LOCK is 1 a write changes nothing. -/
theorem Trust.write_locked (t : Trust) (o : Nat) (v : Word) (h : t.lock = true) : t.write o v = t := by
  simp [Trust.write, h]

/-- A write of a trust register keeps the form of the anchors. -/
theorem Trust.write_wf (t : Trust) (o : Nat) (v : Word) (h : t.wf) (ho : isTrust 1 o = true) : (t.write o v).wf := by
  obtain ⟨h1, h2, h3⟩ := h
  unfold Trust.write
  split
  · exact ⟨h1, h2, h3⟩
  split
  · exact ⟨h1, h2, h3⟩
  split
  · exact ⟨Nat.mod_lt _ (by decide), h2, h3⟩
  · next n1 n2 n3 =>
    simp only [isTrust, n2, n3, beq_iff_eq, Bool.or_eq_true, Bool.and_eq_true, decide_eq_true_eq, beq_self_eq_true, true_and, false_or] at ho
    refine ⟨h1, Map.wr_wf (fun _ => 0) _ _ _ h2, fun e he => ?_⟩
    have hk : keyIndex o < 64 ∧ keyIndex o % 16 < 12 := by unfold keyIndex; omega
    unfold Map.wr at he
    split at he
    · rw [Map.erase_eq_filter] at he; exact h3 e (List.mem_filter.1 he).1
    · rcases Map.mem_insert _ _ _ _ he with rfl | he
      · exact hk
      · rw [Map.erase_eq_filter] at he; exact h3 e (List.mem_filter.1 he).1

/-- A property of the anchors that no write of a trust register ends. -/
def Trust.Stable (P : Trust → Prop) : Prop := ∀ t o v, isTrust 1 o = true → P t → P (t.write o v)

theorem Trust.stable_wf : Trust.Stable Trust.wf := fun t o v ho h => Trust.write_wf t o v h ho

theorem Trust.stable_locked (u : Trust) (h : u.lock = true) : Trust.Stable fun t => t = u := by
  rintro t o v - rfl; exact Trust.write_locked t o v h

variable {P : Trust → Prop}

theorem isTrust_page {p o : Nat} (h : isTrust p o = true) : isTrust 1 o = true := by
  simp only [isTrust, Bool.and_eq_true, beq_iff_eq] at h ⊢
  exact ⟨trivial, h.2⟩

theorem Reach.write0_trust (hP : Trust.Stable P) (x : Reach) (p o : Nat) (v : Word) (be : BitVec 4) (req : Nat) (h : P x.trust) :
    P (x.write0 p o v be req).trust := by
  unfold Reach.write0
  split
  · next hc => exact hP _ _ _ (isTrust_page hc.1) h
  · exact h

theorem Reach.write_trust (hP : Trust.Stable P) (x : Reach) (bar a : Nat) (v : Word) (be : BitVec 4) (req : Nat) (h : P x.trust) :
    P (x.write bar a v be req).trust := by
  unfold Reach.write
  split
  · exact Reach.write0_trust hP _ _ _ _ _ _ h
  · exact h
  · exact h

theorem Reach.trust_mk (t : Trust) (d : Dev) : (⟨t, d⟩ : Reach).trust = t := rfl

/-- The anchors of a pair, put so that no one looks into its block. -/
theorem Reach.of_mk {t : Trust} (d : Dev) (h : P t) : P (⟨t, d⟩ : Reach).trust := (congrArg P (Reach.trust_mk t d)).mpr h

theorem Reach.read_trust (x : Reach) (bar a req : Nat) (e : Ecc) : (x.read bar a req e).2.trust = x.trust := rfl

theorem Reach.hostWrite_trust (hP : Trust.Stable P) (x : Reach) (bar a : Nat) (v : Word) (be : BitVec 4) (req : Nat) (h : P x.trust) :
    P (x.hostWrite bar a v be req).trust := by
  unfold Reach.hostWrite
  split
  · exact Reach.write_trust hP _ _ _ _ _ _ h
  · exact h

theorem Reach.hostRead_trust (x : Reach) (bar a req : Nat) (e : Ecc) : (x.hostRead bar a req e).trust = x.trust := by
  unfold Reach.hostRead
  split <;> rfl

theorem Reach.act_trust (hP : Trust.Stable P) (x : Reach) (p o b req : Nat) (h : P x.trust) : P (x.act p o b req).trust :=
  Reach.hostWrite_trust hP _ _ _ _ _ _ h

theorem Reach.debugWrite_trust (hP : Trust.Stable P) (x : Reach) (t b req : Nat) (h : P x.trust) : P (x.debugWrite t b req).trust :=
  Reach.hostWrite_trust hP _ _ _ _ _ _ h

theorem Reach.lookupGo_trust (hP : Trust.Stable P) (x : Reach) (q op req : Nat) (h : P x.trust) : P (x.lookupGo q op req).trust := by
  unfold Reach.lookupGo
  split
  · exact Reach.act_trust hP _ _ _ _ _ h
  · exact h

theorem Reach.moduleGo_trust (hP : Trust.Stable P) (x : Reach) (m op req : Nat) (h : P x.trust) : P (x.moduleGo m op req).trust := by
  unfold Reach.moduleGo
  split
  · exact Reach.act_trust hP _ _ _ _ _ h
  · exact h

theorem Reach.transactGo_trust (hP : Trust.Stable P) (x : Reach) (die k op req : Nat) (h : P x.trust) :
    P (x.transactGo die k op req).trust := Reach.hostWrite_trust hP _ _ _ _ _ _ h

theorem Reach.runRecords_trust (hP : Trust.Stable P) (fuel : Nat) : ∀ (x : Reach) (l : List Byte) (n : Nat), P x.trust →
    P (x.runRecords fuel l n).2.2.trust := by
  induction fuel with
  | zero => intro x l n h; exact h
  | succ k ih =>
    intro x l n h
    unfold Reach.runRecords
    split
    · exact h
    · dsimp only
      split
      · exact h
      · exact ih _ _ _ (Reach.write_trust hP _ _ _ _ _ _ h)

theorem Reach.writeList_trust (hP : Trust.Stable P) (x : Reach) (ch : Nat) (h : P x.trust) : P (x.writeList ch).trust := by
  unfold Reach.writeList
  cases hc : (x.dev.chan ch).ctx with
  | none => simpa only [hc] using h
  | some cx =>
    cases hj : (x.dev.chan ch).job with
    | none => simpa only [hc, hj] using h
    | some j =>
      simp only [hc, hj]
      generalize hr : Reach.runRecords x (j.bytes.length / 8) j.bytes 0 = r
      have hk : P r.2.2.trust := hr ▸ Reach.runRecords_trust hP _ _ _ _ h
      split
      · exact h
      · exact hk

theorem Reach.request_trust (hP : Trust.Stable P) (x : Reach) (p : Nat) (cell : List Byte) (h : P x.trust) :
    P (x.request p cell).trust := by
  unfold Reach.request
  split
  · exact Reach.of_mk _ h
  · split
    · exact Reach.of_mk _ h
    · split
      · exact Reach.of_mk _ h
      · dsimp only
        split
        · exact Reach.of_mk _ h
        · split
          · exact Reach.of_mk _ (Reach.write_trust hP _ _ _ _ _ _ (Reach.of_mk _ h))
          · exact Reach.of_mk _ (Reach.of_mk _ h)

end Sys2Proof.Machine
end

