-- ==== Sys2Proof/Laws/Windows.lean ====
section
/-! SUPPORT. Host accesses to BAR2 and BAR4: the path from an address to the control store, an entry window or the MSI-X table. -/

namespace Sys2Proof.Machine

/-- A host write of BAR2 while the link is in L0 or L0p. -/
theorem Reach.hostWrite_bar2 (x : Reach) (a req : Nat) (v : Word) (be : BitVec 4) (ho : x.dev.hostOpen = true) (hl : x.dev.lstate < 2) (h4 : a % 4 = 0) :
    x.hostWrite 1 a v be req = ⟨x.trust, x.dev.write2 a v be req⟩ := by
  simp only [Reach.hostWrite, ho, if_true, Reach.write, Dev.wakeLink_eq _ hl, show a / 4 * 4 = a by omega]
/-- A host read of BAR2 while the link is in L0 or L0p. -/
theorem Reach.hostRead_bar2 (x : Reach) (a req : Nat) (e : Ecc) (ho : x.dev.hostOpen = true) (hl : x.dev.lstate < 2) (h4 : a % 4 = 0) :
    x.hostRead 1 a req e = ⟨x.trust, (x.dev.read2 a req e).2.emit (.readData (x.dev.read2 a req e).1)⟩ := by
  simp only [Reach.hostRead, ho, if_true, Reach.read, Dev.wakeLink_eq _ hl, show a / 4 * 4 = a by omega]
/-- A host write of BAR4 while the link is in L0 or L0p. -/
theorem Reach.hostWrite_bar4 (x : Reach) (a req : Nat) (v : Word) (be : BitVec 4) (ho : x.dev.hostOpen = true) (hl : x.dev.lstate < 2) (h4 : a % 4 = 0) :
    x.hostWrite 2 a v be req = ⟨x.trust, x.dev.write4 a v be req⟩ := by
  simp only [Reach.hostWrite, ho, if_true, Reach.write, Dev.wakeLink_eq _ hl, show a / 4 * 4 = a by omega]

/-- The parts of a control-store address (R29). -/
theorem csAddr_parts (c : Fin 64) (a : Fin 16384) (k : Nat) (hk : k < 8) :
    (0x80000 * c.val + 32 * a.val + 4 * k) / 0x80000 = c.val ∧ (0x80000 * c.val + 32 * a.val + 4 * k) / 32 % 16384 = a.val ∧
    (0x80000 * c.val + 32 * a.val + 4 * k) / 4 % 8 = k ∧ 0x80000 * c.val + 32 * a.val + 4 * k < 0x2000000 := by
  have := c.isLt; omega

/-- A write of word 0–4 of a microword is held. -/
theorem Dev.write2_csHold (d : Dev) (c : Fin 64) (a : Fin 16384) (k : Nat) (v : Word) (req : Nat) (hp : d.pageOn (engPage c.val) = true) (hc : d.csOpen c.val = true) (hk : k < 5) :
    d.write2 (0x80000 * c.val + 32 * a.val + 4 * k) v 15 req = d.csHold c.val a.val k v := by
  obtain ⟨z1, z2, z3, z⟩ := csAddr_parts c a k (by omega)
  simp only [Dev.write2, if_pos z, Dev.csWrite, z1, z2, z3, hp, hc]
  have h6 : ¬ (6 ≤ k ∧ v ≠ 0) := by omega
  rw [if_neg (by decide), if_neg (by decide), if_neg h6, if_pos trivial]
  simp only [List.append_nil, ne_eq, not_true_eq_false, if_false, if_pos hk]

/-- A write of word 5 commits. -/
theorem Dev.write2_csCommit (d : Dev) (c : Fin 64) (a : Fin 16384) (v : Word) (req : Nat) (hp : d.pageOn (engPage c.val) = true) (hc : d.csOpen c.val = true) :
    d.write2 (0x80000 * c.val + 32 * a.val + 4 * 5) v 15 req = d.csCommit c.val a.val v := by
  obtain ⟨z1, z2, z3, z⟩ := csAddr_parts c a 5 (by omega)
  simp only [Dev.write2, if_pos z, Dev.csWrite, z1, z2, z3, hp, hc]
  have h6 : ¬ (6 ≤ 5 ∧ v ≠ 0) := by omega
  rw [if_neg (by decide), if_neg (by decide), if_neg h6, if_pos trivial]
  simp only [List.append_nil, ne_eq, not_true_eq_false, if_false, if_neg (show ¬ 5 < 5 by decide), if_true]

/-- A write that the cluster does not take is recorded as LOCKED. -/
theorem Dev.write2_csLocked (d : Dev) (c : Fin 64) (a : Fin 16384) (k : Nat) (v : Word) (req : Nat) (hp : d.pageOn (engPage c.val) = true) (hc : d.csOpen c.val = false) (hk : k < 6) :
    d.write2 (0x80000 * c.val + 32 * a.val + 4 * k) v 15 req = d.winErr (0x80000 * c.val + 32 * a.val + 4 * k) [0x09] v.toNat req true := by
  obtain ⟨z1, z2, z3, z⟩ := csAddr_parts c a k (by omega)
  simp only [Dev.write2, if_pos z, Dev.csWrite, z1, z2, z3, hp, hc]
  have h6 : ¬ (6 ≤ k ∧ v ≠ 0) := by omega
  rw [if_neg (by decide), if_neg (by decide), if_neg h6, if_neg (show ¬ false = true by decide), if_pos (by simp)]
  rfl

/-- A read of word 0 of a microword. -/
theorem Dev.read2_cs0 (d : Dev) (c : Fin 64) (a : Fin 16384) (req : Nat) (e : Ecc) (hp : d.pageOn (engPage c.val) = true) :
    d.read2 (0x80000 * c.val + 32 * a.val) req e = d.csRead c.val a.val 0 := by
  obtain ⟨z1, z2, z3, z⟩ := csAddr_parts c a 0 (by omega)
  rw [Nat.mul_zero, Nat.add_zero] at z1 z2 z3 z
  simp only [Dev.read2, if_pos z, Dev.csReadAt, z1, z2, z3, hp]
  rfl

/-- The parts of the address of EW_CMD (R32). -/
theorem ewCmd_parts (w : Fin 256) : 0x12000000 + 4096 * w.val + 8 ≥ 0x12000000 ∧ 0x12000000 + 4096 * w.val + 8 < 0x12100000 ∧
    (0x12000000 + 4096 * w.val + 8 - 0x12000000) / 4096 = w.val ∧ (0x12000000 + 4096 * w.val + 8) % 4096 = 8 := by
  have := w.isLt; omega

/-- A write of EW_CMD starts an operation. -/
theorem Dev.write2_ewStart (d : Dev) (w : Fin 256) (op req : Nat) (hop : op = 1 ∨ op = 2) (hb : (d.ew w.val).busy = false) :
    d.write2 (0x12000000 + 4096 * w.val + 8) (BitVec.ofNat 32 op) 15 req = d.ewStart w.val op := by
  obtain ⟨h1, h2, h3, h4⟩ := ewCmd_parts w
  simp only [Dev.write2, if_neg (show ¬ 0x12000000 + 4096 * w.val + 8 < 0x2000000 by omega), if_neg (show ¬ 0x12000000 + 4096 * w.val + 8 < 0x12000000 by omega), if_pos h2]
  simp only [Dev.ewWriteAt, h3, h4, hb]
  rcases hop with rfl | rfl <;> simp [Dev.winErr]

/-- A write of EW_CMD while BUSY is recorded. -/
theorem Dev.write2_ewHeld (d : Dev) (w : Fin 256) (op req : Nat) (hop : op = 1 ∨ op = 2) (hb : (d.ew w.val).busy = true) :
    d.write2 (0x12000000 + 4096 * w.val + 8) (BitVec.ofNat 32 op) 15 req = d.winErr (0x12000000 + 4096 * w.val + 8) [0x0D] op req true := by
  obtain ⟨h1, h2, h3, h4⟩ := ewCmd_parts w
  simp only [Dev.write2, if_neg (show ¬ 0x12000000 + 4096 * w.val + 8 < 0x2000000 by omega), if_neg (show ¬ 0x12000000 + 4096 * w.val + 8 < 0x12000000 by omega), if_pos h2]
  simp only [Dev.ewWriteAt, h3, h4, hb]
  rcases hop with rfl | rfl <;> simp

/-- A window reads as written. -/
theorem Dev.ew_setEw_same (d : Dev) (w : Nat) (x : EntryWindow) : (d.setEw w x).ew w = x := Map.rd_wr_same _ _ _ _
/-- The later of two writes of a window stands. -/
theorem Dev.setEw_setEw (d : Dev) (w : Nat) (x y : EntryWindow) : (d.setEw w x).setEw w y = d.setEw w y := by
  unfold Dev.setEw
  simp only [Map.wr_wr]

end Sys2Proof.Machine
end

