-- ==== Sys2Proof/WellFormed.lean ====
section
/-! DEFINITION. Which terms are commands: the bounds on operands that their types do not carry. -/

namespace Sys2Proof

/-- An aligned address within BAR0, BAR2 or BAR4 (R18, R19). -/
def wfAddr (bar : Fin 3) (addr : Nat) : Bool := addr % 4 == 0 && decide (addr < [2 ^ 24, 2 ^ 29, 2 ^ 20].getD bar.val 0)

/-- A Ulux cell has 256 bytes (R370). -/
def wfCell (cell : List Byte) : Bool := cell.length == 256

/-- A frame has bytes, and no more of them than a jabber can bring (R81, R82). -/
def wfFrame (frame : List Byte) : Bool := decide (1 ≤ frame.length) && decide (frame.length < 65536)

/-- The operands of a command that its types leave unbounded lie in their ranges. -/
def Instr.wf : Instr → Bool
  | .regWrite bar addr _ _ _ => wfAddr bar addr
  | .rcRead bar addr _ => wfAddr bar addr
  | .telemetryUpdate supply rails temps => supply.length == 3 && rails.length == 30 && temps.length == 16
  | .frameReceive _ frame | .marker _ frame | .install _ frame | .ack _ frame | .nack _ frame | .withdraw _ frame
  | .wdack _ frame | .stale _ frame => wfFrame frame
  | .replicationWalk _ entries => decide (entries.map (·.1)).Nodup
  | .recallReadDone _ words | .pageCopyDone _ words => decide (words.map (·.1)).Nodup
  | .pfcFrameReceive _ _ times => times.length == 8 && times.all fun t => decide (t < 65536)
  | .ctxInstall _ _ _ _ _ template => template.length == 128
  | .trainingDone _ _ failed => decide failed.Nodup
  | .patrolScrub _ addr _ => addr % 4 == 0 && decide (addr < 22 * 2 ^ 30 + 2 ^ 29)
  | .ageingVisit _ _ pos => decide (pos < 2 ^ 26)
  | .modCmdDone _ _ bytes => decide (bytes.length ≤ 32)
  | .completion _ _ bytes => decide (bytes.length ≤ 4096)
  | .sync _ cell | .dreq _ cell | .resp _ cell | .hello _ cell | .data _ cell | .null _ cell | .nak _ cell
  | .request _ cell | .response _ cell => wfCell cell
  | .pairLowRead .. | .pairHighRead .. | .pairLowWrite .. | .pairHighWrite .. | .intSet .. | .captureRearm ..
  | .shadowDiscard .. | .fnStart .. | .fnStop .. | .fnStartDone .. | .fnStopDone .. | .msixUnmask .. | .csWordWrite ..
  | .csCommit .. | .csWord0Read .. | .apertureRead .. | .apertureWrite .. | .ewRead .. | .ewWrite .. | .ewDone ..
  | .ewTimeout .. | .ewLate .. | .standbyInRange | .islandStart .. | .mainInputValid | .busInRegulation | .rootPllLock
  | .inputLoss .. | .watchdogTrip | .powerLinkRetry | .linkTimeout .. | .powerLinkLate | .thermalTrip .. | .thermalTripEnd
  | .domainRequest .. | .domainRampStart | .domainRampDone | .domainInitDone | .domainSwitchOff | .domainDischargeDone
  | .railFault .. | .faultClear .. | .pd29Repower | .refLoss | .refReturn | .refSlewComplete | .alignMismatch
  | .modeRequest .. | .modeTransitionDone | .drainEmpty | .drainTimeout | .frameEnd .. | .fecUncorrectable ..
  | .portLinkUp .. | .portLinkDown .. | .parseDone .. | .headDispatch .. | .headToThread .. | .threadLoadDone ..
  | .nearSteal .. | .farSteal .. | .farAllowanceReset .. | .cont .. | .branch .. | .call .. | .ret .. | .tret .. | .yield ..
  | .wait .. | .endFwd .. | .endMc .. | .endDrop .. | .endPunt .. | .recirc .. | .abort .. | .mov .. | .add .. | .sub ..
  | .and .. | .or .. | .xor .. | .andn .. | .ins .. | .ext .. | .cmp .. | .tst .. | .minu .. | .maxu .. | .clz .. | .popc ..
  | .add1c .. | .fold16 .. | .subsat .. | .headToRegister .. | .registerToHead .. | .metadataToRegister ..
  | .registerToMetadata .. | .plainLookup .. | .lookupWithLearn .. | .lookupNoRefresh .. | .counterBump .. | .lookupResult ..
  | .trapEnter .. | .budget .. | .csUe .. | .debugBreak .. | .halt .. | .haltAll .. | .threadHalted .. | .resumeContinue ..
  | .resumeVector .. | .resumeAbort .. | .dbgDataWrite .. | .completionReport .. | .ticketRetire .. | .ticketAged ..
  | .slotUe .. | .recircEnqueue .. | .epochFlip .. | .verify .. | .verifyDone .. | .imagePolicyLock .. | .descriptorCommit ..
  | .insert .. | .update .. | .delete .. | .find .. | .lkpCommandDone .. | .learnNew .. | .learnMove .. | .lrnEvtPop ..
  | .admission .. | .openPageTimeout .. | .recall .. | .pageRingReady .. | .cellTransfer | .frameTransmitStart ..
  | .frameTransmitEnd .. | .pfcRefresh .. | .pfcPauseExpire .. | .holdTimerExpire .. | .flushDone .. | .selection ..
  | .shaperWake .. | .coarseSlot .. | .gateBoundary .. | .rsArm .. | .rsCancel .. | .rsApply ..
  | .editCellGranted .. | .fence .. | .fenceDone .. | .pealMemRead .. | .pealMemWrite .. | .markerSend ..
  | .resequencerCheck .. | .learnEnd .. | .restoredHeadIntake .. | .messageRetry .. | .ctxWithdraw ..
  | .ctxInstallCandidate .. | .minerInterval .. | .eliPropPop .. | .readRetrain .. | .refresh .. | .hbmTempRead ..
  | .hbmStopLimit .. | .ceWindowEnd .. | .counterUpdate .. | .counterRead .. | .counterReadClear ..
  | .counterReadDone .. | .set .. | .step .. | .slew .. | .timeAbort .. | .slewComplete | .slaveAligned | .timeNowLatch ..
  | .capture .. | .timeCapPop .. | .timeTxPop .. | .chimeArm .. | .chimeCancel .. | .chimePulse .. | .chimePulseEnd .. | .pps
  | .ppsEnd | .meshExchange | .timeExchangeAbandon | .meshLost | .moduleInsert .. | .moduleRemove .. | .rstReq ..
  | .resetRelease .. | .initPoll .. | .initTimeout .. | .scanVisit .. | .modCmdRead .. | .modCmdWrite .. | .modCmdTimeout ..
  | .twArm .. | .twCancel .. | .twReserve .. | .twAck .. | .modEvtPop .. | .modAdvPop .. | .ledgerRead .. | .ledgerWrite ..
  | .perstRelease | .ctoValueWrite .. | .completionTimeout .. | .quarantineEnd .. | .pcieDown | .l0pChange .. | .l1Entry
  | .powerStateChange .. | .functionLevelReset | .hotReset .. | .channelStart .. | .channelStop .. | .channelStartDone ..
  | .channelStopDone .. | .dmaCtxInval .. | .dbTail .. | .dbArm .. | .descriptorFetch .. | .puntDelivery .. | .inject ..
  | .writeList .. | .coalTimeout .. | .ulxAligned .. | .helloSend .. | .ackTimeout .. | .ulxCellSend .. | .ulxPortLeaveUp ..
  | .rsqTimeout .. | .peerHoldExpire .. | .portRetrain .. | .txnRead .. | .txnWrite .. | .txnTimeout ..
  | .txnQuarantineEnd .. | .winCommit .. | .winCommitDone .. | .errLogPop .. | .logRecordLatch .. | .scrubVisit ..
  | .systemReset | .standbyLoss | .pcieLinkUp .. | .sysRstNRelease | .cellGrantedAfterWait .. | .openRowIdle ..
  | .busAttemptRetry .. | .timedWriteTPassed .. => true

end Sys2Proof
end

