-- ==== Sys2Proof/Tests/Slice0.lean ====
section
/-! SUPPORT. Tests: ill-formed terms that the checks refuse, single steps with values from the spec, and for every statement a
state and operands that meet its hypotheses. -/

set_option Elab.async false

namespace Sys2Proof.Tests

open Sys2Proof Sys2Proof.Machine

/-! States -/

/-- Every domain ON. -/
def on : Dev := (List.range 30).foldl (fun d n => d.setDom n 3) Dev.reset

/-- A machine around a block. -/
def at_ (d : Dev) : State := ⟨[], Trust.reset, d⟩

def pkt : Pkt := ⟨5, 5, 64, 68, 3, 0, 3, 0, false⟩
def head : Head := ⟨pkt, List.replicate 256 0, List.replicate 64 0, 0, 0, 12288, 0, 0, false, 0⟩
def ent : QEnt := ⟨5, 64, 5, 0, 0, 0, 3, 0, false, false, false, false, false, 1, [], 0, false⟩

/-- `on` with the function of page `p` RUNNING. -/
def running (d : Dev) (p : Nat) : Dev := d.set p ⟨0x0C, 0, 2⟩ 2

/-- `on` with registers of page `p` from `o` on set. -/
def put (d : Dev) (p o : Nat) : List Nat → Dev
  | [] => d
  | v :: r => put (d.setWord p o (BitVec.ofNat 32 v)) p (o + 4) r

/-! Checks of operands -/

theorem test_wf_aligned : (Instr.regWrite 0 0x10100 5 15 0).wf = true ∧ (Instr.regWrite 0 0x10101 5 15 0).wf = false := by decide
theorem test_wf_bar : (Instr.rcRead 2 0xFFFFC 0).wf = true ∧ (Instr.rcRead 2 0x100000 0).wf = false := by decide
theorem test_wf_telemetry : (Instr.telemetryUpdate [0, 0, 0] (List.replicate 30 0) (List.replicate 16 0)).wf = true ∧
    (Instr.telemetryUpdate [0, 0] (List.replicate 30 0) (List.replicate 16 0)).wf = false := by decide
theorem test_wf_frame : (Instr.frameReceive 0 [0]).wf = true ∧ (Instr.frameReceive 0 []).wf = false := by decide
theorem test_wf_cell : (Instr.hello 0 (List.replicate 256 0)).wf = true ∧ (Instr.hello 0 [0]).wf = false := by decide +kernel
theorem test_wf_recall : (Instr.recallReadDone 0 [(3, .bad), (4, .corrected)]).wf = true ∧ (Instr.recallReadDone 0 [(3, .bad), (3, .corrected)]).wf = false := by decide
theorem test_wf_copy : (Instr.pageCopyDone 0 [(3, .bad)]).wf = true ∧ (Instr.pageCopyDone 0 [(3, .bad), (3, .bad)]).wf = false := by decide
theorem test_wf_walk : (Instr.replicationWalk 0 [(0, .bad), (2, .bad)]).wf = true ∧ (Instr.replicationWalk 0 [(2, .bad), (2, .clean)]).wf = false := by decide
theorem test_wf_pfc : (Instr.pfcFrameReceive 0 0 (List.replicate 8 65535)).wf = true ∧ (Instr.pfcFrameReceive 0 0 (List.replicate 8 65536)).wf = false := by decide +kernel
theorem test_wf_template : (Instr.ctxInstall 0 0 0 20 0 (List.replicate 128 0)).wf = true ∧ (Instr.ctxInstall 0 0 0 20 0 []).wf = false := by decide +kernel
theorem test_wf_failed : (Instr.trainingDone 0 none [3, 4]).wf = true ∧ (Instr.trainingDone 0 none [3, 3]).wf = false := by decide +kernel
theorem test_wf_scrub : (Instr.patrolScrub 0 4 .clean).wf = true ∧ (Instr.patrolScrub 0 (45 * 2 ^ 29) .clean).wf = false := by decide
theorem test_wf_visit : (Instr.ageingVisit 0 1 0).wf = true ∧ (Instr.ageingVisit 0 1 (2 ^ 26)).wf = false := by decide
theorem test_wf_bus : (Instr.modCmdDone 0 false (List.replicate 32 0)).wf = true ∧ (Instr.modCmdDone 0 false (List.replicate 33 0)).wf = false := by decide +kernel
theorem test_wf_completion : (Instr.completion 0 true [1]).wf = true ∧ (Instr.completion 0 true (List.replicate 4097 0)).wf = false := by decide +kernel

/-! Hypotheses of the statements, each theorem named after its statement -/

theorem test_StepRunsTheFrontCommand : (∃ s : State, s.pending = Instr.systemReset :: []) ∧ ∃ s : State, s.pending = [] :=
  ⟨⟨⟨[.systemReset], Trust.reset, Dev.reset⟩, rfl⟩, State.reset, rfl⟩

theorem test_TrustAnchorsKeepTheirForm : ∃ s t : State, s.trust.wf ∧ step s = .next t := ⟨State.reset, _, by decide, rfl⟩

theorem test_LockedTrustAnchorsStay : ∃ s t : State, s.trust.lock = true ∧ (∀ c rest, s.pending = c :: rest → losesIsland c = false) ∧ step s = .next t :=
  ⟨⟨[.pps], ⟨true, true, 3, [(0, 5)]⟩, on⟩, _, rfl, by rintro c rest h; cases h; rfl, rfl⟩

theorem test_MemoryOperationsKeepTheForm : ∃ (d : Dev) (a n x k : Nat) (b : List Byte), Memory.wf d = true ∧ k ≠ a ∧ b.length = 4 * n ∧ x % 4 = 0 ∧ a % 4 = 0 ∧ a + 4 * ((b.length + 3) / 4) ≤ x :=
  ⟨on, 8, 1, 12, 9, [1, 2, 3, 4], by decide +kernel⟩

theorem test_ScratchAndHeaderCommands : (∃ s : State, ∃ p q o, s.dev.reachable p ∧ csrKey q o ≠ csrKey p 0x44) ∧
    (∃ (s : State) (p o : Nat) (r : RegDesc), s.dev.reachable p ∧ o < 65536 ∧ o % 4 = 0 ∧ regAt p o = some r ∧ r.half = .single ∧ pageKind p ≠ .err ∧ pageKind p ≠ .eng ∧
      pageKind p ≠ .time ∧ ∃ f ∈ r.fields, f.acc = .rc) ∧
    ∃ (s : State) (page : Fin 256) (v : Word), s.dev.reachable page.val ∧ Nat.land v.toNat (2 ^ 32 - 1 - (2 ^ 30 * 3 + (pageKind page.val).blkMask)) = 0 :=
  ⟨⟨at_ on, 0x04, 0x05, 0x44, by decide +kernel⟩, ⟨at_ on, 0x03, 0x0104, ⟨0x0104, 1, 65536, 1, 4, .single, [⟨0, 16, .rc, 0, false⟩]⟩, by decide +kernel⟩,
   at_ on, 0x02, 0xC000003F, by decide +kernel⟩

theorem test_RefusedAccessesAreRecorded :
    (∃ (s : State) (p o : Nat), s.dev.hostOpen = true ∧ s.dev.lstate < 2 ∧ p < 256 ∧ o < 65536 ∧ o % 4 = 0 ∧ pageKind p = .none) ∧
    (∃ (s : State) (p o : Nat), s.dev.hostOpen = true ∧ s.dev.lstate < 2 ∧ p < 256 ∧ o < 65536 ∧ o % 4 = 0 ∧ pageKind p ≠ .none ∧ s.dev.pageOn p = false) ∧
    (∃ (s : State) (p o : Nat) (be : BitVec 4), s.dev.reachable p ∧ o < 65536 ∧ o % 4 = 0 ∧ be ≠ 15) ∧
    (∃ (s : State) (p o : Nat), s.dev.reachable p ∧ 0x48 ≤ o ∧ o < 0x100 ∧ o % 4 = 0) ∧ ∃ (s : State) (p : Nat), s.dev.reachable p :=
  ⟨⟨State.reset, 0xFF, 0xFFFC, by decide +kernel⟩, ⟨State.reset, 0x10, 0, by decide +kernel⟩, ⟨at_ on, 0x04, 0x44, 3, by decide +kernel⟩,
   ⟨at_ on, 0x04, 0xFC, by decide +kernel⟩, at_ on, 0x04, by decide +kernel⟩

/-- The low half of DMA_CTX_BASE, and what the pair's high half is. -/
def pairOk (d : Dev) (o : Nat) (h : Half) (v : Nat) : Bool :=
  match regAt 0x06 o with
  | none => false
  | some r => r.half == h && r.fields.any (fun f => f.acc = .rw) && (d.ignores 0x06 o v).isEmpty && (judgeWrite (some r) d.mode (d.shown 0x06 o).toNat v).isEmpty

theorem test_PairsLatchAndHold :
    (∃ s : State, s.dev.reachable 0x06 ∧ isTrust 0x06 0x100 = false ∧ isTrust 0x06 0x104 = false ∧ pairOk s.dev 0x100 .low 0x5000 = true ∧ pairOk s.dev 0x104 .high 7 = true ∧
      s.dev.csr.latches.find? (csrKey 0x06 0x100) = none) ∧
    ∃ s : State, s.dev.reachable 0x06 ∧ s.dev.csr.latches.find? (csrKey 0x06 0x100) = some 9 :=
  ⟨⟨at_ on, by decide +kernel⟩, at_ (on.latch 0x06 0x100 9), by decide +kernel⟩

/-- An image of one zero microword at address 0, unsigned: header and digest by an independent program. -/
def image (d : Dev) (p : Nat) : Dev :=
  put (put d p 0x500 [0x4d495954, 0x40000001, 0x1426025, 0x100, 0, 0, 0x100, 0x68010000, 0, 0, 0, 0, 0, 0, 0, 0, 1, 0x1000000, 0x50000000, 0x20cac1a3]) p 0x700
    [0, 0, 0x6b60a217, 0x7f7225f3, 0x9cec041d, 0x8cb1737e, 0xbb302f18, 0x4c3995aa, 0x189df6f0, 0x205a7155, 0xb6cff730, 0xa6ce2c32, 0x3897ee83, 0xa11d6f5e]

theorem test_image_digest : ((image on 0x40).set 0x40 F.ENG_IMG_STAT_BUSY 1).imgCode Trust.reset 0 = 0 := by decide +kernel

theorem test_WindowsReachTheirMemories :
    (∃ s : State, s.dev.hostOpen = true ∧ s.dev.lstate < 2 ∧ s.dev.get hifPage (F.HIF_APT_CTL_TARGET.at 8) = 1 ∧ s.dev.aptSpace 1 = .quad 0 ∧ s.dev.aptRefuse (.quad 0) 0 = none ∧
      s.dev.aptSpace 0 = .none ∧ s.dev.aptRefuse .none 0 = some 0x0C) ∧
    (∃ s : State, let x := s.dev.ew 0; s.dev.hostOpen = true ∧ s.dev.lstate < 2 ∧ x.busy = false ∧ s.dev.ewNamed x.space x.inst = true ∧ x.space ≠ 7) ∧
    (∃ s : State, let x := s.dev.ew 0; s.dev.hostOpen = true ∧ s.dev.lstate < 2 ∧ x.busy = true ∧ x.space ≠ 7 ∧ s.dev.ewRefuse x.space x.inst x.index.toNat ≠ 0 ∧ x.op = 1 ∧ x.late ≠ 0) ∧
    (∃ s : State, let x := s.dev.ew 0; x.busy = true ∧ x.space ≠ 7 ∧ s.dev.ewRefuse x.space x.inst x.index.toNat = 0 ∧ x.op = 1 ∧ s.dev.entryBad x.space x.inst x.index.toNat = false) ∧
    ∃ s : State, let x := s.dev.ew 0; x.busy = true ∧ x.space ≠ 7 ∧ s.dev.ewRefuse x.space x.inst x.index.toNat = 0 ∧ x.op = 2 :=
  ⟨⟨at_ (on.set hifPage (F.HIF_APT_CTL_TARGET.at 8) 1), by decide +kernel⟩, ⟨at_ (on.setEw 0 { EntryWindow.init with target := 1 }), by decide +kernel⟩,
   ⟨at_ (on.setEw 0 { EntryWindow.init with target := 1, index := 65536, busy := true, op := 1, late := 1 }), by decide +kernel⟩,
   ⟨at_ (on.setEw 0 { EntryWindow.init with target := 1, index := 65535, busy := true, op := 1 }), by decide +kernel⟩,
   at_ (on.setEw 0 { EntryWindow.init with target := 1, busy := true, op := 2 }), by decide +kernel⟩

theorem test_ProgramsAreLoadedAndVerified :
    (∃ s : State, s.dev.hostOpen = true ∧ s.dev.lstate < 2 ∧ s.dev.pageOn (engPage 0) = true ∧ s.dev.csOpen 0 = true ∧ s.dev.reachable (engPage 0) ∧ s.dev.get (engPage 0) F.ENG_IMG_STAT_BUSY = 0) ∧
    (∃ s : State, s.dev.hostOpen = true ∧ s.dev.lstate < 2 ∧ s.dev.pageOn (engPage 63) = true ∧ s.dev.csOpen 63 = false) ∧
    (∃ s : State, s.dev.get (engPage 0) F.ENG_IMG_STAT_BUSY = 1 ∧ s.dev.imgCode s.trust 0 ≠ 0 ∧ s.dev.csKnownBad 0 = false) ∧
    (∃ s : State, s.dev.get (engPage 0) F.ENG_IMG_STAT_BUSY = 1 ∧ s.dev.csKnownBad 0 = true) ∧
    (∃ s : State, s.dev.get (engPage 0) F.ENG_IMG_STAT_BUSY = 1 ∧ s.dev.imgCode s.trust 0 = 0 ∧ s.dev.csKnownBad 0 = false) ∧ ∃ s : State, s.dev.reachable 0x01 ∧ s.trust.lock = false :=
  ⟨⟨at_ on, by decide +kernel⟩, ⟨at_ (running on (engPage 63)), by decide +kernel⟩, ⟨at_ (on.set (engPage 0) F.ENG_IMG_STAT_BUSY 1), by decide +kernel⟩,
   ⟨at_ { (image on 0x40).set 0x40 F.ENG_IMG_STAT_BUSY 1 with cs := ⟨[], [], [], [(0, true)]⟩ }, by decide +kernel⟩,
   ⟨at_ ((image on 0x40).set 0x40 F.ENG_IMG_STAT_BUSY 1), by decide +kernel⟩, State.reset, by decide +kernel⟩

theorem test_InterruptMessagesFollowTheLine :
    (∃ s : State, s.dev.hostOpen = true ∧ s.dev.lstate < 2 ∧ Map.rd false s.dev.msix.pba 7 = false ∧ Map.rd false s.dev.msix.pba 2047 = true) ∧
    (∃ (d : Dev) (p mask : Nat), p < 256 ∧ d.line p = false ∧ (d.raiseInt p mask).line p = false) ∧
    (∃ (d : Dev) (p mask : Nat), p < 256 ∧ d.line p = false ∧ (d.raiseInt p mask).line p = true ∧ d.get 0x05 (F.HIF_INT_ROUTE_EN.at (4 * p)) = 1 ∧ d.domOn 29 = true ∧ bit (Map.rd 1 d.msix.table 3).toNat 0 = true) ∧
    ∃ (d : Dev) (p mask : Nat), p < 256 ∧ d.line p = false ∧ (d.raiseInt p mask).line p = true ∧ d.get 0x05 (F.HIF_INT_ROUTE_EN.at (4 * p)) = 1 ∧ d.domOn 29 = true ∧ bit (Map.rd 1 d.msix.table 3).toNat 0 = false ∧ d.hostShut = false ∧
      (d.set hifPage F.HIF_LINK_STAT_LSTATE 5).hostShut = true ∧ ∃ e : Dev, e.msix.pba = [(0, true)] ∧ e.msix.table = d.msix.table ∧ e.domOn 29 = true ∧ e.hostShut = false :=
  ⟨⟨at_ { on with msix := ⟨[], [(2047, true)]⟩ }, by decide +kernel⟩, ⟨on, 4, 1, by decide +kernel⟩,
   ⟨(on.setWord 4 0x14 1).set 5 (F.HIF_INT_ROUTE_EN.at 16) 1, 4, 1, by decide +kernel⟩,
   { (on.setWord 4 0x14 1).set 5 (F.HIF_INT_ROUTE_EN.at 16) 1 with msix := ⟨[(3, 0)], []⟩ }, 4, 1, by decide +kernel, by decide +kernel, by decide +kernel,
   by decide +kernel, by decide +kernel, by decide +kernel, by decide +kernel, by decide +kernel, { on with msix := ⟨[(3, 0)], [(0, true)]⟩ }, by decide +kernel, by decide +kernel, by decide +kernel, by decide +kernel⟩

theorem test_TheFirstInterruptAndRecordAreKept :
    (∃ (d : Dev) (p mask : Nat), p < 256 ∧ 0 < mask ∧ mask < 2 ^ 32 ∧ d.word p 0x10 = 0) ∧ (∃ (d : Dev) (p mask : Nat), p < 256 ∧ 0 < mask ∧ mask < 2 ^ 32 ∧ d.word p 0x10 ≠ 0) ∧
    (∃ (d : Dev) (c : Cap), c.page < 256 ∧ c.kinds ≠ [] ∧ (∀ k ∈ c.kinds, k < 64) ∧ d.get c.page H.VALID = 0) ∧
    ∃ (d : Dev) (c : Cap), c.page < 256 ∧ c.kinds ≠ [] ∧ (∀ k ∈ c.kinds, k < 64) ∧ d.get c.page H.VALID = 1 :=
  ⟨⟨on, 4, 0x80000000, by decide +kernel⟩, ⟨on.setWord 4 0x10 2, 4, 1, by decide +kernel⟩, ⟨on, { page := 4, kinds := [6, 63], off := 0x44 }, by decide +kernel⟩,
   on.set 4 H.VALID 1, { page := 4, kinds := [0], off := 0x44 }, by decide +kernel⟩

theorem test_TheLogKeepsItsNewestRecords :
    (∃ d : Dev, d.log.ring.length < 4096) ∧ (∃ d : Dev, 4096 ≤ d.log.ring.length ∧ d.log.ring.length ≤ 4096) ∧ (∃ (d : Dev) (r : LogRec), bit (d.get 0x04 F.ERR_CFG_LOG_EN) r.cls = false ∧ r.cls < 8) ∧
    (∃ s : State, s.dev.reachable 0x04 ∧ s.dev.log.ring = []) ∧ (∃ (s : State) (w : List Word), s.dev.reachable 0x04 ∧ s.dev.log.ring = [w] ∧ s.dev.log.latch = some w) ∧
    (∃ (s : State) (w : List Word), s.dev.reachable 0x04 ∧ s.dev.log.ring = [w] ∧ s.dev.log.latch = none) ∧ (∃ s : State, s.dev.get 0x04 F.ERR_SCRUB_EN = 0) ∧
    (∃ s : State, s.dev.get 0x04 F.ERR_SCRUB_EN ≠ 0 ∧ s.dev.pageOn (scrubPage 1 0 5) = true ∧ (s.dev.cell 5).alloc = true) ∧ ∃ s : State, s.dev.pageOn (scrubPage 1 0 5) = false :=
  ⟨⟨on, by decide +kernel⟩, ⟨{ on with log := { on.log with ring := List.replicate 4096 [] } }, by decide +kernel⟩,
   ⟨on.set 0x04 F.ERR_CFG_LOG_EN 0xFE, ⟨4, 1, 0, false, 0, 0, 0, 0, 0, false⟩, by decide +kernel⟩,
   ⟨at_ on, by decide +kernel⟩, ⟨at_ { on with log := ⟨[[1]], some [1], [], false⟩ }, [1], by decide +kernel⟩, ⟨at_ { on with log := ⟨[[1]], none, [], false⟩ }, [1], by decide +kernel⟩,
   ⟨at_ (on.set 0x04 F.ERR_SCRUB_EN 0), by decide +kernel⟩, ⟨at_ ((on.set 0x04 F.ERR_SCRUB_EN 1).setCell 5 { CellEntry.init with alloc := true }), by decide +kernel⟩, State.reset, by decide +kernel⟩

theorem test_FunctionsStartAndStop :
    (∃ s : State, s.dev.reachable 0x2A ∧ hasFunction 0x2A = true ∧ s.dev.modes.stopping = false ∧ s.dev.fn 0x2A = 0 ∧ s.dev.startBlocker 0x2A = none) ∧
    (∃ s : State, s.dev.reachable 0x2C ∧ hasFunction 0x2C = true ∧ s.dev.modes.stopping = false ∧ s.dev.fn 0x2C = 0 ∧ s.dev.startBlocker 0x2C = some 0x2A) ∧
    (∃ s : State, s.dev.reachable 0x2C ∧ s.dev.modes.stopping = false ∧ s.dev.fn 0x2C = 1) ∧
    (∃ s : State, s.dev.reachable 0x06 ∧ s.dev.modes.stopping = false ∧ s.dev.fn 0x06 = 2 ∧ s.dev.stopBlockers 0x06 = []) ∧
    (∃ s : State, s.dev.reachable 0x2A ∧ s.dev.modes.stopping = false ∧ s.dev.fn 0x2A = 2 ∧ (s.dev.stopBlockers 0x2A).min? = some 0x2C) ∧
    (∃ s : State, s.dev.reachable 0x2C ∧ s.dev.modes.stopping = false ∧ s.dev.fn 0x2C = 3) ∧
    (∃ s : State, s.dev.pageOn 0x2C = true ∧ s.dev.gang 0x2C = [0x2C] ∧ s.dev.get 0x2C H.PENDING ≠ 1 ∧ s.dev.fn 0x2C = 1 ∧ ¬(pageKind 0x2C = .hbm ∧ (s.dev.hbm (pageInst 0x2C)).training = true)) ∧
    (∃ s : State, s.dev.reachable 0x40 ∧ hasFunction 0x40 = true ∧ s.dev.modes.stopping = false ∧ s.dev.fn 0x40 = 0 ∧ s.dev.startBlocker 0x40 = none ∧ pageKind 0x40 = .eng ∧
      (((s.dev.setFn 0x40 1 0).applyOf 0x40).resetRr 0x40).get 0x40 F.ENG_IMG_STAT_VALID = 0) ∧
    (∃ s : State, s.dev.pageOn 0x2C = true ∧ s.dev.gang 0x2C = [0x2C] ∧ s.dev.get 0x2C H.PENDING ≠ 1 ∧ s.dev.fn 0x2C = 3 ∧ s.dev.modes.stopping = false ∧ s.dev.workDone 0x2C = true) ∧
    ∃ s : State, s.dev.pageOn 0x20 = true ∧ s.dev.gang 0x20 = [0x20] ∧ s.dev.get 0x20 H.PENDING ≠ 1 ∧ s.dev.fn 0x20 = 3 ∧ s.dev.modes.stopping = false ∧ s.dev.workDone 0x20 = false :=
  ⟨⟨at_ on, by decide +kernel⟩, ⟨at_ on, by decide +kernel⟩, ⟨at_ (on.set 0x2C H.STATE 1), by decide +kernel⟩, ⟨at_ (running on 0x06), by decide +kernel⟩,
   ⟨at_ (running (running on 0x2A) 0x2C), by decide +kernel⟩, ⟨at_ (on.set 0x2C H.STATE 3), by decide +kernel⟩, ⟨at_ (on.set 0x2C H.STATE 1), by decide +kernel⟩,
   ⟨at_ (running (running (running on 0x20) 0x28) 0x2A), by decide +kernel⟩, ⟨at_ (on.set 0x2C H.STATE 3), by decide +kernel⟩,
   at_ ((on.set 0x20 H.STATE 3).setEngine 0 { Lkp.init with ops := [.cmd] }), by decide +kernel⟩

/-- `on` with other inputs. -/
def pow (f : Power → Power) (d : Dev := on) : Dev := { d with power := f d.power }

theorem test_DomainsAreSwitchedInOrder :
    (∃ s : State, s.dev.power.island = false ∧ s.dev.power.standbyOk = true ∧ s.dev.power.rstLow = false) ∧
    (∃ s : State, s.dev.power.island = true ∧ s.dev.power.lossSeen = false ∧ s.dev.power.stage1 = true) ∧
    (∃ s : State, s.dev.power.bus = true ∧ s.dev.power.island = true ∧ s.dev.domState 29 = 0 ∧ 29 ∉ s.dev.power.onQueue) ∧
    (∃ s : State, s.dev.power.current = none ∧ s.dev.power.offQueue = [] ∧ seqOrder.find? s.dev.power.onQueue.contains = some 28 ∧ s.dev.power.bus = true ∧ s.dev.prereqsOn 28 = true) ∧
    (∃ s : State, s.dev.power.current = some 28 ∧ s.dev.domState 28 = 1) ∧ (∃ s : State, s.dev.power.current = some 28 ∧ s.dev.domState 28 = 2 ∧ s.dev.domPending 28 = false) ∧
    (∃ s : State, s.dev.power.current = none ∧ seqOrder.reverse.find? s.dev.power.offQueue.contains = some 23) ∧
    (∃ s : State, s.dev.power.current = some 0 ∧ s.dev.domState 0 = 4 ∧ s.dev.domPending 0 = false) ∧
    (∃ (s : State) (data : Word), s.dev.reachable 0x02 ∧ s.dev.mode = 0 ∧ s.dev.power.trip = false ∧ bit s.dev.domReq 28 = false ∧ data.toNat = 2 ^ 29 + 2 ^ 28 + s.dev.domReq ∧
      s.dev.domState 28 = 0 ∧ bit (s.dev.get 0x02 F.PWR_DOM_FAULT_FAULT) 28 = false ∧ s.dev.prereqs 28 = []) ∧
    (∃ (s : State) (data : Word), s.dev.reachable 0x02 ∧ data.toNat = 2 ^ 28 ∧ bit (s.dev.get 0x02 F.PWR_DOM_FAULT_FAULT) 28 = true ∧ s.dev.domState 28 = 5) :=
  ⟨⟨at_ (pow fun p => { p with island := false }), by decide +kernel⟩, ⟨State.reset, by decide +kernel⟩, ⟨at_ (on.setDom 29 0), by decide +kernel⟩,
   ⟨at_ (pow (fun p => { p with onQueue := [23, 28] }) Dev.reset), by decide +kernel⟩, ⟨at_ (pow (fun p => { p with current := some 28 }) (on.setDom 28 1)), by decide +kernel⟩,
   ⟨at_ (pow (fun p => { p with current := some 28 }) (on.setDom 28 2)), by decide +kernel⟩, ⟨at_ (pow fun p => { p with offQueue := [0, 23] }), by decide +kernel⟩,
   ⟨at_ (pow (fun p => { p with current := some 0 }) (on.setDom 0 4)), by decide +kernel⟩, ⟨State.reset, 0x30000000, by decide +kernel⟩,
   at_ ((on.setDom 28 5).set 0x02 F.PWR_DOM_FAULT_FAULT (2 ^ 28)), 0x10000000, by decide +kernel⟩

theorem test_FaultsAndTripsSwitchDomainsOff :
    (∃ s : State, s.dev.domState 28 = 3 ∧ (domRails 28).contains 0 = true ∧ (domRails 28).contains 6 = false ∧ s.dev.power.island = true) ∧
    (∃ s : State, s.dev.domState 28 = 2 ∧ (domRails 28).contains 0 = true ∧ s.dev.power.island = false) ∧ (∃ s : State, s.dev.domState 28 = 0) ∧
    (∃ s : State, s.dev.domState 29 = 5 ∧ s.dev.power.island = true ∧ s.dev.power.pd29Stays = false ∧ bit (s.dev.get 0x02 F.PWR_DOM_FAULT_FAULT) 29 = true) ∧
    ∃ s : State, s.dev.power.pd29Stays = true :=
  ⟨⟨at_ on, by decide +kernel⟩, ⟨at_ (pow (fun p => { p with island := false }) (on.setDom 28 2)), by decide +kernel⟩, ⟨at_ (on.setDom 28 0), by decide +kernel⟩,
   ⟨at_ ((on.setDom 29 5).set 0x02 F.PWR_DOM_FAULT_FAULT (2 ^ 29)), by decide +kernel⟩, at_ (pow fun p => { p with pd29Faults := [2, 1, 0] }), by decide +kernel⟩

theorem test_FaultsAndTripsSwitchDomainsOff_inputs :
    (∃ s : State, s.dev.power.vinValid = true ∧ s.dev.power.island = true ∧ s.dev.power.stage1 = true ∧ s.dev.power.trip = false ∧ s.dev.power.current = none) ∧
    (∃ s : State, s.dev.power.vinValid = true ∧ s.dev.power.island = false ∧ s.dev.power.stage1 = true) ∧ (∃ s : State, s.dev.power.vinValid = false ∧ s.dev.power.stage1 = false) ∧
    (∃ s : State, s.dev.power.trip = false ∧ s.dev.power.island = true ∧ s.dev.power.current = some 0 ∧ s.dev.domState 0 = 4) ∧
    ∃ s : State, s.dev.power.trip = true ∧ (List.range 16).all s.dev.sensorCool = true :=
  ⟨⟨at_ on, by decide +kernel⟩, ⟨at_ (pow fun p => { p with island := false }), by decide +kernel⟩, ⟨at_ (pow fun p => { p with vinValid := false, stage1 := false }), by decide +kernel⟩,
   ⟨at_ (pow (fun p => { p with current := some 0 }) (on.setDom 0 4)), by decide +kernel⟩, at_ (pow fun p => { p with trip := true }), by decide +kernel⟩

theorem test_ClocksHoldOver :
    (∃ s : State, s.dev.get 0x03 F.CLK_STAT_HOLDOVER = 1 ∧ s.dev.power.refSlewing = false ∧ s.dev.power.island = true) ∧
    (∃ s : State, s.dev.power.refSlewing = true ∧ s.dev.get 0x03 F.CLK_STAT_HOLDOVER = 1 ∧ s.dev.power.island = true) ∧
    (∃ s : State, s.dev.power.island = true ∧ s.dev.get 0x03 F.CLK_STAT_HOLDOVER = 0) ∧ ∃ s : State, s.dev.power.island = false :=
  ⟨⟨at_ (on.set 0x03 F.CLK_STAT_HOLDOVER 1), by decide +kernel⟩, ⟨at_ (pow (fun p => { p with refSlewing := true }) (on.set 0x03 F.CLK_STAT_HOLDOVER 1)), by decide +kernel⟩,
   ⟨at_ on, by decide +kernel⟩, at_ (pow fun p => { p with island := false }), by decide +kernel⟩

theorem test_RequestsDuringATransition :
    (∃ (s : State) (a b c : Word), s.dev.reachable 0x01 ∧ s.dev.modeBusy = true ∧ a.toNat = s.dev.get 0x01 F.SVC_MODE_TARGET ∧
      b.toNat < 8 ∧ b.toNat ≠ s.dev.get 0x01 F.SVC_MODE_TARGET ∧ modeAllows s.dev.mode b.toNat = true ∧
      c.toNat < 8 ∧ c.toNat ≠ s.dev.get 0x01 F.SVC_MODE_TARGET ∧ modeAllows s.dev.mode c.toNat = false) ∧
    (∃ s : State, s.dev.reachable 0x01 ∧ s.dev.modeBusy = true ∧ s.dev.modes.plan = [] ∧ s.dev.modes.stopping = true ∧ s.dev.modes.failed = false ∧ (∀ p ∈ trafficOrder, s.dev.fn p = 0) ∧ s.dev.get 0x01 F.SVC_MODE_PENDING = 0) ∧
    ∃ s : State, s.dev.reachable 0x01 ∧ s.dev.modeBusy = true ∧ s.dev.modes.plan = [] ∧ s.dev.modes.stopping = false ∧ s.dev.get 0x01 F.SVC_MODE_TARGET = 2 ∧ (∀ p ∈ trafficOrder, s.dev.fn p ≠ 1) ∧ s.dev.get 0x01 F.SVC_MODE_PENDING = 1 :=
  ⟨⟨at_ (((on.setMode 1).setTarget 2).setBusy true), 2, 5, 7, by decide +kernel⟩,
   ⟨at_ ((((on.setMode 3).setTarget 4).setBusy true).setModes { Modes.reset with stopping := true }), by decide +kernel⟩,
   at_ ((((on.setMode 1).setTarget 2).setBusy true).set 0x01 F.SVC_MODE_PENDING 1), by decide +kernel⟩

theorem test_ModesFollowTheTable :
    (∃ s : State, s.dev.reachable 0x01 ∧ s.dev.modeBusy = false ∧ s.dev.mode = 0 ∧ modeAllows s.dev.mode 2 = false) ∧ (∃ s : State, s.dev.reachable 0x01 ∧ s.dev.modeBusy = false ∧ s.dev.mode = 1) ∧
    (∃ s : State, s.dev.reachable 0x01 ∧ s.dev.modeBusy = false ∧ s.dev.mode = 4 ∧ ∀ n, n < 27 → s.dev.domState n = 0) ∧
    (∃ s : State, s.dev.reachable 0x01 ∧ s.dev.modeBusy = false ∧ s.dev.mode = 1 ∧ s.dev.domState 26 ≠ 0) ∧
    (∃ s : State, s.dev.reachable 0x01 ∧ s.dev.modeBusy = false ∧ s.dev.mode = 2 ∧ s.dev.running (carPage 0) = false ∧ s.dev.running (carPage 1) = false) ∧
    (∃ s : State, s.dev.mode = 3 ∧ s.dev.modes.stopping = false ∧ s.dev.packets = 0) ∧ ∃ s : State, s.dev.mode = 3 ∧ s.dev.modes.stopping = false ∧ s.dev.packets ≠ 0 :=
  ⟨⟨State.reset, by decide +kernel⟩, ⟨at_ (on.setMode 1), by decide +kernel⟩, ⟨at_ (Dev.reset.setMode 4), by decide +kernel⟩, ⟨at_ (on.setMode 1), by decide +kernel⟩,
   ⟨at_ (on.setMode 2), by decide +kernel⟩, ⟨at_ (on.setMode 3), by decide +kernel⟩, at_ ((on.setMode 3).setPg 0 { PortGroup.init with intake := [head] }), by decide +kernel⟩

/-- `on` with port 3 open in FORWARD mode: an 8 x 200G port group that runs, with the link up. -/
def open3 : Dev :=
  (((((running on 0x10).setMode 2).set 0x10 F.PG_CFG_MODE 3).set 0x10 F.PG_PORT_EN_EN 0xFF).set 0x10 F.PG_STAT_LINK 0xFF).set 0x10 (F.PG_PORT_CFG_MTU.at 12) 1500

/-- A 64-byte frame: these bytes 12 and 13, and the FCS of an independent program or a wrong one. -/
def frame (t : Byte × Byte) (fcs : List Byte) : List Byte := List.replicate 12 0 ++ [t.1, t.2] ++ List.replicate 46 0 ++ fcs

/-- `open3` with this MAC control frame arriving at port 3. -/
def macAt (bad : Bool) : Dev := open3.setPg 0 { open3.pg 0 with macFrames := [(3, [1], bad)] }

theorem test_FramesAreReceived :
    (∃ s : State, s.dev.portOpen 3 = false) ∧ (macAt true).macArriving 3 = true ∧
    (∃ s : State, s.dev.portOpen 3 = true ∧ s.dev.loops 3 = false ∧ Map.rd none s.dev.rx 3 = none ∧ s.dev.macArriving 3 = false ∧ s.dev.mode ≠ 2) ∧
    (∃ s : State, s.dev.portOpen 3 = true ∧ s.dev.loops 3 = false ∧ Map.rd none s.dev.rx 3 = none ∧ s.dev.macArriving 3 = false ∧ s.dev.mode = 2 ∧ s.dev.modeBusy = false ∧
      s.dev.portCfg 3 F.PG_PORT_CFG_MTU = 1500 ∧ s.dev.isMember 3 = false) ∧
    (∃ a b : List Byte, a.length = 64 ∧ beAt a 12 2 = 0x8808 ∧ fcsGood a = true ∧ b.length = 64 ∧ beAt b 12 2 = 0x8808 ∧ fcsGood b = false) ∧
    (∃ s : State, s.dev.portOpen 3 = true ∧ s.dev.loops 3 = false ∧ Map.rd none s.dev.rx 3 = none ∧ s.dev.macArriving 3 = false ∧ s.dev.mode = 2 ∧ s.dev.isMember 3 = true) ∧
    (∀ bad ∈ [true, false], ((macAt bad).pg 0).macFrames.find? (fun f => f.1 = 3) = some (3, [1], bad)) ∧
    ∃ (s : State) (f : RxFrame), Map.rd none s.dev.rx 3 = some f ∧ s.dev.macArriving 3 = false ∧ s.dev.portOpen 3 = true ∧ f.bad = false ∧
      (({ s.dev with rx := s.dev.rx.wr none 3 none } : Dev).chargeCt f.owner).tm.queues = [] :=
  ⟨⟨at_ on, by decide +kernel⟩, by decide +kernel, ⟨at_ (open3.setMode 1), by decide +kernel⟩, ⟨at_ open3, by decide +kernel⟩,
   ⟨frame (0x88, 0x08) [0x91, 0xB8, 0xC2, 0x16], frame (0x88, 0x08) [0, 0, 0, 0], by decide +kernel⟩, ⟨at_ (open3.set 0x10 (F.PG_PORT_CFG_SHIM.at 12) 1), by decide +kernel⟩,
   by decide +kernel, at_ { open3 with rx := [(3, some ⟨5, false⟩)] }, ⟨5, false⟩, by decide +kernel⟩

theorem test_PortsFollowTheirLinks :
    (∃ s : State, s.dev.running 0x10 = true ∧ s.dev.portStarts 3 = true ∧ bit (s.dev.live 0x10 F.PG_PORT_EN_EN) 3 = true ∧ bit (s.dev.get 0x10 F.PG_STAT_LINK) 3 = false ∧ s.dev.portState 3 ≠ 2 ∧ s.dev.portState 3 ≠ 3) ∧
    (∃ s : State, bit (s.dev.get 0x10 F.PG_STAT_LINK) 3 = true ∧ s.dev.portState 3 = 3) ∧
    (∃ s : State, bit (s.dev.get 0x10 F.PG_STAT_LINK) 3 = true ∧ s.dev.portState 3 = 1 ∧ s.dev.tx 3 = none ∧ s.dev.get 0x10 (F.PG_PORT_HOLD_US.at 12) = 0) ∧
    (∃ s : State, bit (s.dev.get 0x10 F.PG_STAT_LINK) 3 = true ∧ s.dev.portState 3 = 1 ∧ s.dev.tx 3 = none ∧ s.dev.get 0x10 (F.PG_PORT_HOLD_US.at 12) ≠ 0) ∧ ∃ s : State, s.dev.portState 3 = 2 :=
  ⟨⟨at_ (open3.set 0x10 F.PG_STAT_LINK 0), by decide +kernel⟩, ⟨at_ (open3.setPortState 3 3), by decide +kernel⟩, ⟨at_ ((open3.setPortState 3 1).set 0x10 (F.PG_PORT_HOLD_US.at 12) 0), by decide +kernel⟩,
   ⟨at_ ((open3.setPortState 3 1).set 0x10 (F.PG_PORT_HOLD_US.at 12) 9), by decide +kernel⟩, at_ (open3.setPortState 3 2), by decide +kernel⟩

/-- `on` with thread 0 READY with `head`, and otherwise as given. -/
def th (f : Thread → Thread) (d : Dev := on) : Dev := d.setThread 0 (f { Thread.init with st := 2, head := some head })

/-- A head whose IPv4 header is too long for its frame. -/
def raw : RawHead := ⟨pkt, List.replicate 12 0 ++ [8, 0, 0x45, 0, 0xFF, 0xFF] ++ List.replicate 238 0x11, 0, 0, none⟩

/-- `on` with a head to parse on lane 3 of PG 0, and action `a` for every class of the port. -/
def parsing (a : Nat) : Dev := (on.setWord 0x10 0x24C (BitVec.ofNat 32 (a * 0x155))).setPg 0 { PortGroup.init with parsing := [raw] }

/-- The default action of `raw`. -/
def act (d : Dev) : Nat := (d.defaultAction 0 raw.pkt.lane (flagClasses (walkFlags raw.bytes (d.parseHead raw).1 (d.parseHead raw).2))).1

theorem test_HeadsAreParsedAndDispatched :
    (∃ s : State, (s.dev.pg 0).parsing = [raw] ∧ act s.dev = 0) ∧ (∃ s : State, (s.dev.pg 0).parsing = [raw] ∧ 1 < act s.dev) ∧
    (∃ s : State, (s.dev.pg 0).parsing = [raw] ∧ act s.dev = 1 ∧ s.dev.get (pgPage 0) F.PG_PUNT_CH_EN = 0) ∧
    (∃ s : State, (s.dev.pg 0).parsing = [raw] ∧ act s.dev = 1 ∧ s.dev.get (pgPage 0) F.PG_PUNT_CH_EN ≠ 0) ∧
    (∃ s : State, s.dev.active (pgPage 0) = true ∧ (s.dev.pickHome 0).1 = some 0 ∧ (s.dev.pg 0).recirc = [head]) ∧
    (∃ s : State, s.dev.active (pgPage 0) = true ∧ (s.dev.pickHome 0).1 = some 0 ∧ (s.dev.pg 0).recirc = [] ∧ (s.dev.pg 0).intake = [head] ∧ ((s.dev.pickHome 0).2.takeTicket 0 head).isSome = true) ∧
    (∃ s : State, s.dev.engQueue 0 = [head] ∧ s.dev.active (engPage 0) = true ∧ ((List.range 16).map fun e => (s.dev.freeOf 0 e).length).foldl max 0 = 8 ∧
      (s.dev.grant (Rr.engine 0) 16 ((List.range 16).filter fun e => (s.dev.freeOf 0 e).length = 8)).1.isSome = true) ∧
    ∃ s : State, (s.dev.thread 0).st = 1 ∧ (s.dev.thread 0).head = some head :=
  ⟨⟨at_ (parsing 0), by decide +kernel⟩, ⟨at_ (parsing 2), by decide +kernel⟩, ⟨at_ (parsing 1), by decide +kernel⟩, ⟨at_ ((parsing 1).set (pgPage 0) F.PG_PUNT_CH_EN 1), by decide +kernel⟩,
   ⟨at_ ((running (running on 0x10) 0x40).setPg 0 { PortGroup.init with recirc := [head] }), by decide +kernel⟩,
   ⟨at_ ((running (running on 0x10) 0x40).setPg 0 { PortGroup.init with intake := [head] }), by decide +kernel⟩,
   ⟨at_ ((running on 0x40).setEngQueue 0 [head]), by decide +kernel⟩, at_ (th fun x => { x with st := 1 }), by decide +kernel⟩

/-- Clusters 0 and `v` RUNNING with the same image; cluster `v` holds 100 heads and cluster 0 may steal near and far. -/
def steal (v : Nat) : Dev :=
  let d := (running (running on 0x40) (0x40 + v)).setEngQueue v (List.replicate 100 head)
  let d := ((d.set 0x40 F.ENG_IMG_STAT_VALID 1).set (0x40 + v) F.ENG_IMG_STAT_VALID 1).set 0x40 F.ENG_CFG_STEAL_EN 1
  (d.set 0x40 F.ENG_CFG_FAR_EN 1).set 0x28 F.ORD_FAR_CAP_HEADS 4

def fwd : Ending := ⟨0, 7, 0, 0, 0, pkt, head.md⟩

/-- `on` with a PENDING slot 9 and a report for it with this outcome, on the west die. -/
def reported (k : Nat) : Dev := on.setOrd 0 { Ord.init with slots := [(9, ⟨1, 12288, 0, 0, false, 0, pkt, none⟩)], reports := [⟨9, 12288, 0, false, { fwd with kind := k }⟩] }

theorem test_ClustersStealAndReport :
    (∃ s : State, s.dev.isThief 0 = true ∧ (s.dev.pickVictim 0 (s.dev.victims 0 0 F.ENG_STEAL_THR_NEAR)).1 = some 1) ∧ (∃ s : State, s.dev.isThief 0 = false) ∧
    (∃ s : State, s.dev.isThief 0 = true ∧ s.dev.victims 0 0 F.ENG_STEAL_THR_NEAR = [] ∧ s.dev.get (engPage 0) F.ENG_CFG_FAR_EN ≠ 0 ∧ (s.dev.ord 0).farRefused.contains 0 = false ∧
      0 < s.dev.get (ordPage 0) F.ORD_FAR_CAP_HEADS ∧ s.dev.victims 0 1 F.ENG_STEAL_THR_FAR ≠ [] ∧ s.dev.domOn 27 = true ∧ (s.dev.ord 0).farUsed < s.dev.get (ordPage 0) F.ORD_FAR_CAP_HEADS ∧
      (s.dev.pickVictim 0 (s.dev.victims 0 1 F.ENG_STEAL_THR_FAR)).1 = some 32) ∧
    (∃ s : State, s.dev.isThief 0 = true ∧ s.dev.victims 0 0 F.ENG_STEAL_THR_NEAR = [] ∧ s.dev.get (engPage 0) F.ENG_CFG_FAR_EN ≠ 0 ∧ (s.dev.ord 0).farRefused.contains 0 = false ∧
      0 < s.dev.get (ordPage 0) F.ORD_FAR_CAP_HEADS ∧ s.dev.victims 0 1 F.ENG_STEAL_THR_FAR ≠ [] ∧ s.dev.get (ordPage 0) F.ORD_FAR_CAP_HEADS ≤ (s.dev.ord 0).farUsed) ∧
    (∀ k ∈ [0, 1, 2, 3, 4], ((reported k).ord 0).reports.find? (·.slot = 9) = some ⟨9, 12288, 0, false, { fwd with kind := k }⟩ ∧ ((reported k).ord 0).slot 9 = ⟨1, 12288, 0, 0, false, 0, pkt, none⟩) ∧
    (reported 3).live (ordPage 0) F.ORD_CFG_PUNT_ORDER ≠ 0 ∧ ((reported 3).set (ordPage 0) F.ORD_CFG_PUNT_ORDER 0).live (ordPage 0) F.ORD_CFG_PUNT_ORDER = 0 ∧
    ∃ s : State, (∃ r, (s.dev.ord 0).reports.find? (·.slot = 9) = some r ∧ r.lost = true) ∧ ((s.dev.ord 0).slot 9).state ≠ 1 :=
  ⟨⟨at_ (steal 1), by decide +kernel⟩, ⟨at_ on, by decide +kernel⟩, ⟨at_ (steal 32), by decide +kernel⟩, ⟨at_ ((steal 32).setOrd 0 { Ord.init with farUsed := 4 }), by decide +kernel⟩,
   by decide +kernel, by decide +kernel, by decide +kernel, at_ (on.setOrd 0 { Ord.init with reports := [⟨9, 12288, 0, true, fwd⟩] }), ⟨⟨9, 12288, 0, true, fwd⟩, by decide +kernel⟩, by decide +kernel⟩

/-- `on` with ORD RUNNING and domain 12288 at the front of the ready list with this slot and ending. -/
def ready (st k : Nat) (d : Dev := on) : Dev :=
  (running d 0x28).setOrd 0 { Ord.init with slots := [(9, ⟨st, 12288, 0, 0, false, 0, pkt, if st = 2 then some { fwd with kind := k } else none⟩)], ready := [12288] }

theorem test_TicketsRetireInOrder :
    (∃ s : State, s.dev.active (ordPage 0) = true ∧ (s.dev.ord 0).ready = [12288] ∧ (s.dev.ord 0).find 12288 ((s.dev.ord 0).domain 12288).nextRetire = some 9 ∧ ((s.dev.ord 0).slot 9).state = 3) ∧
    (∃ s : State, s.dev.active (ordPage 0) = true ∧ (s.dev.ord 0).ready = [12288] ∧ (s.dev.ord 0).find 12288 ((s.dev.ord 0).domain 12288).nextRetire = some 9 ∧
      ((s.dev.ord 0).slot 9).state = 2 ∧ ((s.dev.ord 0).slot 9).ending = some { fwd with kind := 3 }) ∧
    (∃ s : State, (s.dev.ord 0).ready = [12288] ∧ ((s.dev.ord 0).slot 9).ending = some fwd ∧ s.dev.isBad fwd.pkt.owner = true) ∧
    (∃ s : State, (s.dev.ord 0).ready = [12288] ∧ ((s.dev.ord 0).slot 9).ending = some fwd ∧ s.dev.isBad fwd.pkt.owner = false ∧ (s.dev.handUnicast 0 0 ⟨7, 0, pkt, false, false, 0⟩).isSome = true) ∧
    (∃ s : State, (s.dev.ord 0).ready = [12288] ∧ ((s.dev.ord 0).slot 9).ending = some fwd ∧ s.dev.isBad fwd.pkt.owner = false ∧ s.dev.handUnicast 0 0 ⟨7, 0, pkt, false, false, 0⟩ = none) ∧
    (∃ s : State, (s.dev.ord 0).ready = [12288] ∧ ((s.dev.ord 0).slot 9).ending = some { fwd with kind := 1 } ∧ s.dev.isBad fwd.pkt.owner = false ∧ (s.dev.handMulticast 0 7 pkt).isSome = true) ∧
    (∃ s : State, ((s.dev.ord 0).slot 9).state = 1 ∧ ((s.dev.ord 0).domain ((s.dev.ord 0).slot 9).dom).nextRetire = ((s.dev.ord 0).slot 9).ticket ∧ ((s.dev.ord 0).slot 8).state = 0) ∧
    (∃ s : State, (s.dev.thread 0).head = some head ∧ (s.dev.thread 0).ended = some { fwd with kind := 4, arg := 0 } ∧ (s.dev.thread 0).st = 4 ∧ (s.dev.pg 0).recirc.length < 64) ∧
    ∃ s : State, s.dev.reachable (ordPage 0) ∧ s.dev.get (ordPage 0) (F.ORD_EPOCH_INFL_COUNT.at (4 * (1 - s.dev.get (ordPage 0) F.ORD_EPOCH_CUR))) = 0 :=
  ⟨⟨at_ (ready 3 0), by decide +kernel⟩, ⟨at_ (ready 2 3), by decide +kernel⟩, ⟨at_ { ready 2 0 with badFrames := [(5, 1)] }, by decide +kernel⟩, ⟨at_ (running (ready 2 0) 0x2C), by decide +kernel⟩,
   ⟨at_ ((running (ready 2 0) 0x2C).setSwc { on.swc with offers := [(0, List.replicate 12 ⟨7, 0, pkt, false, false, 0⟩)] }), by decide +kernel⟩, ⟨at_ (running (ready 2 1) 0x34), by decide +kernel⟩,
   ⟨at_ (ready 1 0), by decide +kernel⟩, ⟨at_ (th fun x => { x with st := 4, ended := some { fwd with kind := 4, arg := 0 } }), by decide +kernel⟩, at_ on, by decide +kernel⟩

/-- `on` with thread 0 READY while a lookup has register 3 still to write. -/
def awaiting : Dev := th fun x => { x with slots := [(0, { LkSlot.init with busy := true, rreg := 3, desc := [BitVec.ofNat 32 (1 + 32 * 2 ^ 17), 0, 0, 0, 0, 0, 0, 0] })] }

theorem test_AluUnitsFollowTheirTable : (∃ s : State, s.dev.mayIssue 0 = true ∧ (s.dev.thread 0).awaits [3] = false) ∧ (awaiting.mayIssue 0 = true ∧ (awaiting.thread 0).awaits [3] = true) ∧ (srcLegal 0x26 = true ∧ srcLegal 0x2F = true ∧ dstLegal 0x3F = true ∧ dstLegal 0x1F = true) ∧
    (srcLegal 0x27 = false ∧ dstLegal 0x20 = false ∧ (0x1F : BitVec 6) ≠ 0x3F ∧ 10 ≤ (10 : BitVec 4).toNat ∧ (9 : BitVec 4) = 9 ∧ (31 : BitVec 6).toNat % 2 = 1) :=
  ⟨⟨at_ (th id), by decide +kernel⟩, by decide +kernel, by decide, by decide⟩

theorem test_CountsAndSumsAreRight : ∃ v a b i : Nat, v < 2 ^ 64 ∧ v ≠ 0 ∧ a < 65536 ∧ b < 65536 ∧ i < 64 ∧ 64 - clz64 v ≤ i := ⟨1, 65535, 1, 63, by decide +kernel⟩

theorem test_TheHeadPortMovesBytes : (∃ s : State, s.dev.mayIssue 0 = true) ∧ 0 < (8 : BitVec 4).toNat ∧ (8 : BitVec 4).toNat ≤ 8 ∧ (30 : BitVec 6).toNat < 32 ∧ (30 : BitVec 6).toNat % 2 = 0 ∧
    (9 : BitVec 4).toNat = 9 ∧ bit (7 : BitVec 4).toNat 3 = false ∧ (63 : BitVec 6).toNat = 63 := ⟨⟨at_ (th id), by decide +kernel⟩, by decide⟩

/-- `on` with thread 0 READY and this microword at its address. -/
def word (w : Nat) (f : Thread → Thread := id) (d : Dev := on) : Dev := { th f d with cs := ⟨[(0, BitVec.ofNat 192 w)], [], [], []⟩ }

/-- A microword with this SEQ alone. -/
def seq (n : Nat) : Nat := n * 2 ^ 164

def busyLk : LkSlot := { LkSlot.init with busy := true, rreg := 0x3F }

theorem test_IssuesSequenceAndEndPasses :
    (∀ n ∈ [0, 1, 2, 5, 6, 7, 8, 9, 10, 11, 12], ((word (seq n)).pickThread 0).isSome = true ∧ (word (seq n)).issueKind 0 = .word (BitVec.ofNat 192 (seq n)) ∧ Mw.seq (BitVec.ofNat 192 (seq n)) = n) ∧
    (let d := word (seq 3) fun x => { x with stack := [100] }; (d.pickThread 0).isSome = true ∧ d.issueKind 0 = .word (BitVec.ofNat 192 (seq 3))) ∧
    (let d := word (seq 4) fun x => { x with frame := 2 ^ 32 }; (d.pickThread 0).isSome = true ∧ d.issueKind 0 = .word (BitVec.ofNat 192 (seq 4))) ∧
    (let d := word (seq 6) fun x => { x with slots := [(0, busyLk)] }; (d.pickThread 0).isSome = true ∧ d.issueKind 0 = .word (BitVec.ofNat 192 (seq 6)) ∧ (d.thread 0).outstanding = true) ∧ (word (seq 6)).thread 0 = (th id).thread 0 ∧
    bit ((word (seq 10)).thread 0 |>.mdWord 15) 16 = false ∧ geometryOk head.pkt.flen (((word (seq 10)).thread 0).geometry head.pkt.flen) = true ∧ (word (seq 11)).running (pgPage 0) = false ∧
    (let d := word (seq 11) id (running on 0x10); (d.pickThread 0).isSome = true ∧ d.issueKind 0 = .word (BitVec.ofNat 192 (seq 11)) ∧ d.running (pgPage 0) = true) ∧
    (let d := word (seq 10) fun x => { x with head := some { head with md := List.replicate 60 0 ++ [0, 0, 1, 0] } }
     (d.pickThread 0).isSome = true ∧ d.issueKind 0 = .word (BitVec.ofNat 192 (seq 10)) ∧ bit ((d.thread 0).mdWord 15) 16 = true ∧ d.get (pgPage 0) F.PG_PUNT_CH_EN = 0 ∧ geometryOk 68 ((d.thread 0).geometry 68) = true ∧
       (d.set (pgPage 0) F.PG_PUNT_CH_EN 1).get (pgPage 0) F.PG_PUNT_CH_EN = 1) := by decide +kernel

theorem test_TrapsAndDebugReachTheThread :
    (let d := th fun x => { x with held := some (0, 5, 3) }; (d.pickThread 0).isSome = true ∧ d.issueKind 0 = .trap) ∧ (let d := th fun x => { x with epochFail := true }; (d.pickThread 0).isSome = true ∧ d.issueKind 0 = .epoch) ∧
    (let d := th fun x => { x with head := some { head with issues := 65535 } }; (d.pickThread 0).isSome = true ∧ d.issueKind 0 = .budget ∧ (d.thread 0).head ≠ none) ∧
    (∃ w, ((word (seq 1)).pickThread 0).isSome = true ∧ (word (seq 1)).issueKind 0 = .word w ∧ Mw.seq w = 1) ∧ { word (seq 1) with cs := ⟨[], [], [], [(0, true)]⟩ }.issueKind 0 = .csUe ∧ (let d := word 1 id (on.set 0x40 F.ENG_DBG_CTL_BRK_EN 1); (d.pickThread 0).isSome = true ∧ d.issueKind 0 = .brk) ∧
    (let d := th fun x => { x with haltReq := true }; (d.pickThread 0).isSome = true ∧ d.issueKind 0 = .halt) ∧
    (∃ s : State, s.dev.hostOpen = true ∧ s.dev.lstate < 2 ∧ s.dev.pageOn (engPage 0) = true ∧ (s.dev.thread 0).st ≠ 0 ∧ (s.dev.thread 0).head ≠ none) ∧
    ∃ s : State, s.dev.hostOpen = true ∧ s.dev.lstate < 2 ∧ s.dev.pageOn (engPage 0) = true ∧ (s.dev.thread 0).st = 5 ∧ s.dev.dbgThread 0 = 0 ∧ s.dev.get (engPage 0) F.ENG_DBG_ADDR_INDEX < dbgUnits 0 ∧
      s.dev.get (engPage 0) F.ENG_DBG_ADDR_SPACE = 0 :=
  ⟨by decide +kernel, by decide +kernel, by decide +kernel, ⟨BitVec.ofNat 192 (seq 1), by decide +kernel⟩, by decide +kernel, by decide +kernel, by decide +kernel, ⟨at_ (th id), by decide +kernel⟩,
   at_ (th fun x => { x with st := 5 }), by decide +kernel⟩

/-- Descriptor words of a HASH table: 48-bit key, 32-bit result, LEARN, 16 buckets a set, base 0, default result 9. -/
def hashW : List Word := [BitVec.ofNat 32 (1 + 64 + 48 * 256 + 32 * 2 ^ 17 + 4 * 2 ^ 26), 0, 1, 2, 9, 0, 0, 0]
/-- Of a DIRECT table: 10-bit key, 16-bit result, 100 entries. -/
def directW : List Word := [BitVec.ofNat 32 (2 + 10 * 256 + 16 * 2 ^ 17), 0, 0, 0, 9, 0, 100, 0]

/-- `on` with these descriptor words at 1 of quadrant 0. -/
def table (w : List Word) (d : Dev := on) : Dev := put d 0x20 0x8020 (w.map (·.toNat))

/-- A memory of quadrant 0 whose table `hashW` holds key 5 with result `res` at this state. -/
def entry (stat : Bool) (res : Nat) : Map Word := putEntry [] 0 hashW (candidate hashW 5 0 * 4) (mkEntry hashW true false stat true 5 res)

def slot (fate : Nat) (w : List Word) (key : Nat) : LkSlot := { LkSlot.init with busy := true, rreg := 3, desc := w, fate := fate, key := key }

theorem test_LookupsLeaveAndReturn :
    (let d := th id (table hashW (running on 0x20)); d.mayIssue 0 = true ∧ ((d.thread 0).slot 0).busy = false ∧ (d.thread 0).awaits ((⟨1, 5, 7, 1, true⟩ : LkF).touches hashW) = false ∧ d.fn (lkpPage (d.quadOf 0)) ≠ 0 ∧ (d.thread 0).awaits [29] = false ∧ (⟨1, 5, 7, 1, true⟩ : LkF).illegal (d.lkDesc 0 (d.thread 0) ⟨1, 5, 7, 1, true⟩) = false ∧
      d.lkDesc 0 (d.thread 0) ⟨1, 5, 7, 1, true⟩ = hashW ∧ (⟨1, 63, 7, 2, true⟩ : LkF).illegal hashW = true ∧ (1 : BitVec 10) ≠ 0) ∧
    (let d := th (fun x => { x with slots := [(2, slot 0 hashW 5)] }) on; ((d.thread 0).slot 2).busy = true ∧ (d.thread 0).ended = none ∧ (d.lookupReturn ((d.thread 0).slot 2) .clean).1.epoch = false ∧ ((d.thread 0).slot 3).busy = false) ∧
    (let d := th (fun x => { x with slots := [(2, slot 1 hashW 5)] }) on; ((d.thread 0).slot 2).busy = true ∧ (d.lookupReturn ((d.thread 0).slot 2) .clean).1.epoch = true) ∧
    (let d := th (fun x => { x with slots := [(2, slot 2 hashW 5)], ended := some fwd }) on; ((d.thread 0).slot 2).busy = true ∧ (d.thread 0).ended.isSome = true) ∧
    dType hashW = 1 ∧ hitsOf (entry true 8) 0 hashW 5 = [candidate hashW 5 0 * 4] ∧ hitsOf [] 0 hashW 5 = [] ∧ dType directW = 2 ∧ df directW 6 0 26 = 100 := by decide +kernel

theorem test_EntriesReadBack : ∃ p p' : Nat, p' ≠ p := ⟨0, 1, by decide⟩

theorem test_LookupCommandsRunOneAtATime :
    (∀ n ∈ [1, 2, 3, 4], let d := on.set 0x20 F.LKP_CMD_CTL_OP n; d.reachable (lkpPage 0) ∧ d.get 0x20 F.LKP_CMD_STAT_BUSY = 0 ∧ d.get 0x20 F.LKP_CMD_CTL_OP = n) ∧
    (∀ w ∈ [hashW, directW], let d := ((table w).setEngine 0 { Lkp.init with ops := [.cmd] }).set 0x20 F.LKP_CMD_CTL_OP 1 |>.set 0x20 F.LKP_CMD_CTL_TABLE 1
      (d.engine 0).ops = [.cmd] ∧ d.lkStore 0 = 0 ∧ (d.takeOp 0).get 0x20 F.LKP_CMD_CTL_OP = 1 ∧ (d.takeOp 0).desc 0 ((d.takeOp 0).get 0x20 F.LKP_CMD_CTL_TABLE) = w) ∧ dType (List.replicate 8 0) ≠ 1 ∧
    (on.reachable (lkpPage 0) ∧ (1 : Fin 1024).val ≠ 0 ∧ descCheck (on.lkBytes 0) 1 hashW = none ∧ descCheck (on.lkBytes 0) 1 [1, 0, 0, 0, 0, 0, 0, 0] = some 2) ∧
    freeWay [] 0 hashW (candidate hashW 5 0) = some 0 := by decide +kernel

/-- `on` with table `hashW` at 1, memory `m`, and these operations waiting. -/
def learning (m : Map Word) (ops : List EngOp) : Dev := ((table hashW (running on 0x24)).setMem m).setEngine 0 { Lkp.init with ops := ops }

theorem test_LearningFollowsItsTable :
    (let d := learning [] [.learn 1 false 5 8]; (d.engine 0).ops = [.learn 1 false 5 8] ∧ hitsOf (d.takeOp 0).lkp.mem 0 ((d.takeOp 0).desc 0 1) 5 = [] ∧ dType ((d.takeOp 0).desc 0 1) = 1 ∧ dLearn ((d.takeOp 0).desc 0 1) = true) ∧
    (∀ x ∈ [(false, 8, 8), (true, 7, 8), (false, 7, 8)], let d := (learning (entry x.1 x.2.1) [.learn 1 true 5 x.2.2]).takeOp 0; let p := candidate hashW 5 0 * 4; let e := entryAt d.lkp.mem 0 hashW p
      d.desc 0 1 = hashW ∧ hitsOf d.lkp.mem 0 hashW 5 = [p] ∧ eRes hashW e % 2 ^ (dRb hashW - 16) = x.2.1 ∧ bit e 2 = x.1 ∧ bits (entryState hashW e) 4 4 = 0) ∧
    (let d := (learning (entry false (7 + 16 * 2 ^ 16)) [.learn 1 true 5 8]).takeOp 0; let e := entryAt d.lkp.mem 0 hashW (candidate hashW 5 0 * 4); eRes hashW e % 2 ^ 16 = 7 ∧ bit e 2 = false ∧ 0 < bits (entryState hashW e) 4 4) ∧
    (let d := on.setEngine 0 { Lkp.init with ops := [.learn 1 false 5 8] }; (d.engine 0).ops = [.learn 1 false 5 8] ∧ dType ((d.takeOp 0).desc 0 1) ≠ 1) ∧
    (let d := learning (entry false 8) []; let p := candidate hashW 5 0 * 4; d.lkStore 0 = 0 ∧ d.running (lrnPage 0) = true ∧ d.desc 0 1 = hashW ∧ p < 2 ^ (dNb hashW + 3) ∧ (d.engine 0).ops = [] ∧
      bit (entryAt d.lkp.mem 0 hashW p) 0 = true ∧ bit (entryAt [] 0 hashW p) 0 = false ∧ (visit (d.get 0x24 F.LRN_SWEEP_AGE_LIMIT) false hashW (entryAt d.lkp.mem 0 hashW p)).2 = false ∧
      (visit 1 true hashW (entryAt d.lkp.mem 0 hashW p)).2 = true ∧ d.reachable (lrnPage 0) ∧ (d.engine 0).visits = []) ∧
    (let d := learning [] [.cmd]; (d.engine 0).ops ≠ [] ∧ (d.engine 0).turns < 15 ∧ d.lkStore 0 = 0 ∧ d.running (lrnPage 0) = true) := by decide +kernel

/-- `on` with another time unit. -/
def clock (f : TimeUnit → TimeUnit) (d : Dev := running on 0x08) : Dev := { d with time := f d.time }

theorem test_TimeControl :
    (on.reachable 0x08 ∧ on.meshRole ≠ 2 ∧ on.get 0x08 F.TIME_STAT_SLEWING ≠ 1 ∧ toSigned 32 (on.get 0x08 F.TIME_ADJ_NS) = 0) ∧ toSigned 32 ((on.set 0x08 F.TIME_ADJ_NS 5).get 0x08 F.TIME_ADJ_NS) ≠ 0 ∧
    (let d := on.set 0x08 F.TIME_STAT_SLEWING 1; d.reachable 0x08 ∧ d.meshRole ≠ 2 ∧ d.get 0x08 F.TIME_STAT_SLEWING = 1 ∧ d.domOn 27 = true ∧ d.domOn 28 = true) ∧
    (let d := clock id ((running on 0x08).set 0x08 F.TIME_CAP_CFG_EDGE 1); d.running 0x08 = true ∧ bit (d.get 0x08 F.TIME_CAP_CFG_EDGE) 0 = true ∧ d.time.caps = [] ∧ bit (d.get 0x08 F.TIME_CAP_CFG_EDGE) 1 = false) ∧
    (let d := clock (fun t => { t with caps := [[1]] }); d.time.caps ≠ [] ∧ d.time.caps.length < 64) ∧ 64 ≤ (clock fun t => { t with caps := List.replicate 64 [] }).time.caps.length ∧ on.reachable 0x09 ∧
    (let d := on; bit (d.word 0x08 0x20).toNat 31 = false ∧ max (-4294967) (min 4294967 (BitVec.toInt (0x80000000 : Word))) ≠ BitVec.toInt (0x80000000 : Word) ∧
      max (-4294967) (min 4294967 (BitVec.toInt (0xFFBE76C9 : Word))) = BitVec.toInt (0xFFBE76C9 : Word)) := by decide +kernel

theorem test_TheCounterKeepsTheTime : (on.time.ns < 1000000000 ∧ on.time.frac < 2 ^ 32 ∧ on.timeRuns = true ∧ on.time.slew = 0 ∧ on.time.sec < 2 ^ 48 - 1 ∧ on.time.ppsDue = false ∧ on.ppsOn = false ∧ (5 : Int) - on.now < 2 ^ 62 ∧ on.now - (5 : Int) < 2 ^ 62) ∧ ((running on 0x08).set 0x08 F.TIME_PPS_EN 1).ppsOn = true ∧ Dev.reset.timeRuns = false ∧
    (0 : Int) ≤ 5 ∧ (5 : Int) < timeSpan := by decide +kernel

/-- A committed chime. -/
def chime (periodic : Bool) (d : Dev := running on 0x08) : Dev := d.setChime 2 (some ⟨periodic, 0, 1000, 100, 0⟩)

/-- `on` with two members, this device's port 0 UP to device 1 and this mesh role. -/
def mesh (role : Nat) : Dev :=
  ((((((running on 0x08).set 0x08 F.TIME_MESH_CFG_ROLE role).set 0x08 F.TIME_MESH_CFG_LEADER (if role = 2 then 1 else 0)).set 0x3A F.ULX_CFG_MEMBERS 3).set 0x3A F.ULX_PORT_STAT_STATE 3).set 0x3A F.ULX_CFG_PEER 1)

/-- A TIME cell with this MSG from device 1. -/
def timeMsg (n : Nat) : List Byte := (((mesh 1).setUport 0 { UlxPort.init with reach := 0 }).ulxSendCell 0 4 0 0 ([BitVec.ofNat 8 n, 1, 0, 7] ++ List.replicate 10 0)).1

theorem test_ChimesPulseAndMeshTimeIsExchanged :
    (let d := ((running on 0x08).set 0x08 (F.TIME_CHIME_START_S.at 64) 5).set 0x08 (F.TIME_CHIME_WIDTH_NS.at 64) 100; d.reachable 0x08 ∧ d.chimeBad 2 = false ∧ d.due (d.commitTime (d.get 0x08 (F.TIME_CHIME_START_S.at 64)) 0) = false) ∧
    (let d := clock (fun t => { t with sec := 9 }) ((running on 0x08).set 0x08 (F.TIME_CHIME_WIDTH_NS.at 64) 100); d.chimeBad 2 = false ∧ d.due 0 = true ∧ d.get 0x08 (F.TIME_CHIME_PERIODIC.at 64) ≠ 1) ∧
    (∀ b ∈ [true, false], (chime b).chime 2 = some ⟨b, 0, 1000, 100, 0⟩ ∧ (chime b).running 0x08 = true ∧ (chime b).due 0 = true) ∧ (((chime true).setPulse 2 true).chimeNext ⟨true, 0, 1000, 100, 0⟩).2 = 0 ∧
    (((clock (fun t => { t with sec := 9 })).setPulse 2 true).chimeNext ⟨true, 0, 1000, 100, 0⟩).2 ≠ 0 ∧ on.chime 2 = none ∧
    (let d := clock (fun t => { t with ppsDue := true }) ((running on 0x08).set 0x08 F.TIME_PPS_EN 1); d.time.ppsDue = true ∧ d.running 0x08 = true ∧ d.get 0x08 F.TIME_PPS_EN = 1) ∧ on.time.ppsDue = false ∧
    ((mesh 1).meshRole = 1 ∧ (mesh 1).running 0x08 = true ∧ on.meshRole ≠ 1) ∧
    (((mesh 2).timeArrive 0 (timeMsg 1) 1).1 = some (1, 7, 0) ∧ ((mesh 2).timeArrive 0 (timeMsg 1) 1).2.meshRole = 2 ∧ 1 = ((mesh 2).timeArrive 0 (timeMsg 1) 1).2.live 0x08 F.TIME_MESH_CFG_LEADER) ∧
    (((mesh 1).timeArrive 0 (timeMsg 2) 2).1 = some (1, 7, 0) ∧ ((mesh 1).timeArrive 0 (timeMsg 2) 2).2.meshRole = 1) ∧
    (let d := clock (fun t => { t with exchanges := [⟨1, 0, 7, 0, 0, 0⟩] }) (mesh 2); (d.timeArrive 0 (timeMsg 3) 3).1 = some (1, 7, 0) ∧ ((d.timeArrive 0 (timeMsg 3) 3).2.time.exchanges.find? fun e => e.dev = 1 && e.xseq = 7) = some ⟨1, 0, 7, 0, 0, 0⟩ ∧
      ((d.timeArrive 0 (timeMsg 3) 3).2.setTime { d.time with exchanges := [] }).meshRole = 2) ∧
    (let d := mesh 2; d.meshRole = 2 ∧ d.running 0x08 = true ∧ d.get 0x08 F.TIME_STAT_LOST = 0) ∧ (let d := (mesh 2).set 0x08 F.TIME_STAT_LOST 1; d.meshRole = 2 ∧ d.get 0x08 F.TIME_STAT_LOST = 1) := by decide +kernel

/-- The west die's SWC and TM RUNNING, queue 7 on port 0 (UP), and an offer for it at source `src`. -/
def offered (src : Nat) (d : Dev := on) : Dev :=
  let d := (running (running d 0x2C) 0x2E).setPortState 0 1
  d.setSwc { d.swc with offers := [(src, [⟨7, 0, pkt, false, false, 0⟩])] }

theorem test_AdmissionDecides :
    (∀ src ∈ [0, 1, 2], let d := offered src; d.offers 0 src = [⟨7, 0, pkt, false, false, 0⟩] ∧ d.active (swcPage 0) = true ∧ d.active (tmPage 0) = true ∧
      (d.setSwc { d.swc with offers := [] }).admissionCode 0 7 ((d.setSwc { d.swc with offers := [] }).chain 5).length 0 (decide (src ≠ 1) && !false) = 0 ∧ ((List.range 3).map fun j => (d.offers 0 j).length).sum ≤ 16) ∧
    (let d := (offered 0).setSwc { (offered 0).swc with offers := [(0, List.replicate 17 ⟨7, 0, pkt, false, false, 0⟩)] }; 16 < ((List.range 3).map fun j => (d.offers 0 j).length).sum ∧
      (let turn := d.grant (Rr.swc 0) 3 ((List.range 3).filter fun j => !(d.offers 0 j).isEmpty); turn.1 = some 0 ∧ turn.2.offers 0 0 = List.replicate 17 ⟨7, 0, pkt, false, false, 0⟩)) ∧
    (let d := (offered 0).setPortState 0 4; d.offers 0 0 = [⟨7, 0, pkt, false, false, 0⟩] ∧ d.active (swcPage 0) = true ∧ d.active (tmPage 0) = true ∧ (d.setSwc { d.swc with offers := [] }).admissionCode 0 7 1 0 true ≠ 0) ∧
    on.adm 0 7 F.SWC_ADM_PROF_ECN_EN = 0 ∧ (let d := on.set 0x2C F.SWC_ADM_PROF_ECN_EN 1; d.adm 0 7 F.SWC_ADM_PROF_ECN_EN ≠ 0 ∧ d.adm 0 7 F.SWC_ADM_PROF_ECN_SPILL = 0 ∧ d.adm 0 7 F.SWC_ADM_PROF_ECN_MAX ≤ 999999) ∧
    (let d := ((on.set 0x2C F.SWC_ADM_PROF_ECN_EN 1).set 0x2C F.SWC_ADM_PROF_ECN_SPILL 1).setQueue 7 { Queue.init with writer := [ent] }; d.adm 0 7 F.SWC_ADM_PROF_ECN_SPILL = 1 ∧ (d.queue 7).spilled = true) ∧
    (let d := (on.set 0x2C F.SWC_ADM_PROF_ECN_MAX 9).set 0x2C F.SWC_ADM_PROF_ECN_MIN 5; 5 < d.adm 0 7 F.SWC_ADM_PROF_ECN_MAX ∧ 5 ≤ d.adm 0 7 F.SWC_ADM_PROF_ECN_MIN) ∧
    (let d := on.setBpm 0 { Bpm.init with waits := [(9, .edit 0), (8, .rewrite 3)] }; (∀ x ∈ (d.bpm 0).waits, x.1 ≠ 12) ∧ (d.bpm 0).waits = [(9, .edit 0)] ++ (8, .rewrite 3) :: [] ∧ (∀ x ∈ [(9, CellWait.edit 0)], x.1 ≠ 8)) ∧
    on.mayTake 0 8 = true ∧ on.mayTake 0 10 = false := by decide +kernel

/-- `on` with queue 7 on port 0 (UP) holding `n` cells on the west die, under a profile of MIN 4 and ALPHA `a`. -/
def counted (n a : Nat) : Dev :=
  let d := (on.setPortState 0 1).set 0x2C F.SWC_ADM_PROF_MIN 4 |>.set 0x2C F.SWC_ADM_PROF_ALPHA_G a
  { d with swc := { d.swc with cnt := [(7, n)] } }

theorem test_TheThresholdIsDynamic :
    on.queueClosed 7 true = true ∧ ((counted 0 8).queueClosed 7 true = false ∧ (counted 0 8).capBit 0 7 = false ∧ (counted 0 8).cntOf 0 7 + 4 ≤ (counted 0 8).adm 0 7 F.SWC_ADM_PROF_MIN) ∧
    ((counted 9 8).queueClosed 7 true = false ∧ (counted 9 8).capBit 0 7 = false ∧ (counted 9 8).adm 0 7 F.SWC_ADM_PROF_MIN < (counted 9 8).cntOf 0 7 + 1 ∧ (counted 9 8).admissionCode 0 7 1 0 true = 0 ∧ (counted 9 0).admissionCode 0 7 1 0 true = 1) ∧
    (let d := ((counted 9 8).set 0x2C F.SWC_ADM_PROF_PAGE_CAP 1).setQueue 7 { Queue.init with seg := List.replicate 64 ⟨0, 1, [], [], true, false, false⟩ }; d.queueClosed 7 true = false ∧ d.capBit 0 7 = true) := by decide +kernel

/-- The offered state with a packet of one cell on queue 7. -/
def queued : Dev := ((offered 0).set 0x2E F.TM_PORT_CFG_GAP_FILL 0).setQueue 7 { Queue.init with ents := [ent] }

def selAsks (d : Dev) : List Nat :=
  ((List.range 152).filter fun p => d.portHome p = some 0 && d.schedOf 0 p == 0 && d.portReady 0 p).filter fun p => (d.portQueues p).any fun q => d.qSelectable q (decide (p < 128) && d.gapFill p)

def sel1 : Sel := ⟨0, 7, ent, [5, 6], 0, false, false⟩

theorem test_FramesAreSelectedAndSent :
    on.running (tmPage 0) = false ∧
    (let d := queued; d.running (tmPage 0) = true ∧ d.tm.gates = [] ∧ selAsks d = [0] ∧ (let g := d.grant (Rr.ports 0) 152 [0]; g.1 = some 0 ∧ (g.2.choose 0 (fun q => g.2.qSelectable q false)).1 = some (0, 0, 7) ∧ (g.2.queue 7).ents = [ent])) ∧
    selAsks (offered 0) = [] ∧
    (let d := queued.setTm { queued.tm with gates := [(0, some ⟨0, [(255, 1000000)], some 0, 0⟩)] }; d.running (tmPage 0) = true ∧
      ((List.range 152).filter fun p => d.portHome p = some 0 && d.schedOf 0 p == 0 && d.portReady 0 p) = [0] ∧
      let d1 := d.dropAllOversize 0; let d2 := (d1.grant (Rr.ports 0) 152 [0]).2; (d1.portQueues 0).any (fun q => d1.qSelectable q (d1.gapFill 0)) = true ∧ (d2.gate 0).isSome = true ∧ d2.gapFill 0 = false ∧
        (d2.choose 0 (fun q => d2.qSelectable q false)).1 = some (0, 0, 7) ∧ (d2.queue 7).ents = [ent] ∧ d2.headFits 0 0 ent.frameLen = true) ∧
    (let d := (running on 0x2C).setEp 0 ⟨[sel1], []⟩; d.ep 0 = ⟨[sel1], (d.ep 0).staged⟩ ∧ cellDie 5 = epDie 0 ∧ (d.ep 0).used < 64 ∧ d.active (swcPage 0) = true ∧ d.hif.punts = [] ∧ (d.ep 16).sel = [] ∧ ∀ j, j < 17 → j ≠ 0 → d.epWants j = []) ∧
    (let d := (running on 0x2C).setHif { on.hif with path := [⟨⟨2, 0, 5, [1, 2], 0, pkt, none⟩, [5, 6], 0⟩] }; d.hif.punts = [] ∧ (d.ep 16).sel = [] ∧ cellDie 5 = 0 ∧ d.hif.used < 64 ∧ d.active (swcPage 0) = true ∧ ∀ j, j < 16 → d.epWants j = []) ∧
    (let d := (on.setPortState 0 1).setEp 0 ⟨[], [sel1]⟩; d.portState 0 = 1 ∧ d.tx 0 = none ∧ d.nextTx 0 = some sel1 ∧ sel1.ent.ctl = false) ∧
    (let d := on.setTx 0 (some ⟨ent, 7, [], 0⟩); d.mode ≠ 5 ∧ d.tx 0 = some ⟨ent, 7, [], 0⟩ ∧ ent.ctl = false ∧ d.arriving ent.owner = false ∧ (d.ep 0).sel = []) ∧
    (let d := (on.setTx 0 (some ⟨ent, 7, [], 0⟩)).setEp 0 ⟨[{ sel1 with onWire := true }], []⟩; d.tx 0 = some ⟨ent, 7, [], 0⟩ ∧ (∃ x ∈ (d.ep (portEp 0)).sel, x.port = 0 ∧ x.onWire = true) ∧ d.isBad ent.owner = false) ∧
    ent.ce = false ∧ ent.lead = [] ∧ (on.set 0x08 F.TIME_PORT_TS_TX_MODE 0).get 0x08 F.TIME_PORT_TS_TX_MODE = 0 := by decide +kernel

/-- A gate list whose window of every class is open from `b` on for 1 ms. -/
def gateFrom (b : Nat) : Gate := ⟨0, [(255, 1000000), (0, 900)], some 0, b⟩

/-- A window of 1 ms that closes at `1000000000 + p + w - 1`. -/
def opens (p w : Nat) : Nat := p + 999000000 + w - 1
theorem window_ends (p w : Nat) : 1000000000 + max p 0 + w = opens p w + 1000000 + 1 := by unfold opens; omega

/-- When that window opens if it closes 1 ns before the frame of `ent` could have left. -/
def lateFrom : Nat := opens Config.pipelineNs (queued.wireNs 0 ent.frameLen)

def late : Dev := clock (fun t => { t with sec := 1 }) (queued.setTm { queued.tm with gates := [(0, some (gateFrom lateFrom))] })
def lateSeen : Dev := late.dropAllOversize 0
def lateAsks : Dev := (lateSeen.grant (Rr.ports 0) 152 [0]).2

/-- A time is 1 ns after the one before it. -/
theorem diff64_succ (t : Nat) : diff64 (t + 1) t = 1 := by
  have h : (t + 1 + 2 ^ 64 - t % 2 ^ 64) % 2 ^ 64 = 1 := by omega
  unfold diff64; rw [h]; rfl

theorem gateFrom_closes (b : Nat) : (gateFrom b).closeTime 0 = some (b + 1000000) := by
  have h : (gateFrom b).always 0 = false := rfl
  have r : openRun 0 [(255, 1000000), (0, 900)] = 1000000 := by decide
  unfold Gate.closeTime; rw [h]
  change some (b + openRun 0 [(255, 1000000), (0, 900)]) = _
  rw [r]

/-- No frame of port 0 is too long for its window. -/
theorem lateSeen_eq : lateSeen = late := by
  have h : ∀ q ∈ late.portQueues 0, (late.queue q).ents.all (fun e => !late.tooLong 0 (late.qClass q) e.frameLen) = true := by decide +kernel
  have one : ∀ q ∈ late.portQueues 0, ∀ n, late.dropOversize 0 q n = late := by
    intro q hq n
    cases n with
    | zero => rfl
    | succ n =>
      have := h q hq
      unfold Dev.dropOversize
      cases hl : (late.queue q).ents with
      | nil => rfl
      | cons e r => simp [hl] at this; simp [this.1]
  unfold lateSeen Dev.dropAllOversize
  split
  · rfl
  · have fold : ∀ l : List Nat, (∀ q ∈ l, q ∈ late.portQueues 0) →
        l.foldl (fun d q => d.dropOversize 0 q ((d.queue q).ents.length)) late = late := by
      intro l
      induction l with
      | nil => intro _; rfl
      | cons q r ih =>
        intro hl
        rw [List.foldl_cons, one q (hl q (by simp))]
        exact ih fun x hx => hl x (by simp [hx])
    exact fold _ fun _ h => h

theorem grant_gate (d : Dev) (r n p : Nat) (l : List Nat) : (d.grant r n l).2.gate p = d.gate p := by
  unfold Dev.grant; split
  · rfl
  · dsimp only; split <;> rfl

theorem late_gate : lateAsks.gate 0 = some (gateFrom lateFrom) := by
  unfold lateAsks; rw [grant_gate, lateSeen_eq]; rfl

theorem late_ends : 1000000000 + max Config.pipelineNs 0 + queued.wireNs 0 ent.frameLen = lateFrom + 1000000 + 1 := by
  rw [show lateFrom = opens Config.pipelineNs (queued.wireNs 0 ent.frameLen) from rfl]; exact window_ends _ _

theorem late_times : lateAsks.now = 1000000000 ∧ lateAsks.aheadNs 0 = 0 ∧ lateAsks.wireNs 0 ent.frameLen = queued.wireNs 0 ent.frameLen := by decide +kernel

/-- The fit of a head of class 0 at a port whose window closes at `t`. -/
theorem headFits_closing (d : Dev) (g : Gate) (t f : Nat) (hg : d.gate 0 = some g) (hc : g.closeTime 0 = some t) :
    d.headFits 0 0 f = decide (diff64 (d.now + max Config.pipelineNs (d.aheadNs 0) + d.wireNs 0 f) t ≤ 0) := by
  unfold Dev.headFits; rw [hg, Option.bind_some, hc]

theorem late_blocked : lateAsks.headFits 0 0 ent.frameLen = false := by
  rw [headFits_closing _ _ _ _ late_gate (gateFrom_closes _), late_times.1, late_times.2.1, late_times.2.2, late_ends, diff64_succ]
  decide

theorem test_FramesAreSelectedAndSent_blocked :
    (late.running (tmPage 0) = true ∧ ((List.range 152).filter fun p => late.portHome p = some 0 && late.schedOf 0 p == 0 && late.portReady 0 p) = [0] ∧
      (lateSeen.portQueues 0).any (fun q => lateSeen.qSelectable q (lateSeen.gapFill 0)) = true ∧ (lateAsks.gate 0).isSome = true ∧ lateAsks.gapFill 0 = false ∧
      (lateAsks.choose 0 (fun q => lateAsks.qSelectable q false)).1 = some (0, 0, 7) ∧ (lateAsks.queue 7).ents = [ent]) ∧ lateAsks.headFits 0 0 ent.frameLen = false :=
  ⟨by decide +kernel, late_blocked⟩

theorem test_PauseFollowsReceivedFrames :
    (let d := open3.setMode 1; d.portOpen 3 = true ∧ d.isMember 3 = false ∧ d.admits 3 = false) ∧
    (let d := open3; d.portOpen 3 = true ∧ d.admits 3 = true ∧ d.isMember 3 = false ∧ (d.pgCnt 0 3 5).get 0x2C (F.SWC_PFC_CFG_RX_EN.at 12) = 0) ∧ ((open3.set 0x2C (F.SWC_PFC_CFG_RX_EN.at 12) 1).pgCnt 0 3 5).get 0x2C (F.SWC_PFC_CFG_RX_EN.at 12) = 1 ∧
    (open3.set 0x2C (F.SWC_PFC_CFG_RX_EN.at 12) 1).portOpen 3 = true ∧ on.pageOn 0x2C = true ∧
    (let d := (((on.set 0x2C (F.SWC_PFC_STAT_XOFF.at 12) 4).set 0x2C (F.SWC_PFC_CFG_TX_EN.at 12) 1).set 0x2C (F.SWC_PFC_CFG_PRIO_EN.at 12) 4).setSwc { on.swc with pfcCnt := [(26, 65535)] }
     bit (d.get 0x2C (F.SWC_PFC_STAT_XOFF.at 12)) 2 = true ∧ d.pfcEnabled 3 2 = true ∧ d.get 0x2C F.SWC_PFC_THR_XON ≤ d.pfcCount 3 2) ∧ on.pfcCount 3 2 < (on.set 0x2C F.SWC_PFC_THR_XON 1).get 0x2C F.SWC_PFC_THR_XON ∧
    (on.portQueues 3).filter (fun q => on.qPfcEn q && on.qPrio q == 2) = [] := by decide +kernel

def page (w r : Bool) : Page := ⟨1024, 1, [⟨0, ent⟩], [], w, r, false⟩

/-- `on` with queue 7 holding this HBM segment, and a recall level of 1. -/
def spilled (l : List Page) : Dev := (running on 0x30).set 0x2A F.BPM_SPILL_PROF_RECALL 1 |>.setQueue 7 { Queue.init with seg := l }

theorem test_SpillPagesAreWrittenAndRecalled :
    (let d := spilled [page true false, page false false]; (d.queue 7).seg = [page true false] ++ [page false false] ∧ d.domOn (14 + pageStack 1024) = true) ∧
    (let d := spilled []; d.qCells 7 < 16 * d.get 0x2A (F.BPM_SPILL_PROF_RECALL.at (4 * d.qSpill 7)) ∧ (d.queue 7).seg = [] ∧ (d.queue 7).partly = none) ∧
    (let d := spilled [page true false]; d.qCells 7 < 16 * d.get 0x2A (F.BPM_SPILL_PROF_RECALL.at (4 * d.qSpill 7)) ∧ (d.queue 7).seg = [page true false] ∧ d.fn (hbmPage (pageStack 1024)) ≠ 0) ∧
    ¬ on.qCells 7 < 16 * (on.set 0x2A F.BPM_SPILL_PROF_RECALL 0).get 0x2A F.BPM_SPILL_PROF_RECALL ∧ ((spilled [page true true]).queue 7).seg = [page true true] ∧
    (let d := { running (running on 0x2A) 0x31 with rings := [(1, { PageRing.init with valid := true })] }; (d.ring 1).valid = true ∧ d.running (bpmPage 0) = true ∧ d.running (hbmPage 1) = true ∧ d.get 0x2A (F.BPM_PG_STAT_READY.at 16) = 0) := by decide +kernel

theorem test_ShapersGatesAndRatesKeepTime :
    ((Map.rd [] on.tm.fine (on.clk / 8 % 4096)).length ≤ 128 ∧ 128 < (Map.rd [] (on.setTm { on.tm with fine := [(0, List.range 129)] }).tm.fine (on.clk / 8 % 4096)).length) ∧
    (let d := on.setQueue 7 { Queue.init with w2 := 1000, bucket := ⟨-5, 0, 0, false, false⟩ }; 0 < d.entRate 7 ∧ (d.bucket 7).paused = false ∧ (d.bucket 7).full = false) ∧
    (let g : Gate := ⟨5, [(1, 10), (2, 10)], none, 0⟩; let d := on.setTm { on.tm with gates := [(3, some g)] }; d.gate 3 = some g ∧ d.due 5 = false) ∧
    (let g : Gate := ⟨0, [(1, 10), (2, 10)], none, 0⟩; let d := on.setTm { on.tm with gates := [(3, some g)] }; d.gate 3 = some g ∧ d.due 0 = true ∧ Map.rd none d.tm.blocked 3 = none) ∧
    (let d := (on.set 0x2E (F.TM_RS_RATE.at 48) 100).set 0x2E (F.TM_RS_T_SEC.at 48) 9; d.reachable 0x2E ∧ d.rsBad 3 = false ∧ d.due (d.rsTime 3).1 = false ∧ d.get 0x2E (F.TM_RS_CTL_STATE.at 48) ≠ 1) ∧
    (let d := ((running on 0x2E).setTm { on.tm with rs := [(3, some ⟨100, 0⟩)] }).set 0x2E (F.TM_RS_CTL_STATE.at 48) 1; d.reachable 0x2E ∧ d.get 0x2E (F.TM_RS_CTL_STATE.at 48) = 1 ∧ Map.rd none d.tm.rs 3 = some ⟨100, 0⟩ ∧ d.due 0 = true ∧ d.running 0x2E = true) := by
  decide +kernel

def mc : McPkt := ⟨0, pkt⟩

/-- `on` with the west PEAL RUNNING, a packet of group 0 queued and this many entries in the group, whose first is `e`. -/
def pealing (n e : Nat) (d : Dev := on) : Dev :=
  { running (running d 0x34) 0x2C with pealMem := ⟨[(0, (0, n, 0, false))], [(0, BitVec.ofNat 64 e)], [], []⟩, peals := [(0, ⟨[mc], none, 0⟩)] }

/-- The walk of that packet in hand, at its only entry. -/
def walking (e : Nat) : Dev := (pealing 1 e).setPeal 0 ⟨[], some (mc, (0, 1, 0, false), 0), 0⟩

/-- The walk that waits for an edit cell, with a maximum of 5 cells for requester 9 and 200,000 free. -/
def editing : Dev :=
  let d := walking (2 ^ 19 + 2 ^ 28)
  let d := d.setBpm 0 { d.bpm 0 with waits := [(9, .edit 0)], fresh := 0 }
  (d.set 0x2A (F.BPM_QUOTA_MAX.at 72) 5).set 0x2A F.BPM_CELLS_FREE 200000

/-- That block with the wait taken away. -/
def editGot (d : Dev) : Dev := d.setBpm 0 { d.bpm 0 with waits := (d.bpm 0).waits.filter (fun w => w ≠ (9, .edit 0)) }

/-- The block that the first entry's decision starts from. -/
def walkBegun (d : Dev) : Dev :=
  let d1 := (d.setPealQueue 0 []).cnt 0x34 F.PEAL_CNT_COUNT 0
  let d2 := d1.setOwners pkt.owner pkt.first 0
  d2.setPeal 0 { d2.peal 0 with walk := some (mc, d.group 0 0, 0) }

theorem test_ReplicationWalksTheList :
    (let d := pealing 0 0; d.active (pealPage 0) = true ∧ (d.peal 0).walk = none ∧ (d.peal 0).queue = mc :: [] ∧ d.isBad mc.pkt.owner = false ∧ d.pealBad 0 0 mc.group = false ∧ (d.group 0 mc.group).2.1 = 0) ∧
    (let d := pealing 1 0; d.active (pealPage 0) = true ∧ (d.peal 0).walk = none ∧ (d.peal 0).queue = mc :: [] ∧ (d.group 0 mc.group).2.1 = 1 ∧
      ((walkBegun d).walkStep 0 mc (d.group 0 0) 0 [] []).1.isSome = true) ∧
    ((walking 0).peal 0).walk = some (mc, (0, 1, 0, false), 0) ∧ (on.set 0x2A (F.BPM_QUOTA_MAX.at 72) 0).mayTake 0 9 = false ∧
    (let d := editing; (d.peal 0).walk = some (mc, (0, 1, 0, false), 0) ∧ (9, CellWait.edit 0) ∈ (d.bpm 0).waits ∧ d.mayTake 0 9 = true ∧
      ((editGot d).walkStep 0 mc (0, 1, 0, false) 0 [] []).1.isSome = true) := ⟨by decide +kernel, by decide +kernel, by decide +kernel, by decide +kernel, by decide +kernel⟩

theorem test_ReplicationWalksTheList_entries :
    bit 0 19 = false ∧ bits (2 ^ 19 + 3 * 2 ^ 20) 20 8 = pkt.inport ∧
    (let d := (walking (2 ^ 19)).set 0x10 F.PG_PORT_CFG_SHIM 1; d.attached (d.qNode 0) = true ∧ d.isMember (d.qPort 0) = true ∧ bit (2 ^ 19) 19 = true ∧ bits (2 ^ 19) 20 8 ≠ pkt.inport) ∧
    (let d := walking (2 ^ 19); d.isMember (d.qPort 0) = false ∧ bits (2 ^ 19) 28 12 = 0 ∧ d.ulxMap 0 0 = none ∧ d.canOffer 0 1 = true) ∧
    (on.setPeal 0 ⟨[], none, 2⟩).peal 0 = ⟨[], none, 2⟩ ∧ (on.peal 0).fence ≠ 2 ∧ on.reachable 0x34 ∧ on.pealIdx 0 = some (0, 0) := by decide +kernel

/-- `on` with trunk 0 at home on the west die with member 0 at port 0 (queue 7), a shim at port 0 and CAR and ELI RUNNING. -/
def trunk0 (f : Trunk → Trunk := id) (d : Dev := on) : Dev :=
  let d := running (running (d.set 0x10 F.PG_PORT_CFG_SHIM 1) 0x36) 0x38
  (d.setCar { d.car with entries := [(0, 1), (8, BitVec.ofNat 32 (1 + 7 * 256))] }).setTrunk 0 (f Trunk.init)

/-- A member frame whose body begins with this message type. -/
def member (ty : Byte) : List Byte := shimLead 0 0 8 0 0 0 ++ [0] ++ (ty :: List.replicate 7 0) ++ List.replicate 40 0

/-- Context 9 of trunk 0 at this transmit state. -/
def ctx (st : Nat) (d : Dev := trunk0) : Dev := d.setTxCtx 0 0 9 { TxCtx.init with state := st, epo := 2, len := 20, template := List.replicate 20 0 }

def run20 : List Byte := 0x45 :: List.replicate 19 0

/-- `trunk0` with a candidate that saved `n` bytes. -/
def d0 (n : Nat) : Dev := trunk0.setMiner 0 { trunk0.miner 0 with cands := [(3, ⟨true, 0, 2, run20, n, 7⟩)] }

def msg (ty len nxt : Nat) (run : List Byte) : List Byte := msgBody ty 0 9 2 len nxt run

theorem test_ContextsFollowTheirMessages :
    ((List.range 7).all fun k => trunk0.isMember 0 && bit (shimFlg (member (BitVec.ofNat 8 (k + 1)))) 3 && beAt (memberBody (member (BitVec.ofNat 8 (k + 1)))) 0 1 == k + 1) = true ∧
    trunk0.running 0x38 = true ∧ (∀ ty, ty < 8 → (msg ty 0 0 []).length = 8 ∧ beAt (msg ty 0 0 []) 0 1 = ty ∧ beAt (msg ty 0 0 []) 2 2 = 9 + 2 * 4096) ∧
    (∀ st, st < 4 → ((ctx st).txCtx 0 0 9).epo = 2 ∧ ((ctx st).txCtx 0 0 9).state = st) ∧
    (let b := msg 1 20 2 run20; b.length = 8 + 20 ∧ beAt b 2 2 = 9 + 2 * 4096 ∧ beAt b 4 1 = 20 ∧ beAt b 5 1 % 4 = 2 ∧ templateCode 20 2 (slice b 8 20) = 0 ∧ (trunk0.rxCtx 0 0 9).valid = false) ∧
    ((trunk0.setRxCtx 0 0 9 { RxCtx.init with epo := 2 }).rxCtx 0 0 9).epo = 2 ∧ on.running (eliPage 0) = false ∧ seqLater 5 4 = true :=
  ⟨by decide +kernel, by decide +kernel, by decide +kernel, by decide +kernel, by decide +kernel, by decide +kernel, by decide +kernel, by decide +kernel⟩

theorem test_ContextsFollowTheirMessages_commands :
    (let d := trunk0; d.pageOn 0x38 = true ∧ (d.txCtx 0 0 9).state = 0 ∧ templateCode 20 2 (slice (run20 ++ List.replicate 108 0) 0 20) = 0 ∧ d.ctxTaken 0 0 2 run20 = false) ∧
    (let d := d0 500; (Map.rd Cand.init (d.miner 0).cands 3).used = true ∧ (d.txCtx 0 0 9).state = 0 ∧ templateCode 20 2 run20 = 0 ∧ (d.setTxCtx 0 0 9 { d.txCtx 0 0 9 with cand := 3 }).ctxTaken 0 0 2 run20 = false) ∧
    (Map.rd Cand.init (trunk0.miner 0).cands 3).used = false ∧ Dev.reset.pageOn 0x38 = false ∧
    (let d := ctx 1; d.trunkHome 0 = some 0 ∧ d.running 0x38 = true ∧ (d.txCtx 0 0 9).tries < d.msgRetries 0 0) ∧
    (let d := (ctx 3).setTxCtx 0 0 9 { TxCtx.init with state := 3, tries := 8 }; d.trunkHome 0 = some 0 ∧ d.running 0x38 = true ∧ (d.txCtx 0 0 9).state = 3 ∧ d.msgRetries 0 0 ≤ (d.txCtx 0 0 9).tries) ∧
    trunk0.reachable 0x38 ∧
    (let d := (d0 5).set 0x38 F.ELI_MINE_EN 1; d.running 0x38 = true ∧ d.get 0x38 F.ELI_MINE_EN = 1 ∧
      ∀ e ∈ (d.miner 0).cands, e.2.used = true → e.2.saved - e.2.err < d.get 0x38 F.ELI_MINE_THR_MIN_SAVE) ∧ on.running 0x38 = false :=
  ⟨by decide +kernel, by decide +kernel, by decide +kernel, by decide +kernel, by decide +kernel, by decide +kernel, by decide +kernel, by decide +kernel, by decide +kernel⟩

/-- A held frame. -/
def held (n : Nat) : Held := ⟨n, 0, 0, 0, 0, pkt, [], 5, 0, 0, 0, false⟩

theorem test_TrunksReleaseInOrder :
    (let d := trunk0 fun x => { x with learn := true, learnSince := some 3 }; d.trunkHome 0 = some 0 ∧ d.running (carPage 0) = true ∧ (d.trunk 0).learn = true ∧ (d.trunk 0).learnSince ≠ none) ∧
    (let d := trunk0 fun x => { x with learn := false }; (d.trunk 0).learn = false ∧ (d.trunk 0).hold = [] ∧ (held 0).seq = (d.trunk 0).next ∧ (held 0).seq < 2 ^ 24) ∧
    (let d := pow (fun p => { p with clock := 50005 }) (trunk0 fun x => { x with learn := false, hold := [held 7] }); d.running (carPage 0) = true ∧ (d.trunk 0).learn = false ∧
      ((d.trunk 0).hold.map (·.time)).min? = some 5 ∧ 5 + d.skewUs 0 0 * 1000 ≤ d.power.clock) ∧
    (let d := pow (fun p => { p with clock := 50004 }) (trunk0 fun x => { x with learn := false, hold := [held 7] }); ((d.trunk 0).hold.map (·.time)).min? = some 5 ∧
      d.power.clock < 5 + d.skewUs 0 0 * 1000 ∧ d.floorsPassed 0 0 = false ∧
      (let e := ((running d 0x10).set 0x10 F.PG_STAT_LINK 0xFF).setMember 0 0 { (d.member 0 0) with floor := 9, floorV := true }; e.floorsPassed 0 0 = true)) ∧
    (let d := (trunk0 fun x => { x with learn := false, next := 9 }).set 0x36 F.CAR_CFG_LATE_RESYNC 8; (held 4).seq < 2 ^ 24 ∧ (d.trunk 0).next < 2 ^ 24 ∧ seqLater (d.trunk 0).next (held 4).seq = true ∧
      (d.trunk 0).lateRun + 1 < (((d.setTrunk 0 { d.trunk 0 with lateRun := (d.trunk 0).lateRun + 1 }).carCnt 0 0 3).dropHeld (held 4)).get (carPage 0) F.CAR_CFG_LATE_RESYNC) ∧
    (let d := (trunk0 fun x => { x with learn := false, next := 9, lateRun := 7 }).set 0x36 F.CAR_CFG_LATE_RESYNC 8;
      (((d.setTrunk 0 { d.trunk 0 with lateRun := (d.trunk 0).lateRun + 1 }).carCnt 0 0 3).dropHeld (held 4)).get (carPage 0) F.CAR_CFG_LATE_RESYNC ≤ (d.trunk 0).lateRun + 1) :=
  ⟨by decide +kernel, by decide +kernel, by decide +kernel, by decide +kernel, by decide +kernel, by decide +kernel⟩

theorem test_TrunksReleaseInOrder_sending :
    (let d := trunk0.setPortState 0 1; d.trunkHome 0 = some 0 ∧ d.trunkOn 0 = true ∧ d.running (carPage 0) = true ∧ (∀ j, j < 16 → j ≠ 0 → d.memEn 0 0 j = false) ∧ d.memEn 0 0 0 = true ∧
      d.memPort 0 0 0 = 0 ∧ d.portState (d.memPort 0 0 0) = 1 ∧ d.memQueue 0 0 0 = 7 ∧ (d.queue 7).ents = []) ∧
    ({ trunk0 with car := { trunk0.car with verdicts := [(0, 2)] } } : Dev).trunkOn 0 = false ∧
    (let d := ((trunk0 fun x => { x with learn := true }).set 0x2A (F.BPM_QUOTA_MAX.at 80) 5).set 0x2A F.BPM_CELLS_FREE 200000; (d.trunk 0).learn = true ∧ ((d.setFloor 0 0 8).takeIntoHold 0 0 (held 7)).1 = true) ∧
    (let d := running (trunk0 fun x => { x with restored := [(raw, 0, 0, false)] }) 0x10; (∀ j, j < 16 → j ≠ 0 → (d.trunk j).restored = []) ∧ d.active (pgPage (d.intakePg 0 0)) = true ∧
      (d.trunk 0).restored = [(raw, 0, 0, false)] ∧ (d.pg raw.pkt.pg).depth < 1024) :=
  ⟨by decide +kernel, by decide +kernel, by decide +kernel, by decide +kernel⟩

theorem test_StackAddressesMapExactly :
    let x : Hbm := { Hbm.init with full := some (0, 5) }
    x.full = some (0, 5) ∧ hbmSize - 1 < hbmSize ∧ 768 * 2 ^ 20 - 1 < 768 * 2 ^ 20 ∧ x.mig = none ∧ (x.rank 29).state = 1 ∧ (x.rank 29).lrank = (x.split (29 * 8192)).1 ∧
      ∀ q, q < 32 → q ≠ 29 → ¬ (((x.rank q).state = 1 ∨ (x.rank q).state = 2) ∧ (x.rank q).lrank = (x.split (29 * 8192)).1) := by decide +kernel

/-- `on` with stack 0 as given. -/
def stack (f : Hbm → Hbm) (d : Dev := on) : Dev := d.setHbm 0 (f (d.hbm 0))

theorem test_StacksTrainRefreshAndWatch :
    (let d := on; (d.hbm 0).training = false ∧ d.fn (hbmPage 0) ≠ 3) ∧
    (let d := stack fun x => { x with training := true, image := on.imageNow 0 }; (d.hbm 0).training = true ∧ (d.hbm 0).fullNow = false ∧ (d.hbm 0).image = d.imageNow 0) ∧
    (let d := stack fun x => { x with training := true }; (d.hbm 0).training = true ∧ (d.hbm 0).fullNow = false ∧ (d.hbm 0).image ≠ d.imageNow 0) ∧
    (let d := stack fun x => { x with training := true, fullNow := true }; (d.hbm 0).training = true ∧ (d.hbm 0).fullNow = true ∧ (d.set 0x30 F.HBM_CFG_BIST 0).live (hbmPage 0) F.HBM_CFG_BIST ≠ 1 ∧
      (d.set 0x30 F.HBM_CFG_BIST 1).live (hbmPage 0) F.HBM_CFG_BIST = 1) ∧
    (let d := (running on 0x30).set 0x30 F.HBM_STAT_TRAINED 1; d.trained 0 = true ∧ d.fn (hbmPage 0) ≠ 0) ∧ on.fn (hbmPage 0) = 0 ∧ (on.hbmChoose 0 3 [⟨0, false, 3, 0, 4, 0⟩]).1 = some ⟨0, false, 3, 0, 4, 0⟩ ∧
    Dev.reset.domOn 14 = false ∧ on.domOn 14 = true ∧ toSigned 8 104 < 105 ∧ 105 ≤ toSigned 8 105 ∧ 0 < ((stack fun x => { x with hot := 1 }).hbm 0).hot ∧
    on.get 0x30 F.HBM_STAT_THROTTLE = 0 ∧ (on.set 0x30 F.HBM_STAT_THROTTLE 1).get 0x30 F.HBM_STAT_THROTTLE = 1 ∧ (on.set 0x30 ⟨0x0C, 0, 2⟩ 3).fn (hbmPage 0) = 3 := by decide +kernel

/-- `on` with stack 0 TRAINED and counting, its line 2 cached with these words, and this update of pair 16 posted. -/
def tallied (p : List (Nat × Nat × Nat)) : Dev :=
  let d := (stack (fun x => { x with posted := p, lines := [⟨2, 7, 8, 0, 0⟩], region := some 0 }) (running on 0x30)).set 0x30 F.HBM_STAT_TRAINED 1
  (d.set 0x30 F.HBM_CNT_BASE_EN 1).set 0x30 F.HBM_CNTR_IDX_INDEX 16

theorem test_ScrubbingFindsAndCountersCount :
    (let d := (on.set 0x30 F.HBM_STAT_TRAINED 1).set 0x30 F.HBM_SCRUB_HOURS 24; d.trained 0 = true ∧ d.get 0x30 F.HBM_SCRUB_HOURS ≠ 0 ∧ hbmSize - 4 < hbmSize ∧ Map.rd false d.hbmBad (hbmKey 0 (hbmSize - 4)) = false ∧ Map.rd false (d.markBad 0 (hbmSize - 4)).hbmBad (hbmKey 0 (hbmSize - 4)) = true) ∧
    (on.set 0x30 F.HBM_SCRUB_HOURS 0).get 0x30 F.HBM_SCRUB_HOURS = 0 ∧ (on.hbm 0).mig = none ∧
    (let d := stack (fun x => { x with mig := some (3, 30) }) (running on 0x30); (d.hbm 0).mig = some (3, 30) ∧ d.running (hbmPage 0) = true ∧ ((d.hbm 0).rank 3).progress + 1 ≠ 196608 ∧ d.hbmBad = [] ∧
      let e := d.setHbm 0 ((d.hbm 0).setRank 3 { (d.hbm 0).rank 3 with progress := 196607 }); ((e.hbm 0).rank 3).progress + 1 = 196608) :=
  ⟨by decide +kernel, by decide +kernel, by decide +kernel, by decide +kernel⟩

theorem test_ScrubbingFindsAndCountersCount_counters :
    (on.hbm 0).posted = [] ∧ (on.hbm 0).read = none ∧ on.counting 0 = false ∧ ((stack fun x => { x with posted := [(16, 1, 64)] }).hbm 0).posted = (16, 1, 64) :: [] ∧ on.fn (hbmPage 0) ≠ 2 ∧ on.fn (hbmPage 0) ≠ 3 ∧
    (let d := tallied [(16, 1, 64)]; (d.hbm 0).posted = (16, 1, 64) :: [] ∧ d.counting 0 = true ∧ d.running (hbmPage 0) = true ∧ d.trained 0 = true ∧ (d.hbm 0).lines = [⟨2, 7, 8, 0, 0⟩] ∧ 2 = 16 / 8) ∧
    (let d := tallied []; d.reachable (hbmPage 0) ∧ d.get (hbmPage 0) F.HBM_CNTR_STAT_BUSY ≠ 1 ∧ d.get (hbmPage 0) F.HBM_CNTR_IDX_INDEX = 16 ∧ 16 % 4 = 0 ∧ d.counting 0 = true) ∧
    (let d := on.set 0x30 F.HBM_CNTR_IDX_INDEX 17; d.reachable (hbmPage 0) ∧ d.get (hbmPage 0) F.HBM_CNTR_IDX_INDEX = 17 ∧ 17 % 4 ≠ 0) ∧
    (let d := on.set 0x30 F.HBM_CNTR_IDX_INDEX 16; d.reachable (hbmPage 0) ∧ d.get (hbmPage 0) F.HBM_CNTR_IDX_INDEX = 16 ∧ d.counting 0 = false) ∧
    ((stack fun x => { x with read := some (16, 1, 64, true, false) }).hbm 0).read = some (16, 1, 64, true, false) := 
  ⟨by decide +kernel, by decide +kernel, by decide +kernel, by decide +kernel, by decide +kernel, by decide +kernel, by decide +kernel, by decide +kernel, by decide +kernel⟩

/-- `on` with MOD RUNNING, cage 0 at this state and, from state 1 on, its module present. -/
def cage0 (st : Nat) : Dev :=
  let d := (running on 0x07).cageSet 0 F.MOD_CAGE_STAT_STATE st
  { d with mods := { d.mods with present := if st = 0 then [] else [(0, true)] } }

/-- Lower bytes of a module whose state is ModuleReady, with no flag. -/
def lowerOk : List Byte := 6 :: List.replicate 30 0

theorem test_CagesAreScanned :
    ((cage0 0).cageState 0 = 0 ∧ Map.rd false (cage0 0).mods.present 0 = false ∧ (cage0 0).modActive = true) ∧
    (∀ st, st < 4 → (cage0 (st + 1)).cageState 0 = st + 1 ∧ Map.rd false (cage0 (st + 1)).mods.present 0 = true ∧ (cage0 (st + 1)).modActive = true ∧ (cage0 (st + 1)).reachable modPage) ∧
    (cage0 0).reachable modPage ∧ (List.replicate 65 (0 : Byte)).length = 65 ∧
    (let d := cage0 3; d.running modPage = true ∧ d.cageState 0 = 3 ∧ d.busHeld 0 = false ∧ (d.cage 0).limited = false ∧ ledNat lowerOk 0 1 / 2 % 8 ≠ 5 ∧ visitFlags lowerOk (List.replicate 64 0) false = []) :=
  ⟨by decide +kernel, by decide +kernel, by decide +kernel, by decide +kernel, by decide +kernel⟩

theorem test_CagesAreScanned_held :
    let d := ((cage0 3).setTimed 0 (some ⟨0, 0, 0, 0, [1], 5, false⟩)).setTwState 0 2
    d.busHeld (0 / 8) = true ∧ d.running modPage = true := by decide +kernel

/-- `cage0` with this command for cage 0 in master 0: 4 bytes at address 252. -/
def command (op busy st : Nat) (d : Dev := cage0 st) : Dev :=
  (((d.set 0x07 (F.MOD_CMD_CTL_OP.at (cmdOff 0)) op).set 0x07 (F.MOD_CMD_CTL_LEN.at (cmdOff 0)) 4).set 0x07 (F.MOD_CMD_ADDR_ADDR.at (cmdOff 0)) 252).set 0x07 (F.MOD_CMD_STAT_BUSY.at (cmdOff 0)) busy

theorem test_ModuleCommandsRunToTheirEnd :
    (∀ op, op < 3 → ∀ st, st < 4 → (command op 0 st).reachable modPage ∧ (command op 0 st).cmdBusy 0 = false ∧ (command op 0 st).get modPage (F.MOD_CMD_CTL_OP.at (cmdOff 0)) = op ∧ (command op 0 st).cageState 0 = st ∧
      (command op 0 st).get modPage (F.MOD_CMD_CTL_LEN.at (cmdOff 0)) = 4 ∧ (command op 0 st).get modPage (F.MOD_CMD_ADDR_ADDR.at (cmdOff 0)) + 4 ≤ 256 ∧ (command op 0 st).running modPage = true) ∧
    (cage0 3).get modPage (F.MOD_CMD_CTL_LEN.at (cmdOff 0)) = 0 ∧ (∀ op, op < 3 → (command op 1 3).cmdBusy 0 = true ∧ (command op 1 3).busHeld 0 = false) ∧
    (let d := (cage0 3).set modPage F.MOD_BUS_RETRIES 2; d.modActive = true ∧ d.busTries 0 < d.get modPage F.MOD_BUS_RETRIES ∧ d.get modPage F.MOD_BUS_RETRIES ≤ (d.setBusTries 0 2).busTries 0 ∧ ∀ k, k < 16 → d.timedW k = none) :=
  ⟨by decide +kernel, by decide +kernel, by decide +kernel, by decide +kernel⟩

/-- `cage0` with timed write 0 at this state and time. -/
def timedWr (st : Nat) (t : Int) (again : Bool) (d : Dev := cage0 3) : Dev := (d.setTimed 0 (some ⟨0, 0, 0, 0, [1], t, again⟩)).setTwState 0 st

theorem test_ModuleCommandsRunToTheirEnd_timed :
    (let d := ((cage0 3).set modPage F.MOD_TW_LEN 4).set modPage F.MOD_TW_T_S 1; d.reachable modPage ∧ d.twBad 0 = false) ∧
    (∀ st, st < 3 → (timedWr st 0 false).twState 0 = st ∧ (timedWr st 0 false).timedW 0 = some ⟨0, 0, 0, 0, [1], 0, false⟩ ∧ (timedWr st 0 false).running modPage = true ∧ (timedWr st 0 false).reachable modPage) ∧
    (timedWr 1 0 false).due (0 - 1000000) = true ∧ (cage0 3).cageState 0 = 3 ∧ (timedWr 1 0 false (cage0 2)).cageState 0 = 2 ∧ (timedWr 1 2000000 false).due (2000000 - 1000000) = false ∧
    -(2 * (bitPeriod ((timedWr 2 0 false).get modPage F.MOD_BUS_SPEED) : Int)) ≤ toSigned 64 ((((timedWr 2 0 false).now : Int) - 0) % (2 ^ 64 : Nat)).toNat ∧
    toSigned 64 ((((timedWr 2 0 false).now : Int) - 0) % (2 ^ 64 : Nat)).toNat ≤ 2 * bitPeriod ((timedWr 2 0 false).get modPage F.MOD_BUS_SPEED) ∧
    (let d := timedWr 1 0 false (cage0 3 |>.set 0x07 ⟨0x0C, 0, 2⟩ 0); d.domOn 28 = true ∧ d.fn modPage = 0 ∧ d.due 0 = true) ∧ (cage0 3).fn modPage ≠ 0 ∧ on.reachable modPage ∧ on.get modPage F.MOD_LED_IDX_PREV ≠ 1 :=
  ⟨by decide +kernel, by decide +kernel, by decide +kernel, by decide +kernel, by decide +kernel, by decide +kernel, by decide +kernel, by decide +kernel, by decide +kernel, by decide +kernel, by decide +kernel, by decide +kernel⟩

/-- `d` with other fields of the host interface. -/
def hif (f : HostIf → HostIf) (d : Dev := on) : Dev := d.setHif (f d.hif)

theorem test_TheHostLinkFollowsItsEvents :
    (hif fun h => { h with perst := true }).hif.perst = true ∧
    (let d := hif fun h => { h with perst := false, training := true, quarantined := [(5, true)] }; d.hif.perst = false ∧ d.hif.training = true ∧ d.hif.waiting = [] ∧ d.domOn 29 = true ∧ d.hif.tags = [] ∧
      (∀ x ∈ d.hif.chans, x.2.job = none) ∧ d.lstate ≠ 5 ∧ Map.rd false d.hif.quarantined 5 = true ∧ Map.rd false d.hif.quarantined 6 = false) ∧
    (hif fun h => { h with waiting := [(0, 0)] }).hif.waiting ≠ [] ∧
    (let d := on.set 0x05 F.HIF_LINK_STAT_FLIT 1; d.get hifPage F.HIF_LINK_STAT_FLIT = 1 ∧ d.lstate < 2 ∧ d.domOn 29 = true) ∧ (on.set 0x05 F.HIF_LINK_STAT_FLIT 0).get hifPage F.HIF_LINK_STAT_FLIT = 0 ∧
    (on.setDom 29 0).domOn 29 = false :=
  ⟨by decide +kernel, by decide +kernel, by decide +kernel, by decide +kernel, by decide +kernel, by decide +kernel⟩

/-- A piece of a read, and what channel 2 reads. -/
def piece (b : Option (List Byte)) : Piece := ⟨4096, 64, b⟩
def chan (f : Chan → Chan) (d : Dev := on) : Dev := d.setChan 2 (f Chan.init)
/-- Tag 7 holds the read of the first piece of a job of this kind of channel 2, and 60 bytes of it. -/
def reading (kind pc : Nat) : Dev := hif (fun h => { h with tags := [(7, some ⟨2, pc, 64, List.replicate 60 1⟩)] }) (chan fun c => { c with job := some ⟨kind, [piece none]⟩ })

theorem test_ReadsCompleteOrTimeOut :
    (let d := hif fun h => { h with quarantined := [(5, true)] }; d.domOn 29 = true ∧ Map.rd none d.hif.tags 5 = none ∧ Map.rd false d.hif.quarantined 5 = true ∧ Map.rd false d.hif.quarantined 6 = false) ∧
    (let d := reading 3 65535; Map.rd none d.hif.tags 7 = some ⟨2, 65535, 64, List.replicate 60 1⟩ ∧ 60 + 3 < 64 ∧ d.hif.waiting = []) ∧
    (let d := reading 3 0; Map.rd none d.hif.tags 7 = some ⟨2, 0, 64, List.replicate 60 1⟩ ∧ 64 ≤ 60 + 4 ∧ d.hif.waiting = [] ∧ (d.chan 2).job = some ⟨3, [piece none]⟩) ∧
    (on.set 0x05 F.HIF_LINK_STAT_LSTATE 5).lstate = 5 ∧ on.lstate ≠ 5 ∧ on.hif.tags = [] ∧ ∀ x ∈ on.hif.chans, x.2.job = none :=
  ⟨by decide +kernel, by decide +kernel, by decide +kernel, by decide +kernel, by decide +kernel, by decide +kernel, by decide +kernel⟩

/-- DMA RUNNING and channel 2 at this state. -/
def chSt (n : Nat) (d : Dev := on) : Dev := (running d 0x06).setChState 2 n

/-- A context as channel 2 reads it: RX, a ring of 64 descriptors, buffers of 2,048 bytes, interrupts on. -/
def cx : Ctx := ⟨65536, 1, true, 6, 3, 5, 1, 10, 0, 0, 3⟩

theorem test_ChannelsAndDoorbells :
    (∀ n, n < 5 → (chSt n).reachable dmaPage ∧ (chSt n).chState 2 = n ∧ (chSt n).running dmaPage = true) ∧
    (let d := chSt 1 (chan fun c => { c with job := some ⟨0, [piece (some (List.replicate 64 0))]⟩ }); d.chState 2 = 1 ∧ (d.chan 2).job = some ⟨0, [piece (some (List.replicate 64 0))]⟩ ∧
      Job.whole ⟨0, [piece (some (List.replicate 64 0))]⟩ = true ∧ d.ctxCheck 2 (ctxOf (List.replicate 64 0)) ≠ 0 ∧ d.chPending 2 = false ∧ (d.setChPending 2 true).chPending 2 = true) ∧
    (let b : List Byte := List.replicate 8 0 ++ [1, 6] ++ List.replicate 54 0; Job.bytes ⟨0, [piece (some b)]⟩ = b ∧ (chSt 1 (chan fun c => { c with job := some ⟨0, [piece (some b)]⟩ })).ctxCheck 2 (ctxOf b) = 0) ∧
    (let d := chSt 3; (d.chan 2).job = none ∧ d.d3hot = false ∧ (d.set hifPage F.HIF_LINK_STAT_DSTATE 3).d3hot = true ∧ let u := (d.dropJob 2).unwaitInject 2; let v := ((u.setChan 2 { u.chan 2 with descs := [] }).ctxBack 2).setChState 2 0
      v.get dmaPage F.DMA_CTX_INVAL_BUSY = 0 ∧ v.chPending 2 = false) ∧
    (on.reachable dmaPage ∧ on.get dmaPage F.DMA_CTX_INVAL_BUSY = 0 ∧ on.hif.cached = [] ∧ ∀ y ∈ on.hif.chans, y.2.inval = false) :=
  ⟨by decide +kernel, by decide +kernel, by decide +kernel, by decide +kernel, by decide +kernel⟩

theorem test_ChannelsAndDoorbells_ring :
    (let d := chSt 2 (chan fun c => { c with ctx := some cx }); d.hostOpen = true ∧ d.lstate < 2 ∧ d.chState 2 = 2 ∧ (d.chan 2).ctx = some cx ∧ (64 + 65536 - d.chHead 2) % 65536 ≤ 2 ^ cx.ringLog ∧
      2 ^ cx.ringLog < (65 + 65536 - d.chHead 2) % 65536 ∧ d.chHead 2 = 0 ∧ d.chHead 2 ≠ 1 ∧ cx.intEn = true) ∧
    (let d := hif (fun h => { h with cached := [2] }) ((chSt 2 (chan fun c => { c with ctx := some cx })).set 0x06 (F.DMA_CH_IDX_TAIL.at 32) 4); d.chState 2 = 2 ∧ (d.chan 2).job = none ∧ d.hostShut = false ∧ d.hif.cached.contains 2 = true ∧
      (d.chan 2).ctx = some cx ∧ cx.typ ≠ 2 ∧ let at_ := (d.chHead 2 + (d.chan 2).descs.length) % 65536
      min 8 (min (d.chFree 2 - (d.chan 2).descs.length) (2 ^ cx.ringLog - at_ % 2 ^ cx.ringLog)) = 4) ∧
    (let d := chan fun c => { c with ctx := some cx, unsig := 1, armed := true }; (d.chan 2).ctx = some cx ∧ 0 < (d.chan 2).unsig ∧ cx.coalUs ≠ 0 ∧ (d.chan 2).armed = true) ∧ ((chan fun c => { c with ctx := some cx }).chan 2).unsig = 0 :=
  ⟨by decide +kernel, by decide +kernel, by decide +kernel, by decide +kernel⟩

def punt : Punt := ⟨2, 0, 5, [1, 2], 0, pkt, none⟩

/-- That punt, whole in the staging of the host path. -/
def whole : HostPkt := ⟨punt, [], 1⟩

/-- Channel 2 RUNNING with this context, these descriptors and this job, and one punt for it. -/
def delivering (typ : Nat) (l : List Desc) (j : Option Job) : Dev :=
  hif (fun h => { h with cached := [2], staged := [whole] }) ((chSt 2 (chan fun c => { c with ctx := some { cx with typ := typ }, descs := l, job := j })).set 0x06 (F.DMA_CH_IDX_TAIL.at 32) 4)

/-- A channel that has read a packet of 64 bytes, and one that has read this record. -/
def injecting : Dev := let d := ((running (delivering 2 [⟨0, 64, 3⟩] (some ⟨3, [piece (some (List.replicate 64 0))]⟩)) 0x10).setMode 2).set 0x2A (F.BPM_QUOTA_MAX.at 96) 5
  (d.set 0x2A F.BPM_CELLS_FREE 200000).setBpm 0 { d.bpm 0 with fresh := 0 }
def listing (w : Nat) : Dev := delivering 3 [⟨0, 8, 0⟩] (some ⟨3, [piece (some (leBytes 8 w))]⟩)

theorem test_PacketsCrossTheHost :
    on.hif.staged = [] ∧ (let d := chSt 1 (hif fun h => { h with staged := [whole] }); d.hif.staged = [whole] ∧ d.domOn 29 = true ∧ d.arriving pkt.owner = false ∧ d.isBad pkt.owner = false ∧ d.chState 2 ≠ 2) ∧
    (let d := { chSt 1 (hif fun h => { h with staged := [whole] }) with rx := [(3, some ⟨pkt.owner, false⟩)] }; d.hif.staged = [whole] ∧ d.arriving pkt.owner = true) ∧
    (let d := { chSt 1 (hif fun h => { h with staged := [whole] }) with badFrames := [(pkt.owner, 1)] }; d.hif.staged = [whole] ∧ d.arriving pkt.owner = false ∧ d.isBad pkt.owner = true) ∧
    (let d := delivering 1 [⟨0, 0, 0⟩] none; d.hif.staged = [whole] ∧ d.chState 2 = 2 ∧ d.get hifPage F.HIF_LINK_STAT_DSTATE = 0 ∧ d.lstate ≠ 5 ∧ (d.chan 2).job = none ∧ d.hif.cached.contains 2 = true ∧ (d.chan 2).ctx = some cx ∧
      (d.chan 2).descs = ⟨0, 0, 0⟩ :: [] ∧ 1 ≤ d.chFree 2 ∧ (let all := punt.record ++ ((d.setHif { d.hif with staged := [] }).chainBytes 5).take 64; 0 < all.length ∧ all.length ≤ 2 ^ 11)) ∧
    (let d := injecting; (d.chan 2).ctx = some { cx with typ := 2 } ∧ (d.chan 2).job = some ⟨3, [piece (some (List.replicate 64 0))]⟩ ∧ Job.whole ⟨3, [piece (some (List.replicate 64 0))]⟩ = true ∧ d.chState 2 = 2 ∧ d.hostShut = false ∧ (d.set hifPage F.HIF_LINK_STAT_DSTATE 3).hostShut = true ∧
      packetSpan (d.chan 2).descs = some (1, true) ∧ d.injectOpen { cx with typ := 2 } = true ∧ (d.pg 0).depth < 1024 ∧ (∀ die, die < 2 → ∀ w ∈ (d.bpm die).waits, w.2 ≠ .inject 2) ∧
      (d.newChain 0 12 (List.replicate 64 0)).1 = some 0) ∧
    (let d := listing 0x400044; (d.chan 2).ctx = some { cx with typ := 3 } ∧ d.chState 2 = 2 ∧ d.hostShut = false ∧ (Job.bytes ⟨3, [piece (some (leBytes 8 0x400044))]⟩).length = 8 ∧ bits 0x400044 29 3 ≤ 1 ∧ bits 0x400044 0 29 % 4 = 0) :=
  ⟨by decide +kernel, by decide +kernel, by decide +kernel, by decide +kernel, by decide +kernel, by decide +kernel, by decide +kernel⟩

/-- `on` with port 3 of ULX at this state. -/
def ulx (st : Nat) (f : UlxPort → UlxPort := id) (d : Dev := on) : Dev :=
  ((running d 0x3A).set 0x3A (F.ULX_PORT_STAT_STATE.at 12) st).setUport 3 (f { UlxPort.init with reach := 0 })

/-- A cell that the other end of port 3 makes. -/
def made (kind vc lseq : Nat) (pl : List Byte) : List Byte := ((on.setUport 8 { UlxPort.init with reach := 0 }).ulxSendCell 8 kind vc lseq pl).1

/-- HELLO of device 1's port 8 or of another, with these members. -/
def greet (port : Byte) (restart : Byte) : List Byte := made 3 0 0 [1, port, restart, 1, 2, 3, 4, 3]

/-- Port 3 in HELLO, wired to device 1, with members 0 and 1. -/
def wired : Dev := ((ulx 2).set 0x3A F.ULX_CFG_PEER 1).set 0x3A F.ULX_CFG_MEMBERS 3

theorem test_UluxLinksComeUpAndAcceptInOrder :
    (∀ st, st < 5 → (ulx st).pageOn (uPage 3) = true ∧ (ulx st).uState 3 = st) ∧ (ulx 3).uUp 3 = true ∧ (ulx 2).uUp 3 = false ∧ Dev.reset.pageOn (uPage 3) = false ∧ on.reachable (ulxPage 1) ∧
    ucellOk (greet 13 0) = true ∧ (let c := greet 13 0; wired.uState 3 = 2 ∧ (cellHdr c).kind = 3 ∧ bit (beAt c 10 1) 0 = false ∧ wired.uPeer 3 = some (beAt c 8 1) ∧ beAt c 9 1 = 10 - 5 * (3 / 5) + 3 % 5 ∧
      beAt c 15 1 = (let u := (wired.set 0x3A (F.ULX_PORT_STAT_PEER_DEV.at 12) 1).set 0x3A (F.ULX_PORT_STAT_PEER_PORT.at 12) 13; u.live (ulxPage 0) F.ULX_CFG_MEMBERS)) ∧
    (beAt (greet 8 0) 9 1 == 10 - 5 * (3 / 5) + 3 % 5) = false ∧ ucellOk [] = false ∧
    (∀ k, ucellOk (made k 1 0 [9]) = true) ∧ ((let c := made 0 1 0 [9]; (cellHdr c).kind = 0 ∧ (cellHdr c).vc < 2 ∧ (cellHdr c).reach = ((ulx 3).uport 3).reach) ∧ (let c := made 1 1 0 [9]; (cellHdr c).kind = 1) ∧
      (let c := made 2 1 0 [9]; (cellHdr c).kind = 2)) ∧
    (cellHdr (made 1 1 0 [])).lseq = (((ulx 3).uport 3).ack + 1) % 4096 ∧ (cellHdr (made 1 1 5 [])).lseq ≠ (((ulx 3).uport 3).ack + 1) % 4096 :=
  ⟨by decide +kernel, by decide +kernel, by decide +kernel, by decide +kernel, by decide +kernel, ucellOk_ulxSendCell .., by decide +kernel, by decide +kernel, by decide +kernel, fun _ => ucellOk_ulxSendCell .., by decide +kernel, by decide +kernel, by decide +kernel⟩

theorem test_LinksReplayAndSend :
    (ulx 2).uUp 3 = false ∧ (ulx 3).uUp 3 = true ∧ ((ulx 3).uport 3).replay = [] ∧
    (let d := (ulx 3 fun x => { x with replay := [⟨0, [9], 4⟩] }).set 0x3A F.ULX_LINK_REPLAY_MAX 4; d.uUp 3 = true ∧ (d.uport 3).replay = ⟨0, [9], 4⟩ :: [] ∧ d.get (uPage 3) F.ULX_LINK_REPLAY_MAX ≤ 4) ∧
    (let d := (ulx 3 fun x => { x with replay := [⟨0, [9], 3⟩] }).set 0x3A F.ULX_LINK_REPLAY_MAX 4; (d.uport 3).replay = [⟨0, [9], 3⟩] ∧ 3 < d.get (uPage 3) F.ULX_LINK_REPLAY_MAX) ∧
    (let d := ulx 3 fun x => { x with out := [(2, [7])], cred := [0, 0, 1, 0] }; d.uUp 3 = true ∧ (d.uport 3).replay.length < 1024 ∧ (d.uport 3).out = (2, [7]) :: [] ∧ 0 < (d.uport 3).cred.getD 2 0) ∧
    (let d := ulx 3; (d.uport 3).out = [] ∧ (∀ i, i < 16 → (d.uport i).rx = []) ∧ d.ulx.again = [] ∧ d.ulx.queues = []) ∧ ((ulx 3).uport 3).ack < 4096 ∧ (ulx 3).direct4 < 16 :=
  ⟨by decide +kernel, by decide +kernel, by decide +kernel, by decide +kernel, by decide +kernel, by decide +kernel, by decide +kernel, by decide +kernel, by decide +kernel⟩

/-- Stream 0 of device 1 on the west die holding cell 7, while cell 5 is next. -/
def gap : Dev := (ulx 3).setStream (streamKey 0 1 0 0) { Stream.init with next := 5, held := [(7, [], 5)] }

/-- Window 0 open to device 1 for reads, and for writes where `w`: 64 KB of BAR0 at address 0. -/
def window (w : Nat) : Dev := (ulx 3).setUlx { (ulx 3).ulx with windows := [(0, ⟨BitVec.ofNat 32 (1 + 4 * w + 2 * 16), 1 * 2 ^ 16, 2⟩)] }

/-- A request or response of slot 0 from device 1. -/
def txn (vc op : Nat) (addr : Nat) : List Byte := made 1 vc 0 (txnPayload op 1 0 0 0 0 addr 99)

theorem test_MeshTransactionsAndStreams :
    (on.stream (streamKey 0 1 0 0)).held = [] ∧
    (let x := gap.stream (streamKey 0 1 0 0); x.held = [(7, [], 5)] ∧ 7 ≠ x.next ∧ x.build = none) ∧
    bit ((mesh 1).any4 0) 1 = true ∧ bit ((mesh 1).any4 0) 2 = false ∧ bit ((mesh 1).any4 1) 2 = false ∧ (mesh 1).ulx.queues = [] ∧
    (let d := ulx 3; d.reachable (ulxPage 0) ∧ d.txnHeld 0 0 = false ∧ d.get (ulxPage 0) (F.ULX_TXN_BUSY.at 0) = 0 ∧ d.get (ulxPage 0) F.ULX_WIN_COMMIT_BUSY = 0) ∧
    (ulx 3 |>.set 0x3A F.ULX_TXN_BUSY 1).get (ulxPage 0) (F.ULX_TXN_BUSY.at 0) = 1 ∧ (on.set 0x3A F.ULX_WIN_COMMIT_BUSY 1).get (ulxPage 0) F.ULX_WIN_COMMIT_BUSY = 1 ∧
    on.reachable (ulxPage 1) ∧ on.get (ulxPage 1) F.ULX_WIN_COMMIT_BUSY = 0 :=
  ⟨by decide +kernel, by decide +kernel, by decide +kernel, by decide +kernel, by decide +kernel, by decide +kernel, by decide +kernel, by decide +kernel, by decide +kernel, by decide +kernel, by decide +kernel⟩

def answers (a b : Except Nat (Nat × Nat)) : Bool :=
  match a, b with
  | .error x, .error y => x == y
  | .ok x, .ok y => x == y
  | _, _ => false

theorem test_MeshTransactionsAndStreams_cells :
    (∀ vc op, ucellOk (txn vc op 4) = true) ∧ (∀ vc, vc < 2 → let c := txn (vc + 2) 3 4; let h := cellHdr c; (ulx 3).uUp 3 = true ∧ h.kind = 1 ∧ h.reach = ((ulx 3).uport 3).reach ∧ h.lseq = (((ulx 3).uport 3).ack + 1) % 4096 ∧ h.vc = vc + 2) ∧
    (let c := txn 3 3 4; beAt c 8 1 = 3 ∧ beAt c 12 2 = 0 + 4 * 0) ∧ beAt (txn 3 1 4) 8 1 ≠ 3 ∧ beAt (txn 2 1 4) 8 1 = 1 ∧ beAt (txn 2 2 4) 8 1 = 2 ∧ beAt (txn 2 2 4) 9 1 % 4 = 1 ∧ beAt (txn 2 2 4) 16 4 = 4 ∧
    answers ((ulx 3).translate 1 0 4 true) (.error 1) = true ∧ answers ((window 0).translate 1 0 4 true) (.error 2) = true ∧
    answers ((window 1).translate 1 0 4 true) (.ok (0, 0x20004)) = true ∧ answers ((window 0).translate 1 0 4 false) (.ok (0, 0x20004)) = true :=
  ⟨fun _ _ => ucellOk_ulxSendCell .., by decide +kernel, by decide +kernel, by decide +kernel, by decide +kernel, by decide +kernel, by decide +kernel, by decide +kernel, by decide +kernel, by decide +kernel, by decide +kernel, by decide +kernel⟩

theorem test_ReplayFitsTheTransactionTimeout :
    (∃ (s : State) (die : Fin 2), s.dev.reachable (ulxPage die.val)) ∧
    (let lim : Nat → Nat → Nat → Nat := fun lo hi x => max lo (min hi x); lim 1 15 (bits 0x000F0064 16 4) * lim 100 65535 (bits 0x000F0064 0 16) = 1500 ∧ 5 * 250 < 1500 ∧ 1500 ≤ 6 * 250) ∧
    bit (on.word 0x3A 0x20).toNat 31 = false :=
  ⟨⟨at_ on, 1, by decide +kernel⟩, by decide +kernel, by decide +kernel⟩

end Sys2Proof.Tests
end

section
/-! Host accesses of BAR0 (R6, R7, R19, R24): what the commands that name them do, which of them reach a trust anchor, and what a
read or a write of a register of a page that answers does. -/

namespace Sys2Proof.Machine

/-! The commands -/

theorem exec_regWrite_bar0 (a : Nat) (v : Word) (be : BitVec 4) (req : BitVec 16) (s : State) :
    exec (.regWrite 0 a v be req) s = runHost (fun x => x.hostWrite 0 a v be req.toNat) s := rfl

theorem exec_rcRead_bar0 (a : Nat) (req : BitVec 16) (s : State) :
    exec (.rcRead 0 a req) s = runHost (fun x => x.hostRead 0 a req.toNat .clean) s := rfl

theorem exec_pairLowRead (page : Fin 256) (dw : Fin 16384) (req : BitVec 16) (s : State) :
    exec (.pairLowRead page dw req) s = runHost (fun x => x.hostRead 0 (65536 * page.val + 4 * dw.val) req.toNat .clean) s := rfl

theorem exec_pairHighRead (page : Fin 256) (dw : Fin 16384) (req : BitVec 16) (s : State) :
    exec (.pairHighRead page dw req) s = runHost (fun x => x.hostRead 0 (65536 * page.val + 4 * dw.val) req.toNat .clean) s := rfl

theorem exec_pairLowWrite (page : Fin 256) (dw : Fin 16384) (v : Word) (be : BitVec 4) (req : BitVec 16) (s : State) :
    exec (.pairLowWrite page dw v be req) s =
      runHost (fun x => x.hostWrite 0 (65536 * page.val + 4 * dw.val) v be req.toNat) s := rfl

theorem exec_pairHighWrite (page : Fin 256) (dw : Fin 16384) (v : Word) (be : BitVec 4) (req : BitVec 16) (s : State) :
    exec (.pairHighWrite page dw v be req) s =
      runHost (fun x => x.hostWrite 0 (65536 * page.val + 4 * dw.val) v be req.toNat) s := rfl

/-! Accesses of BAR0 -/

/-- A host write of BAR0 over an open link that is in L0 or L0p goes to the page and offset that its address names. -/
theorem Reach.hostWrite_bar0 (x : Reach) (p o : Nat) (v : Word) (be : BitVec 4) (req : Nat) (hop : x.dev.hostOpen = true)
    (hl : x.dev.lstate < 2) (ho : o < 65536) (h4 : o % 4 = 0) :
    x.hostWrite 0 (65536 * p + o) v be req = x.write0 p o v be req := by
  have hpage : (65536 * p + o) / 65536 = p := by omega
  have hoff : (65536 * p + o) % 65536 / 4 * 4 = o := by omega
  simp only [Reach.hostWrite, hop, if_true, Reach.write, Dev.wakeLink_eq _ hl, hpage, hoff]

/-- A host read of BAR0 over such a link answers the word of the page and offset that its address names. -/
theorem Reach.hostRead_bar0 (x : Reach) (p o req : Nat) (e : Ecc) (hop : x.dev.hostOpen = true) (hl : x.dev.lstate < 2)
    (ho : o < 65536) (h4 : o % 4 = 0) :
    x.hostRead 0 (65536 * p + o) req e = ⟨x.trust, (x.read0 p o req).2.emit (.readData (x.read0 p o req).1)⟩ := by
  have hpage : (65536 * p + o) / 65536 = p := by omega
  have hoff : (65536 * p + o) % 65536 / 4 * 4 = o := by omega
  simp only [Reach.hostRead, hop, if_true, Reach.read, Dev.wakeLink_eq _ hl, hpage, hoff]

/-- The trust anchors are registers of the SVC page, which is assigned. -/
theorem isTrust_of_unassigned {p : Nat} (o : Nat) (h : pageKind p = .none) : isTrust p o = false := by
  have hp : p ≠ 1 := by rintro rfl; exact absurd h (by decide)
  simp [isTrust, hp]

/-- No trust anchor lies in the common page header (R21). -/
theorem isTrust_of_header (p : Nat) {o : Nat} (h : o < 0x100) : isTrust p o = false := by
  have h1 : o ≠ 0x200 := by omega
  have h2 : o ≠ 0x204 := by omega
  have h3 : ¬ 0x210 ≤ o := by omega
  simp [isTrust, h1, h2, h3]

/-- A host write of BAR0 that does not set a trust anchor leaves them all, and is the block's own. -/
theorem runHost_csrWrite (s : State) {p o : Nat} (v : Word) (be : BitVec 4) (req : BitVec 16) (hop : s.dev.hostOpen = true)
    (hl : s.dev.lstate < 2) (ho : o < 65536) (h4 : o % 4 = 0)
    (ht : ¬(isTrust p o = true ∧ be = 15 ∧ s.dev.pageOn p = true)) :
    runHost (fun x => x.hostWrite 0 (65536 * p + o) v be req.toNat) s = .next { s with dev := s.dev.csrWrite p o v be req.toNat } :=
  runHost_eq _ s _ ((Reach.hostWrite_bar0 ⟨s.trust, s.dev⟩ p o v be req.toNat hop hl ho h4).trans (if_neg ht))

/-- A host read of BAR0 that does not reach a trust anchor is the block's own. -/
theorem runHost_csrRead (s : State) {p o : Nat} (req : BitVec 16) (hop : s.dev.hostOpen = true) (hl : s.dev.lstate < 2)
    (ho : o < 65536) (h4 : o % 4 = 0) (ht : ¬(isTrust p o = true ∧ s.dev.pageOn p = true)) :
    runHost (fun x => x.hostRead 0 (65536 * p + o) req.toNat .clean) s =
      .next { s with dev := (s.dev.csrRead p o req.toNat).2.emit (.readData (s.dev.csrRead p o req.toNat).1) } := by
  have hread : (⟨s.trust, s.dev⟩ : Reach).read0 p o req.toNat = s.dev.csrRead p o req.toNat := if_neg ht
  exact runHost_eq _ s _ (by rw [← hread]; exact Reach.hostRead_bar0 ⟨s.trust, s.dev⟩ p o req.toNat .clean hop hl ho h4)

/-- A host read of a trust anchor answers the anchor and changes nothing else (R149). -/
theorem runHost_trustRead (s : State) {p o : Nat} (req : BitVec 16) (hr : s.dev.reachable p) (ho : o < 65536) (h4 : o % 4 = 0)
    (ht : isTrust p o = true) :
    runHost (fun x => x.hostRead 0 (65536 * p + o) req.toNat .clean) s =
      .next { s with dev := s.dev.emit (.readData (s.trust.word o)) } := by
  obtain ⟨hop, hl, -, hon⟩ := hr
  have hread : (⟨s.trust, s.dev⟩ : Reach).read0 p o req.toNat = (s.trust.word o, s.dev) := if_pos ⟨ht, hon⟩
  exact runHost_eq _ s _ ((Reach.hostRead_bar0 ⟨s.trust, s.dev⟩ p o req.toNat .clean hop hl ho h4).trans (by rw [hread]))

/-- A command that writes a register of a page that answers, and not a trust anchor, makes the register write alone. -/
theorem runHost_regWrite (s : State) {p o : Nat} (v : Word) (req : BitVec 16) (hr : s.dev.reachable p) (ho : o < 65536) (h4 : o % 4 = 0)
    (ht : isTrust p o = false) :
    runHost (fun x => x.hostWrite 0 (65536 * p + o) v 15 req.toNat) s = .next { s with dev := s.dev.regWrite p o v req.toNat } :=
  runHost_eq _ s _ (Reach.hostWrite_reg ⟨s.trust, s.dev⟩ p o v req.toNat hr ho h4 ht)

/-- A command that reads such a register makes the register read and answers its word. -/
theorem runHost_regRead (s : State) {p o : Nat} (req : BitVec 16) (hr : s.dev.reachable p) (ho : o < 65536) (h4 : o % 4 = 0)
    (ht : isTrust p o = false) :
    runHost (fun x => x.hostRead 0 (65536 * p + o) req.toNat .clean) s =
      .next { s with dev := (s.dev.regRead p o req.toNat).2.emit (.readData (s.dev.regRead p o req.toNat).1) } :=
  runHost_eq _ s _ (Reach.hostRead_reg ⟨s.trust, s.dev⟩ p o req.toNat .clean hr ho h4 ht)

/-! Pages that do not answer (R24) -/

/-- The accesses that a page which does not answer refuses, with the kind and the word read. -/
theorem Dev.csrRead_unassigned (d : Dev) {p : Nat} (o req : Nat) (h : pageKind p = .none) :
    d.csrRead p o req = (0, d.pageRefuse p o 0x0C 0 req false) := if_pos h

theorem Dev.csrWrite_unassigned (d : Dev) {p : Nat} (o : Nat) (v : Word) (be : BitVec 4) (req : Nat) (h : pageKind p = .none) :
    d.csrWrite p o v be req = d.pageRefuse p o 0x0C v.toNat req true := if_pos h

theorem Dev.csrRead_unpowered (d : Dev) {p : Nat} (o req : Nat) (h : pageKind p ≠ .none) (hoff : d.pageOn p = false) :
    d.csrRead p o req = (0xFFFFFFFF, d.pageRefuse p o 0x0B 0 req false) := by
  simp [Dev.csrRead, h, hoff]

theorem Dev.csrWrite_unpowered (d : Dev) {p : Nat} (o : Nat) (v : Word) (be : BitVec 4) (req : Nat) (h : pageKind p ≠ .none)
    (hoff : d.pageOn p = false) : d.csrWrite p o v be req = d.pageRefuse p o 0x0B v.toNat req true := by
  simp [Dev.csrWrite, h, hoff]

/-- A partial write of a page that answers is refused (R19). -/
theorem Dev.csrWrite_partial (d : Dev) {p : Nat} (o : Nat) (v : Word) {be : BitVec 4} (req : Nat) (h : pageKind p ≠ .none)
    (hon : d.pageOn p = true) (hb : be ≠ 15) :
    d.csrWrite p o v be req =
      d.capture { page := p, kinds := [0x06], off := o, data := v.toNat, write := true, req := req } := by
  rw [Dev.csrWrite, if_neg h, if_neg (by simp [hon]), if_pos hb]

/-- The record of a refused access names its address by page and offset. -/
theorem Dev.pageRefuse_eq (d : Dev) (p o kind data req : Nat) (write : Bool) :
    d.pageRefuse p o kind data req write = d.capture
      { page := 0x04, kinds := [kind], off := o, data := data, write := write, req := req, d5 := 65536 * p + o } := by
  rw [Dev.pageRefuse, csrKey, Nat.mul_comm]

/-! The common page header (R21) -/

/-- BLK_ID of a page. -/
def blkIdReg : RegDesc :=
  ⟨0x00, 1, 65536, 1, 4, .single, [⟨24, 8, .ro, 0, false⟩, ⟨16, 8, .ro, 0, false⟩, ⟨15, 1, .ro, 0, false⟩, ⟨0, 8, .ro, 0, false⟩]⟩

theorem regAt_blkId (p : Nat) : regAt p 0 = some blkIdReg := by
  simp [regAt, headerRegs, RegDesc.hit, blkIdReg]

/-- Every row of the header is one undivided word below 0x48. -/
theorem headerRegs_row (k : PageKind) : ∀ r ∈ headerRegs k,
    r.half = .single ∧ r.off < 0x48 ∧ r.n1 = 1 ∧ r.s1 = 65536 ∧ r.n2 = 1 ∧ r.s2 = 4 ∧ r.off % 4 = 0 := by
  simp [headerRegs]

theorem regAt_reserved (p : Nat) {o : Nat} (h1 : 0x48 ≤ o) (h2 : o < 0x100) : regAt p o = none := by
  rw [regAt, if_pos h2, List.find?_eq_none]
  intro r hr
  obtain ⟨-, hoff, hn1, hs1, hn2, hs2, hal⟩ := headerRegs_row _ r hr
  simp only [RegDesc.hit, hn1, hs1, hn2, hs2, Bool.and_eq_true, decide_eq_true_eq]
  omega

/-- A half of a pair is a block-specific register. -/
theorem regAt_half_ge {p o : Nat} {r : RegDesc} (h : regAt p o = some r) (hh : r.half ≠ .single) : 0x100 ≤ o := by
  by_contra hlt
  rw [regAt, if_pos (by omega)] at h
  exact hh (headerRegs_row _ r (List.mem_of_find?_eq_some h)).1

/-- No write of a header register but FN_CTRL is ignored as a whole. -/
theorem Dev.ignores_header (d : Dev) (p v : Nat) {o : Nat} (h8 : o ≠ 0x08) (ho : o < 0x100) : d.ignores p o v = [] := by
  have hge : ∀ n, 0x100 ≤ n → ¬ n ≤ o := fun n hn => by omega
  have hne : ∀ n, 0x100 ≤ n → o ≠ n := fun n hn => by omega
  unfold Dev.ignores
  rw [if_neg h8]
  cases pageKind p <;> simp [hge, hne]

/-- A write of the header outside FN_CTRL: its effect on the register that stands there, and the record of its kinds. -/
theorem Dev.regWrite_header (d : Dev) (p : Nat) {o : Nat} (v : Word) (req : Nat) (h8 : o ≠ 0x08) (ho : o < 0x100) :
    d.regWrite p o v req =
      (if (regAt p o).isSome then d.headerWrite p o v.toNat else d).capture
        { page := p, kinds := judgeWrite (regAt p o) d.mode (d.shown p o).toNat v.toNat, off := o, data := v.toNat, write := true,
          req := req } := by
  have h100 : o ≠ 0x100 := by omega
  have hdesc : ¬ 0x8020 ≤ o := by omega
  simp only [Dev.regWrite, h100, hdesc, and_false, if_false, d.ignores_header p v.toNat h8 ho, ne_eq, not_true_eq_false, h8, ho, if_true]
  cases regAt p o <;> simp

/-! Reads and writes of pairs (R6) -/

/-- A read of a register outside the pages that have reads of their own. -/
theorem Dev.regRead_low (d : Dev) {p o : Nat} (req : Nat) {r : RegDesc} (he : pageKind p ≠ .err) (hg : pageKind p ≠ .eng)
    (ht : pageKind p ≠ .time) (h : regAt p o = some r) (hh : r.half = .low) :
    d.regRead p o req = (d.shown p o, d.latch p o (d.shown p (o + 4))) := by
  simp [Dev.regRead, he, hg, ht, h, hh]

theorem Dev.regRead_high (d : Dev) {p o : Nat} (req : Nat) {r : RegDesc} (he : pageKind p ≠ .err) (hg : pageKind p ≠ .eng)
    (ht : pageKind p ≠ .time) (h : regAt p o = some r) (hh : r.half = .high) :
    d.regRead p o req = d.latched p (o - 4) o req := by
  simp [Dev.regRead, he, hg, ht, h, hh]

/-- A write of the low word of a writable pair that is not ignored holds the word, as its fields take it. -/
theorem Dev.regWrite_low (d : Dev) {p o : Nat} (v : Word) (req : Nat) {r : RegDesc} (h1 : p ≠ 1) (h2 : p ≠ 2)
    (hk : pageKind p ≠ .lkp) (h : regAt p o = some r) (hh : r.half = .low) (hrw : (r.fields.any fun f => f.acc = .rw) = true)
    (hi : d.ignores p o v.toNat = []) (hj : judgeWrite (some r) d.mode (d.shown p o).toNat v.toNat = []) :
    d.regWrite p o v req = d.holdLow p o (BitVec.ofNat 32 (r.newWord 0 0 v.toNat)) := by
  have hge : 0x100 ≤ o := regAt_half_ge h (by simp [hh])
  have h8 : o ≠ 0x08 := by omega
  have hlow : ¬ o < 0x100 := by omega
  simp only [Dev.regWrite, h1, h2, hk, h, hi, hj, hh, hrw, h8, hlow, false_and, if_false, ne_eq, not_true_eq_false, Dev.capture_nil]

/-- A write of the high word of such a pair writes both words through their shadows and drops the held one. -/
theorem Dev.regWrite_high (d : Dev) {p o : Nat} (v : Word) (req : Nat) {r : RegDesc} (h1 : p ≠ 1) (h2 : p ≠ 2)
    (hk : pageKind p ≠ .lkp) (hg : pageKind p ≠ .eng) (h : regAt p o = some r) (hh : r.half = .high)
    (hrw : (r.fields.any fun f => f.acc = .rw) = true)
    (hi : d.ignores p o v.toNat = []) (hj : judgeWrite (some r) d.mode (d.shown p o).toNat v.toNat = []) :
    d.regWrite p o v req =
      ((d.dropLow p (o - 4)).writeShadow p (o - 4) (BitVec.ofNat 32 (d.heldLow p (o - 4)))).writeShadow p o v := by
  have hge : 0x100 ≤ o := regAt_half_ge h (by simp [hh])
  have h8 : o ≠ 0x08 := by omega
  have hlow : ¬ o < 0x100 := by omega
  simp only [Dev.regWrite, h1, h2, hk, hg, h, hi, hj, hh, hrw, h8, hlow, false_and, if_false, ne_eq, not_true_eq_false, Dev.capture_nil]

/-- A read of a pair's high word: the latch where there is one, else the live word, with ORDER recorded. -/
theorem Dev.latched_some (d : Dev) {p key : Nat} (o req : Nat) {w : Word} (h : d.csr.latches.find? (csrKey p key) = some w) :
    d.latched p key o req = (w, d) := by
  simp only [Dev.latched, h]

theorem Dev.latched_none (d : Dev) {p key : Nat} (o req : Nat) (h : d.csr.latches.find? (csrKey p key) = none) :
    d.latched p key o req = (d.shown p o, d.capture { page := p, kinds := [0x05], off := o, req := req }) := by
  simp only [Dev.latched, h, Dev.orderErr]

end Sys2Proof.Machine
end

section
/-! The statements on host accesses: two that hold, and one that a trust anchor refutes. -/

namespace Sys2Proof.Machine

/-! Refused accesses -/

/-- BLK_ID is read-only, with bits 8 to 14 reserved. -/
theorem judgeWrite_blkId (mode cur v : Nat) :
    judgeWrite (some blkIdReg) mode cur v = 0x01 :: if Nat.land v 0x7F00 = 0 then [] else [0x04] := by
  have hmask : 2 ^ 32 - 1 - blkIdReg.mask (fun _ => true) = 0x7F00 := by decide
  simp only [judgeWrite, hmask]
  rfl

/-- Settles O8: each access is followed to the refusal that its page, its byte enables or its register calls for. -/
theorem refusedAccessesAreRecorded : Obligations.RefusedAccessesAreRecorded := by
  unfold Obligations.RefusedAccessesAreRecorded
  refine ⟨fun s p o v be req hop hl hp ho h4 => ⟨fun hk => ?unassigned, fun hk hoff => ?unpowered⟩,
    fun s p o v req hr ho h4 => ⟨fun be hb => ?part, fun h1 h2 => ?reserved, fun h0 => ?blkId⟩⟩
  case unassigned =>
    have ht : isTrust p o ≠ true := by simp [isTrust_of_unassigned o hk]
    rw [exec_rcRead_bar0, runHost_csrRead s req hop hl ho h4 fun h => ht h.1, exec_regWrite_bar0,
      runHost_csrWrite s v be req hop hl ho h4 fun h => ht h.1, Dev.csrRead_unassigned _ _ _ hk,
      Dev.csrWrite_unassigned _ _ _ _ _ hk, Dev.pageRefuse_eq, Dev.pageRefuse_eq]
    exact ⟨rfl, rfl⟩
  case unpowered =>
    have hon : s.dev.pageOn p ≠ true := by simp [hoff]
    rw [exec_rcRead_bar0, runHost_csrRead s req hop hl ho h4 fun h => hon h.2, exec_regWrite_bar0,
      runHost_csrWrite s v be req hop hl ho h4 fun h => hon h.2.2, Dev.csrRead_unpowered _ _ _ hk hoff,
      Dev.csrWrite_unpowered _ _ _ _ _ hk hoff, Dev.pageRefuse_eq, Dev.pageRefuse_eq]
    exact ⟨rfl, rfl⟩
  case part =>
    obtain ⟨hop, hl, hk, hon⟩ := hr
    rw [exec_regWrite_bar0, runHost_csrWrite s v be req hop hl ho h4 fun h => hb h.2.1, Dev.csrWrite_partial _ _ _ _ hk hon hb]
  case reserved =>
    have hj : judgeWrite none s.dev.mode (s.dev.shown p o).toNat v.toNat = if v = 0 then [] else [0x04] := by
      simp [judgeWrite, BitVec.toNat_eq]
    rw [exec_regWrite_bar0, runHost_regWrite s v req hr ho h4 (isTrust_of_header p h2),
      Dev.regWrite_header _ _ _ _ (by omega) h2, regAt_reserved p h1 h2, hj]
    rfl
  case blkId =>
    subst h0
    rw [exec_regWrite_bar0, runHost_regWrite s v req hr ho h4 (isTrust_of_header p (by decide)),
      Dev.regWrite_header _ _ _ _ (by decide) (by decide), regAt_blkId, judgeWrite_blkId]
    rfl

/-! Pairs -/

/-- Settles O9: a half of a pair is a block-specific register, read and written by the rules of its half. -/
theorem pairsLatchAndHold : Obligations.PairsLatchAndHold := by
  unfold Obligations.PairsLatchAndHold
  intro s page dw v req r p o hr hreg he hg ht hk htr
  have ho : o < 65536 := by show 4 * dw.val < 65536; omega
  have h4 : o % 4 = 0 := Nat.mul_mod_right 4 dw.val
  refine ⟨fun hh => ⟨?lowRead, fun hrw h1 h2 hi hj => ?lowWrite⟩,
    fun hh _ => ⟨fun w hw => ?highRead, fun hn => ?orderRead, fun hrw h1 h2 hi hj _ => ?highWrite⟩⟩
  case lowRead =>
    rw [exec_pairLowRead, runHost_regRead s req hr ho h4 htr, Dev.regRead_low _ _ he hg ht hreg hh]
  case lowWrite =>
    rw [exec_pairLowWrite, runHost_regWrite s v req hr ho h4 htr, Dev.regWrite_low _ _ _ h1 h2 hk hreg hh hrw hi hj]
  case highRead =>
    rw [exec_pairHighRead, runHost_regRead s req hr ho h4 htr, Dev.regRead_high _ _ he hg ht hreg hh, Dev.latched_some _ _ _ hw]
  case orderRead =>
    rw [exec_pairHighRead, runHost_regRead s req hr ho h4 htr, Dev.regRead_high _ _ he hg ht hreg hh, Dev.latched_none _ _ _ hn]
  case highWrite =>
    rw [exec_pairHighWrite, runHost_regWrite s v req hr ho h4 htr, Dev.regWrite_high _ _ _ h1 h2 hk hg hreg hh hrw hi hj]

/-! Reads of the trust anchors -/

/-- The machine after reset, with key slots 0 and 1 enabled in SVC_KEY_EN. -/
def keysEnabled : State := { State.reset with trust := { Trust.reset with keyEn := 3 } }

/-- It is one host write away from reset. -/
theorem keysEnabled_of_write : exec (.regWrite 0 (65536 * 0x01 + 0x0204) 3 15 0) State.reset = .next keysEnabled := by
  have hr : State.reset.dev.reachable 0x01 := by decide +kernel
  obtain ⟨hop, hl, -, hon⟩ := hr
  have hw := (Reach.hostWrite_bar0 ⟨Trust.reset, Dev.reset⟩ 0x01 0x0204 3 15 0 hop hl (by decide) (by decide)).trans
    (if_pos ⟨by decide, rfl, hon⟩)
  exact congrArg (fun x : Reach => (.next ⟨[], x.trust, x.dev⟩ : Host.Outcome State Fault Refusal)) hw

theorem keysEnabled_reachable : keysEnabled.dev.reachable 0x01 := by decide +kernel

/-- A read of SVC_KEY_EN answers the anchor. -/
theorem keysEnabled_read (req : BitVec 16) :
    exec (.rcRead 0 (65536 * 0x01 + 0x0204) req) keysEnabled =
      .next { keysEnabled with dev := keysEnabled.dev.emit (.readData 3) } :=
  runHost_trustRead keysEnabled req keysEnabled_reachable (by decide) (by decide) (by decide)

/-- SVC_KEY_EN has no RC field, and the block's own store holds 0 at its offset. -/
theorem keysEnabled_store : regAt 0x01 0x0204 = some ⟨0x0204, 1, 65536, 1, 4, .single, [⟨0, 4, .rw, 0, false⟩]⟩ ∧
    (keysEnabled.dev.fecSeen 0x01 0x0204).shown 0x01 0x0204 = 0 := by decide +kernel

/-- Refutes O7: its clause on RC_READ takes in the SVC page, whose trust anchors (R149) are held outside the registers of the
block: with SVC_KEY_EN at 3 a read of it answers 3, where the clause has the 0 of the block's own store. -/
theorem not_scratchAndHeaderCommands : ¬ Obligations.ScratchAndHeaderCommands := by
  unfold Obligations.ScratchAndHeaderCommands
  rintro ⟨-, hread, -⟩
  obtain ⟨hreg, hshown⟩ := keysEnabled_store
  obtain ⟨hexec, -⟩ := hread keysEnabled 0x01 0x0204 0 _ keysEnabled_reachable (by decide) (by decide) hreg rfl (by decide)
    (by decide) (by decide)
  rw [keysEnabled_read, hshown] at hexec
  injection hexec with hstate
  have hout := congrArg (fun t : State => t.dev.out.head?) hstate
  exact absurd hout (by simp [Dev.emit])

end Sys2Proof.Machine
end

section
/-! Bits, INT_STAT and ERR_CAP (R21, R22): what setting a bit does to the fields of a number, what setting interrupts and posting
to the event log leave of the common page header, and what a capture comes to on a page with a record and on one without. -/

namespace Sys2Proof.Machine

/-! Single bits -/

/-- A number with one bit replaced, by the bits below, the bit and the bits above. -/
theorem putBits_one (v i x : Nat) : putBits v i 1 x = v % 2 ^ i + x % 2 * 2 ^ i + 2 * (v / 2 ^ i / 2) * 2 ^ i := by
  rw [putBits, pow_succ 2 i, ← Nat.div_div_eq_div_mul, pow_one]
  ring

/-- A number by the bits below one of its bits, the bit and the bits above. -/
theorem bit_parts (v i : Nat) : v = v % 2 ^ i + v / 2 ^ i % 2 * 2 ^ i + 2 * (v / 2 ^ i / 2) * 2 ^ i := by
  rw [Nat.add_assoc, ← Nat.add_mul, Nat.mod_add_div, Nat.mod_add_div']

/-- Setting a bit writes 1 to the field of that bit alone. -/
theorem setBit_eq_putBits (v i : Nat) : setBit v i = putBits v i 1 1 := by
  have hsplit := bit_parts v i
  rw [putBits_one, setBit, bit]
  rcases Nat.mod_two_eq_zero_or_one (v / 2 ^ i) with h | h <;> rw [h] at hsplit ⊢ <;> simp <;> omega

/-- Clearing a bit writes 0 to the field of that bit alone. -/
theorem clrBit_eq_putBits (v i : Nat) : clrBit v i = putBits v i 1 0 := by
  have hsplit := bit_parts v i
  rw [putBits_one, clrBit, bit]
  rcases Nat.mod_two_eq_zero_or_one (v / 2 ^ i) with h | h <;> rw [h] at hsplit ⊢ <;> simp <;> omega

/-- The lowest set bit of a number. -/
theorem setBits_headD {n v : Nat} (h0 : v ≠ 0) (hv : v < 2 ^ n) :
    (setBits n v).headD 0 < n ∧ bit v ((setBits n v).headD 0) = true ∧ ∀ i, i < (setBits n v).headD 0 → bit v i = false := by
  obtain ⟨i, hi⟩ := Nat.exists_testBit_of_ne_zero h0
  have hin : i < n := by
    by_contra hle
    exact absurd hi (by simp [Nat.testBit_lt_two_pow (hv.trans_le (Nat.pow_le_pow_right two_pos (not_lt.1 hle)))])
  obtain ⟨k, hk⟩ := Option.isSome_iff_exists.1 (List.find?_isSome.2 ⟨i, List.mem_range.2 hin, (testBit_eq_bit v i).symm.trans hi⟩)
  obtain ⟨hbit, hmem, hlow⟩ := List.find?_range_eq_some.1 hk
  have hhead : (setBits n v).headD 0 = k := by rw [setBits, List.headD_eq_head?_getD, List.head?_filter, hk, Option.getD_some]
  rw [hhead]
  exact ⟨List.mem_range.1 hmem, hbit, fun j hj => by simpa using hlow j hj⟩

/-! Interrupts -/

/-- A register apart by its offset reads as before. -/
theorem Dev.word_setWord_off (d : Dev) (p : Nat) {o o' : Nat} (w : Word) (h : o' ≠ o) :
    (d.setWord p o w).word p o' = d.word p o' :=
  Dev.word_setWord_ne _ _ _ _ _ _ (by unfold csrKey; omega)

/-- The line's message is no register. -/
theorem Dev.word_setInt_raise (d : Dev) (p m q o : Nat) : (d.setInt p m).word q o = (d.raiseInt p m).word q o := by
  simp only [Dev.setInt]
  split
  · exact Dev.word_sendRoute _ _ _ _
  · rfl

/-- Setting interrupt bits adds them to INT_STAT. -/
theorem Dev.word_setInt_stat (d : Dev) (p m : Nat) : (d.setInt p m).word p 0x10 = d.word p 0x10 ||| BitVec.ofNat 32 m := by
  have hor : BitVec.ofNat 32 (Nat.lor (d.word p 0x10).toNat m) = d.word p 0x10 ||| BitVec.ofNat 32 m :=
    BitVec.ofNat_or.trans (by rw [BitVec.ofNat_toNat, BitVec.setWidth_eq])
  rw [Dev.word_setInt_raise, Dev.raiseInt]
  split
  · rw [Dev.word_setWord_off _ _ _ (by decide), Dev.word_setWord_same, hor]
  · rw [Dev.word_setWord_same, hor]

/-- The first interrupt of a page is shown by INT_FIRST. -/
theorem Dev.word_setInt_first (d : Dev) (p m : Nat) (h : d.word p 0x10 = 0) (hm : m ≠ 0) :
    (d.setInt p m).word p 0x1C = BitVec.ofNat 32 (2 ^ 31 + (setBits 32 m).headD 0) := by
  rw [Dev.word_setInt_raise, Dev.raiseInt, if_pos ⟨by rw [h]; rfl, hm⟩, Dev.word_setWord_same]

/-- A later interrupt leaves INT_FIRST. -/
theorem Dev.word_setInt_kept (d : Dev) (p m : Nat) (h : d.word p 0x10 ≠ 0) : (d.setInt p m).word p 0x1C = d.word p 0x1C := by
  have h0 : ¬((d.word p 0x10).toNat = 0 ∧ m ≠ 0) := fun hc => h (BitVec.eq_of_toNat_eq hc.1)
  rw [Dev.word_setInt_raise, Dev.raiseInt, if_neg h0, Dev.word_setWord_off _ _ _ (by decide)]

/-! What posting to the event log leaves of the common header -/

/-- From `a` to `b` no interrupt bit of a page is lost, and no register of its header above INT_FIRST changes. -/
structure Dev.KeepsHeader (a b : Dev) : Prop where
  regs : ∀ q o, 0x20 ≤ o → o < 0x100 → b.word q o = a.word q o
  ints : ∀ q i, bit (a.word q 0x10).toNat i = true → bit (b.word q 0x10).toNat i = true

theorem Dev.KeepsHeader.refl (a : Dev) : a.KeepsHeader a := ⟨fun _ _ _ _ => rfl, fun _ _ h => h⟩

theorem Dev.KeepsHeader.trans {a b c : Dev} (h1 : a.KeepsHeader b) (h2 : b.KeepsHeader c) : a.KeepsHeader c :=
  ⟨fun q o hlo hhi => (h2.regs q o hlo hhi).trans (h1.regs q o hlo hhi), fun q i h => h2.ints q i (h1.ints q i h)⟩

/-- A step that happens only under a condition. -/
theorem Dev.KeepsHeader.ite {a b c : Dev} (p : Prop) [Decidable p] (h1 : a.KeepsHeader b) (h2 : a.KeepsHeader c) :
    a.KeepsHeader (if p then b else c) := by
  split
  · exact h1
  · exact h2

/-- A write of a block-specific field. -/
theorem Dev.set_keepsHeader (d : Dev) (p : Nat) (f : Fld) (v : Nat) (hlo : 0x100 ≤ f.off) (hhi : f.off < 65536) :
    d.KeepsHeader (d.set p f v) := by
  have hne : ∀ q o, o < 0x100 → csrKey q o ≠ csrKey p f.off := fun q o ho hk => by
    obtain ⟨-, heq⟩ := csrKey_inj (by omega) hhi hk
    omega
  exact ⟨fun q o _ ho => Dev.word_set_ne _ _ _ _ _ _ (hne q o ho), fun q i h => by
    rwa [Dev.word_set_ne _ _ _ _ _ _ (hne q 0x10 (by decide))]⟩

theorem Dev.bump_keepsHeader (d : Dev) (p : Nat) (f : Fld) (n : Nat) (hlo : 0x100 ≤ f.off) (hhi : f.off < 65536) :
    d.KeepsHeader (d.bump p f n) := .ite _ (.refl d) (d.set_keepsHeader p f _ hlo hhi)

theorem Dev.setInt_keepsHeader (d : Dev) (p m : Nat) : d.KeepsHeader (d.setInt p m) where
  regs q o hlo hhi := d.word_setInt p m q o (by unfold csrKey; omega) (by unfold csrKey; omega)
  ints q i h := by
    by_cases hq : q = p
    · subst hq
      rw [Dev.word_setInt_stat, BitVec.toNat_or]
      exact (bit_lor _ _ _).trans (by rw [h, Bool.true_or])
    · rwa [d.word_setInt p m q 0x10 (by unfold csrKey; omega) (by unfold csrKey; omega)]

theorem Dev.pushLog_keepsHeader (d : Dev) (r : LogRec) : d.KeepsHeader (d.pushLog r) := by
  have hint : ∀ (x : Dev) (c : Prop) [Decidable c] (i : Nat), d.KeepsHeader x → d.KeepsHeader (if c then x.int 0x04 i else x) :=
    fun x c _ i h => h.trans (.ite c (x.setInt_keepsHeader _ _) (.refl x))
  have hset : ∀ (x : Dev) (f : Fld) (v : Nat), 0x100 ≤ f.off → f.off < 65536 → d.KeepsHeader x → d.KeepsHeader (x.set 0x04 f v) :=
    fun x f v hlo hhi h => h.trans (x.set_keepsHeader 0x04 f v hlo hhi)
  refine hint _ _ _ (hint _ _ _ (hint _ _ _ (Dev.KeepsHeader.trans ?shown (.ite _ ?lost (.refl _)))))
  case shown =>
    exact hset _ F.ERR_LOG_STAT_COUNT _ (by decide) (by decide) (hset _ F.ERR_LOG_SEQ_SEQ _ (by decide) (by decide)
      ⟨fun _ _ _ _ => rfl, fun _ _ h => h⟩)
  case lost => exact (Dev.bump_keepsHeader _ _ _ _ (by decide) (by decide)).trans (Dev.setInt_keepsHeader _ _ _)

theorem Dev.post_keepsHeader (d : Dev) (r : LogRec) (hc : r.cls < 8) : d.KeepsHeader (d.post r) := by
  have hcount : d.KeepsHeader (d.bump 0x04 (F.ERR_CNT_COUNT.at (4 * r.cls))) :=
    d.bump_keepsHeader _ _ _ (Nat.le_trans (by decide) (Nat.le_add_right 0x200 _)) (show 0x200 + 4 * r.cls < 65536 by omega)
  exact hcount.trans (.ite _ (Dev.pushLog_keepsHeader _ _) (.refl _))

theorem PageKind.classOf_lt (k : PageKind) (kind : Nat) : k.classOf kind < 8 := by
  unfold PageKind.classOf
  split
  · decide
  · split <;> decide

/-! Capture (R22) -/

/-- ERR_CAP0 with the sticky bits of these kinds set. -/
def stickies (kinds : List Nat) (w : Nat) : Nat := kinds.foldl (fun v k => setBit v (stickyBit k)) w

theorem stickyBit_range (k : Nat) : 16 ≤ stickyBit k ∧ stickyBit k < 24 := by
  unfold stickyBit
  repeat' split
  all_goals decide

theorem stickies_lt (kinds : List Nat) {w : Nat} (h : w < 2 ^ 32) : stickies kinds w < 2 ^ 32 := by
  induction kinds generalizing w with
  | nil => exact h
  | cons k ks ih =>
    have hk := stickyBit_range k
    refine ih (?_ : setBit w (stickyBit k) < 2 ^ 32)
    rw [setBit_eq_putBits]
    exact putBits_lt _ _ _ _ _ h (by omega)

/-- The sticky bits lie in bits 16 to 23. -/
theorem bits_stickies (kinds : List Nat) (w : Nat) {l n : Nat} (h : l + n ≤ 16 ∨ 24 ≤ l) : bits (stickies kinds w) l n = bits w l n := by
  induction kinds generalizing w with
  | nil => rfl
  | cons k ks ih =>
    have hk := stickyBit_range k
    refine (ih (setBit w (stickyBit k))).trans ?_
    rw [setBit_eq_putBits]
    exact bits_putBits_ne _ _ _ _ _ _ (by omega)

/-- The kind under which an error is recorded: its lowest. -/
def Cap.lowest (c : Cap) : Nat :=
  match c.kinds with
  | [] => 0
  | k0 :: ks => ks.foldl min k0

theorem Cap.lowest_spec (c : Cap) (h : c.kinds ≠ []) : c.lowest ∈ c.kinds ∧ ∀ k ∈ c.kinds, c.lowest ≤ k := by
  obtain ⟨k0, ks, hk⟩ := List.exists_cons_of_ne_nil h
  have hmin : c.kinds.min? = some c.lowest := by rw [Cap.lowest, hk, List.min?_cons']
  exact List.min?_eq_some_iff.1 hmin

/-- The log's record of an error. -/
def Cap.logRec (c : Cap) (ovf : Bool) : LogRec :=
  ⟨c.page, c.lowest, (pageKind c.page).classOf c.lowest, ovf, 0, c.d5, c.d6, c.d7, c.req, c.write⟩

/-- ERR_CAP0 of an error on a page without a record. -/
def Cap.word0 (c : Cap) (w : Nat) : Nat := putBits (putBits (clrBit (setBit (stickies c.kinds w) 31) 30) 24 6 c.lowest) 0 16 c.off

/-- ERR_CAP0 to ERR_CAP7 written with an error. -/
def Dev.fillCap (d : Dev) (c : Cap) : Dev :=
  let p := c.page
  (((((((d.setWord p 0x20 (BitVec.ofNat 32 (c.word0 (d.word p 0x20).toNat))).setWord p 0x24 (BitVec.ofNat 32 c.data)).setWord p 0x28
    (BitVec.ofNat 32 (c.req % 2 ^ 16 + b2n c.write * 2 ^ 16))).setWord p 0x2C (BitVec.ofNat 32 d.time.ns)).setWord p 0x30
    (BitVec.ofNat 32 d.time.sec)).setWord p 0x34 (BitVec.ofNat 32 c.d5)).setWord p 0x38 (BitVec.ofNat 32 c.d6)).setWord p 0x3C
    (BitVec.ofNat 32 c.d7)

/-- A capture on a page with a record sets sticky bits and OVF, and is logged. -/
theorem Dev.capture_again (d : Dev) (c : Cap) (h : c.kinds ≠ []) (hv : d.get c.page H.VALID = 1) :
    d.capture c = (d.setWord c.page 0x20 (BitVec.ofNat 32 (setBit (stickies c.kinds (d.word c.page 0x20).toNat) 30))).post (c.logRec true) := by
  obtain ⟨p, kinds, off, data, write, req, d5, d6, d7⟩ := c
  obtain ⟨k0, ks, rfl⟩ := List.exists_cons_of_ne_nil h
  dsimp only at hv
  simp only [Dev.capture, hv, if_true]
  rfl

/-- A capture on a page without a record fills ERR_CAP, interrupts, and is logged. -/
theorem Dev.capture_first (d : Dev) (c : Cap) (h : c.kinds ≠ []) (hv : d.get c.page H.VALID ≠ 1) :
    d.capture c = ((d.fillCap c).int c.page 31).post (c.logRec false) := by
  obtain ⟨p, kinds, off, data, write, req, d5, d6, d7⟩ := c
  obtain ⟨k0, ks, rfl⟩ := List.exists_cons_of_ne_nil h
  dsimp only at hv
  simp only [Dev.capture, hv, if_false]
  rfl

/-- What ERR_CAP0 then holds. -/
theorem Cap.word0_lt (c : Cap) {w : Nat} (h : w < 2 ^ 32) : c.word0 w < 2 ^ 32 := by
  rw [Cap.word0, setBit_eq_putBits, clrBit_eq_putBits]
  iterate 4 refine putBits_lt _ _ _ _ _ ?_ (by decide)
  exact stickies_lt _ h

theorem Cap.bits_word0 (c : Cap) (w : Nat) :
    bits (c.word0 w) 31 1 = 1 ∧ bits (c.word0 w) 30 1 = 0 ∧ bits (c.word0 w) 24 6 = c.lowest % 2 ^ 6 ∧ bits (c.word0 w) 0 16 = c.off % 2 ^ 16 := by
  rw [Cap.word0, setBit_eq_putBits, clrBit_eq_putBits]
  refine ⟨?valid, ?ovf, ?kind, bits_putBits _ _ _ _⟩
  case valid =>
    iterate 3 rw [bits_putBits_ne _ _ _ _ _ _ (by decide)]
    exact bits_putBits _ _ _ _
  case ovf =>
    iterate 2 rw [bits_putBits_ne _ _ _ _ _ _ (by decide)]
    exact bits_putBits _ _ _ _
  case kind =>
    rw [bits_putBits_ne _ _ _ _ _ _ (by decide)]
    exact bits_putBits _ _ _ _

/-- Fields of ERR_CAP0 after a write of it that what follows leaves alone. -/
theorem Dev.get_cap0 {d e : Dev} {p n : Nat} (h : d.KeepsHeader e) (hw : d.word p 0x20 = BitVec.ofNat 32 n) (hn : n < 2 ^ 32) (l w : Nat) :
    e.get p ⟨0x20, l, w⟩ = bits n l w := by
  rw [Dev.get, h.regs p 0x20 (by decide) (by decide), hw, BitVec.toNat_ofNat, Nat.mod_eq_of_lt hn]

/-! INT_FIRST and ERR_CAP together -/

/-- INT_FIRST keeps the first interrupt (R21). -/
theorem Dev.setInt_spec (d : Dev) (p m : Nat) (h0 : 0 < m) (hm : m < 2 ^ 32) :
    (d.setInt p m).word p 0x10 = (d.word p 0x10 ||| BitVec.ofNat 32 m) ∧
    (d.word p 0x10 = 0 → (d.setInt p m).get p ⟨0x1C, 31, 1⟩ = 1 ∧ bit m ((d.setInt p m).get p ⟨0x1C, 0, 5⟩) = true ∧
      ∀ i, i < (d.setInt p m).get p ⟨0x1C, 0, 5⟩ → bit m i = false) ∧
    (d.word p 0x10 ≠ 0 → (d.setInt p m).word p 0x1C = d.word p 0x1C) ∧
    ∀ q o, o < 65536 → ¬(q = p ∧ (o = 0x10 ∨ o = 0x1C)) → (d.setInt p m).word q o = d.word q o := by
  refine ⟨d.word_setInt_stat p m, fun hz => ?first, d.word_setInt_kept p m, fun q o ho hne => ?others⟩
  case first =>
    obtain ⟨hlt, hbit, hlow⟩ := setBits_headD h0.ne' hm
    have hword := d.word_setInt_first p m hz h0.ne'
    generalize (setBits 32 m).headD 0 = k at hlt hbit hlow hword
    have hvalid : (d.setInt p m).get p ⟨0x1C, 31, 1⟩ = 1 := by
      simp only [Dev.get, hword, BitVec.toNat_ofNat, bits]; omega
    have hindex : (d.setInt p m).get p ⟨0x1C, 0, 5⟩ = k := by
      simp only [Dev.get, hword, BitVec.toNat_ofNat, bits]; omega
    rw [hvalid, hindex]
    exact ⟨rfl, hbit, hlow⟩
  case others =>
    refine d.word_setInt p m q o (fun hk => ?_) fun hk => ?_
    · obtain ⟨hq, h10⟩ := csrKey_inj ho (by decide) hk; exact hne ⟨hq, .inl h10⟩
    · obtain ⟨hq, h1C⟩ := csrKey_inj ho (by decide) hk; exact hne ⟨hq, .inr h1C⟩

/-- A capture keeps the record that stands (R22). -/
theorem Dev.capture_kept (d : Dev) (c : Cap) (h : c.kinds ≠ []) (hv : d.get c.page H.VALID = 1) :
    (d.capture c).get c.page H.OVF = 1 ∧ (d.capture c).get c.page H.VALID = 1 ∧
    (d.capture c).get c.page ⟨0x20, 0, 16⟩ = d.get c.page ⟨0x20, 0, 16⟩ ∧ (d.capture c).get c.page ⟨0x20, 24, 6⟩ = d.get c.page ⟨0x20, 24, 6⟩ ∧
    ∀ o, 0x24 ≤ o → o < 0x40 → (d.capture c).word c.page o = d.word c.page o := by
  have hpost : ∀ x : Dev, x.KeepsHeader (x.post (c.logRec true)) := fun x => x.post_keepsHeader _ (PageKind.classOf_lt _ _)
  have hlt : putBits (stickies c.kinds (d.word c.page 0x20).toNat) 30 1 1 < 2 ^ 32 :=
    putBits_lt _ _ _ _ _ (stickies_lt _ (d.word c.page 0x20).isLt) (by decide)
  have hget := Dev.get_cap0 (hpost _) (d.word_setWord_same c.page 0x20 _) hlt
  have hother : ∀ l w, l + w ≤ 16 ∨ 24 ≤ l → l + w ≤ 30 ∨ 31 ≤ l →
      bits (putBits (stickies c.kinds (d.word c.page 0x20).toNat) 30 1 1) l w = d.get c.page ⟨0x20, l, w⟩ := fun l w h1 h2 =>
    (bits_putBits_ne _ _ _ _ _ _ h2).trans (bits_stickies _ _ h1)
  rw [d.capture_again c h hv, setBit_eq_putBits]
  refine ⟨(hget 30 1).trans (bits_putBits _ _ _ _), ?_, ?_, ?_, fun o hlo hhi => ?_⟩
  · exact ((hget 31 1).trans (hother _ _ (by decide) (by decide))).trans hv
  · exact (hget 0 16).trans (hother _ _ (by decide) (by decide))
  · exact (hget 24 6).trans (hother _ _ (by decide) (by decide))
  · rw [(hpost _).regs _ _ (by omega) (by omega), Dev.word_setWord_off _ _ _ (by omega)]

/-- A capture on a page without a record holds the error (R22). -/
theorem Dev.capture_stored (d : Dev) (c : Cap) (h : c.kinds ≠ []) (hk : ∀ k ∈ c.kinds, k < 64) (hv : d.get c.page H.VALID ≠ 1) :
    (d.capture c).get c.page H.VALID = 1 ∧ (d.capture c).get c.page H.OVF = 0 ∧ (d.capture c).get c.page ⟨0x20, 0, 16⟩ = c.off % 2 ^ 16 ∧
    (d.capture c).get c.page ⟨0x20, 24, 6⟩ = c.lowest ∧
    (∀ o, 0x24 ≤ o → o < 0x40 → (d.capture c).word c.page o = (d.fillCap c).word c.page o) ∧
    bit ((d.capture c).word c.page 0x10).toNat 31 = true := by
  have hlow : c.lowest % 2 ^ 6 = c.lowest := Nat.mod_eq_of_lt (hk _ (c.lowest_spec h).1)
  have hpost : ((d.fillCap c).int c.page 31).KeepsHeader (d.capture c) := by
    rw [d.capture_first c h hv]; exact Dev.post_keepsHeader _ _ (PageKind.classOf_lt _ _)
  have hkeep := ((d.fillCap c).setInt_keepsHeader c.page (2 ^ 31)).trans hpost
  have hword0 : (d.fillCap c).word c.page 0x20 = BitVec.ofNat 32 (c.word0 (d.word c.page 0x20).toNat) := by
    simp [Dev.fillCap, Dev.word_setWord_off]
  have hget := Dev.get_cap0 hkeep hword0 (c.word0_lt (d.word c.page 0x20).isLt)
  obtain ⟨hvalid, hovf, hkind, hoff⟩ := c.bits_word0 (d.word c.page 0x20).toNat
  refine ⟨(hget 31 1).trans hvalid, (hget 30 1).trans hovf, (hget 0 16).trans hoff, (hget 24 6).trans (hkind.trans hlow),
    fun o hlo hhi => hkeep.regs _ _ (by omega) (by omega), hpost.ints _ _ ?_⟩
  rw [Dev.int, Dev.word_setInt_stat, BitVec.toNat_or]
  exact (bit_lor _ _ _).trans (by rw [show bit (BitVec.ofNat 32 (2 ^ 31)).toNat 31 = true by decide, Bool.or_true])

/-- Settles O13: setting interrupts by INT_STAT's word before it, a capture by ERR_CAP0.VALID; what is posted to the event log
leaves both. -/
theorem theFirstInterruptAndRecordAreKept : Obligations.TheFirstInterruptAndRecordAreKept := by
  unfold Obligations.TheFirstInterruptAndRecordAreKept
  refine ⟨fun d p m _ h0 hm => d.setInt_spec p m h0 hm, fun d c _ h hk => ⟨d.capture_kept c h, fun hv => ?_⟩⟩
  obtain ⟨hvalid, hovf, hoff, hkind, hwords, hint⟩ := d.capture_stored c h hk (by omega)
  obtain ⟨hmem, hle⟩ := c.lowest_spec h
  rw [hkind, hwords 0x24 (by decide) (by decide), hwords 0x28 (by decide) (by decide), hwords 0x2C (by decide) (by decide),
    hwords 0x30 (by decide) (by decide), hwords 0x34 (by decide) (by decide), hwords 0x38 (by decide) (by decide),
    hwords 0x3C (by decide) (by decide)]
  refine ⟨hvalid, hovf, hoff, hmem, hle, ?_, ?_, ?_, ?_, ?_, ?_, ?_, hint⟩
  all_goals simp [Dev.fillCap, Dev.word_setWord_off]

end Sys2Proof.Machine
end

section
/-! MSI-X messages (R35, R36, R352): when a message leaves and when its pending bit sets, and that it follows the rising line of a
page. -/

namespace Sys2Proof.Machine

/-! The message of a vector -/

/-- The message that a vector's table entry spells. -/
def Msix.message (m : Msix) (v : Nat) : Out :=
  .msix v ((Map.rd 0 m.table (4 * v)).toNat + 2 ^ 32 * (Map.rd 0 m.table (4 * v + 1)).toNat) (Map.rd 0 m.table (4 * v + 2)).toNat

theorem Dev.msixHeld_iff (d : Dev) (v : Nat) :
    d.msixHeld v = true ↔ bit (Map.rd 1 d.msix.table (4 * v + 3)).toNat 0 = true ∨ d.hostShut = true := by
  rw [Dev.msixHeld, Bool.or_eq_true]

/-- A message that waits sets its pending bit. -/
theorem Dev.sendMsix_held (d : Dev) (v : Nat) (hon : d.domOn 29 = true) (h : d.msixHeld v = true) :
    d.sendMsix v = { d with msix := { d.msix with pba := d.msix.pba.wr false v true } } := by
  rw [Dev.sendMsix, hon, if_neg (by decide), if_pos h]

/-- A message that does not wait leaves. -/
theorem Dev.sendMsix_sent (d : Dev) (v : Nat) (hon : d.domOn 29 = true) (h : ¬ d.msixHeld v = true) :
    d.sendMsix v = d.emit (d.msix.message v) := by
  rw [Dev.sendMsix, hon, if_neg (by decide), if_neg h, Msix.message]

/-- What an open link says of the domain and of requests. -/
theorem Dev.hostOpen_iff (d : Dev) : d.hostOpen = true ↔ d.domOn 29 = true ∧ d.hostShut = false := by
  rw [Dev.hostOpen, Bool.and_eq_true, Bool.not_eq_true']

/-! Unmasking -/

theorem exec_msixUnmask (v : Fin 2048) (s : State) :
    exec (.msixUnmask v) s = runHost (fun x => x.hostWrite 2 (0x80000 + 16 * v.val + 12) 0 15 0) s := rfl

/-- A host write of BAR4 over an open link that is in L0 or L0p is the block's own. -/
theorem runHost_write4 (s : State) {a : Nat} (v : Word) (be : BitVec 4) (req : Nat) (hop : s.dev.hostOpen = true) (hl : s.dev.lstate < 2)
    (h4 : a % 4 = 0) : runHost (fun x => x.hostWrite 2 a v be req) s = .next { s with dev := s.dev.write4 a v be req } :=
  runHost_eq _ s _ (Reach.hostWrite_bar4 ⟨s.trust, s.dev⟩ a req v be hop hl h4)

/-- The vector's word 3 in the MSI-X table. -/
theorem Dev.write4_vectorControl (d : Dev) (v : Fin 2048) (w : Word) (req : Nat) :
    d.write4 (0x80000 + 16 * v.val + 12) w 15 req = d.msixWrite (4 * v.val + 3) w := by
  have hv := v.isLt
  have hkey : (0x80000 + 16 * v.val + 12 - 0x80000) / 4 = 4 * v.val + 3 := by omega
  rw [Dev.write4, if_neg (by omega), if_neg (by omega), if_neg (by decide), if_neg (by omega), hkey]

/-- A vector unmasked: what its pending bit says then follows (R36). -/
theorem Dev.msixWrite_unmask (d : Dev) (v : Nat) :
    d.msixWrite (4 * v + 3) 0 =
      if Map.rd false d.msix.pba v = true then
        ({ d with msix := { table := d.msix.table.wr 1 (4 * v + 3) 0, pba := d.msix.pba.wr false v false } } : Dev).sendMsix v
      else { d with msix := { d.msix with table := d.msix.table.wr 1 (4 * v + 3) 0 } } := by
  have hmod : (4 * v + 3) % 4 = 3 := by omega
  have hdiv : (4 * v + 3) / 4 = v := by omega
  have hmask : (0 : Word) &&& 1 = 0 := by decide
  simp only [Dev.msixWrite, hmod, hdiv, hmask, if_true, true_and]

/-- The mask bit is no part of the message. -/
theorem Msix.message_unmasked (m : Msix) (v : Nat) (pba : Map Bool) :
    (Msix.mk (m.table.wr 1 (4 * v + 3) 0) pba).message v = m.message v := by
  simp only [Msix.message, Map.rd_wr_ne _ _ _ _ (show 4 * v ≠ 4 * v + 3 by omega),
    Map.rd_wr_ne _ _ _ _ (show 4 * v + 1 ≠ 4 * v + 3 by omega), Map.rd_wr_ne _ _ _ _ (show 4 * v + 2 ≠ 4 * v + 3 by omega)]

/-- The message of an unmasked vector leaves over an open link. -/
theorem Dev.sendMsix_unmasked (d : Dev) (v : Nat) (pba : Map Bool) (hon : d.domOn 29 = true) (hs : d.hostShut = false) :
    ({ d with msix := { table := d.msix.table.wr 1 (4 * v + 3) 0, pba := pba } } : Dev).sendMsix v =
      ({ d with msix := { table := d.msix.table.wr 1 (4 * v + 3) 0, pba := pba } } : Dev).emit (d.msix.message v) := by
  rw [← d.msix.message_unmasked v pba]
  refine Dev.sendMsix_sent { d with msix := _ } v hon fun hheld => ?_
  rcases (Dev.msixHeld_iff _ _).1 hheld with hmask | hshut
  · rw [Map.rd_wr_same] at hmask; exact absurd hmask (by decide)
  · exact absurd (hs.symm.trans hshut) (by decide)

/-! The line of a page -/

@[simp] theorem Dev.raiseInt_msix (d : Dev) (p m : Nat) : (d.raiseInt p m).msix = d.msix := by
  simp only [Dev.raiseInt]; split <;> rfl

@[simp] theorem Dev.raiseInt_out (d : Dev) (p m : Nat) : (d.raiseInt p m).out = d.out := by
  simp only [Dev.raiseInt]; split <;> rfl

/-- Interrupts leave the block-specific registers. -/
theorem Dev.get_raiseInt (d : Dev) (p m q : Nat) (f : Fld) (hlo : 0x100 ≤ f.off) (hhi : f.off < 65536) :
    (d.raiseInt p m).get q f = d.get q f := by
  have hne : ∀ o, o < 0x100 → csrKey q f.off ≠ csrKey p o := fun o ho hk => by
    obtain ⟨-, heq⟩ := csrKey_inj hhi (by omega) hk
    omega
  rw [Dev.get, ← Dev.word_setInt_raise, d.word_setInt p m q _ (hne _ (by decide)) (hne _ (by decide))]
  rfl

/-- The link and its domain are as they were. -/
theorem Dev.raiseInt_hostShut (d : Dev) (p m : Nat) : (d.raiseInt p m).hostShut = d.hostShut := by
  simp only [Dev.hostShut, Dev.lstate, Dev.d3hot, d.get_raiseInt p m hifPage F.HIF_LINK_STAT_LSTATE (by decide) (by decide),
    d.get_raiseInt p m hifPage F.HIF_LINK_STAT_DSTATE (by decide) (by decide)]

theorem Dev.raiseInt_domOn29 (d : Dev) (p m : Nat) : (d.raiseInt p m).domOn 29 = d.domOn 29 := by
  simp only [Dev.domOn, Dev.domState, d.get_raiseInt p m 2 (F.PWR_DOM_STATE_STATE.at (4 * 29)) (by decide) (by decide)]

theorem Dev.raiseInt_msixHeld (d : Dev) (p m v : Nat) : (d.raiseInt p m).msixHeld v = d.msixHeld v := by
  rw [Dev.msixHeld, Dev.raiseInt_msix, Dev.raiseInt_hostShut, Dev.msixHeld]

/-- Without a rising line nothing is sent. -/
theorem Dev.setInt_quiet (d : Dev) (p m : Nat) (h : d.line p = true ∨ (d.raiseInt p m).line p = false) :
    d.setInt p m = d.raiseInt p m := by
  rcases h with h | h <;> simp [Dev.setInt, h]

/-- A rising line takes its page's route. -/
theorem Dev.setInt_rising (d : Dev) (p m : Nat) (h0 : d.line p = false) (h1 : (d.raiseInt p m).line p = true) :
    d.setInt p m = (d.raiseInt p m).sendRoute p := by
  simp [Dev.setInt, h0, h1]

/-- The route of a page is not among the registers that its interrupts write. -/
theorem Dev.sendRoute_raiseInt (d : Dev) {p : Nat} (m : Nat) (hp : p < 256) :
    (d.raiseInt p m).sendRoute p =
      if d.get 0x05 (F.HIF_INT_ROUTE_EN.at (4 * p)) = 1 then (d.raiseInt p m).sendMsix (d.get 0x05 (F.HIF_INT_ROUTE_VECTOR.at (4 * p)))
      else d.raiseInt p m := by
  have hroute : 0x100 ≤ 0xC00 + 4 * p ∧ 0xC00 + 4 * p < 65536 := by omega
  rw [Dev.sendRoute, d.get_raiseInt p m 5 (F.HIF_INT_ROUTE_EN.at (4 * p)) hroute.1 hroute.2,
    d.get_raiseInt p m 5 (F.HIF_INT_ROUTE_VECTOR.at (4 * p)) hroute.1 hroute.2]

/-! Messages that waited -/

/-- One pending vector is looked at once. -/
theorem Dev.sendPending_single (d : Dev) (v : Nat) (h : d.msix.pba = [(v, true)]) :
    d.sendPending = if d.msixHeld v = true then d else ({ d with msix := { d.msix with pba := [] } } : Dev).sendMsix v := by
  have hnone : Map.wr false [(v, true)] v false = [] := by simp [Map.wr, Map.erase]
  rw [Dev.sendPending, h, List.foldl_cons, List.foldl_nil, h, hnone]

/-- Settles O12: an unmasked vector by its pending bit, a set interrupt by the line before and after it, a pending vector by what
still holds it back. -/
theorem interruptMessagesFollowTheLine : Obligations.InterruptMessagesFollowTheLine := by
  unfold Obligations.InterruptMessagesFollowTheLine
  refine ⟨fun s v hop hl => ?unmask, fun d p m hp => ⟨fun h => ?quiet, fun h0 h1 hen hon => ?rising⟩, fun d v hpba hon => ?pending⟩
  case unmask =>
    obtain ⟨hon, hshut⟩ := s.dev.hostOpen_iff.1 hop
    rw [exec_msixUnmask, runHost_write4 s _ _ _ hop hl (by omega), Dev.write4_vectorControl, Dev.msixWrite_unmask]
    refine ⟨fun hnone => ?_, fun hsome => ?_⟩
    · rw [if_neg (by simp [hnone])]
    · rw [if_pos hsome, s.dev.sendMsix_unmasked _ _ hon hshut]
      rfl
  case quiet =>
    have hraise : d.setInt p m = d.raiseInt p m := by
      by_cases hline : d.line p = true ∨ (d.raiseInt p m).line p = false
      · exact d.setInt_quiet p m hline
      · have hen := (or_assoc.2 h).resolve_left hline
        rw [not_or, Bool.not_eq_true, Bool.not_eq_false] at hline
        rw [d.setInt_rising p m hline.1 hline.2, d.sendRoute_raiseInt m hp, if_neg (by omega)]
    rw [hraise]
    exact ⟨d.raiseInt_out p m, d.raiseInt_msix p m⟩
  case rising =>
    have hon' : (d.raiseInt p m).domOn 29 = true := (d.raiseInt_domOn29 p m).trans hon
    rw [d.setInt_rising p m h0 h1, d.sendRoute_raiseInt m hp, if_pos hen]
    generalize d.get 0x05 (F.HIF_INT_ROUTE_VECTOR.at (4 * p)) = v
    refine ⟨fun hheld => ?_, fun hmask hshut => ?_⟩
    · rw [Dev.sendMsix_held _ _ hon' ((d.raiseInt_msixHeld p m v).trans ((d.msixHeld_iff v).2 hheld))]
      simp
    · have hfree : ¬ (d.raiseInt p m).msixHeld v = true := by
        rw [d.raiseInt_msixHeld, d.msixHeld_iff, hmask, hshut]; decide
      rw [Dev.sendMsix_sent _ _ hon' hfree]
      simp [Dev.emit, Msix.message]
  case pending =>
    rw [d.sendPending_single _ hpba]
    refine ⟨fun hheld => if_pos ((d.msixHeld_iff v).2 hheld), fun hfree => ?_⟩
    have hfree' : ¬ d.msixHeld v = true := fun h => hfree ((d.msixHeld_iff v).1 h)
    rw [if_neg hfree']
    exact Dev.sendMsix_sent _ _ hon hfree'

end Sys2Proof.Machine
end

section
/-! Control stores and images (R29, R146, R147, R149): the host's accesses to a microword, and the ends of a verification. -/

namespace Sys2Proof.Machine

/-! Accesses of BAR2 -/

/-- A host write of BAR2 over an open link that is in L0 or L0p is the block's own. -/
theorem runHost_write2 (s : State) {a : Nat} (v : Word) (be : BitVec 4) (req : BitVec 16) (hop : s.dev.hostOpen = true)
    (hl : s.dev.lstate < 2) (h4 : a % 4 = 0) :
    runHost (fun x => x.hostWrite 1 a v be req.toNat) s = .next { s with dev := s.dev.write2 a v be req.toNat } :=
  runHost_eq _ s _ (Reach.hostWrite_bar2 ⟨s.trust, s.dev⟩ a req.toNat v be hop hl h4)

/-- A host read of BAR2 over such a link answers the block's word. -/
theorem runHost_read2 (s : State) {a : Nat} (req : BitVec 16) (e : Ecc) (hop : s.dev.hostOpen = true) (hl : s.dev.lstate < 2)
    (h4 : a % 4 = 0) :
    runHost (fun x => x.hostRead 1 a req.toNat e) s =
      .next { s with dev := (s.dev.read2 a req.toNat e).2.emit (.readData (s.dev.read2 a req.toNat e).1) } :=
  runHost_eq _ s _ (Reach.hostRead_bar2 ⟨s.trust, s.dev⟩ a req.toNat e hop hl h4)

/-! Microwords -/

theorem exec_csWordWrite (c : Fin 64) (a : Fin 16384) (k : Fin 5) (v : Word) (be : BitVec 4) (req : BitVec 16) (s : State) :
    exec (.csWordWrite c a k v be req) s =
      runHost (fun x => x.hostWrite 1 (0x80000 * c.val + 32 * a.val + 4 * k.val) v be req.toNat) s := rfl

theorem exec_csCommit (c : Fin 64) (a : Fin 16384) (v : Word) (be : BitVec 4) (req : BitVec 16) (s : State) :
    exec (.csCommit c a v be req) s = runHost (fun x => x.hostWrite 1 (0x80000 * c.val + 32 * a.val + 4 * 5) v be req.toNat) s := rfl

theorem exec_csWord0Read (c : Fin 64) (a : Fin 16384) (req : BitVec 16) (s : State) :
    exec (.csWord0Read c a req) s = runHost (fun x => x.hostRead 1 (0x80000 * c.val + 32 * a.val) req.toNat .clean) s := rfl

theorem csKey_fin (c : Fin 64) (a : Fin 16384) : csKey c.val a.val = 16384 * c.val + a.val := by
  rw [csKey, Nat.mod_eq_of_lt a.isLt]

/-! Verification -/

theorem exec_verify (c : Fin 64) (req : BitVec 16) (s : State) :
    exec (.verify c req) s = runHost (fun x => x.act (engPage c.val) 0x0400 1 req.toNat) s := rfl

theorem exec_verifyDone (c : Fin 64) (ecc : Ecc) (s : State) :
    exec (.verifyDone c ecc) s = .next { s with dev := s.dev.verifyDone s.trust c.val ecc } := rfl

theorem exec_imagePolicyLock (req : BitVec 16) (s : State) :
    exec (.imagePolicyLock req) s = runHost (fun x => x.act 0x01 0x0200 2 req.toNat) s := rfl

/-- BUSY clears and CODE shows how a verification ended. -/
def Dev.imgEnd (d : Dev) (c code : Nat) : Dev :=
  (d.set (engPage c) F.ENG_IMG_STAT_BUSY 0).set (engPage c) F.ENG_IMG_STAT_CODE code

/-- What a valid image shows: the filled store, its sizes, trap base and tag, and VALID. -/
def Dev.imgShow (d : Dev) (c : Nat) : Dev :=
  let p := engPage c
  let h := d.regBytes p 0x0500 80
  let tag := beAt (d.regBytes p 0x0700 64) 8 8
  let d1 := (d.fillAbort c (sectionsOf h (beAt h 0x0C 2))).setWord p 0x0410 (BitVec.ofNat 32 (beAt h 0x10 2 + beAt h 0x12 2 * 2 ^ 16))
  let d2 := ((d1.set p F.ENG_IMG_TRAP_BASE (beAt h 0x14 2)).setWord p 0x0408 (BitVec.ofNat 32 tag)).setWord p 0x040C (BitVec.ofNat 32 (tag / 2 ^ 32))
  d2.set p F.ENG_IMG_STAT_VALID 1

/-- With no verification under way nothing ends. -/
theorem Dev.verifyDone_idle (d : Dev) (tr : Trust) (c : Nat) (ecc : Ecc) (h : d.get (engPage c) F.ENG_IMG_STAT_BUSY = 0) :
    d.verifyDone tr c ecc = d := if_pos h

/-- An uncorrectable word, read now or known, ends it with code 12. -/
theorem Dev.verifyDone_bad (d : Dev) (tr : Trust) (c : Nat) (ecc : Ecc) (hb : d.get (engPage c) F.ENG_IMG_STAT_BUSY ≠ 0)
    (h : ecc = .bad ∨ d.csKnownBad c = true) :
    d.verifyDone tr c ecc =
      (((((d.eccCount 3 (c / 32) .bad).imgEnd c 12).err (engPage c) 0x23 12).int (engPage c) 6).int (engPage c) 5) := by
  have hecc : (if d.csKnownBad c = true then Ecc.bad else ecc) = .bad := by rcases h with rfl | h <;> simp [*]
  have hfail : ¬ 12 = 0 := by decide
  simp only [Dev.verifyDone, if_neg hb, hecc, if_true, if_neg hfail, Dev.imgEnd]

/-- A failed check ends it with that check's code. -/
theorem Dev.verifyDone_failed (d : Dev) (tr : Trust) (c : Nat) (hb : d.get (engPage c) F.ENG_IMG_STAT_BUSY ≠ 0)
    (hk : d.csKnownBad c = false) (hc : d.imgCode tr c ≠ 0) :
    d.verifyDone tr c .clean =
      ((((d.imgEnd c (d.imgCode tr c)).err (engPage c) 0x23 (d.imgCode tr c)).int (engPage c) 6).int (engPage c) 5) := by
  have hecc : (if d.csKnownBad c = true then Ecc.bad else .clean) = .clean := by rw [hk]; rfl
  have hclean : ¬ Ecc.clean = .bad := by decide
  simp only [Dev.verifyDone, if_neg hb, hecc, if_neg hclean, if_neg hc, Dev.imgEnd]

/-- With every check passed the image is valid. -/
theorem Dev.verifyDone_passed (d : Dev) (tr : Trust) (c : Nat) (hb : d.get (engPage c) F.ENG_IMG_STAT_BUSY ≠ 0)
    (hk : d.csKnownBad c = false) (hc : d.imgCode tr c = 0) :
    d.verifyDone tr c .clean = ((d.imgEnd c 0).imgShow c).int (engPage c) 5 := by
  have hecc : (if d.csKnownBad c = true then Ecc.bad else .clean) = .clean := by rw [hk]; rfl
  have hclean : ¬ Ecc.clean = .bad := by decide
  simp only [Dev.verifyDone, if_neg hb, hecc, if_neg hclean, hc, if_true, Dev.imgEnd, Dev.imgShow]

/-- Settles O11: an access to a microword by what its cluster takes, the end of a verification by the first thing that fails. -/
theorem programsAreLoadedAndVerified : Obligations.ProgramsAreLoadedAndVerified := by
  unfold Obligations.ProgramsAreLoadedAndVerified
  refine ⟨fun s c a v req hop hl hon => ⟨fun hc => ⟨fun k => ?hold, ?commit⟩, fun hc => ⟨fun k => ?held, ?refused⟩, ?read⟩,
    fun s c req => ⟨fun hr hc => ?start, fun hb => ⟨fun hcode hk => ?failed, ?bad, fun hk => ?known, fun hcode hk => ?passed⟩,
      fun hb => ?idle, fun hr hlock => ?lock⟩⟩
  case hold =>
    rw [exec_csWordWrite, runHost_write2 s _ _ _ hop hl (by omega), Dev.write2_csHold _ _ _ _ _ _ hon hc k.isLt, Dev.csHold, csKey_fin]
  case commit =>
    rw [exec_csCommit, runHost_write2 s _ _ _ hop hl (by omega), Dev.write2_csCommit _ _ _ _ _ hon hc, ← csKey_fin]
    rfl
  case held =>
    rw [exec_csWordWrite, runHost_write2 s _ _ _ hop hl (by omega), Dev.write2_csLocked _ _ _ _ _ _ hon hc (by omega)]
  case refused =>
    rw [exec_csCommit, runHost_write2 s _ _ _ hop hl (by omega), Dev.write2_csLocked _ _ _ _ _ _ hon hc (by decide)]
  case read =>
    rw [exec_csWord0Read, runHost_read2 s _ _ hop hl (by omega), Dev.read2_cs0 _ _ _ _ _ hon, Dev.csRead, csKey_fin]
    rfl
  case start =>
    rw [exec_verify]
    exact runHost_eq _ s _ (Reach.act_verify ⟨s.trust, s.dev⟩ c req.toNat hr hc)
  case failed =>
    rw [exec_verifyDone, s.dev.verifyDone_failed _ _ (by omega) hk hcode]
    rfl
  case bad =>
    rw [exec_verifyDone, s.dev.verifyDone_bad _ _ _ (by omega) (.inl rfl)]
    rfl
  case known =>
    rw [exec_verifyDone, s.dev.verifyDone_bad _ _ _ (by omega) (.inr hk)]
    rfl
  case passed =>
    rw [exec_verifyDone, s.dev.verifyDone_passed _ _ (by omega) hk hcode]
    rfl
  case idle => rw [exec_verifyDone, s.dev.verifyDone_idle _ _ _ hb]
  case lock =>
    have hact := Reach.act_lock ⟨s.trust, s.dev⟩ req.toNat hr hlock
    rw [exec_imagePolicyLock, runHost, hact]

end Sys2Proof.Machine
end

section
/-! Apertures (R30, R31) and entry windows (R32, R33): where an access of an aperture goes, and how an operation of a window starts
and ends. -/

namespace Sys2Proof.Machine

/-! Apertures -/

theorem exec_apertureRead (n : Fin 16) (dw : Fin 4194304) (ecc : Ecc) (req : BitVec 16) (s : State) :
    exec (.apertureRead n dw ecc req) s =
      runHost (fun x => x.hostRead 1 (0x2000000 + 0x1000000 * n.val + 4 * dw.val) req.toNat ecc) s := rfl

theorem exec_apertureWrite (n : Fin 16) (dw : Fin 4194304) (v : Word) (be : BitVec 4) (req : BitVec 16) (s : State) :
    exec (.apertureWrite n dw v be req) s =
      runHost (fun x => x.hostWrite 1 (0x2000000 + 0x1000000 * n.val + 4 * dw.val) v be req.toNat) s := rfl

/-- Aperture `n` takes the offsets of its 16 MB to its target, from its base on (R30). -/
theorem Dev.aptTarget_eq (d : Dev) (n : Fin 16) (dw : Fin 4194304) :
    d.aptTarget (0x2000000 + 0x1000000 * n.val + 4 * dw.val) =
      (d.get hifPage (F.HIF_APT_CTL_TARGET.at (8 * n.val)), d.get hifPage (F.HIF_APT_BASE_BASE.at (8 * n.val)) * 65536 + 4 * dw.val) := by
  have hn : (0x2000000 + 0x1000000 * n.val + 4 * dw.val - 0x2000000) / 2 ^ 24 = n.val := by omega
  have hdw : (0x2000000 + 0x1000000 * n.val + 4 * dw.val - 0x2000000) % 2 ^ 24 = 4 * dw.val := by omega
  simp only [Dev.aptTarget, hn, hdw]

theorem Dev.read2_aperture (d : Dev) {a : Nat} (req : Nat) (ecc : Ecc) (hlo : 0x2000000 ≤ a) (hhi : a < 0x12000000) :
    d.read2 a req ecc = d.aptRead a req ecc := by
  rw [Dev.read2, if_neg (by omega), if_pos hhi]

theorem Dev.write2_aperture (d : Dev) {a : Nat} (v : Word) (be : BitVec 4) (req : Nat) (hlo : 0x2000000 ≤ a) (hhi : a < 0x12000000) :
    d.write2 a v be req = d.aptWrite a v be req := by
  rw [Dev.write2, if_neg (by omega), if_pos hhi]

/-- A read through an aperture, over an open link that is in L0 or L0p. -/
theorem exec_apertureRead_open (n : Fin 16) (dw : Fin 4194304) (ecc : Ecc) (req : BitVec 16) (s : State) (hop : s.dev.hostOpen = true)
    (hl : s.dev.lstate < 2) :
    let r := s.dev.aptRead (0x2000000 + 0x1000000 * n.val + 4 * dw.val) req.toNat ecc
    exec (.apertureRead n dw ecc req) s = .next { s with dev := r.2.emit (.readData r.1) } := by
  rw [exec_apertureRead, runHost_read2 s _ _ hop hl (by omega), s.dev.read2_aperture _ _ (by omega) (by omega)]

/-- A write through an aperture, over such a link. -/
theorem exec_apertureWrite_open (n : Fin 16) (dw : Fin 4194304) (v : Word) (be : BitVec 4) (req : BitVec 16) (s : State)
    (hop : s.dev.hostOpen = true) (hl : s.dev.lstate < 2) :
    exec (.apertureWrite n dw v be req) s =
      .next { s with dev := s.dev.aptWrite (0x2000000 + 0x1000000 * n.val + 4 * dw.val) v be req.toNat } := by
  rw [exec_apertureWrite, runHost_write2 s _ _ _ hop hl (by omega), s.dev.write2_aperture _ _ _ (by omega) (by omega)]

/-- Clean check bits leave the block. -/
theorem Dev.aptEcc_clean (d : Dev) (sp : AptSpace) (b : Nat) : d.aptEcc sp b .clean = d := by
  cases sp <;> rfl

/-- What a read through an aperture does to its target: a stack serves a request. -/
def Dev.aptTouch (d : Dev) (b : Nat) : AptSpace → Dev
  | .stack h => d.hbmNow h 4 false b 4
  | _ => d

section
variable {d : Dev} {a code b : Nat} (ht : d.aptTarget a = (code, b))
include ht

theorem Dev.aptRead_refused {k : Nat} (req : Nat) (ecc : Ecc) (hk : d.aptRefuse (d.aptSpace code) b = some k) :
    d.aptRead a req ecc = (if k = 0x0B then 0xFFFFFFFF else 0, d.winErr a [k] 0 req false) := by
  simp only [Dev.aptRead, ht, hk]

theorem Dev.aptWrite_refused {k : Nat} (v : Word) (be : BitVec 4) (req : Nat) (hk : d.aptRefuse (d.aptSpace code) b = some k) :
    d.aptWrite a v be req = d.winErr a [k] v.toNat req true := by
  simp only [Dev.aptWrite, ht, hk]

theorem Dev.aptWrite_partial (v : Word) {be : BitVec 4} (req : Nat) (hk : d.aptRefuse (d.aptSpace code) b = none) (hb : be ≠ 15) :
    d.aptWrite a v be req = d.winErr a [0x06] v.toNat req true := by
  simp only [Dev.aptWrite, ht, hk, if_pos hb]

theorem Dev.aptWrite_put (v : Word) (req : Nat) (hk : d.aptRefuse (d.aptSpace code) b = none) :
    d.aptWrite a v 15 req = d.aptPut (d.aptSpace code) b v := by
  have hb : ¬ (15 : BitVec 4) ≠ 15 := by decide
  simp only [Dev.aptWrite, ht, hk, if_neg hb]

/-- A word that is read clean and not known to be bad. -/
theorem Dev.aptRead_clean (req : Nat) (hk : d.aptRefuse (d.aptSpace code) b = none)
    (hgood : ∀ h, d.aptSpace code = .stack h → Map.rd false d.hbmBad (hbmKey h b) = false) :
    d.aptRead a req .clean = (d.aptWord (d.aptSpace code) b, d.aptTouch b (d.aptSpace code)) := by
  simp only [Dev.aptRead, ht, hk]
  generalize d.aptSpace code = sp at hgood
  cases sp with
  | stack h => simp only [hgood h rfl, Bool.false_eq_true, if_false]; rfl
  | none => rfl
  | quad q => rfl
  | buffer die => rfl

end

/-! Entry windows -/

theorem exec_ewRead (w : Fin 256) (req : BitVec 16) (s : State) :
    exec (.ewRead w req) s = runHost (fun x => x.hostWrite 1 (0x12000000 + 4096 * w.val + 8) (BitVec.ofNat 32 1) 15 req.toNat) s := rfl

theorem exec_ewWrite (w : Fin 256) (req : BitVec 16) (s : State) :
    exec (.ewWrite w req) s = runHost (fun x => x.hostWrite 1 (0x12000000 + 4096 * w.val + 8) (BitVec.ofNat 32 2) 15 req.toNat) s := rfl

theorem exec_ewDone (w : Fin 256) (ecc : Ecc) (s : State) : exec (.ewDone w ecc) s = .next { s with dev := s.dev.ewDone w.val ecc } := rfl

theorem exec_ewTimeout (w : Fin 256) (s : State) : exec (.ewTimeout w) s = .next { s with dev := s.dev.ewTimeout w.val } := rfl

theorem exec_ewLate (w : Fin 256) (s : State) : exec (.ewLate w) s = .next { s with dev := s.dev.ewLate w.val } := rfl

/-- An operation on a space without an update engine, and a target that R32 names, starts. -/
theorem Dev.ewStart_named (d : Dev) (w op : Nat) (hn : d.ewNamed (d.ew w).space (d.ew w).inst = true) (h7 : (d.ew w).space ≠ 7) :
    d.ewStart w op =
      d.setEw w { d.ew w with busy := true, done := false, error := false, bytes := ewBytes (d.ew w).space, op := op } := by
  have hnamed : ¬ (!d.ewNamed (d.ew w).space (d.ew w).inst) = true := by rw [hn]; decide
  simp only [Dev.ewStart, if_neg hnamed, h7, false_and, if_false]

/-- Such an operation is made as its response comes. -/
theorem Dev.ewDone_make (d : Dev) (w : Nat) (ecc : Ecc) (hb : (d.ew w).busy = true) (h7 : (d.ew w).space ≠ 7) :
    d.ewDone w ecc = d.ewMake w ecc := by
  simp only [Dev.ewDone, hb, h7, false_and, if_false, Bool.not_true, Bool.false_eq_true]

/-- The words of an entry in the data registers of a window. -/
def entryData (l : List Word) : Map Word :=
  ((List.range l.length).zip l).foldl (fun (m : Map Word) e => Map.wr 0 m e.1 e.2) []

/-- Words written from key `n` on stand at their keys, and the words before them as they were. -/
theorem Map.rd_foldl_words (l : List Word) : ∀ (n : Nat) (m : Map Word) (k : Nat),
    Map.rd 0 (((List.range' n l.length).zip l).foldl (fun (m : Map Word) e => Map.wr 0 m e.1 e.2) m) k =
      if n ≤ k ∧ k < n + l.length then l.getD (k - n) 0 else Map.rd 0 m k := by
  induction l with
  | nil =>
    intro n m k
    rw [if_neg (by simp)]
    rfl
  | cons v l ih =>
    intro n m k
    rw [List.length_cons, List.range'_succ, List.zip_cons_cons, List.foldl_cons, ih]
    rcases lt_trichotomy k n with h | rfl | h
    · rw [if_neg (by omega), if_neg (by omega), Map.rd_wr_ne _ _ _ _ (by omega)]
    · rw [if_neg (by omega), if_pos (by omega), Map.rd_wr_same, Nat.sub_self, List.getD_cons_zero]
    · obtain ⟨j, rfl⟩ := Nat.exists_eq_add_of_lt h
      rw [show n + j + 1 - n = j + 1 by omega, List.getD_cons_succ, show n + j + 1 - (n + 1) = j by omega,
        Map.rd_wr_ne _ _ _ _ (by omega)]
      exact if_congr (by omega) rfl rfl

/-- The data registers show the entry. -/
theorem rd_entryData (l : List Word) {k : Nat} (h : k < l.length) : Map.rd 0 (entryData l) k = l.getD k 0 := by
  rw [entryData, List.range_eq_range', Map.rd_foldl_words, if_pos (by omega), Nat.sub_zero]

/-- An operation that its target refuses ends with the code of the refusal. -/
theorem Dev.ewMake_refused (d : Dev) (w : Nat) (ecc : Ecc)
    (h : d.ewRefuse (d.ew w).space (d.ew w).inst (d.ew w).index.toNat ≠ 0) :
    d.ewMake w ecc = d.ewEnd w (d.ewRefuse (d.ew w).space (d.ew w).inst (d.ew w).index.toNat) := by
  simp only [Dev.ewMake, if_pos h]

/-- An operation that ends with a code other than 0 ends in error. -/
theorem Dev.ewEnd_error (d : Dev) (w : Nat) {code : Nat} (h : code ≠ 0) :
    d.ewEnd w code = d.setEw w { d.ew w with busy := false, done := true, error := true, code := code } := by
  simp only [Dev.ewEnd, bne_iff_ne.2 h]

/-- A READ of a good entry shows its words and ends with code 0. -/
theorem Dev.ewMake_read (d : Dev) (w : Nat) (h : d.ewRefuse (d.ew w).space (d.ew w).inst (d.ew w).index.toNat = 0)
    (hop : (d.ew w).op = 1) (hgood : d.entryBad (d.ew w).space (d.ew w).inst (d.ew w).index.toNat = false) :
    d.ewMake w .clean = d.setEw w { d.ew w with
      data := entryData (d.entryRead (d.ew w).space (d.ew w).inst (d.ew w).index.toNat)
      busy := false, done := true, error := false, code := 0 } := by
  have hecc : (Ecc.clean == Ecc.bad) = false := by decide
  simp only [Dev.ewMake, h, ne_eq, not_true_eq_false, if_false, hop, if_true, hgood, hecc, Bool.or_self, Dev.eccCount, Bool.false_eq_true,
    Dev.ewEnd, Dev.ew_setEw_same, Dev.setEw_setEw, bne_self_eq_false]
  rfl

/-- A WRITE is applied and ends with the code of its space. -/
theorem Dev.ewMake_write (d : Dev) (w : Nat) (ecc : Ecc)
    (h : d.ewRefuse (d.ew w).space (d.ew w).inst (d.ew w).index.toNat = 0) (hop : (d.ew w).op = 2) :
    d.ewMake w ecc =
      (d.entryWrite (d.ew w).space (d.ew w).inst (d.ew w).index.toNat
        ((List.range (ewBytes (d.ew w).space / 4)).map fun k => Map.rd 0 (d.ew w).data k)).2.ewEnd w
      (d.entryWrite (d.ew w).space (d.ew w).inst (d.ew w).index.toNat
        ((List.range (ewBytes (d.ew w).space / 4)).map fun k => Map.rd 0 (d.ew w).data k)).1 := by
  have hwrite : ¬ 2 = 1 := by decide
  simp only [Dev.ewMake, h, ne_eq, not_true_eq_false, if_false, hop, if_neg hwrite]

/-- A READ that times out ends with code 5 and awaits its late response; a free value is drawn. -/
theorem Dev.ewTimeout_read (d : Dev) (w : Nat) (hb : (d.ew w).busy = true) (h7 : (d.ew w).space ≠ 7) (hop : (d.ew w).op = 1) :
    d.ewTimeout w = ({ d with fresh := d.fresh + 1 } : Dev).setEw w { d.ew w with
      busy := false, done := true, error := true, code := 5, late := (d.ew w).late + 1 } := by
  have hread : ¬ (d.ew w).op = 2 := by omega
  simp only [Dev.ewTimeout, hb, Bool.not_true, Bool.false_eq_true, if_false, h7, hread, false_and, Dev.free,
    Dev.ewEnd_error _ w (show 5 ≠ 0 by decide), Dev.ew_setEw_same, Dev.setEw_setEw]
  rfl

/-- A late response is discarded, counted and posted. -/
theorem Dev.ewLate_owed (d : Dev) (w : Nat) (h : (d.ew w).late ≠ 0) :
    d.ewLate w = ((d.setEw w { d.ew w with late := (d.ew w).late - 1 }).cnt 0x04 F.ERR_MISC_CNT_COUNT 0).event 0x05 5 5 w
      (d.ew w).space (d.ew w).index.toNat := by
  simp only [Dev.ewLate, if_neg h]

/-- Settles O10: an aperture access by what its target refuses, an operation of a window by the window's state and its target. -/
theorem windowsReachTheirMemories : Obligations.WindowsReachTheirMemories := by
  unfold Obligations.WindowsReachTheirMemories
  refine ⟨fun s n dw v req hop hl => ?apertures, fun s w req =>
    ⟨fun hop hl hb hn h7 => ?start, fun hop hl hb => ?busy, fun hb h7 => ⟨fun ecc hr => ?refused, fun hr hread hgood => ?read,
      fun hr hwrite => ?write, fun hread => ?timeout⟩, fun hlate => ?late⟩⟩
  case apertures =>
    have ht := s.dev.aptTarget_eq n dw
    have hread := fun ecc => exec_apertureRead_open n dw ecc req s hop hl
    have hwrite := fun be => exec_apertureWrite_open n dw v be req s hop hl
    refine ⟨fun hk => ⟨fun hgood => ?_, ?_, fun be hbe => ?_⟩, fun k hk => ⟨fun ecc => ?_, fun be => ?_⟩⟩
    · rw [hread, Dev.aptRead_clean ht _ hk hgood]
      rfl
    · rw [hwrite, Dev.aptWrite_put ht _ _ hk]
    · rw [hwrite, Dev.aptWrite_partial ht _ _ hk hbe]
    · rw [hread, Dev.aptRead_refused ht _ _ hk]
    · rw [hwrite, Dev.aptWrite_refused ht _ _ _ hk]
  case start =>
    rw [exec_ewRead, runHost_write2 s _ _ _ hop hl (by omega), s.dev.write2_ewStart _ _ _ (.inl rfl) hb, s.dev.ewStart_named _ _ hn h7,
      exec_ewWrite, runHost_write2 s _ _ _ hop hl (by omega), s.dev.write2_ewStart _ _ _ (.inr rfl) hb, s.dev.ewStart_named _ _ hn h7]
    exact ⟨rfl, rfl⟩
  case busy =>
    rw [exec_ewRead, runHost_write2 s _ _ _ hop hl (by omega), s.dev.write2_ewHeld _ _ _ (.inl rfl) hb,
      exec_ewWrite, runHost_write2 s _ _ _ hop hl (by omega), s.dev.write2_ewHeld _ _ _ (.inr rfl) hb]
    exact ⟨rfl, rfl⟩
  case refused => rw [exec_ewDone, s.dev.ewDone_make _ _ hb h7, s.dev.ewMake_refused _ _ hr, s.dev.ewEnd_error _ hr]
  case read =>
    rw [exec_ewDone, s.dev.ewDone_make _ _ hb h7, s.dev.ewMake_read _ hr hread hgood]
    refine ⟨_, rfl, ?_⟩
    simp only [Dev.ew_setEw_same, true_and]
    exact fun k hk => rd_entryData _ hk
  case write =>
    rw [exec_ewDone, s.dev.ewDone_make _ _ hb h7, s.dev.ewMake_write _ _ hr hwrite]
    rfl
  case timeout => rw [exec_ewTimeout, s.dev.ewTimeout_read _ hb h7 hread]
  case late => rw [exec_ewLate, s.dev.ewLate_owed _ hlate]

end Sys2Proof.Machine
end

section
/-! Clocks (R54, R57): what each command of the reference and of the alignment comes to, by the holdover and the slew back. -/

namespace Sys2Proof.Machine

/-! Counts and fields of a page without a function -/

/-- A page without a function counts always, and its counts stop at their greatest value (R68). -/
theorem Dev.bump_saturates (d : Dev) (p : Nat) (f : Fld) (h : hasFunction p = false) :
    d.bump p f = d.set p f (min (d.get p f + 1) (2 ^ f.wd - 1)) := d.bump_eq_tally p f 1 h

/-! The reference (R57) -/

/-- The loss of the reference as it is counted and reported. -/
def Dev.noteRefLoss (d : Dev) : Dev :=
  ((d.set 0x03 F.CLK_REF_LOSS_COUNT (min (d.get 0x03 F.CLK_REF_LOSS_COUNT + 1) 65535)).int 0x03 0).event 0x03 12 7 0 0 0

/-- Every network port of a page that is on, and every Ulux port, loses its link. -/
def Dev.linksDown (d : Dev) : Dev :=
  (List.range 16).foldl (fun d p => d.ulxLoss p)
    ((List.range 128).foldl (fun d p => if d.pageOn (portPage p) then d.linkDown p else d) d)

/-- CLK_STAT as holdover begins or goes on: no reference, and the island's oscillator. -/
def Dev.holdClock (d : Dev) : Dev :=
  ((d.set 0x03 F.CLK_STAT_HOLDOVER 1).set 0x03 F.CLK_STAT_ISLAND_OSC 1).set 0x03 F.CLK_STAT_REF_OK 0

/-- The time in holdover starts at 0. -/
def Dev.clearHoldTime (d : Dev) : Dev := (d.set 0x03 F.CLK_HOLD_TIME_US 0).setPower { d.power with holdNs := 0 }

/-- The slew back to the reference ends. -/
def Dev.endSlew (d : Dev) : Dev := d.setPower { d.power with refSlewing := false }

/-- During holdover, with no slew back begun, a loss of the reference does nothing. -/
theorem Dev.refLoss_holding (d : Dev) (hold : d.get 0x03 F.CLK_STAT_HOLDOVER = 1) (idle : d.power.refSlewing = false) :
    d.refLoss = d := by
  rw [Dev.refLoss, if_pos (.inr ⟨hold, by rw [idle]; rfl⟩)]

/-- Any other loss of the reference is taken: it holds the clock, from 0 where holdover was not in force, and ends a slew back. -/
theorem Dev.refLoss_taken (d : Dev) (island : d.power.island = true)
    (h : d.get 0x03 F.CLK_STAT_HOLDOVER ≠ 1 ∨ d.power.refSlewing = true) :
    d.refLoss = (if d.get 0x03 F.CLK_STAT_HOLDOVER = 1 then d.holdClock
      else d.holdClock.clearHoldTime).endSlew.noteRefLoss.linksDown := by
  have hgo : ¬((!d.power.island) = true ∨ d.get 0x03 F.CLK_STAT_HOLDOVER = 1 ∧ (!d.power.refSlewing) = true) := by
    rcases h with h | h <;> simp [island, h]
  rw [Dev.refLoss, if_neg hgo]
  simp only [Dev.bump_saturates _ 0x03 _ rfl]
  rfl

/-- Outside holdover a loss of the reference begins it. -/
theorem Dev.refLoss_begins (d : Dev) (island : d.power.island = true) (hold : d.get 0x03 F.CLK_STAT_HOLDOVER ≠ 1) :
    d.refLoss = d.holdClock.clearHoldTime.endSlew.noteRefLoss.linksDown := by
  rw [d.refLoss_taken island (.inl hold), if_neg hold]

/-- A loss of the reference during the slew back ends the slew, and the time in holdover runs on. -/
theorem Dev.refLoss_slewing (d : Dev) (island : d.power.island = true) (hold : d.get 0x03 F.CLK_STAT_HOLDOVER = 1)
    (slews : d.power.refSlewing = true) : d.refLoss = d.holdClock.endSlew.noteRefLoss.linksDown := by
  rw [d.refLoss_taken island (.inr slews), if_pos hold]

/-- The reference returns during holdover: the root PLL slews back to it. -/
theorem Dev.refReturn_holding (d : Dev) (hold : d.get 0x03 F.CLK_STAT_HOLDOVER = 1) (idle : d.power.refSlewing = false) :
    d.refReturn =
      ((d.setPower { d.power with refSlewing := true }).set 0x03 F.CLK_STAT_REF_OK 1).set 0x03 F.CLK_STAT_ISLAND_OSC 0 := by
  rw [Dev.refReturn, if_pos ⟨hold, by rw [idle]; rfl⟩]

theorem Dev.refReturn_none (d : Dev) (h : d.get 0x03 F.CLK_STAT_HOLDOVER = 0 ∨ d.power.refSlewing = true) : d.refReturn = d := by
  have hnot : ¬(d.get 0x03 F.CLK_STAT_HOLDOVER = 1 ∧ (!d.power.refSlewing) = true) := by
    rcases h with h | h <;> simp [h]
  rw [Dev.refReturn, if_neg hnot]

theorem Dev.refSlewComplete_slewing (d : Dev) (slews : d.power.refSlewing = true) :
    d.refSlewComplete = (d.endSlew.set 0x03 F.CLK_STAT_HOLDOVER 0).int 0x03 1 := if_pos slews

theorem Dev.refSlewComplete_idle (d : Dev) (idle : d.power.refSlewing = false) : d.refSlewComplete = d :=
  if_neg (by simp [idle])

/-! Alignment (R54) -/

theorem Dev.alignMismatch_running (d : Dev) (island : d.power.island = true) :
    d.alignMismatch = ((d.set 0x03 F.CLK_STAT_ALIGN_OK 0).int 0x03 2).err 0x03 0x20 := if_neg (by simp [island])

theorem Dev.alignMismatch_stopped (d : Dev) (island : d.power.island = false) : d.alignMismatch = d := if_pos (by simp [island])

/-- Settles O19: each command by whether holdover is in force and whether the slew back has begun. -/
theorem clocksHoldOver : Obligations.ClocksHoldOver := by
  unfold Obligations.ClocksHoldOver
  refine ⟨fun s => ⟨fun hold idle => ⟨fun _ => ?again, ?back⟩, fun h => ?noReturn, fun slews => ?slewEnd, fun idle => ?noSlew,
    fun on => ?mismatch, fun off => ?stopped⟩, fun s on => ⟨fun hold => ?begins, fun hold slews => ?resumes⟩⟩
  case again => exact next_dev (s.dev.refLoss_holding hold idle)
  case back => exact next_dev (s.dev.refReturn_holding hold idle)
  case noReturn => exact next_dev (s.dev.refReturn_none h)
  case slewEnd => exact next_dev (s.dev.refSlewComplete_slewing slews)
  case noSlew => exact next_dev (s.dev.refSlewComplete_idle idle)
  case mismatch => exact next_dev (s.dev.alignMismatch_running on)
  case stopped => exact next_dev (s.dev.alignMismatch_stopped off)
  case begins => exact next_dev (s.dev.refLoss_begins on hold)
  case resumes => exact next_dev (s.dev.refLoss_slewing on hold slews)

end Sys2Proof.Machine
end

section
/-! Faults and losses of power (R37, R40–R45, R51): what each command comes to, by the state of the domain and of the island. -/

namespace Sys2Proof.Machine

/-! Sets of domains in one word -/

theorem bit_two_pow (n m : Nat) : bit (2 ^ n) m = decide (n = m) := by
  rw [← testBit_eq_bit, Nat.testBit_two_pow]

/-- A list without repeats has one place for each of its members. -/
theorem filter_eq_singleton {l : List Nat} {n : Nat} (hl : l.Nodup) (hn : n ∈ l) {P : Nat → Bool}
    (h : ∀ m ∈ l, P m = (m == n)) : l.filter P = [n] := by
  rw [List.filter_congr h, List.filter_beq, List.count_eq_one_of_mem hl hn, List.replicate_one]

/-- The set bits that a word with one bit selects: that bit, where it is set. -/
theorem setBits_land_two_pow {k n : Nat} (v : Nat) (hn : n < k) (h : bit v n = true) : setBits k (Nat.land v (2 ^ n)) = [n] := by
  refine filter_eq_singleton List.nodup_range (List.mem_range.2 hn) fun m _ => ?_
  rw [bit_land, bit_two_pow]
  rcases eq_or_ne m n with rfl | hne
  · simp [h]
  · simp [hne, hne.symm]

/-! States of domains -/

/-- A register of the PWR page apart from the word of a domain leaves the domain's state. -/
theorem Dev.domState_set (d : Dev) (f : Fld) (v n : Nat) (h : f.off ≠ 0x200 + 4 * n) : (d.set 0x02 f v).domState n = d.domState n := by
  refine d.get_set_ne _ _ _ _ _ ?_
  simp only [csrKey, Fld.at]
  omega

/-- RAMP, INIT and ON are the states with power (R51). -/
theorem Dev.powered_iff (d : Dev) (n : Nat) : d.powered n = true ↔ d.domState n = 1 ∨ d.domState n = 2 ∨ d.domState n = 3 := by
  simp [Dev.powered, or_assoc]

/-! Rail faults (R51) -/

/-- What the fault of a domain leaves to be done once the domain's contents are lost: it leaves the sequencer, its dependents
`deps` go off, their requests are dropped and FAULT sets. -/
def Dev.containFault (d : Dev) (n : Nat) (deps : List Nat) : Dev :=
  let d := d.leaveSequencer n
  let faults := if n = 29 then (d.power.clock :: d.power.pd29Faults).take 3 else d.power.pd29Faults
  let d := d.setPower { d.power with onQueue := d.power.onQueue.filter (· ≠ n), pd29Faults := faults }
  let d := (d.switchOffNow deps).dropReq (n :: deps)
  (d.set 0x02 F.PWR_DOM_FAULT_FAULT (setBit (d.get 0x02 F.PWR_DOM_FAULT_FAULT) n)).endChange n false

/-- The fault of a domain with power loses its contents. -/
theorem Dev.domainFault_powered (d : Dev) (n rail : Nat) (up : d.powered n = true) :
    d.domainFault n rail =
      (((d.int 0x02 2).err 0x02 0x23 n rail).loseDomain n 5).containFault n ((d.dependents n).filter d.powered) := by
  simp only [Dev.domainFault, if_pos up]
  rfl

/-- A fault of a domain that is not judged: without power, or of a rail it does not have. -/
theorem Dev.railFault_ignored (d : Dev) (n rail : Nat) (h : d.powered n = false ∨ (domRails n).contains rail = false) :
    d.railFault n rail = d := by
  rw [Dev.railFault, if_pos]
  rcases h with h | h
  · exact .inl (by rw [h]; rfl)
  · exact .inr (by rw [h]; rfl)

theorem Dev.railFault_judged (d : Dev) (n rail : Nat) (up : d.powered n = true) (has : (domRails n).contains rail = true) :
    d.railFault n rail = if d.power.island then d.domainFault n rail
      else (n :: (d.dependents n).filter d.powered).foldl (fun d m => ((d.leaveSequencer m).setDom m 0).wipe m) d := by
  rw [Dev.railFault, if_neg (by rw [up, has]; decide)]

theorem Dev.railFault_running (d : Dev) (n rail : Nat) (up : d.powered n = true) (has : (domRails n).contains rail = true)
    (island : d.power.island = true) : d.railFault n rail =
      (((d.int 0x02 2).err 0x02 0x23 n rail).loseDomain n 5).containFault n ((d.dependents n).filter d.powered) := by
  rw [d.railFault_judged n rail up has, if_pos island, d.domainFault_powered n rail up]

theorem Dev.railFault_stopped (d : Dev) (n rail : Nat) (up : d.powered n = true) (has : (domRails n).contains rail = true)
    (island : d.power.island = false) : d.railFault n rail =
      (n :: (d.dependents n).filter d.powered).foldl (fun d m => ((d.leaveSequencer m).setDom m 0).wipe m) d := by
  rw [d.railFault_judged n rail up has, if_neg (by simp [island])]

/-- FAULT_CLEAR of one domain in FAULT. -/
theorem Dev.faultClear_one (d : Dev) {n : Nat} (hn : n < 30) (hf : bit (d.get 0x02 F.PWR_DOM_FAULT_FAULT) n = true)
    (hs : d.domState n = 5) : d.faultClear (2 ^ n) =
      (d.set 0x02 F.PWR_DOM_FAULT_FAULT (clrBit (d.get 0x02 F.PWR_DOM_FAULT_FAULT) n)).setDom n 0 := by
  have hstate (v : Nat) : (d.set 0x02 F.PWR_DOM_FAULT_FAULT v).domState n = 5 :=
    (d.domState_set _ v n (by show 0x104 ≠ _; omega)).trans hs
  simp only [Dev.faultClear, setBits_land_two_pow _ hn hf, List.foldl_cons, List.foldl_nil, if_pos (hstate _)]

/-- PD29 ramps again once its fault is cleared, unless it stays in FAULT. -/
theorem Dev.pd29Repower_faulted (d : Dev) (hs : d.domState 29 = 5) (island : d.power.island = true)
    (hstay : d.power.pd29Stays = false) :
    d.pd29Repower = (d.faultClear (2 ^ 29)).setPower
      { (d.faultClear (2 ^ 29)).power with onQueue := 29 :: (d.faultClear (2 ^ 29)).power.onQueue } :=
  if_neg (by simp [hs, island, hstay])

theorem Dev.pd29Repower_stays (d : Dev) (h : d.power.pd29Stays = true) : d.pd29Repower = d := if_pos (.inr (.inr h))

/-! The power link (R42) -/

theorem Dev.linkRetry_running (d : Dev) (island : d.power.island = true) :
    d.linkRetry = d.set 0x02 F.PWR_LINK_RETRY (min (d.get 0x02 F.PWR_LINK_RETRY + 1) 65535) :=
  (if_pos island).trans (d.bump_saturates 0x02 _ rfl)

theorem Dev.linkLate_running (d : Dev) (island : d.power.island = true) :
    d.linkLate = d.set 0x02 F.PWR_LINK_LATE (min (d.get 0x02 F.PWR_LINK_LATE + 1) 65535) :=
  (if_pos island).trans (d.bump_saturates 0x02 _ rfl)

theorem Dev.linkTimeout_none (d : Dev) (island : d.power.island = true) :
    d.linkTimeout none = (d.int 0x02 5).err 0x02 0x24 := if_neg (by simp [island])

/-- A timeout of a domain's command faults it on the rail that a free value names. -/
theorem Dev.linkTimeout_some (d : Dev) (n : Nat) (island : d.power.island = true) :
    d.linkTimeout (some n) =
      ({ (d.int 0x02 5).err 0x02 0x24 with fresh := ((d.int 0x02 5).err 0x02 0x24).fresh + 1 } : Dev).domainFault n
        ((domRails n).getD ((Config.freeWord ((d.int 0x02 5).err 0x02 0x24).fresh).toNat % (domRails n).length) 0) :=
  if_neg (by simp [island])

/-! Loss of the input (R37, R40, R43) -/

/-- Posting an event writes no register but those of the ERR page. -/
theorem Dev.get_event (d : Dev) (page ev cls d0 d1 d2 q : Nat) (f : Fld) (hq : q ≠ 4) (ho : f.off < 65536) (hc : cls < 8) :
    (d.event page ev cls d0 d1 d2).get q f = d.get q f :=
  congrArg (fun w : Word => bits w.toNat f.lsb f.wd) (d.word_post _ q f.off hq ho hc)

theorem Dev.inputLost_lost (d : Dev) (k : Nat) : (d.inputLost k).get 0x02 F.PWR_INPUT_LOST = 1 := by
  rw [Dev.inputLost, Dev.get_event _ _ _ _ _ _ _ _ _ (by decide) (by decide) (by decide),
    Dev.get_set_apart _ _ F.PWR_INPUT_CAUSE F.PWR_INPUT_LOST _ rfl (by decide) (by decide), Dev.get_set_same _ _ _ _ (by decide)]
  rfl

theorem Dev.inputLost_cause (d : Dev) {k : Nat} (hk : k < 8) : (d.inputLost k).get 0x02 F.PWR_INPUT_CAUSE = k := by
  rw [Dev.inputLost, Dev.get_event _ _ _ _ _ _ _ _ _ (by decide) (by decide) (by decide),
    Dev.get_set_same _ _ _ _ (by decide)]
  exact Nat.mod_eq_of_lt hk

/-- The first stage and the bus are off once every domain is. -/
theorem Dev.allOff_stages (d : Dev) : d.allOff.power.stage1 = false ∧ d.allOff.power.bus = false := by
  simp only [Dev.allOff, Dev.set_power, Dev.setPower_power, and_self]

/-- Entering STANDBY leaves the supplies and the sequencer. -/
theorem Dev.toStandby_power (d : Dev) : d.toStandby.power = d.power := by
  change (Dev.setModes (Dev.set _ _ _ _) _).power = _
  rw [Dev.setModes_power]
  iterate 6 rw [Dev.set_power]

/-- Neither the input nor the first stage nor the bus is valid after a loss of the input. -/
theorem Dev.inputLost_power (d : Dev) (k : Nat) :
    (d.inputLost k).power.vinValid = false ∧ (d.inputLost k).power.stage1 = false ∧ (d.inputLost k).power.bus = false := by
  rw [Dev.inputLost, (Dev.event_records _ _ _ _ _ _ _).power, Dev.set_power, Dev.set_power, Dev.setPower_power, Dev.setDomReq,
    Dev.set_power, Dev.toStandby_power]
  exact ⟨rfl, d.allOff_stages⟩

theorem Dev.inputLoss_running (d : Dev) (k : Nat) (valid : d.power.vinValid = true) (island : d.power.island = true) :
    d.inputLoss k = d.inputLost k := by
  rw [Dev.inputLoss, if_neg (by simp [valid]), if_pos island]

theorem Dev.inputLoss_stopped (d : Dev) (k : Nat) (valid : d.power.vinValid = true) (island : d.power.island = false) :
    d.inputLoss k = d.allOff.setPower { d.allOff.power with vinValid := false } := by
  rw [Dev.inputLoss, if_neg (by simp [valid]), if_neg (by simp [island])]

theorem Dev.inputLoss_invalid (d : Dev) (k : Nat) (invalid : d.power.vinValid = false) : d.inputLoss k = d := if_pos (by simp [invalid])

theorem Dev.watchdogTrip_running (d : Dev) (on : d.power.stage1 = true) (island : d.power.island = true) :
    d.watchdogTrip = d.inputLost 4 := by
  rw [Dev.watchdogTrip, if_neg (by simp [on]), if_pos island]

theorem Dev.watchdogTrip_stopped (d : Dev) (on : d.power.stage1 = true) (island : d.power.island = false) :
    d.watchdogTrip = d.allOff := by
  rw [Dev.watchdogTrip, if_neg (by simp [on]), if_neg (by simp [island])]

theorem Dev.watchdogTrip_off (d : Dev) (off : d.power.stage1 = false) : d.watchdogTrip = d := if_pos (by simp [off])

/-! The thermal trip (R45) -/

/-- A thermal trip up to the switch-off: it is recorded, and the requests and the queued ramps of PD00–PD28 are dropped. -/
def Dev.recordTrip (d : Dev) (sensor : Nat) : Dev :=
  let d := d.setPower { d.power with trip := true, thermLow := true }
  let d := (d.err 0x02 0x25 sensor).setDomReq 0
  (d.setPower { d.power with onQueue := d.power.onQueue.filter (· = 29) }).dropChange (d.power.onQueue.filter (· ≠ 29))

/-- A domain of PD00–PD28 in DISCHARGE ramps no more after it. -/
def Dev.cancelReversal (d : Dev) : Dev :=
  match d.power.current with
  | some n => if n ≠ 29 ∧ d.domState n = 4 then d.setDomPending n false else d
  | none => d

theorem Dev.cancelReversal_some (d : Dev) {n : Nat} (hc : d.power.current = some n) :
    d.cancelReversal = if n ≠ 29 ∧ d.domState n = 4 then d.setDomPending n false else d := by
  simp only [Dev.cancelReversal, hc]

theorem Dev.cancelReversal_idle (d : Dev) (hc : d.power.current = none) : d.cancelReversal = d := by
  simp only [Dev.cancelReversal, hc]

theorem Dev.cancelReversal_steady (d : Dev) (h : ∀ n, d.power.current = some n → n = 29 ∨ d.domState n ≠ 4) : d.cancelReversal = d := by
  cases hc : d.power.current with
  | none => exact d.cancelReversal_idle hc
  | some n => rw [d.cancelReversal_some hc, if_neg fun ⟨hne, hst⟩ => (h n hc).elim hne fun hst' => hst' hst]

theorem Dev.cancelReversal_discharging (d : Dev) {n : Nat} (hc : d.power.current = some n) (hne : n ≠ 29) (hst : d.domState n = 4) :
    d.cancelReversal = d.setDomPending n false := by
  rw [d.cancelReversal_some hc, if_pos ⟨hne, hst⟩]

/-- A trip is recorded and switches the domains off. The recorded device is made a variable before its domain in hand is looked at. -/
theorem Dev.thermalTrip_taken (d : Dev) (sensor : Nat) (trip : d.power.trip = false) (island : d.power.island = true) :
    d.thermalTrip sensor = (d.recordTrip sensor).cancelReversal.switchOffNow (List.range 29) := by
  rw [Dev.thermalTrip, if_neg (by rw [trip, island]; decide)]
  change Dev.switchOffNow _ _ = _
  generalize hrecord : Dev.dropChange _ _ = e
  rw [show d.recordTrip sensor = e from hrecord]
  split
  next n hn => rw [e.cancelReversal_some hn]
  next hn => rw [e.cancelReversal_idle hn]

/-- A trip with no domain of PD00–PD28 in DISCHARGE. -/
theorem Dev.thermalTrip_steady (d : Dev) (sensor : Nat) (trip : d.power.trip = false) (island : d.power.island = true)
    (h : ∀ n, (d.recordTrip sensor).power.current = some n → n = 29 ∨ (d.recordTrip sensor).domState n ≠ 4) :
    d.thermalTrip sensor = (d.recordTrip sensor).switchOffNow (List.range 29) := by
  rw [d.thermalTrip_taken sensor trip island, Dev.cancelReversal_steady _ h]

/-- A trip during the discharge of domain `n`. -/
theorem Dev.thermalTrip_discharging (d : Dev) (sensor : Nat) (trip : d.power.trip = false) (island : d.power.island = true) {n : Nat}
    (hc : (d.recordTrip sensor).power.current = some n) (hne : n ≠ 29) (hst : (d.recordTrip sensor).domState n = 4) :
    d.thermalTrip sensor = ((d.recordTrip sensor).setDomPending n false).switchOffNow (List.range 29) := by
  rw [d.thermalTrip_taken sensor trip island, Dev.cancelReversal_discharging _ hc hne hst]

theorem Dev.thermalTrip_again (d : Dev) (sensor : Nat) (trip : d.power.trip = true) : d.thermalTrip sensor = d := if_pos (.inl trip)

theorem Dev.thermalTripEnd_cool (d : Dev) (trip : d.power.trip = true) (cool : (List.range 16).all d.sensorCool = true) :
    d.thermalTripEnd = (d.setPower { d.power with trip := false }).thermRelease := if_pos ⟨trip, cool⟩

/-- Settles O18: each command by the state of its domain, of the inputs and of the island. -/
theorem faultsAndTripsSwitchDomainsOff : Obligations.FaultsAndTripsSwitchDomainsOff := by
  unfold Obligations.FaultsAndTripsSwitchDomainsOff
  refine ⟨fun s dom rail => ?faults, fun s cause sensor => ?inputs⟩
  case faults =>
    have hup := s.dev.powered_iff dom.val
    refine ⟨fun up has on => ?running, fun up has off => ?stopped, fun h => ?ignored, fun on => ⟨?retry, ?late, ?timeout⟩,
      fun hs on hstay hf => ?repower, fun hstay => ?stays⟩
    case running => exact next_dev (s.dev.railFault_running _ _ (hup.2 up) has on)
    case stopped => exact next_dev (s.dev.railFault_stopped _ _ (hup.2 up) has off)
    case ignored => exact next_dev (s.dev.railFault_ignored _ _ (h.imp_left fun hn => Bool.eq_false_iff.2 fun hp => hn (hup.1 hp)))
    case retry => exact next_dev (s.dev.linkRetry_running on)
    case late => exact next_dev (s.dev.linkLate_running on)
    case timeout => exact next_dev (s.dev.linkTimeout_none on)
    case repower =>
      have hclear := s.dev.faultClear_one (show 29 < 30 by decide) hf hs
      exact next_dev ((s.dev.pd29Repower_faulted hs on hstay).trans (by rw [hclear]))
    case stays => exact next_dev (s.dev.pd29Repower_stays hstay)
  case inputs =>
    refine ⟨fun k hk => ⟨s.dev.inputLost_lost k, s.dev.inputLost_cause hk, s.dev.inputLost_power k⟩, fun valid on => ?lossRunning,
      fun valid off => ?lossStopped, fun invalid => ?lossInvalid, fun stage on => ?dogRunning, fun stage off => ?dogStopped,
      fun stage => ?dogOff, fun trip on => ⟨fun h => ?tripIdle, fun n hc hne hst => ?tripDischarging⟩, fun trip => ?tripAgain,
      fun trip cool => ?tripEnd⟩
    case lossRunning => exact next_dev (s.dev.inputLoss_running _ valid on)
    case lossStopped => exact next_dev (s.dev.inputLoss_stopped _ valid off)
    case lossInvalid => exact next_dev (s.dev.inputLoss_invalid _ invalid)
    case dogRunning => exact next_dev (s.dev.watchdogTrip_running stage on)
    case dogStopped => exact next_dev (s.dev.watchdogTrip_stopped stage off)
    case dogOff => exact next_dev (s.dev.watchdogTrip_off stage)
    case tripIdle => exact next_dev (s.dev.thermalTrip_steady _ trip on h)
    case tripDischarging => exact next_dev (s.dev.thermalTrip_discharging _ trip on hc hne hst)
    case tripAgain => exact next_dev (s.dev.thermalTrip_again _ trip)
    case tripEnd => exact next_dev (s.dev.thermalTripEnd_cool trip cool)

end Sys2Proof.Machine
end

section
/-! Domains and the sequencer (R38, R39, R44, R46–R49, R54): the contents of a domain lie apart from the service island's pages;
the start of the island, the sequencer's steps, PWR_DOM_REQ, PWR_DOM_FAULT and telemetry. -/

namespace Sys2Proof.Machine

/-! The pages of the service island -/

/-- A fold whose steps all keep a property of the device keeps it. -/
theorem Dev.foldl_keeps {α β : Type} (g : Dev → α) (f : Dev → β → Dev) (l : List β) (h : ∀ d, ∀ b ∈ l, g (f d b) = g d) (d : Dev) :
    g (l.foldl f d) = g d :=
  List.foldlRecOn (motive := fun x => g x = g d) l f rfl fun x hx b hb => (h x b hb).trans hx

/-- The registers of the service island's pages read in `b` as in `a`. -/
def Dev.KeepsIsland (a b : Dev) : Prop := ∀ q o, q < 5 → o < 65536 → b.word q o = a.word q o

theorem Dev.KeepsIsland.trans {a b c : Dev} (h1 : a.KeepsIsland b) (h2 : b.KeepsIsland c) : a.KeepsIsland c :=
  fun q o hq ho => (h2 q o hq ho).trans (h1 q o hq ho)

theorem Dev.KeepsIsland.get {a b : Dev} (h : a.KeepsIsland b) {q : Nat} {f : Fld} (hq : q < 5) (ho : f.off < 65536) :
    b.get q f = a.get q f := by
  rw [Dev.get, h q f.off hq ho, Dev.get]

theorem Dev.KeepsIsland.domState {a b : Dev} (h : a.KeepsIsland b) {n : Nat} (hn : n < 30) : b.domState n = a.domState n :=
  h.get (by decide) (by simp only [Fld.at]; omega)

theorem Dev.KeepsIsland.of_csr {a b : Dev} (h : b.csr = a.csr) : a.KeepsIsland b := fun q o _ _ => Dev.word_congr h q o

theorem Dev.KeepsIsland.ite {a b c : Dev} (p : Prop) [Decidable p] (h1 : a.KeepsIsland b) (h2 : a.KeepsIsland c) :
    a.KeepsIsland (if p then b else c) := by
  split
  · exact h1
  · exact h2

theorem Dev.KeepsIsland.foldl {β : Type} {f : Dev → β → Dev} {l : List β} (h : ∀ (d : Dev), ∀ b ∈ l, d.KeepsIsland (f d b)) (d : Dev) :
    d.KeepsIsland (l.foldl f d) :=
  fun q o hq ho => Dev.foldl_keeps (Dev.word · q o) f l (fun d b hb => h d b hb q o hq ho) d

/-- A write of a register of another page. -/
theorem Dev.setWord_keepsIsland (d : Dev) {p o : Nat} (w : Word) (hp : 5 ≤ p) : d.KeepsIsland (d.setWord p o w) := fun q k hq hk =>
  d.word_setWord_ne _ _ _ _ _ (by unfold csrKey; omega)

theorem Dev.int_keepsIsland (d : Dev) {p : Nat} (i : Nat) (hp : 5 ≤ p) : d.KeepsIsland (d.int p i) := fun q k hq hk =>
  d.word_setInt _ _ _ _ (by unfold csrKey; omega) (by unfold csrKey; omega)

theorem Dev.resetPage_keepsIsland (d : Dev) {p : Nat} (hp : 5 ≤ p) : d.KeepsIsland (d.resetPage p) := fun q k hq hk =>
  Map.rd_dropRange_out _ _ _ _ (.inl (by unfold csrKey; omega))

/-- No domain has a page of the service island. -/
theorem pageDom_island {p : Nat} (hp : p < 5) : pageDom p = none := by
  interval_cases p <;> rfl

theorem Dev.resetPages_keepsIsland (d : Dev) (n : Nat) :
    d.KeepsIsland ((assignedPages.filter fun p => pageDom p = some n).foldl (fun d p => d.resetPage p) d) := by
  refine .foldl (fun d p hp => d.resetPage_keepsIsland ?_) d
  by_contra hlt
  have hdom : pageDom p = some n := by simpa using (List.mem_filter.1 hp).2
  exact absurd hdom (by rw [pageDom_island (by omega)]; nofun)

theorem Dev.resetPeers_keepsIsland (d : Dev) (die : Nat) : d.KeepsIsland (d.resetPeers die) :=
  d.setWord_keepsIsland _ (by unfold ulxPage; omega)

theorem Dev.updReach_keepsIsland (d : Dev) : d.KeepsIsland d.updReach := by
  unfold Dev.updReach
  refine .trans (.foldl (fun d die _ => ?_) d) (.of_csr rfl)
  refine .ite _ (.of_csr rfl) (.trans (d.setWord_keepsIsland _ ?_) (Dev.int_keepsIsland _ _ ?_)) <;> unfold ulxPage <;> omega

/-! The contents of a domain (R48) -/

/-- What a domain holds beside its registers, at its INIT value; with PD27, ALIGNED of the east time unit. -/
def Dev.wipeContents (d : Dev) (n : Nat) : Dev :=
  if n < 8 then (List.range 8).foldl (fun d i => d.wipeCluster (8 * n + i)) d
  else if n < 12 then d.wipeQuadrant (n - 8)
  else if n < 14 then d.wipeBuffer (n - 12)
  else if n < 18 then d.wipeHbm (n - 14)
  else if n < 22 then d.wipeBank (n - 18)
  else if n < 24 then d.wipeUlux (n - 22)
  else if n < 26 then d.wipeCore (n - 24)
  else if n = 26 then { d with peals := [], pealMem := ⟨[], [], [], []⟩, car := ⟨[], [], [], [], [], [], [], []⟩ }
  else if n = 27 then d.set 0x09 F.TIME_STAT_ALIGNED 0
  else if n = 28 then { d with time := TimeUnit.reset, mods := { Modules.reset with present := d.mods.present } }
  else if n = 29 then { d with hif := { HostIf.reset with perst := d.hif.perst }, msix := ⟨[], []⟩, ews := [] }
  else d

/-- The registers of a domain's pages at reset. -/
def Dev.resetDomPages (d : Dev) (n : Nat) : Dev :=
  (assignedPages.filter fun p => pageDom p = some n).foldl (fun d p => d.resetPage p) d

theorem Dev.wipe_eq (d : Dev) (n : Nat) :
    d.wipe n = if n = 22 ∨ n = 23 then (((d.wipeContents n).resetDomPages n).resetPeers (n - 22)).updReach
      else (d.wipeContents n).resetDomPages n := rfl

theorem Dev.losePages_csr (d : Dev) (h : Nat) : (d.losePages h).csr = d.csr := by
  refine Dev.foldl_keeps Dev.csr _ _ (fun d e _ => ?_) d
  rfl

theorem Dev.wipeHbm_csr (d : Dev) (h : Nat) : (d.wipeHbm h).csr = d.csr := d.losePages_csr h

theorem Dev.wipeContents_keepsIsland (d : Dev) (n : Nat) : d.KeepsIsland (d.wipeContents n) := by
  unfold Dev.wipeContents
  refine .ite _ ?clusters <| .ite _ ?quadrant <| .ite _ ?buffer <| .ite _ ?hbm <| .ite _ ?bank <| .ite _ ?ulux <| .ite _ ?core <|
    .ite _ ?edits <| .ite _ ?east <| .ite _ ?time <| .ite _ ?host ?none
  case clusters =>
    refine .foldl (fun d i _ => .of_csr ?_) d
    rfl
  case hbm => exact .of_csr (d.wipeHbm_csr _)
  case east => exact d.setWord_keepsIsland _ (by decide)
  case quadrant | buffer | bank | ulux | core | edits | time | host | none => exact .of_csr rfl

/-- The island's pages read as before once a domain's contents are gone. -/
theorem Dev.wipe_keepsIsland (d : Dev) (n : Nat) : d.KeepsIsland (d.wipe n) := by
  have hpages : d.KeepsIsland ((d.wipeContents n).resetDomPages n) := (d.wipeContents_keepsIsland n).trans (Dev.resetPages_keepsIsland _ n)
  rw [Dev.wipe_eq]
  exact .ite _ ((hpages.trans (Dev.resetPeers_keepsIsland _ _)).trans (Dev.updReach_keepsIsland _)) hpages

/-! Start-up (R38, R39, R54) -/

/-- The state of a domain just set. -/
theorem Dev.domState_setDom_same (d : Dev) (n st : Nat) : (d.setDom n st).domState n = st % 8 := d.get_set_same _ _ _ (by simp only [Fld.at]; decide)

theorem Dev.domState_setDom_ne (d : Dev) {n m : Nat} (st : Nat) (h : m ≠ n) : (d.setDom n st).domState m = d.domState m :=
  d.domState_set _ _ _ (by simp only [Fld.at]; omega)

/-- Every domain listed is OFF once all are set OFF. -/
theorem Dev.domState_allSet (d : Dev) (k : Nat) : ∀ n, n < k → ((List.range k).foldl (fun d n => d.setDom n 0) d).domState n = 0 := by
  induction k with
  | zero => exact fun n hn => absurd hn (Nat.not_lt_zero n)
  | succ k ih =>
    intro n hn
    rw [List.range_succ, List.foldl_append, List.foldl_cons, List.foldl_nil]
    rcases eq_or_ne n k with rfl | hne
    · exact Dev.domState_setDom_same _ _ _
    · rw [Dev.domState_setDom_ne _ _ hne]
      exact ih n (by omega)

/-- The island's pages at their reset values and an empty log, with every domain OFF. -/
def Dev.islandReset (d : Dev) : Dev :=
  (List.range 30).foldl (fun d n => d.setDom n 0)
    { (islandPages.foldl (fun d p => d.resetPage p) d.allOff) with log := ErrLog.reset }

theorem Dev.islandReset_power (d : Dev) : d.islandReset.power = d.allOff.power := by
  refine (Dev.foldl_keeps Dev.power _ _ (fun d n _ => d.set_power _ _ _) _).trans ?_
  refine Dev.foldl_keeps Dev.power _ _ (fun d p _ => ?_) _
  rfl

theorem Dev.islandStart_starts (d : Dev) (id : Nat) (off : d.power.island = false) (ok : d.power.standbyOk = true)
    (high : d.power.rstLow = false) :
    d.islandStart id =
      ((d.islandReset.setPower { d.islandReset.power with island := true, uxId := id }).resetPeers 0).resetPeers 1 :=
  if_neg (by rw [off, ok, high]; decide)

theorem Dev.islandStart_power (d : Dev) (id : Nat) (off : d.power.island = false) (ok : d.power.standbyOk = true)
    (high : d.power.rstLow = false) : (d.islandStart id).power = { d.allOff.power with island := true, uxId := id } := by
  rw [d.islandStart_starts id off ok high, Dev.resetPeers, Dev.setWord_power, Dev.resetPeers, Dev.setWord_power, Dev.setPower_power,
    Dev.islandReset_power]

theorem Dev.islandStart_domState (d : Dev) (id : Nat) (off : d.power.island = false) (ok : d.power.standbyOk = true)
    (high : d.power.rstLow = false) {n : Nat} (hn : n < 30) : (d.islandStart id).domState n = 0 := by
  rw [d.islandStart_starts id off ok high]
  rw [((Dev.resetPeers_keepsIsland _ 0).trans (Dev.resetPeers_keepsIsland _ 1)).domState hn, Dev.setPower_domState]
  exact Dev.domState_allSet _ 30 n hn

theorem Dev.allOff_queues (d : Dev) : d.allOff.power.onQueue = [] ∧ d.allOff.power.offQueue = [] := by
  simp only [Dev.allOff, Dev.set_power, Dev.setPower_power, and_self]

theorem Dev.mainInputValid_running (d : Dev) (island : d.power.island = true) (seen : d.power.lossSeen = false) :
    d.mainInputValid = d.setPower { d.power with vinValid := true, stage1 := true } := by
  simp only [Dev.mainInputValid, Dev.setPower_power, island, seen, Bool.not_true, Bool.false_eq_true, if_false]
  rfl

theorem Dev.mainInputValid_stopped (d : Dev) (island : d.power.island = false) :
    d.mainInputValid = d.setPower { d.power with vinValid := true } := by
  simp only [Dev.mainInputValid, Dev.setPower_power, island, Bool.not_false, if_true]

theorem Dev.busInRegulation_staged (d : Dev) (on : d.power.stage1 = true) :
    d.busInRegulation = d.setPower { d.power with bus := true } := if_pos on

/-- ROOT_LOCK and ALIGN_OK set. -/
def Dev.lockRoot (d : Dev) : Dev := (d.set 0x03 F.CLK_STAT_ROOT_LOCK 1).set 0x03 F.CLK_STAT_ALIGN_OK 1

/-- The clocks run: the root PLL is locked, and REF_OK sets outside holdover. -/
def Dev.lockClocks (d : Dev) : Dev :=
  if d.lockRoot.get 0x03 F.CLK_STAT_HOLDOVER = 0 then d.lockRoot.set 0x03 F.CLK_STAT_REF_OK 1 else d.lockRoot

theorem Dev.lockClocks_eq_or (d : Dev) : d.lockClocks = d.lockRoot.set 0x03 F.CLK_STAT_REF_OK 1 ∨ d.lockClocks = d.lockRoot :=
  ite_eq_or_eq _ _ _

/-- No register but CLK_STAT changes. -/
theorem Dev.lockClocks_word (d : Dev) {q o : Nat} (h : csrKey q o ≠ csrKey 0x03 0x100) : d.lockClocks.word q o = d.word q o := by
  have hroot : d.lockRoot.word q o = d.word q o := by
    rw [Dev.lockRoot, Dev.word_set_ne _ _ _ _ _ _ h, Dev.word_set_ne _ _ _ _ _ _ h]
  rcases d.lockClocks_eq_or with e | e <;> rw [e]
  · rw [Dev.word_set_ne _ _ _ _ _ _ h, hroot]
  · exact hroot

theorem Dev.lockClocks_power (d : Dev) : d.lockClocks.power = d.power := by
  rcases d.lockClocks_eq_or with e | e <;> rw [e] <;> rfl

theorem Dev.lockRoot_rootLock (d : Dev) : d.lockRoot.get 0x03 F.CLK_STAT_ROOT_LOCK = 1 := by
  rw [Dev.lockRoot, Dev.get_set_apart _ _ F.CLK_STAT_ALIGN_OK F.CLK_STAT_ROOT_LOCK _ rfl (by decide) (by decide),
    Dev.get_set_same _ _ _ _ (by decide)]
  rfl

theorem Dev.lockRoot_alignOk (d : Dev) : d.lockRoot.get 0x03 F.CLK_STAT_ALIGN_OK = 1 := Dev.get_set_same _ _ _ _ (by decide)

/-- REF_OK is a field apart. -/
theorem Dev.lockClocks_get (d : Dev) (f : Fld) (ho : f.off = 0x100) (hf : 1 ≤ f.lsb) :
    d.lockClocks.get 0x03 f = d.lockRoot.get 0x03 f := by
  rcases d.lockClocks_eq_or with e | e <;> rw [e]
  exact Dev.get_set_apart _ _ F.CLK_STAT_REF_OK f _ ho (by decide) (.inr hf)

/-- The lock of the root PLL queues PD29 where it is OFF and not queued. -/
theorem Dev.rootPllLock_queues (d : Dev) (bus : d.power.bus = true) (island : d.power.island = true) (hs : d.domState 29 = 0)
    (hq : 29 ∉ d.power.onQueue) :
    d.rootPllLock = d.lockClocks.setPower { d.lockClocks.power with onQueue := 29 :: d.lockClocks.power.onQueue } := by
  have hstate : d.lockClocks.domState 29 = 0 := by
    rw [Dev.domState, Dev.get, d.lockClocks_word (by decide)]
    exact hs
  have hqueue : (!d.lockClocks.power.onQueue.contains 29) = true := by rw [d.lockClocks_power]; simpa using hq
  rw [Dev.rootPllLock, if_neg (by rw [bus, island]; decide)]
  exact if_pos ⟨hstate, hqueue⟩

theorem Dev.rootPllLock_power (d : Dev) (bus : d.power.bus = true) (island : d.power.island = true) (hs : d.domState 29 = 0)
    (hq : 29 ∉ d.power.onQueue) : d.rootPllLock.power = { d.power with onQueue := 29 :: d.power.onQueue } := by
  rw [d.rootPllLock_queues bus island hs hq, Dev.setPower_power, d.lockClocks_power]

/-! The sequencer (R46–R48) -/

theorem Dev.prereqs_lt (d : Dev) : ∀ n, n < 30 → ∀ m ∈ d.prereqs n, m < 30 := by
  unfold Dev.prereqs
  generalize d.flam 0 = west
  generalize d.flam 1 = east
  revert west east
  decide

/-- The prerequisites of a domain are a matter of SVC_CFG and of the states of domains. -/
theorem Dev.KeepsIsland.prereqsOn {a b : Dev} (h : a.KeepsIsland b) {n : Nat} (hn : n < 30) : b.prereqsOn n = a.prereqsOn n := by
  have hflam (die : Nat) : b.flam die = a.flam die := by
    unfold Dev.flam
    split <;> rw [h.get (by decide) (by decide)]
  have hpre : b.prereqs n = a.prereqs n := by simp only [Dev.prereqs, hflam]
  have hon : ∀ m ∈ a.prereqs n, b.domOn m = a.domOn m := fun m hm => by
    rw [Dev.domOn, h.domState (a.prereqs_lt n hn m hm), Dev.domOn]
  rw [Dev.prereqsOn, hpre, Dev.prereqsOn, Bool.eq_iff_iff, List.all_eq_true, List.all_eq_true]
  exact forall₂_congr fun m hm => by rw [hon m hm]

theorem Dev.domainRampStart_ready (d : Dev) {n : Nat} (idle : d.power.current = none) (noOff : d.power.offQueue = [])
    (next : seqOrder.find? d.power.onQueue.contains = some n) (bus : d.power.bus = true) (ready : d.prereqsOn n = true) :
    d.domainRampStart =
      (d.setPower { d.power with onQueue := d.power.onQueue.filter (· ≠ n), current := some n }).setDom n 1 := by
  simp only [Dev.domainRampStart, idle, noOff, next, bus, Bool.not_true, Bool.false_eq_true, if_false]
  exact if_pos ready

theorem Dev.domainRamped_ramp (d : Dev) {n : Nat} (hc : d.power.current = some n) (hs : d.domState n = 1) :
    d.domainRamped = d.setDom n 2 := by
  simp only [Dev.domainRamped, hc, if_pos hs]

/-- The contents and registers of a domain at INIT, where the counter of PD28 runs on (R312). -/
def Dev.initDom (d : Dev) (n : Nat) : Dev := if n = 28 then { d.wipe n with time := d.time } else d.wipe n

theorem Dev.initDom_keepsIsland (d : Dev) (n : Nat) : d.KeepsIsland (d.initDom n) :=
  .ite _ (.trans (d.wipe_keepsIsland n) (.of_csr rfl)) (d.wipe_keepsIsland n)

theorem Dev.domainReady_on (d : Dev) {n : Nat} (hn : n < 30) (hc : d.power.current = some n) (hs : d.domState n = 2) (hne : n ≠ 29)
    (hp : d.domPending n = false) (ready : d.prereqsOn n = true) :
    d.domainReady = ((((d.initDom n).setPower { (d.initDom n).power with current := none }).setDom n 3).setDomPending n false).endChange
      n false := by
  have hon : (!(d.initDom n).prereqsOn n) = false := by rw [(d.initDom_keepsIsland n).prereqsOn hn, ready]; rfl
  rw [Dev.initDom] at hon ⊢
  simp only [Dev.domainReady, hc, hs, hp, hon, hne, ne_eq, not_true_eq_false, false_and, Bool.false_eq_true, if_false]

theorem Dev.domainSwitchOff_next (d : Dev) {n : Nat} (idle : d.power.current = none)
    (next : seqOrder.reverse.find? d.power.offQueue.contains = some n) :
    d.domainSwitchOff =
      ((d.setPower { d.power with current := some n, offQueue := d.power.offQueue.filter (· ≠ n) }).setDom n 4).wipe n := by
  simp only [Dev.domainSwitchOff, idle, next]

theorem Dev.domainDischarged_off (d : Dev) {n : Nat} (hc : d.power.current = some n) (hs : d.domState n = 4)
    (hp : d.domPending n = false) : d.domainDischarged =
      (((d.setPower { d.power with current := none }).setDom n 0).setDomPending n false).endChange n false := by
  simp only [Dev.domainDischarged, hc, hs, hp, ne_eq, not_true_eq_false, if_false, Bool.not_false, if_true]

end Sys2Proof.Machine
end

section
/-! PWR_DOM_REQ and PWR_DOM_FAULT (R49, R51): a write that turns one domain on, and one that clears one fault. -/

namespace Sys2Proof.Machine

/-! Single bits -/

theorem setBit_of_clear {v i : Nat} (h : bit v i = false) : setBit v i = v + 2 ^ i := if_neg (by rw [h]; decide)

theorem bit_setBit_same (v i : Nat) : bit (setBit v i) i = true := by
  show (bits (setBit v i) i 1 == 1) = true
  rw [setBit_eq_putBits, bits_putBits]
  rfl

theorem bit_setBit_ne (v : Nat) {i j : Nat} (h : j ≠ i) : bit (setBit v i) j = bit v j := by
  show (bits (setBit v i) j 1 == 1) = (bits v j 1 == 1)
  rw [setBit_eq_putBits, bits_putBits_ne _ _ _ _ _ _ (by omega)]

theorem setBit_lt {v i k : Nat} (hv : v < 2 ^ k) (hi : i < k) : setBit v i < 2 ^ k := by
  rw [setBit_eq_putBits]
  exact putBits_lt _ _ _ _ _ hv hi

/-- A fold over a list without repeats in which one member alone acts. -/
theorem foldl_single {α β : Type} {f : α → β → α} {l : List β} {b : β} (hl : l.Nodup) (hb : b ∈ l)
    (h : ∀ a, ∀ x ∈ l, x ≠ b → f a x = a) (a : α) : l.foldl f a = f a b := by
  obtain ⟨pre, post, rfl⟩ := List.append_of_mem hb
  have hskip : ∀ m : List β, (∀ x ∈ m, x ∈ pre ++ b :: post ∧ x ≠ b) → ∀ a, m.foldl f a = a := fun m hm a =>
    List.foldlRecOn (motive := (· = a)) m f rfl fun y hy x hx => by rw [hy]; exact h a x (hm x hx).1 (hm x hx).2
  obtain ⟨-, hpost, hne⟩ := List.nodup_append.1 hl
  rw [List.foldl_append, List.foldl_cons, hskip pre fun x hx => ⟨by simp [hx], hne x hx b (by simp)⟩,
    hskip post fun x hx => ⟨by simp [hx], fun e => (List.nodup_cons.1 hpost).1 (e ▸ hx)⟩]

/-! PWR_DOM_REQ (R49) -/

theorem seqOrder_nodup : seqOrder.Nodup := by decide

theorem mem_seqOrder {n : Nat} (hn : n < 30) : n ∈ seqOrder := by
  revert n
  decide

/-- A write that adds domain `n`, which has nothing against it, to the requests `old`: the bit turns on, and nothing is refused. -/
theorem Dev.judgeOn_one (d : Dev) {n old : Nat} (hn : n < 30) (hne : n ≠ 29) (hmode : d.mode = 0 → 26 < n) (trip : d.power.trip = false)
    (hold : bit old n = false) (hfault : bit (d.get 0x02 F.PWR_DOM_FAULT_FAULT) n = false) (hpre : ∀ p ∈ d.prereqs n, d.domOn p = true) :
    d.judgeOn old (setBit old n) = (setBit old n, [], [], []) := by
  refine (foldl_single seqOrder_nodup (mem_seqOrder hn) ?others _).trans ?this
  case others =>
    rintro ⟨new, kinds, refused, mode⟩ m - hm
    refine if_pos (.inr ?_)
    rw [bit_setBit_ne old hm]
    cases bit old m <;> decide
  case this =>
    have hon : (!((d.prereqs n).all fun p => d.domOn p || bit old p && bit (setBit old n) p)) = false := by
      rw [Bool.not_eq_false', List.all_eq_true]
      exact fun p hp => by rw [hpre p hp, Bool.true_or]
    have hallowed : ¬(d.mode = 0 ∧ n ≤ 26) := fun ⟨h0, hle⟩ => absurd (hmode h0) (by omega)
    simp only [hne, bit_setBit_same, hold, Bool.not_true, Bool.false_eq_true, or_false, if_false, if_neg hallowed, hon, hfault, trip]

/-- Such a write turns no domain off. -/
theorem Dev.judgeOff_one (d : Dev) (n old : Nat) (a : Nat × List Nat × List Nat) : d.judgeOff old (setBit old n) a = a := by
  refine List.foldlRecOn (motive := (· = a)) _ _ rfl fun x hx m _ => ?_
  obtain ⟨new, kinds, refused⟩ := x
  have hkept : bit (setBit old n) m = true ∨ (!bit old m) = true := by
    rcases eq_or_ne m n with rfl | hm
    · exact .inl (bit_setBit_same old m)
    · rw [bit_setBit_ne old hm]
      cases bit old m <;> decide
  exact (if_pos (.inr hkept)).trans hx

/-- Such a write changes the request of `n` alone. -/
theorem changed_one {n old : Nat} (hn : n < 30) (hne : n ≠ 29) (hold : bit old n = false) :
    (seqOrder.filter fun m => m != 29 && (bit (setBit old n) m != bit old m)) = [n] := by
  refine filter_eq_singleton seqOrder_nodup (mem_seqOrder hn) fun m _ => ?_
  rcases eq_or_ne m n with rfl | hm
  · rw [bit_setBit_same, hold]
    simpa using hne
  · rw [bit_setBit_ne old hm, bne_self_eq_false, Bool.and_false]
    exact (beq_eq_false_iff_ne.2 hm).symm

/-- A domain that is OFF joins the ramps that wait. -/
theorem Dev.takeChange_off (d : Dev) {n : Nat} (hs : d.domState n = 0) :
    d.takeChange n true = d.setPower { d.power with onQueue := n :: d.power.onQueue.filter (· ≠ n) } := by
  simp only [Dev.takeChange, hs]
  rfl

/-- The fields of the word that a write of PWR_DOM_REQ carries: REQ, and REQ29 set with no reserved bit. -/
theorem domReq_word {v w : Nat} (hw : w < 2 ^ 29) (h : v = 2 ^ 29 + w) :
    bits v 0 29 = w ∧ bit v 29 = true ∧ bits v 30 2 = 0 := by
  simp only [bits, bit, beq_iff_eq]
  omega

theorem Dev.domReq_lt (d : Dev) : d.domReq < 2 ^ 29 := bits_lt _ 0 29

theorem Dev.setDomReq_power (d : Dev) (v : Nat) : (d.setDomReq v).power = d.power := by
  rw [Dev.setDomReq, Dev.set_power]

theorem Dev.setPower_setPower (d : Dev) (x y : Power) : (d.setPower x).setPower y = d.setPower y := rfl

/-- A write that refuses nothing and changes one request. -/
theorem Dev.domainRequest_of_judged (d : Dev) {n v req new : Nat} (hon : d.judgeOn d.domReq (bits v 0 29) = (new, [], [], []))
    (hoff : d.judgeOff d.domReq (bits v 0 29) (new, [], []) = (new, [], [])) (h29 : bit v 29 = true) (hrsv : bits v 30 2 = 0)
    (hchanged : (seqOrder.filter fun m => m != 29 && (bit new m != bit d.domReq m)) = [n]) :
    d.domainRequest v req =
      ((d.setDomReq new).setPower { d.power with changes := d.power.changes ++ [[n]] }).takeChange n (bit new n) := by
  simp only [Dev.domainRequest, hon, hoff, h29, hrsv, hchanged, if_true, List.append_nil, Dev.capture_nil, and_self, List.cons_ne_nil,
    if_false, List.foldl_cons, List.foldl_nil, Dev.setDomReq_power]

theorem Dev.domainRequest_one (d : Dev) {n v req : Nat} (hn : n < 30) (hne : n ≠ 29) (hmode : d.mode = 0 → 26 < n)
    (trip : d.power.trip = false) (hold : bit d.domReq n = false) (hv : v = 2 ^ 29 + setBit d.domReq n) (hs : d.domState n = 0)
    (hfault : bit (d.get 0x02 F.PWR_DOM_FAULT_FAULT) n = false) (hpre : ∀ p ∈ d.prereqs n, d.domOn p = true) :
    d.domainRequest v req = (d.setDomReq (setBit d.domReq n)).setPower { d.power with
      changes := d.power.changes ++ [[n]], onQueue := n :: d.power.onQueue.filter (· ≠ n) } := by
  obtain ⟨hwant, h29, hrsv⟩ := domReq_word (setBit_lt (i := n) d.domReq_lt (by omega)) hv
  have hon : d.judgeOn d.domReq (bits v 0 29) = (setBit d.domReq n, [], [], []) := by
    rw [hwant, d.judgeOn_one hn hne hmode trip hold hfault hpre]
  have hoff : d.judgeOff d.domReq (bits v 0 29) (setBit d.domReq n, [], []) = (setBit d.domReq n, [], []) := by
    rw [hwant, d.judgeOff_one]
  have hstate : (d.setDomReq (setBit d.domReq n)).domState n = 0 := (d.domState_set _ _ _ (by show 0x100 ≠ _; omega)).trans hs
  rw [d.domainRequest_of_judged hon hoff h29 hrsv (changed_one hn hne hold), bit_setBit_same]
  rw [Dev.takeChange_off _ ((Dev.setPower_domState _ _ _).trans hstate), Dev.setPower_setPower, Dev.setPower_power]

/-! PWR_DOM_FAULT (R51) -/

/-- PWR_DOM_FAULT. -/
def domFaultReg : RegDesc := ⟨0x0104, 1, 65536, 1, 4, .single, [⟨0, 30, .w1c, 0, false⟩]⟩

theorem regAt_domFault : regAt 0x02 0x0104 = some domFaultReg := by decide

/-- A number below 2 ^ 30 has neither of the bits above. -/
theorem land_above_thirty {v : Nat} (hv : v < 2 ^ 30) : Nat.land v (2 ^ 30 * 3) = 0 := by
  refine Nat.eq_of_testBit_eq fun i => ?_
  rw [show Nat.land v (2 ^ 30 * 3) = v &&& 2 ^ 30 * 3 from rfl, Nat.testBit_and, Nat.zero_testBit, Nat.testBit_two_pow_mul]
  rcases lt_or_ge i 30 with hi | hi
  · simp [hi]
  · rw [Nat.testBit_lt_two_pow (hv.trans_le (Nat.pow_le_pow_right two_pos hi)), Bool.false_and]

/-- A write of PWR_DOM_FAULT with no reserved bit shows no kind. -/
theorem judgeWrite_domFault (mode cur : Nat) {v : Nat} (hv : v < 2 ^ 30) : judgeWrite (some domFaultReg) mode cur v = [] := by
  have hrsv : Nat.land v (2 ^ 32 - 1 - domFaultReg.mask fun _ => true) = 0 := land_above_thirty hv
  rw [judgeWrite, if_pos hrsv]
  simp [domFaultReg]

theorem Dev.regWrite_domFault (d : Dev) {v : Word} (req : Nat) (hv : v.toNat < 2 ^ 30) :
    d.regWrite 0x02 0x0104 v req = d.faultClear v.toNat := by
  have hj := judgeWrite_domFault d.mode (d.shown 0x02 0x0104).toNat hv
  have hi : d.ignores 0x02 0x0104 v.toNat = [] := rfl
  have hb : d.boundCheck 0x02 0x0104 = (d, []) := rfl
  have hr : d.actRefused 0x02 0x0104 v.toNat = none := rfl
  have ha (old : Nat) : d.act 0x02 0x0104 v.toNat old = d.faultClear v.toNat := rfl
  have hk : pageKind 0x02 = .pwr := rfl
  have hh : domFaultReg.half = .single := rfl
  simp [Dev.regWrite, regAt_domFault, hj, hi, hb, hr, ha, hk, hh]

theorem Dev.regWrite_domReq (d : Dev) (v : Word) (req : Nat) : d.regWrite 0x02 0x0100 v req = d.domainRequest v.toNat req := by
  simp [Dev.regWrite]

end Sys2Proof.Machine
end

section
/-! Telemetry (R44): the rows of supplies, rails and temperatures that an update shows; and with it the commands of O16. -/

namespace Sys2Proof.Machine

/-! Rows of registers -/

/-- The row of `k` registers from `base` on takes the words that `f` makes. -/
def Dev.setRow (d : Dev) (p base k : Nat) (f : Dev → Nat → Word) : Dev :=
  (List.range k).foldl (fun d i => d.setWord p (base + 4 * i) (f d i)) d

theorem Dev.setRow_keeps {α : Type} (g : Dev → α) (d : Dev) (p base k : Nat) (f : Dev → Nat → Word)
    (h : ∀ (d : Dev) (i : Nat) (w : Word), i < k → g (d.setWord p (base + 4 * i) w) = g d) : g (d.setRow p base k f) = g d :=
  Dev.foldl_keeps g _ _ (fun d i hi => h d i _ (List.mem_range.1 hi)) d

/-- A register outside the row reads as before. -/
theorem Dev.setRow_word_out (d : Dev) (p base k : Nat) (f : Dev → Nat → Word) {o : Nat} (h : o < base ∨ base + 4 * k ≤ o) :
    (d.setRow p base k f).word p o = d.word p o :=
  Dev.setRow_keeps (Dev.word · p o) d p base k f fun d i w hi => d.word_setWord_off p w (by omega)

/-- A register of the row reads as the word made of it, where the writes of the row leave what that word is made of. -/
theorem Dev.setRow_word_in (d : Dev) (p base : Nat) (f : Dev → Nat → Word) (k : Nat) :
    ∀ i, i < k → (∀ (d : Dev) (j : Nat) (w : Word), f (d.setWord p (base + 4 * j) w) i = f d i) →
      (d.setRow p base k f).word p (base + 4 * i) = f d i := by
  induction k with
  | zero => exact fun i hi => absurd hi (Nat.not_lt_zero i)
  | succ k ih =>
    intro i hi hf
    have hlast : d.setRow p base (k + 1) f =
        (d.setRow p base k f).setWord p (base + 4 * k) (f (d.setRow p base k f) k) := by
      rw [Dev.setRow, List.range_succ, List.foldl_append]
      rfl
    rw [hlast]
    rcases eq_or_ne i k with rfl | hne
    · rw [Dev.word_setWord_same]
      exact Dev.setRow_keeps (f · i) d p base i f fun d j w _ => hf d j w
    · rw [Dev.word_setWord_off _ _ _ (by omega)]
      exact ih i (by omega) hf

/-! Temperatures -/

/-- A sensor takes a reading, and warns where it was cool before and is no more (R45). -/
def Dev.takeTemp (d : Dev) (x : Nat × BitVec 12) : Dev :=
  let e := d.set 0x02 (F.PWR_TEMP_TEMP.at (4 * x.1)) x.2.toNat
  if d.sensorCool x.1 && !e.sensorCool x.1 then e.int 0x02 3 else e

/-- The warning is an interrupt: no register but INT_STAT and INT_FIRST changes with it. -/
theorem Dev.takeTemp_word (d : Dev) (x : Nat × BitVec 12) {o : Nat} (h : 0x20 ≤ o) :
    (d.takeTemp x).word 0x02 o = (d.set 0x02 (F.PWR_TEMP_TEMP.at (4 * x.1)) x.2.toNat).word 0x02 o := by
  unfold Dev.takeTemp
  dsimp only
  split
  · exact Dev.word_setInt _ _ _ _ _ (by unfold csrKey; omega) (by unfold csrKey; omega)
  · rfl

theorem Dev.takeTemp_word_ne (d : Dev) (x : Nat × BitVec 12) {o : Nat} (h : 0x20 ≤ o) (ho : o ≠ 0x300 + 4 * x.1) :
    (d.takeTemp x).word 0x02 o = d.word 0x02 o :=
  (d.takeTemp_word x h).trans (d.word_setWord_off _ _ ho)

theorem Dev.takeTemp_get_same (d : Dev) (i : Nat) (t : BitVec 12) :
    (d.takeTemp (i, t)).get 0x02 (F.PWR_TEMP_TEMP.at (4 * i)) = t.toNat := by
  rw [Dev.get, d.takeTemp_word _ (by simp only [Fld.at]; omega)]
  exact (d.get_set_same _ _ _ (by simp only [Fld.at]; decide)).trans (Nat.mod_eq_of_lt t.isLt)

theorem Dev.takeTemp_get_ne (d : Dev) (x : Nat × BitVec 12) {i : Nat} (h : i ≠ x.1) :
    (d.takeTemp x).get 0x02 (F.PWR_TEMP_TEMP.at (4 * i)) = d.get 0x02 (F.PWR_TEMP_TEMP.at (4 * i)) := by
  rw [Dev.get, d.takeTemp_word_ne x (by simp only [Fld.at]; omega) (by simp only [Fld.at]; omega), Dev.get]

/-- The readings `l` of `n` sensors from number `k` on: each sensor that has one shows it. -/
theorem Dev.foldl_takeTemp_get (l : List (BitVec 12)) : ∀ (k n i : Nat) (d : Dev),
    (((List.range' k n).zip l).foldl Dev.takeTemp d).get 0x02 (F.PWR_TEMP_TEMP.at (4 * i)) =
      if k ≤ i ∧ i < k + n ∧ i < k + l.length then (l.getD (i - k) 0).toNat else d.get 0x02 (F.PWR_TEMP_TEMP.at (4 * i)) := by
  induction l with
  | nil =>
    intro k n i d
    rw [List.zip_nil_right, List.foldl_nil, if_neg (by simp only [List.length_nil]; omega)]
  | cons t l ih =>
    intro k n i d
    cases n with
    | zero => rw [List.range'_zero, List.zip_nil_left, List.foldl_nil, if_neg (by omega)]
    | succ n =>
      rw [List.range'_succ, List.zip_cons_cons, List.foldl_cons, ih, List.length_cons]
      rcases eq_or_ne i k with rfl | hne
      · rw [if_neg (by omega), if_pos (by omega), d.takeTemp_get_same, Nat.sub_self]
        rfl
      · rw [d.takeTemp_get_ne _ hne]
        by_cases h : k + 1 ≤ i ∧ i < k + 1 + n ∧ i < k + 1 + l.length
        · rw [if_pos h, if_pos (by omega), show i - k = i - (k + 1) + 1 by omega, List.getD_cons_succ]
        · rw [if_neg h, if_neg (by omega)]

theorem Dev.foldl_takeTemp_word (d : Dev) (l : List (Nat × BitVec 12)) {o : Nat} (hlo : 0x20 ≤ o) (hhi : o < 0x300) :
    (l.foldl Dev.takeTemp d).word 0x02 o = d.word 0x02 o :=
  Dev.foldl_keeps (Dev.word · 0x02 o) _ _ (fun d x _ => d.takeTemp_word_ne x hlo (by omega)) d

/-! The update -/

/-- The main rail of a domain as an update shows it: 0 outside INIT and ON. -/
def Dev.railShown (rails : List Word) (d : Dev) (n : Nat) : Word :=
  if d.domState n = 2 ∨ d.domState n = 3 then rails.getD n 0 else 0

/-- The supplies and the rails of an update. -/
def Dev.showPower (d : Dev) (supply rails : List Word) : Dev :=
  (d.setRow 0x02 0x010C 3 fun _ i => supply.getD i 0).setRow 0x02 0x0280 30 (Dev.railShown rails)

theorem Dev.thermRelease_word (d : Dev) (q o : Nat) : d.thermRelease.word q o = d.word q o := by
  unfold Dev.thermRelease
  dsimp only
  split <;> rfl

theorem Dev.telemetry_running (d : Dev) (supply rails : List Word) (temps : List (BitVec 12)) (island : d.power.island = true) :
    d.telemetry supply rails temps =
      (((List.range 16).zip temps).foldl Dev.takeTemp (d.showPower supply rails)).thermRelease := if_neg (by rw [island]; decide)

section
variable (d : Dev) (supply rails : List Word) (temps : List (BitVec 12)) (island : d.power.island = true)
include island

/-- The registers below the temperatures are those of the supplies and the rails. -/
theorem Dev.telemetry_word {o : Nat} (hlo : 0x20 ≤ o) (hhi : o < 0x300) :
    (d.telemetry supply rails temps).word 0x02 o = (d.showPower supply rails).word 0x02 o := by
  rw [d.telemetry_running supply rails temps island, Dev.thermRelease_word, Dev.foldl_takeTemp_word _ _ hlo hhi]

theorem Dev.telemetry_supply {i : Nat} (hi : i < 3) :
    (d.telemetry supply rails temps).word 0x02 (0x010C + 4 * i) = supply.getD i 0 := by
  rw [d.telemetry_word supply rails temps island (by omega) (by omega), Dev.showPower, Dev.setRow_word_out _ _ _ _ _ (.inl (by omega)),
    Dev.setRow_word_in _ _ _ _ _ i hi fun _ _ _ => rfl]

theorem Dev.telemetry_rail {i : Nat} (hi : i < 30) :
    (d.telemetry supply rails temps).word 0x02 (0x0280 + 4 * i) = d.railShown rails i := by
  have hstate (d : Dev) (o : Nat) (w : Word) (ho : 0x200 + 4 * i ≠ o) : (d.setWord 0x02 o w).railShown rails i = d.railShown rails i := by
    have h : (d.setWord 0x02 o w).domState i = d.domState i := by
      rw [Dev.domState, Dev.get, d.word_setWord_off _ _ (by simpa only [Fld.at] using ho), Dev.domState, Dev.get]
    rw [Dev.railShown, h, Dev.railShown]
  rw [d.telemetry_word supply rails temps island (by omega) (by omega), Dev.showPower,
    Dev.setRow_word_in _ _ _ _ _ i hi fun d j w => hstate d _ w (by omega)]
  exact Dev.setRow_keeps (Dev.railShown rails · i) d _ _ _ _ fun d j w hj => hstate d _ w (by omega)

theorem Dev.telemetry_temp {i : Nat} (hi : i < 16) :
    (d.telemetry supply rails temps).get 0x02 (F.PWR_TEMP_TEMP.at (4 * i)) =
      if i < temps.length then (temps.getD i 0).toNat else d.get 0x02 (F.PWR_TEMP_TEMP.at (4 * i)) := by
  have hpower : (d.showPower supply rails).get 0x02 (F.PWR_TEMP_TEMP.at (4 * i)) = d.get 0x02 (F.PWR_TEMP_TEMP.at (4 * i)) := by
    rw [Dev.get, Dev.showPower, Dev.setRow_word_out _ _ _ _ _ (.inr (by simp only [Fld.at]; omega)),
      Dev.setRow_word_out _ _ _ _ _ (.inr (by simp only [Fld.at]; omega)), Dev.get]
  rw [d.telemetry_running supply rails temps island, Dev.get, Dev.thermRelease_word, ← Dev.get, List.range_eq_range',
    Dev.foldl_takeTemp_get, hpower, Nat.sub_zero]
  simp only [Nat.zero_le, Nat.zero_add, hi, true_and]

end

/-- Settles O16: the inputs and the island by the state of both, the sequencer's steps by the domain in hand, and the host's requests
and telemetry by what they name. -/
theorem domainsAreSwitchedInOrder : Obligations.DomainsAreSwitchedInOrder := by
  unfold Obligations.DomainsAreSwitchedInOrder
  refine ⟨fun s id => ⟨rfl, rfl, fun off ok high => ?start, fun on seen => ?valid, fun off => ?validStopped, fun on => ?bus,
      fun bus on hs hq => ?lock⟩,
    fun s n hn => ⟨fun idle noOff next bus ready => ?ramp, fun hc hs => ?ramped, fun hc hs hne hp ready => ?ready, fun idle next => ?off,
      fun hc hs hp => ?discharged⟩,
    fun s n data req supply rails temps dom hn => ⟨fun hr hne hmode trip hold hv hs hfault hpre => ?request, fun hr hv hfault hs => ?clear,
      fun on => ⟨?timeout, ?telemetry⟩⟩⟩
  case start =>
    have hp := s.dev.islandStart_power id.val off ok high
    obtain ⟨hstage, hbus⟩ := s.dev.allOff_stages
    obtain ⟨hon, hoff⟩ := s.dev.allOff_queues
    refine ⟨_, rfl, rfl, rfl, ?_⟩
    dsimp only
    rw [hp]
    exact ⟨rfl, rfl, hbus, hstage, hon, hoff, fun n hn => s.dev.islandStart_domState id.val off ok high hn⟩
  case valid => exact next_dev (s.dev.mainInputValid_running on seen)
  case validStopped => exact next_dev (s.dev.mainInputValid_stopped off)
  case bus => exact next_dev (s.dev.busInRegulation_staged on)
  case lock =>
    have h := s.dev.rootPllLock_queues bus on hs hq
    refine ⟨{ s with dev := s.dev.rootPllLock }, rfl, ?_, ?_, s.dev.rootPllLock_power bus on hs hq, fun q o hk => ?_⟩
    · exact (congrArg (Dev.get · 0x03 F.CLK_STAT_ROOT_LOCK) h).trans ((s.dev.lockClocks_get _ rfl (by decide)).trans s.dev.lockRoot_rootLock)
    · exact (congrArg (Dev.get · 0x03 F.CLK_STAT_ALIGN_OK) h).trans ((s.dev.lockClocks_get _ rfl (by decide)).trans s.dev.lockRoot_alignOk)
    · exact (congrArg (Dev.word · q o) h).trans (s.dev.lockClocks_word hk)
  case ramp => exact next_dev (s.dev.domainRampStart_ready idle noOff next bus ready)
  case ramped => exact next_dev (s.dev.domainRamped_ramp hc hs)
  case ready => exact next_dev (s.dev.domainReady_on hn hc hs hne hp ready)
  case off => exact next_dev (s.dev.domainSwitchOff_next idle next)
  case discharged => exact next_dev (s.dev.domainDischarged_off hc hs hp)
  case request =>
    have hset : s.dev.domReq + 2 ^ n = setBit s.dev.domReq n := (setBit_of_clear hold).symm
    have hword : data.toNat = 2 ^ 29 + setBit s.dev.domReq n := by omega
    rw [hset]
    exact (runHost_regWrite s (p := 0x02) (o := 0x0100) data req hr (by decide) (by decide) (by decide)).trans
      (next_dev ((s.dev.regWrite_domReq data req.toNat).trans
        (s.dev.domainRequest_one hn hne hmode trip hold hword hs hfault hpre)))
  case clear =>
    have hlt : data.toNat < 2 ^ 30 := hv ▸ Nat.pow_lt_pow_right one_lt_two hn
    exact (runHost_regWrite s (p := 0x02) (o := 0x0104) data req hr (by decide) (by decide) (by decide)).trans
      (next_dev ((s.dev.regWrite_domFault req.toNat hlt).trans (by rw [hv, s.dev.faultClear_one hn hfault hs])))
  case timeout => exact next_dev (s.dev.linkTimeout_some dom.val on)
  case telemetry =>
    exact ⟨{ s with dev := s.dev.telemetry supply rails temps }, rfl, rfl, rfl, fun i hi => s.dev.telemetry_supply supply rails temps on hi,
      fun i hi => s.dev.telemetry_rail supply rails temps on hi, fun i hi => s.dev.telemetry_temp supply rails temps on hi⟩

end Sys2Proof.Machine
end

section
/-! Function control (R65 to R68): what a START or a STOP does in each state of the function, and how a function arrives. -/

namespace Sys2Proof.Machine

/-- A refusal's source: a host's write of `v` at this offset that shows no other kind. -/
def FnSource.host (off v req : Nat) : FnSource := ⟨off, v, true, req, []⟩

/-! The write of FN_CTRL -/

/-- FN_CTRL of a page (R21). -/
def fnCtrlReg : RegDesc := ⟨0x08, 1, 65536, 1, 4, .single, [⟨0, 2, .wo, 0, false⟩]⟩

theorem regAt_fnCtrl (p : Nat) : regAt p 0x08 = some fnCtrlReg := by
  simp [regAt, headerRegs, RegDesc.hit, fnCtrlReg]

theorem judgeWrite_fnCtrl (mode cur : Nat) {v : Nat} (hv : v = 1 ∨ v = 2) : judgeWrite (some fnCtrlReg) mode cur v = [] := by
  have hrsv : Nat.land v (2 ^ 32 - 1 - fnCtrlReg.mask fun _ => true) = 0 := by rcases hv with rfl | rfl <;> decide
  simp only [judgeWrite, hrsv]
  simp [fnCtrlReg]

/-- A write of START or STOP alone to a page with a function is its function control and shows no other kind. -/
theorem Dev.regWrite_fnCtrl (d : Dev) {p v : Nat} (req : Nat) (hf : hasFunction p = true) (hv : v = 1 ∨ v = 2) :
    d.regWrite p 0x08 (BitVec.ofNat 32 v) req = d.fnWrite p v req [] := by
  have hn : (BitVec.ofNat 32 v).toNat = v := by rcases hv with rfl | rfl <;> rfl
  have hi : d.ignores p 0x08 v = [] := by rcases hv with rfl | rfl <;> simp [Dev.ignores, bit, hf]
  simp [Dev.regWrite, hn, regAt_fnCtrl, judgeWrite_fnCtrl _ _ hv, hi]

theorem Dev.fnWrite_start (d : Dev) (p req : Nat) : d.fnWrite p 1 req [] = d.fnStart p (.host 0x08 1 req) := by
  simp [Dev.fnWrite, bit, FnSource.host]

theorem Dev.fnWrite_stop (d : Dev) (p req : Nat) : d.fnWrite p 2 req [] = d.fnStop p (.host 0x08 2 req) := by
  simp [Dev.fnWrite, bit, FnSource.host]

/-- FN_CTRL has WO bits alone, so that a command of its actions writes just these. -/
theorem Reach.act_fnCtrl (x : Reach) {p v : Nat} (req : Nat) (hr : x.dev.reachable p) (hf : hasFunction p = true) (hv : v = 1 ∨ v = 2) :
    x.act p 0x08 v req = ⟨x.trust, x.dev.fnWrite p v req []⟩ := by
  have hkeep : fnCtrlReg.keepMask = 0 := by decide
  have hword : Nat.lor (x.defined p 0x08) v = v := by
    simp only [Reach.defined, regAt_fnCtrl, hkeep]
    show (_ &&& 0) ||| v = v
    simp
  rw [Reach.act, hword, Reach.hostWrite_reg x p 0x08 _ req hr (by decide) (by decide) (isTrust_of_header p (by decide)),
    Dev.regWrite_fnCtrl _ _ hf hv]

theorem exec_fnStart (s : State) (page : Fin 256) (req : BitVec 16) (hr : s.dev.reachable page.val) (hf : hasFunction page.val = true) :
    exec (.fnStart page req) s = .next { s with dev := s.dev.fnStart page.val (.host 0x08 1 req.toNat) } :=
  runHost_eq _ s _ ((Reach.act_fnCtrl ⟨s.trust, s.dev⟩ _ hr hf (.inl rfl)).trans (by rw [Dev.fnWrite_start]))

theorem exec_fnStop (s : State) (page : Fin 256) (req : BitVec 16) (hr : s.dev.reachable page.val) (hf : hasFunction page.val = true) :
    exec (.fnStop page req) s = .next { s with dev := s.dev.fnStop page.val (.host 0x08 2 req.toNat) } :=
  runHost_eq _ s _ ((Reach.act_fnCtrl ⟨s.trust, s.dev⟩ _ hr hf (.inr rfl)).trans (by rw [Dev.fnWrite_stop]))

/-! START and STOP by the state of the function (R65, R66) -/

section
variable (d : Dev) {p : Nat} (src : FnSource) (hf : hasFunction p = true) (on : d.pageOn p = true)
include hf on

theorem Dev.fnStop_stopped (st : d.fn p = 0) : d.fnStop p src = d := by simp [Dev.fnStop, hf, on, st]

theorem Dev.fnStop_starting (st : d.fn p = 1) : d.fnStop p src = d.pendFn p 1 := by simp [Dev.fnStop, hf, on, st]

theorem Dev.fnStop_running (st : d.fn p = 2) (free : d.stopBlockers p = []) : d.fnStop p src = d.goStop p := by
  simp [Dev.fnStop, hf, on, st, free]

theorem Dev.fnStop_refused {b : Nat} (st : d.fn p = 2) (blocked : (d.stopBlockers p).min? = some b) : d.fnStop p src = d.fnDep p b src := by
  simp [Dev.fnStop, hf, on, st, blocked]

theorem Dev.fnStop_stopping (st : d.fn p = 3) : d.fnStop p src = d.pendFn p 0 := by simp [Dev.fnStop, hf, on, st]

variable (own : d.modes.stopping = false)
include own

theorem Dev.fnStart_stopped (st : d.fn p = 0) (free : d.startBlocker p = none) : d.fnStart p src = (d.goStart p true).afterStart p := by
  simp [Dev.fnStart, hf, on, own, st, free]

theorem Dev.fnStart_refused {b : Nat} (st : d.fn p = 0) (blocked : d.startBlocker p = some b) : d.fnStart p src = d.fnDep p b src := by
  simp [Dev.fnStart, hf, on, own, st, blocked]

theorem Dev.fnStart_starting (st : d.fn p = 1) : d.fnStart p src = d.pendFn p 0 := by simp [Dev.fnStart, hf, on, own, st]

theorem Dev.fnStart_running (st : d.fn p = 2) : d.fnStart p src = d := by simp [Dev.fnStart, hf, on, own, st]

theorem Dev.fnStart_stopping (st : d.fn p = 3) : d.fnStart p src = d.pendFn p 1 := by simp [Dev.fnStart, hf, on, own, st]

end

theorem Dev.startInit_noImage (d : Dev) {p : Nat} (hk : pageKind p = .eng) (invalid : d.get p F.ENG_IMG_STAT_VALID = 0) :
    d.startInit p = d.startFail p 1 := by
  simp only [Dev.startInit, hk]
  rw [if_pos invalid]

/-- A cluster without a valid image fails its start at once with cause 1 (R67, R147). -/
theorem Dev.goStart_noImage (d : Dev) {p : Nat} (hk : pageKind p = .eng)
    (invalid : (((d.setFn p 1 0).applyOf p).resetRr p).get p F.ENG_IMG_STAT_VALID = 0) :
    d.goStart p true = (((d.setFn p 1 0).applyOf p).resetRr p).startFail p 1 := by
  have hhalf : d.halfGang p = false := by simp [Dev.halfGang, hk]
  have hgang : d.gang p = [p] := by simp [Dev.gang, hk]
  rw [Dev.goStart, if_neg (by simp [hhalf]), hgang]
  exact Dev.startInit_noImage _ hk invalid

/-! Arriving (R65, R67, R68) -/

section
variable (d : Dev) {p : Nat} (hf : hasFunction p = true) (on : d.pageOn p = true) (single : d.gang p = [p]) (pend : d.get p H.PENDING ≠ 1)
include hf on single pend

theorem Dev.fnStartDone_runs (starting : d.fn p = 1) (trained : ¬(pageKind p = .hbm ∧ (d.hbm (pageInst p)).training = true)) :
    d.fnStartDone p = ((d.fnArrive p 2).fnRunning p).pump := by
  rw [Dev.fnStartDone, if_neg (by simp [hf, on, starting]), if_neg trained]
  simp [single, pend]

theorem Dev.fnStopDone_stopped (stopping : d.fn p = 3) (own : d.modes.stopping = false) (done : d.workDone p = true) :
    d.fnStopDone p = ((d.stopEnd p).fnArrive p 0).pump := by
  rw [Dev.fnStopDone, if_neg (by simp [hf, on, stopping])]
  simp [own, done, single, pend]

omit single pend in
/-- A function that holds work stays STOPPING (R68). -/
theorem Dev.fnStopDone_held (stopping : d.fn p = 3) (own : d.modes.stopping = false) (held : d.workDone p = false) : d.fnStopDone p = d := by
  rw [Dev.fnStopDone, if_neg (by simp [hf, on, stopping])]
  simp [own, held]

end

/-! The statement on functions -/

/-- Settles O15: START and STOP by the function's state and its blockers, and the two arrivals by what the function does. -/
theorem functionsStartAndStop : Obligations.FunctionsStartAndStop := by
  unfold Obligations.FunctionsStartAndStop
  refine ⟨fun s page req => ?_, fun s page => ?_⟩
  · intro p dep hr hf own
    have hstart (d' : Dev) (h : s.dev.fnStart p (.host 0x08 1 req.toNat) = d') : exec (.fnStart page req) s = .next { s with dev := d' } :=
      (exec_fnStart s page req hr hf).trans (next_dev h)
    have hstop (d' : Dev) (h : s.dev.fnStop p (.host 0x08 2 req.toNat) = d') : exec (.fnStop page req) s = .next { s with dev := d' } :=
      (exec_fnStop s page req hr hf).trans (next_dev h)
    have ⟨_, _, _, on⟩ := hr
    refine ⟨fun st free => hstart _ (s.dev.fnStart_stopped _ hf on own st free), fun st free hk invalid => ?noImage,
      fun b st blocked => hstart _ (s.dev.fnStart_refused _ hf on own st blocked),
      fun st => ⟨hstart _ (s.dev.fnStart_starting _ hf on own st), hstop _ (s.dev.fnStop_starting _ hf on st)⟩,
      fun st => ⟨hstart _ (s.dev.fnStart_running _ hf on own st), fun free => hstop _ (s.dev.fnStop_running _ hf on st free),
        fun b blocked => hstop _ (s.dev.fnStop_refused _ hf on st blocked)⟩,
      fun st => ⟨hstart _ (s.dev.fnStart_stopping _ hf on own st), hstop _ (s.dev.fnStop_stopping _ hf on st)⟩,
      fun st => hstop _ (s.dev.fnStop_stopped _ hf on st)⟩
    case noImage =>
      exact hstart _ ((s.dev.fnStart_stopped _ hf on own st free).trans (by rw [s.dev.goStart_noImage hk invalid]; rfl))
  · intro p hf on single pend
    refine ⟨fun st trained => ?runs, fun st own => ⟨fun done => ?stopped, fun held => ?held⟩⟩
    case runs => exact next_dev (s.dev.fnStartDone_runs hf on single pend st trained)
    case stopped => exact next_dev (s.dev.fnStopDone_stopped hf on single pend st own done)
    case held => exact next_dev (s.dev.fnStopDone_held hf on st own held)

end Sys2Proof.Machine
end

section
/-! Modes (R73 to R76): what a request comes to during a transition and outside one, and how a transition ends. -/

namespace Sys2Proof.Machine

/-! Requests -/

/-- SVC_MODE_REQ written with a mode's code is that request. -/
theorem exec_modeRequest (s : State) {data : Word} (req : BitVec 16) (hr : s.dev.reachable 0x01) (hv : data.toNat < 8) :
    exec (.modeRequest data 15 req) s =
      .next { s with dev := s.dev.modeRequest data.toNat (.host 0x0100 data.toNat req.toNat) [] } := by
  refine (runHost_regWrite s (p := 0x01) (o := 0x0100) data req hr (by decide) (by decide) (by decide)).trans (next_dev ?_)
  have hcode : data.toNat % 8 = data.toNat := Nat.mod_eq_of_lt hv
  have hrest : data.toNat / 8 = 0 := Nat.div_eq_of_lt hv
  simp [Dev.regWrite, hcode, hrest, FnSource.host]

/-- A refused request sets BLK bit 1 and is recorded in the SVC page under its kind (R73). -/
def Dev.refuseMode (d : Dev) (kind : Nat) (src : FnSource) : Dev :=
  (d.int 0x01 1).capture { page := 0x01, kinds := [kind], off := src.off, data := src.data, write := src.write, req := src.req }

section
variable (d : Dev) {code : Nat} (src : FnSource)

theorem Dev.modeRequest_ownTarget (busy : d.modeBusy = true) (own : code = d.get 0x01 F.SVC_MODE_TARGET) :
    d.modeRequest code src [] = d.set 0x01 F.SVC_MODE_PENDING 0 := by
  simp [Dev.modeRequest, busy, own]

theorem Dev.modeRequest_latched (busy : d.modeBusy = true) (other : code ≠ d.get 0x01 F.SVC_MODE_TARGET)
    (allowed : modeAllows d.mode code = true) :
    d.modeRequest code src [] = (d.set 0x01 F.SVC_MODE_PENDING 1).set 0x01 F.SVC_MODE_NEXT code := by
  simp [Dev.modeRequest, busy, other, allowed]

theorem Dev.modeRequest_refused (other : d.modeBusy = true → code ≠ d.get 0x01 F.SVC_MODE_TARGET)
    (forbidden : modeAllows d.mode code = false) : d.modeRequest code src [] = d.refuseMode 0x20 src := by
  cases busy : d.modeBusy
  · simp [Dev.modeRequest, busy, forbidden, Dev.refuseMode]
  · simp [Dev.modeRequest, busy, other busy, forbidden, Dev.refuseMode]

theorem Dev.any_domState_iff : ((List.range 27).any fun n => d.domState n ≠ 0) = true ↔ ∃ n, n < 27 ∧ d.domState n ≠ 0 := by
  simp [List.any_eq_true]

theorem Dev.modeRequest_domainsOn (idle : d.modeBusy = false) (allowed : modeAllows d.mode 0 = true)
    (on : ∃ n, n < 27 ∧ d.domState n ≠ 0) : d.modeRequest 0 src [] = d.refuseMode 0x21 src := by
  have hany := d.any_domState_iff.2 on
  rw [Dev.modeRequest, idle, if_neg Bool.false_ne_true, if_neg (by simp [allowed]), if_pos ⟨rfl, hany⟩]
  rfl

theorem Dev.modeRequest_accepted (idle : d.modeBusy = false) (allowed : modeAllows d.mode code = true)
    (off : code = 0 → ∀ n, n < 27 → d.domState n = 0) : d.modeRequest code src [] = d.enterMode code := by
  have hoff : ¬(code = 0 ∧ ((List.range 27).any fun n => d.domState n ≠ 0) = true) := by
    rintro ⟨h0, hany⟩
    obtain ⟨n, hn, hs⟩ := d.any_domState_iff.1 hany
    exact hs (off h0 n hn)
  rw [Dev.modeRequest, idle, if_neg Bool.false_ne_true, if_neg (by simp [allowed]), if_neg hoff]
  rfl

end

/-! Entering a mode -/

/-- A request that starts and stops no function arrives at once (log entry 63). -/
theorem Dev.enterMode_immediate (d : Dev) {code : Nat} (hc : code ≠ 2) (h2 : d.mode ≠ 2) (h5 : d.mode ≠ 5) :
    d.enterMode code = d.arriveMode code := by
  simp [Dev.enterMode, hc, h2, h5]

/-- A write of the SVC page changes no other page's function, and no domain. -/
theorem Dev.running_set_svc (d : Dev) (f : Fld) (v : Nat) {p : Nat} (hp : p ≠ 0x01) (hf : f.off < 65536) :
    (d.set 0x01 f v).running p = d.running p := by
  have hfn : (d.set 0x01 f v).fn p = d.fn p := d.get_set_ne _ _ _ _ _ (by simp only [csrKey, H.STATE]; omega)
  have hdom (n : Nat) : (d.set 0x01 f v).domState n = d.domState n := d.get_set_ne _ _ _ _ _ (by simp only [csrKey, Fld.at]; omega)
  simp only [Dev.running, Dev.domOn, hfn, hdom]

/-- The device in DRAIN on its way to HOLD, before a resequencer lets go of what it holds. -/
def Dev.beginDrain (d : Dev) : Dev := (((d.setMode 3).setTarget 4).setBusy true).setModes { Modes.reset with origin := 2 }

theorem Dev.beginDrain_running (d : Dev) {p : Nat} (hp : p ≠ 0x01) : d.beginDrain.running p = d.running p := by
  show (((d.setMode 3).setTarget 4).setBusy true).running p = _
  unfold Dev.setBusy Dev.setTarget Dev.setMode
  rw [Dev.running_set_svc _ _ _ hp (by decide), Dev.running_set_svc _ _ _ hp (by decide), Dev.running_set_svc _ _ _ hp (by decide)]

/-- HOLD from FORWARD enters DRAIN, and that is all where no CAR function runs (R74 step 3). -/
theorem Dev.enterMode_drain (d : Dev) (h2 : d.mode = 2) (west : d.running (carPage 0) = false) (east : d.running (carPage 1) = false) :
    d.enterMode 4 = d.beginDrain := by
  have hwest := (d.beginDrain_running (p := carPage 0) (by decide)).trans west
  have heast := (d.beginDrain_running (p := carPage 1) (by decide)).trans east
  have hfold : d.enterMode 4 =
      (List.range 2).foldl (fun d die => if d.running (carPage die) then d.stopCar die else d) d.beginDrain := by
    simp only [Dev.enterMode, h2]
    rfl
  simp [hfold, List.range_succ, hwest, heast]

/-! The end of a transition -/

/-- The device once a transition to mode `m` has ended and no request has run yet. -/
def Dev.atRest (d : Dev) (m : Nat) : Dev := (d.arriveMode m).setModes Modes.reset

theorem Dev.endTransition_plain (d : Dev) (m : Nat) (h : (d.atRest m).get 0x01 F.SVC_MODE_PENDING = 0) : d.endTransition m = d.atRest m :=
  if_neg (by rw [← Dev.atRest, h]; decide)

theorem Dev.endTransition_latched (d : Dev) (m : Nat) (h : (d.atRest m).get 0x01 F.SVC_MODE_PENDING = 1) :
    d.endTransition m = ((d.atRest m).set 0x01 F.SVC_MODE_PENDING 0).modeRequest ((d.atRest m).get 0x01 F.SVC_MODE_NEXT) .device [] :=
  if_pos h

theorem Dev.pumpStop_done (d : Dev) (h : d.modes.plan = []) (n : Nat) : d.pumpStop n = d := by
  cases n <;> simp [Dev.pumpStop, h]

theorem Dev.pumpStart_done (d : Dev) (h : d.modes.plan = []) (n : Nat) : d.pumpStart n = d := by
  cases n <;> simp [Dev.pumpStart, h]

/-- A stop of the traffic set ends once the whole set is STOPPED (R415). -/
theorem Dev.modeTransitionDone_stopped (d : Dev) (busy : d.modeBusy = true) (plan : d.modes.plan = []) (stop : d.modes.stopping = true)
    (fine : d.modes.failed = false) (all : ∀ p ∈ trafficOrder, d.fn p = 0) :
    d.modeTransitionDone = d.endTransition (d.get 0x01 F.SVC_MODE_TARGET) := by
  have hset : (trafficOrder.any fun p => d.fn p != 0) = false := List.any_eq_false.2 fun p hp => by simp [all p hp]
  have hstarted : (trafficOrder.any fun p => d.modes.started.contains p && d.fn p != 0) = false :=
    List.any_eq_false.2 fun p hp => by simp [all p hp]
  simp only [Dev.modeTransitionDone, busy, stop, d.pumpStop_done plan, plan, fine, hset, hstarted, Bool.not_true, Bool.false_eq_true,
    ne_eq, not_true_eq_false, or_self, if_true, if_false]

/-- A transition to FORWARD ends once no start is planned and none is under way (R73). -/
theorem Dev.modeTransitionDone_started (d : Dev) (busy : d.modeBusy = true) (plan : d.modes.plan = []) (go : d.modes.stopping = false)
    (target : d.get 0x01 F.SVC_MODE_TARGET = 2) (idle : ∀ p ∈ trafficOrder, d.fn p ≠ 1) :
    d.modeTransitionDone = d.endTransition (d.get 0x01 F.SVC_MODE_TARGET) := by
  have hquiet : d.trafficStarting = false := List.any_eq_false.2 fun p hp => by simp [idle p hp]
  have hgo : d.starting = true := by simp [Dev.starting, busy, target, go]
  simp [Dev.modeTransitionDone, busy, go, target, d.pumpStart_done plan, plan, hquiet, hgo]

/-! The end of DRAIN (R74, R75) -/

theorem Dev.drainEmpty_stops (d : Dev) (drain : d.mode = 3) (go : d.modes.stopping = false) (empty : d.packets = 0) :
    d.drainEmpty = d.beginStop d.stopOrder false := if_pos ⟨drain, by simp [go], empty⟩

theorem Dev.drainEmpty_held (d : Dev) (held : d.packets ≠ 0) : d.drainEmpty = d := if_neg fun h => held h.2.2

theorem Dev.drainTimeout_flushes (d : Dev) (drain : d.mode = 3) (go : d.modes.stopping = false) (held : d.packets ≠ 0) :
    d.drainTimeout = ((d.set 0x01 F.SVC_MODE_DRAIN_TO 1).int 0x01 3).beginStop d.stopOrder true := if_pos ⟨drain, by simp [go], held⟩

theorem Dev.drainTimeout_empty (d : Dev) (empty : d.packets = 0) : d.drainTimeout = d := if_neg fun h => h.2.2 empty

/-! The statements on modes -/

/-- Settles O20: a request by its relation to the target and the table, and the end of a transition by what it did and whether a
request is latched. -/
theorem requestsDuringATransition : Obligations.RequestsDuringATransition := by
  unfold Obligations.RequestsDuringATransition
  intro s data req hr busy
  refine ⟨fun own => ?own, fun hv other allowed => ?latched, fun hv other forbidden => ?refused, fun plan ended => ?ended⟩
  case own =>
    have hv : data.toNat < 8 := own ▸ bits_lt _ 4 3
    exact (exec_modeRequest s req hr hv).trans (next_dev (s.dev.modeRequest_ownTarget _ busy own))
  case latched => exact (exec_modeRequest s req hr hv).trans (next_dev (s.dev.modeRequest_latched _ busy other allowed))
  case refused => exact (exec_modeRequest s req hr hv).trans (next_dev (s.dev.modeRequest_refused _ (fun _ => other) forbidden))
  case ended =>
    have hend : s.dev.modeTransitionDone = s.dev.endTransition (s.dev.get 0x01 F.SVC_MODE_TARGET) := by
      rcases ended with ⟨stop, fine, all⟩ | ⟨go, target, idle⟩
      · exact s.dev.modeTransitionDone_stopped busy plan stop fine all
      · exact s.dev.modeTransitionDone_started busy plan go target idle
    exact ⟨fun h => next_dev (hend.trans (s.dev.endTransition_plain _ h)), fun h => next_dev (hend.trans (s.dev.endTransition_latched _ h))⟩

/-- Settles O21: a request by the mode it is made in, and the two ends of DRAIN by the packets left. -/
theorem modesFollowTheTable : Obligations.ModesFollowTheTable := by
  unfold Obligations.ModesFollowTheTable
  refine ⟨fun s data req hr idle hv => ?_, fun s drain go => ⟨fun empty => ?empty, fun held => ?held⟩⟩
  · have hexec := exec_modeRequest s req hr hv
    refine ⟨fun row => ?immediate, fun hm hc on => ?domains, fun hm hc west east => ?drain, fun forbidden => ?refused⟩
    case immediate =>
      have hallowed : modeAllows s.dev.mode data.toNat = true := by
        rcases row with ⟨hm, hc⟩ | ⟨hm, hc⟩ | ⟨hm, hc⟩ | ⟨hm | hm, hc, -⟩ <;> rw [hm, hc] <;> rfl
      have hoff : data.toNat = 0 → ∀ n, n < 27 → s.dev.domState n = 0 := by
        rcases row with ⟨-, hc⟩ | ⟨-, hc⟩ | ⟨-, hc⟩ | ⟨-, -, off⟩
        · omega
        · omega
        · omega
        · exact fun _ => off
      refine hexec.trans (next_dev ((s.dev.modeRequest_accepted _ idle hallowed hoff).trans (s.dev.enterMode_immediate ?_ ?_ ?_))) <;> omega
    case domains =>
      have hallowed : modeAllows s.dev.mode 0 = true := by rcases hm with hm | hm <;> rw [hm] <;> rfl
      exact hexec.trans (next_dev (by rw [hc, s.dev.modeRequest_domainsOn _ idle hallowed on]; rfl))
    case drain =>
      have hallowed : modeAllows s.dev.mode data.toNat = true := by rw [hm, hc]; rfl
      exact hexec.trans (next_dev ((s.dev.modeRequest_accepted _ idle hallowed (by omega)).trans (by rw [hc]; exact s.dev.enterMode_drain hm west east)))
    case refused =>
      exact hexec.trans (next_dev (s.dev.modeRequest_refused _ (by simp [idle]) forbidden))
  case empty => exact ⟨next_dev (s.dev.drainEmpty_stops drain go empty), next_dev (s.dev.drainTimeout_empty empty)⟩
  case held => exact ⟨next_dev (s.dev.drainTimeout_flushes drain go held), next_dev (s.dev.drainEmpty_held held)⟩

end Sys2Proof.Machine
end

section
/-! From the parser to a thread (R93, R98, R100): the default action of a parsed head, the choice of a home cluster and of an
engine, and what a ticket writes. -/

namespace Sys2Proof.Machine

/-! PARSE_DONE (R93) -/

section
variable {d : Dev} {n : Nat} {r : RawHead} {rest : List RawHead}

/-- The parse record of a raw head. -/
def Dev.recordOf (d : Dev) (r : RawHead) : List Byte :=
  parseRecord (d.parseCfg r.pkt.pg r.pkt.lane) r.bytes (d.parseHead r).1 r.pkt.inport r.pkt.flen r.sec r.ns (d.parseHead r).2

/-- The default action of a raw head of port group `n`, and the class that calls for it. -/
def Dev.actionOf (d : Dev) (n : Nat) (r : RawHead) : Nat × Nat :=
  d.defaultAction n r.pkt.lane (flagClasses (walkFlags r.bytes (d.parseHead r).1 (d.parseHead r).2))

variable (first : (d.pg n).parsing = r :: rest)
include first

theorem Dev.parseDone_cons :
    d.parseDone n =
      if (d.actionOf n r).1 = 0 then
        d.setPg n { d.pg n with parsing := rest, intake := (d.pg n).intake ++ [⟨r.pkt, r.bytes, d.recordOf r, 0, 0, 0, 0, 0, false, 0⟩] }
      else if (d.actionOf n r).1 = 1 then (d.setPg n { d.pg n with parsing := rest }).actPunt 0 (d.actionOf n r).2 (d.recordOf r) r.pkt
      else (d.setPg n { d.pg n with parsing := rest }).actDrop r.pkt := by
  simp only [Dev.parseDone, first]
  rfl

theorem Dev.parseDone_keep (act : (d.actionOf n r).1 = 0) :
    d.parseDone n =
      d.setPg n { d.pg n with parsing := rest, intake := (d.pg n).intake ++ [⟨r.pkt, r.bytes, d.recordOf r, 0, 0, 0, 0, 0, false, 0⟩] } :=
  (Dev.parseDone_cons first).trans (if_pos act)

theorem Dev.parseDone_drop (act : 1 < (d.actionOf n r).1) :
    d.parseDone n = (d.setPg n { d.pg n with parsing := rest }).actDrop r.pkt :=
  (Dev.parseDone_cons first).trans ((if_neg (by omega)).trans (if_neg (by omega)))

theorem Dev.parseDone_punt (act : (d.actionOf n r).1 = 1) :
    d.parseDone n = (d.setPg n { d.pg n with parsing := rest }).actPunt 0 (d.actionOf n r).2 (d.recordOf r) r.pkt :=
  (Dev.parseDone_cons first).trans ((if_neg (by omega)).trans (if_pos act))

end

/-! HEAD_DISPATCH (R98, R110) -/

section
variable {d d1 : Dev} {pg c : Nat} {h : Head} {r : List Head} (on : d.active (pgPage pg) = true) (home : d.pickHome pg = (some c, d1))
include on home

theorem Dev.headDispatch_recirc (ecc : Ecc) (again : (d.pg pg).recirc = h :: r) :
    d.headDispatch pg ecc = ((d1.setPg pg { d.pg pg with recirc := r }).noteCluster h c).handHead c h := by
  simp [Dev.headDispatch, on, home, again]

theorem Dev.headDispatch_ticketed {h' : Head} {d2 : Dev} (empty : (d.pg pg).recirc = []) (next : (d.pg pg).intake = h :: r)
    (ticket : d1.takeTicket c h = some (h', d2)) :
    d.headDispatch pg .clean = (d2.setPg pg { d.pg pg with intake := r, heldCounted := false }).handHead c h' := by
  simp [Dev.headDispatch, on, home, empty, next, Dev.eccCount, ticket]

theorem Dev.headDispatch_bad (empty : (d.pg pg).recirc = []) (next : (d.pg pg).intake = h :: r) :
    d.headDispatch pg .bad =
      ((((d1.eccCount 8 (pg / 8) .bad).setPg pg { d.pg pg with intake := r, heldCounted := false }).event
        (pgPage pg) 13 1 h.pkt.inport 0 0).freePkt h.pkt) := by
  simp [Dev.headDispatch, on, home, empty, next]

end

/-! HEAD_TO_THREAD and THREAD_LOAD_DONE (R98, R115) -/

/-- The most FREE threads that an engine of a cluster has. -/
def Dev.mostFree (d : Dev) (c : Nat) : Nat := ((List.range 16).map fun e => (d.freeOf c e).length).foldl max 0

theorem Dev.headToThread_issues {d d1 : Dev} {c e : Nat} {h : Head} {r : List Head} (next : d.engQueue c = h :: r)
    (on : d.active (engPage c) = true) (free : d.mostFree c ≠ 0)
    (engine : d.grant (Rr.engine c) 16 ((List.range 16).filter fun e => (d.freeOf c e).length = d.mostFree c) = (some e, d1)) :
    d.headToThread c = (d1.setEngQueue c r).setThread (128 * c + 8 * e + (d1.freeOf c e).headD 0) { Thread.init with st := 1, head := some h } := by
  rw [Dev.mostFree] at free engine
  simp [Dev.headToThread, next, on, free, engine]

theorem Dev.threadLoadDone_loaded {d : Dev} {t : Nat} {h : Head} (loading : (d.thread t).st = 1) (held : (d.thread t).head = some h) :
    d.threadLoadDone t = d.setThread t { d.thread t with
      st := 2, upc := d.get (engPage (t / 128)) (if h.pass2 then F.ENG_IMG_ENTRY_ENTRY2 else F.ENG_IMG_ENTRY_ENTRY1) } := by
  simp [Dev.threadLoadDone, held, loading]

/-! Tickets (R100, R155) -/

/-- The ordering domain of a head. -/
def Head.orderDomain (h : Head) : Nat := h.pkt.inport * 4096 + leNat (slice h.md 8 4) % 4096

/-- An ordering unit once it has issued domain `k`'s next ticket to a head that cluster `c` holds. -/
def Ord.issue (o : Ord) (k e c : Nat) (pkt : Pkt) : Ord :=
  (o.setDomain k { o.domain k with nextIssue := ((o.domain k).nextIssue + 1) % 65536 }).setSlot (freeSlot 0 o.slots)
    ⟨1, k, (o.domain k).nextIssue, e, false, c, pkt, none⟩

theorem Dev.setOrd_eng (d : Dev) (die : Nat) (o : Ord) : (d.setOrd die o).eng = { d.eng with ords := d.eng.ords.wr Ord.init die o } := rfl

/-- A head with the next ticket of its domain and the lowest free slot. -/
def Dev.ticketed (d : Dev) (h : Head) : Head :=
  { h with
    ord := d.issuingOrd h.pkt
    slot := freeSlot 0 (d.ord (d.issuingOrd h.pkt)).slots
    dom := h.orderDomain
    ticket := ((d.ord (d.issuingOrd h.pkt)).domain h.orderDomain).nextIssue
    epoch := d.get (ordPage (d.issuingOrd h.pkt)) F.ORD_EPOCH_CUR }

/-- The unit that issues a head's ticket, once it has. -/
def Dev.issuedOrd (d : Dev) (c : Nat) (h : Head) : Ord :=
  (d.ord (d.issuingOrd h.pkt)).issue h.orderDomain (d.get (ordPage (d.issuingOrd h.pkt)) F.ORD_EPOCH_CUR) c h.pkt

/-- What the unit's counters show of a ticket, and the interrupt of a unit that is full now. -/
def Dev.noteTicket (d : Dev) (die e : Nat) (full : Prop) [Decidable full] : Dev :=
  if full then ((d.ordCnt die 0).epochAdd die e).int (ordPage die) 1 else (d.ordCnt die 0).epochAdd die e

theorem Dev.noteTicket_records (d : Dev) (die e : Nat) (full : Prop) [Decidable full] : d.Records (d.noteTicket die e full) := by
  have hcounts : d.Records ((d.ordCnt die 0).epochAdd die e) := (d.bump_records _ _ _).trans (Dev.set_records _ _ _ _)
  exact .ite _ (hcounts.trans (Dev.int_records _ _ _)) hcounts

theorem Dev.takeTicket_eq (d : Dev) (c : Nat) (h : Head) :
    d.takeTicket c h =
      if 32768 ≤ (d.ord (d.issuingOrd h.pkt)).slots.length then none
      else some (d.ticketed h, (d.setOrd (d.issuingOrd h.pkt) (d.issuedOrd c h)).noteTicket (d.issuingOrd h.pkt)
        (d.get (ordPage (d.issuingOrd h.pkt)) F.ORD_EPOCH_CUR) ((d.issuedOrd c h).slots.length = 32768)) := rfl

/-- A ticket is issued while a slot is free, and of the engine fabric it changes one ordering unit alone. -/
theorem Dev.takeTicket_some {d d' : Dev} {c : Nat} {h h' : Head} (ticket : d.takeTicket c h = some (h', d')) :
    (d.ord (d.issuingOrd h.pkt)).slots.length < 32768 ∧ h' = d.ticketed h ∧
    d'.eng = { d.eng with ords := d.eng.ords.wr Ord.init (d.issuingOrd h.pkt) (d.issuedOrd c h) } := by
  rw [Dev.takeTicket_eq] at ticket
  split at ticket
  case isTrue => exact absurd ticket nofun
  case isFalse room =>
    obtain ⟨rfl, rfl⟩ := Prod.mk.inj (Option.some.inj ticket)
    exact ⟨Nat.lt_of_not_le room, rfl, (Dev.noteTicket_records _ _ _ _).eng⟩

/-! The statement on heads -/

/-- Settles O24: a parsed head by its default action, a dispatch by the queue that the head comes from, an issue by the engine
granted, and a ticket by what it writes. -/
theorem headsAreParsedAndDispatched : Obligations.HeadsAreParsedAndDispatched := by
  unfold Obligations.HeadsAreParsedAndDispatched
  refine ⟨fun s pg r rest first => ⟨fun act => ?kept, fun act => ?dropped, fun act off => ?unpunted, fun act on => ?punted⟩,
    fun s pg c c' th e h h' r d1 d2 ecc => ⟨fun on home again => ?recirculated, fun on home empty next => ⟨fun ticket => ?dispatched, ?bad⟩,
      fun next on free engine => ?issued, fun loading held => ?loaded⟩,
    fun d d' c h h' ticket => ?ticketed⟩
  case kept => exact next_dev (Dev.parseDone_keep first act)
  case dropped => exact next_dev (Dev.parseDone_drop first act)
  case unpunted => exact next_dev ((Dev.parseDone_punt first act).trans (if_pos off))
  case punted => exact next_dev ((Dev.parseDone_punt first act).trans (if_neg on))
  case recirculated => exact next_dev (Dev.headDispatch_recirc on home ecc again)
  case dispatched => exact next_dev (Dev.headDispatch_ticketed on home empty next ticket)
  case bad => exact next_dev (Dev.headDispatch_bad on home empty next)
  case issued => exact next_dev (Dev.headToThread_issues next on free engine)
  case loaded => exact next_dev (Dev.threadLoadDone_loaded loading held)
  case ticketed =>
    obtain ⟨room, rfl, heng⟩ := Dev.takeTicket_some ticket
    have hord : d'.ord (d.issuingOrd h.pkt) = d.issuedOrd c h := by
      rw [Dev.ord, heng]
      exact Map.rd_wr_same _ _ _ _
    exact ⟨rfl, rfl, rfl, rfl, rfl, rfl, rfl, room, rfl, by rw [heng], by rw [heng], hord⟩

end Sys2Proof.Machine
end

section
/-! Selection (R17, R230, R231, R241, R242, R394): the grant of a scheduler's turn, and what a ready port's selection comes to by
its window and by what the state of its queue reads as. -/

namespace Sys2Proof.Machine

/-! Grants (R17) -/

theorem argMax_mem (f : Nat → Int) : ∀ {l : List Nat} {a : Nat}, argMax f l = some a → a ∈ l
  | x :: r, a, h => by
    rw [argMax] at h
    split at h
    case h_1 => exact Option.some.inj h ▸ List.mem_cons_self
    case h_2 b hb =>
      split at h
      · exact Option.some.inj h ▸ List.mem_cons_of_mem _ (argMax_mem f hb)
      · exact Option.some.inj h ▸ List.mem_cons_self

theorem Dev.grant_nil (d : Dev) (res n : Nat) : d.grant res n [] = (none, d) := rfl

/-- Only an index that requests is granted. -/
theorem Dev.grant_mem {d : Dev} {res n g : Nat} {req : List Nat} (h : (d.grant res n req).1 = some g) : g ∈ req := by
  unfold Dev.grant at h
  split at h
  case h_1 => exact absurd h nofun
  case h_2 g' pick => exact Option.some.inj h ▸ argMax_mem _ pick

theorem Dev.grant_tm (d : Dev) (res n : Nat) (req : List Nat) : (d.grant res n req).2.tm = d.tm := by
  unfold Dev.grant
  split
  · rfl
  · exact (apply_ite Dev.tm _ _ _).trans (ite_self _)

/-! SELECTION -/

/-- The ready ports that a scheduler serves. -/
def Dev.servedReady (d : Dev) (pg : Nat) : List Nat :=
  (List.range 152).filter fun p => d.portHome p = some (pg / 8) && d.schedOf (pg / 8) p == pg && d.portReady (pg / 8) p

/-- Those of a list of ports that have a queue to select from. -/
def Dev.asking (d : Dev) (ports : List Nat) : List Nat :=
  ports.filter fun p => (d.portQueues p).any fun q => d.qSelectable q (decide (p < 128) && d.gapFill p)

theorem Dev.selection_stopped {d : Dev} {pg : Nat} (ecc : Ecc) (off : d.running (tmPage (pg / 8)) = false) : d.selection pg ecc = d := by
  simp [Dev.selection, off]

section
variable {d d1 : Dev} {pg : Nat} (ecc : Ecc) (on : d.running (tmPage (pg / 8)) = true)
  (seen : ((d.servedReady pg).filter (· < 128)).foldl (fun d p => d.dropAllOversize p) d = d1)
include on seen

theorem Dev.selection_eq :
    d.selection pg ecc = match d1.grant (Rr.ports pg) 152 (d1.asking (d.servedReady pg)) with
      | (none, d) => d
      | (some p, d) => d.selectPort (pg / 8) p ecc := by
  subst seen
  exact if_neg (by simp [on])

theorem Dev.selection_idle (quiet : d1.asking (d.servedReady pg) = []) : d.selection pg ecc = d1 := by
  rw [Dev.selection_eq ecc on seen, quiet, Dev.grant_nil]

theorem Dev.selection_granted {port : Nat} (turn : (d1.grant (Rr.ports pg) 152 (d1.asking (d.servedReady pg))).1 = some port) :
    d.selection pg ecc = (d1.grant (Rr.ports pg) 152 (d1.asking (d.servedReady pg))).2.selectPort (pg / 8) port ecc := by
  rw [Dev.selection_eq ecc on seen]
  generalize d1.grant (Rr.ports pg) 152 (d1.asking (d.servedReady pg)) = g at turn ⊢
  obtain ⟨p, d2⟩ := g
  cases turn
  rfl

end

/-- A port without a gate list has no head that is too long for a window. -/
theorem Dev.dropAllOversize_ungated {d : Dev} {p : Nat} (free : d.gate p = none) : d.dropAllOversize p = d := if_pos (by rw [free]; rfl)

/-- Without gate lists a scheduler drops no head before it selects. -/
theorem Dev.oversize_ungated {d : Dev} {pg : Nat} (free : ∀ p ∈ d.servedReady pg, p < 128 → d.gate p = none) :
    ((d.servedReady pg).filter (· < 128)).foldl (fun d p => d.dropAllOversize p) d = d :=
  List.foldlRecOn (motive := (· = d)) _ _ rfl fun x hx p hp => by
    obtain ⟨served, network⟩ := List.mem_filter.1 hp
    rw [hx, Dev.dropAllOversize_ungated (free p served (of_decide_eq_true network))]

/-- The one ready port of a scheduler, where it has a queue to select from, has the turn once its heads too long are dropped. -/
theorem Dev.selection_alone {d : Dev} {pg port : Nat} (ecc : Ecc) (on : d.running (tmPage (pg / 8)) = true)
    (mine : d.servedReady pg = [port]) (network : port < 128)
    (asks : ((d.dropAllOversize port).portQueues port).any
      (fun q => (d.dropAllOversize port).qSelectable q ((d.dropAllOversize port).gapFill port)) = true) :
    d.selection pg ecc = ((d.dropAllOversize port).grant (Rr.ports pg) 152 [port]).2.selectPort (pg / 8) port ecc := by
  have hseen : ((d.servedReady pg).filter (· < 128)).foldl (fun d p => d.dropAllOversize p) d = d.dropAllOversize port := by
    simp [mine, network]
  have hasking : (d.dropAllOversize port).asking (d.servedReady pg) = [port] := by
    rw [mine, Dev.asking, List.filter_singleton]
    simp [network, asks]
  rw [Dev.selection_granted (port := port) ecc on hseen (by rw [hasking]; rfl), hasking]

/-! One port's selection -/

theorem Dev.ungated_plain {d : Dev} {port : Nat} (free : port < 128 → d.gate port = none) :
    (decide (port < 128) && (d.gate port).isSome && d.gapFill port) = false := by
  by_cases h : port < 128
  · rw [free h, Option.isSome_none, Bool.and_false, Bool.false_and]
  · rw [decide_eq_false h, Bool.false_and, Bool.false_and]

theorem Dev.unfilled_plain {d : Dev} {port : Nat} (nofill : d.gapFill port = false) :
    (decide (port < 128) && (d.gate port).isSome && d.gapFill port) = false := by rw [nofill, Bool.and_false]

section
variable {d : Dev} {die port m k q : Nat} {e : QEnt} {r : List QEnt}
  (plain : (decide (port < 128) && (d.gate port).isSome && d.gapFill port) = false)
  (best : (d.choose port fun q => d.qSelectable q false).1 = some (m, k, q)) (head : (d.queue q).ents = e :: r)
include plain best head

/-- The selection of a port outside gap fill, by what the queue's state reads as and by the window. -/
theorem Dev.selectPort_eq (ecc : Ecc) :
    d.selectPort die port ecc =
      if ecc = .bad then (d.eccCount 6 die ecc).faultQueue q
      else if (decide (port < 128) && (d.gate port).isSome && !(d.eccCount 6 die ecc).headFits port k e.frameLen) = true then
        let d' := (d.choose port fun q => d.qSelectable q false).2.eccCount 6 die ecc
        d'.setTm { d'.tm with blocked := d'.tm.blocked.wr none port (some k) }
      else ((d.choose port fun q => d.qSelectable q false).2.eccCount 6 die ecc).takeHead die port m k q e := by
  unfold Dev.selectPort
  simp only [plain]
  generalize (d.choose port fun q => d.qSelectable q false) = c at best ⊢
  obtain ⟨c1, d'⟩ := c
  cases best
  simp only [head, Bool.not_false, Bool.and_true, Bool.false_eq_true, if_false, if_true]

theorem Dev.selectPort_taken (fits : decide (port < 128) = true → (d.gate port).isSome = true → d.headFits port k e.frameLen = true) :
    d.selectPort die port .clean = (d.choose port fun q => d.qSelectable q false).2.takeHead die port m k q e := by
  rw [Dev.selectPort_eq plain best head, if_neg (by decide), if_neg]
  · rfl
  · intro h
    simp only [Bool.and_eq_true, Bool.not_eq_true'] at h
    obtain ⟨⟨network, gated⟩, late⟩ := h
    exact absurd (fits network gated) (by rw [show d.headFits port k e.frameLen = false from late]; decide)

theorem Dev.selectPort_blocked (network : port < 128) (gated : (d.gate port).isSome = true) (late : d.headFits port k e.frameLen = false) :
    d.selectPort die port .clean =
      let d' := (d.choose port fun q => d.qSelectable q false).2
      d'.setTm { d'.tm with blocked := d'.tm.blocked.wr none port (some k) } := by
  have hlate : (d.eccCount 6 die .clean).headFits port k e.frameLen = false := late
  rw [Dev.selectPort_eq plain best head, if_neg (by decide), if_pos (by simp [network, gated, hlate])]
  rfl

theorem Dev.selectPort_bad : d.selectPort die port .bad = (d.eccCount 6 die .bad).faultQueue q := by
  rw [Dev.selectPort_eq plain best head, if_pos rfl]

end

end Sys2Proof.Machine
end

section
/-! CELL_TRANSFER (R222, R223) while one endpoint alone asks: its cell moves, and nothing else of the endpoints, of the host path
or of the cells does. -/

namespace Sys2Proof.Machine

/-! The cycle's parts -/

/-- What every endpoint asks for. -/
def Dev.cellAsks (d : Dev) : List (Nat × List (Nat × Bool)) := (List.range 17).map fun i => (i, d.epWants i)

/-- The endpoints that ask a buffer half for a cell. -/
def Dev.halfAsked (d : Dev) (die : Nat) : List Nat := (d.cellAsks.filter fun w => w.2.any (·.1 = die)).map (·.1)

/-- The endpoints that a buffer half grants, and how many it skips. -/
def Dev.halfGrants (d : Dev) (die : Nat) : List Nat × Nat :=
  if !d.active (swcPage die) then ([], 0)
  else grantHalf die (d.crossLeft die) 12 (cyclic (Map.rd 0 d.rr (Rr.transfer die)) (d.halfAsked die))

def Dev.halfGranted (d : Dev) (die i : Nat) : Bool := if die = 0 then (d.halfGrants 0).1.contains i else (d.halfGrants 1).1.contains i

/-- The grant that an endpoint accepts. -/
def Dev.accepted (d : Dev) (i : Nat) : Option (Nat × Bool) :=
  match (((d.cellAsks.find? (·.1 = i)).map (·.2)).getD []).filter fun w => d.halfGranted w.1 i with
  | [] => none
  | a :: r => some (((a :: r).find? (fun w => !w.2)).getD a)

/-- A buffer half's books after a cycle in which the endpoints listed accepted and `skipped` crossings waited. -/
def Dev.closeHalf (d : Dev) (die : Nat) (accepted : List Nat) (skipped : Nat) : Dev :=
  let x := (accepted.filter fun i => epDie i ≠ die).length
  let old := Map.rd [] d.swc.crossed die
  let d := d.setSwc { d.swc with crossed := d.swc.crossed.wr [] die (x :: old.take 62) }
  let d := match accepted.getLast? with | some i => { d with rr := d.rr.wr 0 (Rr.transfer die) ((i + 1) % 17) } | none => d
  let d := if skipped = 0 then d else d.bump (swcPage die) (F.SWC_CNT_COUNT.at 24) skipped
  let w := ((d.word (swcPage die) 0x130).toNat + 2 ^ 32 * (d.word (swcPage die) 0x134).toNat + x) % 2 ^ 64
  (d.setWord (swcPage die) 0x130 (BitVec.ofNat 32 w)).setWord (swcPage die) 0x134 (BitVec.ofNat 32 (w / 2 ^ 32))

/-- The endpoints that accept a cell from a buffer half. -/
def Dev.halfAccepted (d : Dev) (die : Nat) : List Nat :=
  (d.halfGrants die).1.filter fun i => match d.accepted i with | some (x, _) => x = die | none => false

/-- The books of both halves after the cycle. -/
def Dev.closeCycle (d : Dev) : Dev :=
  (d.closeHalf 0 (d.halfAccepted 0) (d.halfGrants 0).2).closeHalf 1 (d.halfAccepted 1) (d.halfGrants 1).2

theorem Dev.cellTransfer_eq (d : Dev) :
    d.cellTransfer = (List.range 17).foldl (fun e i => match (d.loadHost 2).accepted i with | some (_, s) => e.moveCell i s | none => e)
      (d.loadHost 2).closeCycle := rfl

/-! What the books leave alone -/

/-- The endpoints, the host path, the cells and the traffic managers of `b` are those of `a`. -/
structure Dev.KeepsPaths (a b : Dev) : Prop where
  ep : ∀ i, b.ep i = a.ep i
  hif : b.hif = a.hif
  cells : b.cells = a.cells
  tm : b.tm = a.tm

theorem Dev.KeepsPaths.trans {a b c : Dev} (h1 : a.KeepsPaths b) (h2 : b.KeepsPaths c) : a.KeepsPaths c :=
  ⟨fun i => (h2.ep i).trans (h1.ep i), h2.hif.trans h1.hif, h2.cells.trans h1.cells, h2.tm.trans h1.tm⟩

theorem Dev.Records.keepsPaths {a b : Dev} (h : a.Records b) : a.KeepsPaths b :=
  ⟨fun i => by rw [Dev.ep, h.swc, Dev.ep], h.hif, h.cells, h.tm⟩

theorem Dev.closeHalf_keepsPaths (d : Dev) (die : Nat) (l : List Nat) (skipped : Nat) : d.KeepsPaths (d.closeHalf die l skipped) := by
  have hpointer : ∀ (x : Dev) (o : Option Nat), x.KeepsPaths
      (match o with | some i => { x with rr := x.rr.wr 0 (Rr.transfer die) ((i + 1) % 17) } | none => x) := by
    intro x o
    cases o <;> exact ⟨fun _ => rfl, rfl, rfl, rfl⟩
  have hcrossed : d.KeepsPaths (d.setSwc { d.swc with
      crossed := d.swc.crossed.wr [] die ((l.filter fun i => epDie i ≠ die).length :: (Map.rd [] d.swc.crossed die).take 62) }) :=
    ⟨fun _ => rfl, rfl, rfl, rfl⟩
  have hcounts (x : Dev) (v w : Word) : x.Records (((if skipped = 0 then x else x.bump (swcPage die) (F.SWC_CNT_COUNT.at 24) skipped).setWord
      (swcPage die) 0x130 v).setWord (swcPage die) 0x134 w) :=
    .trans (.ite _ (.refl x) (x.bump_records _ _ _)) (.trans (Dev.setWord_records _ _ _ _) (Dev.setWord_records _ _ _ _))
  exact (hcrossed.trans (hpointer _ l.getLast?)).trans (hcounts _ _ _).keepsPaths

theorem Dev.closeCycle_keepsPaths (d : Dev) : d.KeepsPaths d.closeCycle :=
  (d.closeHalf_keepsPaths _ _ _).trans (Dev.closeHalf_keepsPaths _ _ _ _)

/-! One endpoint asks -/

theorem epDie_lt_two (i : Nat) : epDie i < 2 := by
  unfold epDie
  split <;> decide

theorem cyclic_one (g i : Nat) : cyclic g [i] = [i] := by
  by_cases h : g ≤ i
  · simp [cyclic, h]
  · simp [cyclic, h, Nat.lt_of_not_le h]

theorem filter_range_one {n i : Nat} {p : Nat → Bool} (hi : i < n) (at_ : p i = true) (off : ∀ j, j < n → j ≠ i → p j = false) :
    (List.range n).filter p = [i] := by
  have hp : ∀ j ∈ List.range n, p j = (j == i) := fun j hj => by
    by_cases h : j = i
    · rw [h, at_, beq_self_eq_true]
    · rw [off j (List.mem_range.1 hj) h, beq_eq_false_iff_ne.2 h]
  rw [List.filter_congr hp, List.filter_beq, List.count_eq_one_of_mem List.nodup_range (List.mem_range.2 hi), List.replicate_one]

theorem Dev.cellAsks_find (d : Dev) {j : Nat} (hj : j < 17) : ((d.cellAsks.find? (·.1 = j)).map (·.2)).getD [] = d.epWants j := by
  have hfind : (List.range 17).find? (fun k => decide (k = j)) = some j := by
    rw [List.find?_range_eq_some]
    exact ⟨by simp, List.mem_range.2 hj, fun k hk => by simp; omega⟩
  rw [Dev.cellAsks, List.find?_map]
  show ((((List.range 17).find? fun k => decide (k = j)).map _).map _).getD [] = _
  rw [hfind]
  rfl

theorem Dev.accepted_quiet {d : Dev} {i : Nat} (hi : i < 17) (quiet : d.epWants i = []) : d.accepted i = none := by
  rw [Dev.accepted, d.cellAsks_find hi, quiet]
  rfl

section
variable {d : Dev} {i : Nat} (hi : i < 17) (asks : d.epWants i = [(epDie i, false)]) (alone : ∀ j, j < 17 → j ≠ i → d.epWants j = [])
include hi asks alone

theorem Dev.halfAsked_one : d.halfAsked (epDie i) = [i] := by
  rw [Dev.halfAsked, Dev.cellAsks, List.filter_map, List.map_map]
  rw [filter_range_one hi (by simp [asks]) fun j hj hne => by simp [alone j hj hne]]
  rfl

variable (on : d.active (swcPage (epDie i)) = true)
include on

theorem Dev.halfGrants_one : d.halfGrants (epDie i) = ([i], 0) := by
  rw [Dev.halfGrants, Dev.halfAsked_one hi asks alone, cyclic_one, on]
  simp [grantHalf]

theorem Dev.accepted_one : d.accepted i = some (epDie i, false) := by
  have hgranted : d.halfGranted (epDie i) i = true := by
    have hg := Dev.halfGrants_one hi asks alone on
    have hd := epDie_lt_two i
    interval_cases h : epDie i <;> simp [Dev.halfGranted, hg]
  rw [Dev.accepted, d.cellAsks_find hi, asks]
  simp [hgranted]

/-- The endpoint that alone asks, of its own die, gets its cell. -/
theorem Dev.cellTransfer_one (loaded : d.loadHost 2 = d) : d.cellTransfer = d.closeCycle.moveCell i false := by
  rw [Dev.cellTransfer_eq, loaded, foldl_single List.nodup_range (List.mem_range.2 hi), Dev.accepted_one hi asks alone on]
  intro e j hj hne
  rw [Dev.accepted_quiet (List.mem_range.1 hj) (alone j (List.mem_range.1 hj) hne)]

end

/-! Moving a cell -/

theorem Dev.loadHost_idle {d : Dev} (punts : d.hif.punts = []) (host : (d.ep 16).sel = []) (n : Nat) : d.loadHost n = d := by
  cases n with
  | zero => rfl
  | succ n => simp [Dev.loadHost, punts, host]

theorem cellWants_one {c n : Nat} {cs : List Nat} : cellWants [(c :: cs, n)] = [(cellDie c, false)] := rfl

/-- A packet after one more of its cells has come to staging. -/
def Sel.advance (a : Sel) (cs : List Nat) : Sel := { a with cells := cs, staged := a.staged + 1 }
def HostPkt.advance (a : HostPkt) (cs : List Nat) : HostPkt := { a with cells := cs, staged := a.staged + 1 }

theorem Dev.ep_setEp_same (d : Dev) (i : Nat) (x : Endpoint) : (d.setEp i x).ep i = x := Map.rd_wr_same _ _ _ _

theorem Dev.ep_setEp_ne (d : Dev) {i j : Nat} (x : Endpoint) (h : j ≠ i) : (d.setEp i x).ep j = d.ep j := Map.rd_wr_ne _ _ _ _ h

section
variable {d : Dev} {c : Nat} {cs : List Nat} (more : cs ≠ [])
include more

theorem Dev.moveCell_endpoint {i : Nat} {a : Sel} {l : List Sel} (hi : i ≠ 16) (at_ : d.ep i = ⟨[a], l⟩) (cells : a.cells = c :: cs)
    (queued : a.direct = false) : d.moveCell i false = d.setEp i ⟨[a.advance cs], l⟩ := by
  have hrest : (d.setEp i ⟨[a.advance cs], l⟩).settleEp i 3 = d.setEp i ⟨[a.advance cs], l⟩ := by
    simp [Dev.settleEp, Dev.ep_setEp_same, Sel.advance, more]
  rw [Dev.moveCell, if_neg hi]
  simp only [at_]
  simpa [cells, queued, Sel.advance] using hrest

theorem Dev.moveCell_host {a : HostPkt} (at_ : d.hif.path = [a]) (cells : a.cells = c :: cs) :
    d.moveCell 16 false = d.setHif { d.hif with path := [a.advance cs] } := by
  have hrest : (d.setHif { d.hif with path := [a.advance cs] }).settleHost 3 = d.setHif { d.hif with path := [a.advance cs] } := by
    simp [Dev.settleHost, HostPkt.advance, more]
  rw [Dev.moveCell, if_pos rfl]
  simp only [at_]
  simpa [cells, HostPkt.advance] using hrest

end

/-! The two transfers of the statement -/

theorem Dev.cellTransfer_endpoint {d : Dev} {i c : Nat} {a : Sel} {l : List Sel} {cs : List Nat} (hi : i < 16) (punts : d.hif.punts = [])
    (host : (d.ep 16).sel = []) (at_ : d.ep i = ⟨[a], l⟩) (cells : a.cells = c :: cs) (more : cs ≠ []) (queued : a.direct = false)
    (near : cellDie c = epDie i) (room : (d.ep i).used < 64) (on : d.active (swcPage (epDie i)) = true)
    (alone : ∀ j, j < 17 → j ≠ i → d.epWants j = []) :
    d.cellTransfer = d.closeCycle.setEp i ⟨[a.advance cs], l⟩ := by
  have asks : d.epWants i = [(epDie i, false)] := by
    rw [at_] at room
    rw [Dev.epWants, if_neg (by omega), ← near]
    simp [at_, Nat.not_le.2 room, cells, cellWants_one]
  rw [Dev.cellTransfer_one (by omega) asks alone on (Dev.loadHost_idle punts host 2)]
  exact Dev.moveCell_endpoint more (by omega) ((d.closeCycle_keepsPaths.ep i).trans at_) cells queued

theorem Dev.cellTransfer_host {d : Dev} {c : Nat} {a : HostPkt} {cs : List Nat} (punts : d.hif.punts = []) (host : (d.ep 16).sel = [])
    (at_ : d.hif.path = [a]) (cells : a.cells = c :: cs) (more : cs ≠ []) (near : cellDie c = 0) (room : d.hif.used < 64)
    (on : d.active (swcPage 0) = true) (alone : ∀ j, j < 16 → d.epWants j = []) :
    d.cellTransfer = d.closeCycle.setHif { d.hif with path := [a.advance cs] } := by
  have asks : d.epWants 16 = [(epDie 16, false)] := by
    rw [Dev.epWants, if_pos rfl, if_neg (Nat.not_le.2 room), at_, List.map_cons, List.map_nil, cells, cellWants_one, near]
    rfl
  rw [Dev.cellTransfer_one (by decide) asks (fun j hj hne => alone j (by omega)) on (Dev.loadHost_idle punts host 2),
    Dev.moveCell_host more ((congrArg HostIf.path d.closeCycle_keepsPaths.hif).trans at_) cells, d.closeCycle_keepsPaths.hif]

end Sys2Proof.Machine
end

section
/-! Which registers the end of a packet leaves alone: releasing cells and charging shapers write no mode and no setting of a port
group, so that a port loops after it as before (R94). -/

namespace Sys2Proof.Machine

/-! Settings of the ports -/

/-- A register outside the service pages and the settings of port groups: a counter of a port group, the ERR page or a later page. -/
def OffSettings (p o : Nat) : Prop := 0x20 ≤ p ∨ ((p = 4 ∨ 0x400 ≤ o) ∧ o < 65536)

/-- The mode, and the stored settings of port groups and those in force, are in `b` as in `a`. -/
structure Dev.KeepsSettings (a b : Dev) : Prop where
  inForce : b.csr.inForce = a.csr.inForce
  regs : ∀ q o, q < 0x20 → q ≠ 4 → o < 0x400 → b.word q o = a.word q o

theorem Dev.KeepsSettings.of_csr {a b : Dev} (h : b.csr = a.csr) : a.KeepsSettings b := ⟨by rw [h], fun _ _ _ _ _ => Dev.word_congr h _ _⟩

theorem Dev.KeepsSettings.refl (a : Dev) : a.KeepsSettings a := .of_csr rfl

theorem Dev.KeepsSettings.trans {a b c : Dev} (h1 : a.KeepsSettings b) (h2 : b.KeepsSettings c) : a.KeepsSettings c :=
  ⟨h2.inForce.trans h1.inForce, fun q o hq h4 ho => (h2.regs q o hq h4 ho).trans (h1.regs q o hq h4 ho)⟩

/-- A step that happens only under a condition. -/
theorem Dev.KeepsSettings.ite {a b c : Dev} (p : Prop) [Decidable p] (h1 : a.KeepsSettings b) (h2 : a.KeepsSettings c) :
    a.KeepsSettings (if p then b else c) := by
  split
  · exact h1
  · exact h2

theorem Dev.KeepsSettings.foldl {β : Type} {f : Dev → β → Dev} {l : List β} (h : ∀ (d : Dev), ∀ b ∈ l, d.KeepsSettings (f d b))
    (d : Dev) : d.KeepsSettings (l.foldl f d) :=
  List.foldlRecOn (motive := fun x => d.KeepsSettings x) l f (.refl d) fun x hx b hb => hx.trans (h x b hb)

theorem Dev.KeepsSettings.loops {a b : Dev} (h : a.KeepsSettings b) {port : Nat} (hp : port < 128) : b.loops port = a.loops port := by
  have hmode : b.mode = a.mode := by rw [Dev.mode, Dev.get, h.regs 0x01 _ (by decide) (by decide) (by decide), ← Dev.get, ← Dev.mode]
  have hloop : b.portCfg port F.PG_PORT_CFG_LOOP = a.portCfg port F.PG_PORT_CFG_LOOP := by
    have hoff : (F.PG_PORT_CFG_LOOP.at (4 * (port % 8))).off < 0x400 := by simp only [Fld.at]; omega
    have hword := h.regs (portPage port) _ (by unfold portPage pgPage; omega) (by unfold portPage pgPage; omega) hoff
    rw [Dev.portCfg, Dev.live, Dev.liveWord, h.inForce, hword, ← Dev.liveWord, ← Dev.live, ← Dev.portCfg]
  rw [Dev.loops, Dev.loops, hmode, hloop]

/-! Registers, interrupts and errors -/

theorem Dev.setWord_keepsSettings (d : Dev) {p o : Nat} (w : Word) (h : OffSettings p o) : d.KeepsSettings (d.setWord p o w) :=
  ⟨rfl, fun q k hq h4 hk => d.word_setWord_ne _ _ _ _ _ (by unfold OffSettings at h; unfold csrKey; omega)⟩

theorem Dev.set_keepsSettings (d : Dev) {p : Nat} {f : Fld} (v : Nat) (h : OffSettings p f.off) : d.KeepsSettings (d.set p f v) :=
  d.setWord_keepsSettings _ h

theorem Dev.bump_keepsSettings (d : Dev) {p : Nat} {f : Fld} (n : Nat) (h : OffSettings p f.off) : d.KeepsSettings (d.bump p f n) :=
  .ite _ (.refl d) (d.set_keepsSettings _ h)

theorem Dev.sendRoute_csr (d : Dev) (p : Nat) : (d.sendRoute p).csr = d.csr := by
  unfold Dev.sendRoute Dev.sendMsix
  split
  · split
    · rfl
    · split <;> rfl
  · rfl

/-- A page whose header holds no setting of a port. -/
def OffPage (p : Nat) : Prop := p = 4 ∨ 0x20 ≤ p

theorem OffPage.reg {p o : Nat} (h : OffPage p) (ho : o < 65536) : OffSettings p o := by
  unfold OffPage at h
  unfold OffSettings
  omega

theorem Dev.int_keepsSettings (d : Dev) {p : Nat} (i : Nat) (h : OffPage p) : d.KeepsSettings (d.int p i) := by
  have hraise : d.KeepsSettings (d.raiseInt p (2 ^ i)) := by
    have hstat := d.setWord_keepsSettings (p := p) (o := 0x10) (BitVec.ofNat 32 (Nat.lor (d.word p 0x10).toNat (2 ^ i))) (h.reg (by decide))
    exact .ite _ (hstat.trans (Dev.setWord_keepsSettings _ _ (h.reg (by decide)))) hstat
  exact .ite _ (hraise.trans (.of_csr (Dev.sendRoute_csr _ p))) hraise

theorem offPage_err : OffPage 4 := .inl rfl

theorem Dev.pushLog_keepsSettings (d : Dev) (r : LogRec) : d.KeepsSettings (d.pushLog r) := by
  have hint : ∀ (x : Dev) (c : Prop) [Decidable c] (i : Nat), d.KeepsSettings x → d.KeepsSettings (if c then x.int 0x04 i else x) :=
    fun x c _ i h => h.trans (.ite c (x.int_keepsSettings _ offPage_err) (.refl x))
  refine hint _ _ _ (hint _ _ _ (hint _ _ _ (.trans ?shown (.ite _ ?lost (.refl _)))))
  case shown =>
    refine .trans (.trans (.of_csr ?_) (Dev.set_keepsSettings _ _ (offPage_err.reg (by decide))))
      (Dev.set_keepsSettings _ _ (offPage_err.reg (by decide)))
    rfl
  case lost => exact (Dev.bump_keepsSettings _ _ (offPage_err.reg (by decide))).trans (Dev.int_keepsSettings _ _ offPage_err)

theorem Dev.post_keepsSettings (d : Dev) (r : LogRec) (hc : r.cls < 8) : d.KeepsSettings (d.post r) := by
  have hcount : d.KeepsSettings (d.bump 0x04 (F.ERR_CNT_COUNT.at (4 * r.cls))) :=
    d.bump_keepsSettings _ (offPage_err.reg (by simp only [Fld.at]; omega))
  exact hcount.trans (.ite _ (Dev.pushLog_keepsSettings _ _) (.refl _))

theorem Dev.capture_keepsSettings (d : Dev) (c : Cap) (h : OffPage c.page) : d.KeepsSettings (d.capture c) := by
  have hset : ∀ (x : Dev) (o : Nat) (w : Word), o < 65536 → d.KeepsSettings x → d.KeepsSettings (x.setWord c.page o w) :=
    fun x o w ho hx => hx.trans (x.setWord_keepsSettings w (h.reg ho))
  unfold Dev.capture
  split
  · exact .refl d
  · refine .trans (.ite _ ?again ?first) (Dev.post_keepsSettings _ _ (PageKind.classOf_lt _ _))
    case again => exact hset _ _ _ (by decide) (.refl d)
    case first =>
      refine .trans ?_ (Dev.int_keepsSettings _ _ h)
      iterate 8 refine hset _ _ _ (by decide) ?_
      exact .refl d

/-- A discard that a page counts, shows by an interrupt and records as an error. -/
theorem Dev.countedErr_keepsSettings (d : Dev) {p : Nat} (f : Fld) (n i kind a b c : Nat) (h : 0x20 ≤ p) :
    d.KeepsSettings (((d.bump p f n).int p i).err p kind a b c) :=
  ((d.bump_keepsSettings _ (.inl h)).trans (Dev.int_keepsSettings _ _ (.inr h))).trans (Dev.capture_keepsSettings _ _ (.inr h))

/-! Cells and their charges -/

theorem Dev.ptrBad_keepsSettings (d : Dev) {p : Nat} (ptr code : Nat) (h : 0x20 ≤ p) : d.KeepsSettings (d.ptrBad p ptr code) :=
  .ite _ (.refl d) (d.countedErr_keepsSettings _ _ _ _ _ _ _ h)

theorem bpmPage_ge (die : Nat) : 0x20 ≤ bpmPage die := by unfold bpmPage; omega
theorem swcPage_ge (die : Nat) : 0x20 ≤ swcPage die := by unfold swcPage; omega

theorem Dev.sendPfc_keepsSettings (d : Dev) (port prio time : Nat) : d.KeepsSettings (d.sendPfc port prio time) := by
  have hp := swcPage_ge (port / 64)
  have hshown (v : Nat) : d.KeepsSettings ((d.bump (swcPage (port / 64)) (F.SWC_CNT_COUNT.at 8)).set (swcPage (port / 64))
      (F.SWC_PFC_STAT_XOFF.at (4 * (port % 64))) v) :=
    (d.bump_keepsSettings _ (.inl hp)).trans (Dev.set_keepsSettings _ _ (.inl hp))
  have htold (x : Dev) (h : d.KeepsSettings x) : d.KeepsSettings (if time = 0 then x else x.int (swcPage (port / 64)) 2) :=
    h.trans (.ite _ (.refl x) (x.int_keepsSettings _ (.inr hp)))
  have hlooped (x : Dev) (h : d.KeepsSettings x) :
      d.KeepsSettings (if x.loops port then { x with swc := { x.swc with looped := x.swc.looped ++ [(port, prio, time)] } } else x) :=
    h.trans (.ite _ (.of_csr rfl) (.refl x))
  exact (hlooped _ (htold _ (hshown _))).trans (.of_csr rfl)

theorem Dev.pfcJudge_keepsSettings (d : Dev) (port prio was : Nat) : d.KeepsSettings (d.pfcJudge port prio was) :=
  .ite _ (.ite _ (d.sendPfc_keepsSettings _ _ _) (.refl d)) (.ite _ (d.sendPfc_keepsSettings _ _ _) (.refl d))

theorem Dev.pfcRelease_keepsSettings (d : Dev) (ptr : Nat) : d.KeepsSettings (d.pfcRelease ptr) := by
  refine .ite _ (.refl d) (.trans (.of_csr ?_) (Dev.pfcJudge_keepsSettings _ _ _ _))
  rfl

theorem Dev.freeCell_keepsSettings (d : Dev) (ptr : Nat) : d.KeepsSettings (d.freeCell ptr) := by
  have hp := bpmPage_ge (cellDie ptr)
  have hpool (x : Dev) (b : Bpm) : (((x.setCell ptr CellEntry.init).moveMark ptr none).setBpm (cellDie ptr) b).csr = x.csr := rfl
  have hback (b : Bpm) := (d.pfcRelease_keepsSettings ptr).trans (.of_csr (hpool _ b))
  exact .ite _ (d.ptrBad_keepsSettings _ _ hp) (((hback _).trans (Dev.set_keepsSettings _ _ (.inl hp))).trans (Dev.set_keepsSettings _ _ (.inl hp)))

theorem Dev.walkFree_keepsSettings (d : Dev) (l : List Nat) : d.KeepsSettings (d.walkFree l) := by
  have hp := bpmPage_ge (cellDie (l.headD 0))
  have hfreed : d.KeepsSettings ((l.takeWhile fun c => !(d.cell c).ue).foldl
      (fun x c => if cellDie c = cellDie (l.headD 0) then x.freeCell c else x.ptrBad (bpmPage (cellDie (l.headD 0))) c 1) d) :=
    .foldl (fun x c _ => .ite _ (x.freeCell_keepsSettings c) (x.ptrBad_keepsSettings _ _ hp)) d
  unfold Dev.walkFree
  dsimp only
  split
  · exact hfreed
  · exact hfreed.trans (Dev.countedErr_keepsSettings _ _ _ _ _ _ _ _ hp)

theorem Dev.ownerTest_keepsSettings (d : Dev) (owner : Nat) : d.KeepsSettings (d.ownerTest owner) :=
  .ite _ ((d.walkFree_keepsSettings _).trans (Dev.bump_keepsSettings _ _ (.inl (bpmPage_ge _)))) (.refl d)

theorem Dev.ownRelease_keepsSettings (d : Dev) (owner : Nat) : d.KeepsSettings (d.ownRelease owner) := by
  refine .ite _ (d.ptrBad_keepsSettings _ _ (bpmPage_ge _)) (.trans (.of_csr ?_) (Dev.ownerTest_keepsSettings _ _))
  rfl

theorem Dev.ownFinal_keepsSettings (d : Dev) (owner : Nat) : d.KeepsSettings (d.ownFinal owner) := by
  refine .ite _ (d.ptrBad_keepsSettings _ _ (bpmPage_ge _)) (.trans (.of_csr ?_) (Dev.ownerTest_keepsSettings _ _))
  rfl

theorem Dev.letGo_keepsSettings (d : Dev) (first owner : Nat) (shared final : Bool) : d.KeepsSettings (d.letGo first owner shared final) :=
  .ite _ (d.walkFree_keepsSettings _)
    ((d.walkFree_keepsSettings _).trans (.ite _ (Dev.ownFinal_keepsSettings _ _) (Dev.ownRelease_keepsSettings _ _)))

theorem Dev.dropEnt_keepsSettings (d : Dev) (q : Nat) (e : QEnt) : d.KeepsSettings (d.dropEnt q e) := by
  refine .trans (.of_csr (b := d.cntSub e.srcDie q e.cells) ?_) (.ite _ (.refl _) (Dev.letGo_keepsSettings _ _ _ _ _))
  rfl

/-! Charges in the traffic managers -/

/-- `b` differs from `a` in the traffic managers alone. -/
def Dev.OnlyTm (a b : Dev) : Prop := a.setTm b.tm = b

theorem Dev.OnlyTm.refl (a : Dev) : a.OnlyTm a := rfl

theorem Dev.OnlyTm.trans {a b c : Dev} (h1 : a.OnlyTm b) (h2 : b.OnlyTm c) : a.OnlyTm c :=
  (congrArg (fun x : Dev => x.setTm c.tm) h1).trans h2

/-- A step that happens only under a condition. -/
theorem Dev.OnlyTm.ite {a b c : Dev} (p : Prop) [Decidable p] (h1 : a.OnlyTm b) (h2 : a.OnlyTm c) : a.OnlyTm (if p then b else c) := by
  split
  · exact h1
  · exact h2

theorem Dev.OnlyTm.csr {a b : Dev} (h : a.OnlyTm b) : b.csr = a.csr := (congrArg Dev.csr h).symm

theorem Dev.OnlyTm.badFrames {a b : Dev} (h : a.OnlyTm b) : b.badFrames = a.badFrames := (congrArg Dev.badFrames h).symm

theorem Dev.setTm_onlyTm (d : Dev) (t : Tm) : d.OnlyTm (d.setTm t) := rfl

theorem Dev.judge_onlyTm (d : Dev) (key level : Nat) (sel : Bool) : d.OnlyTm (d.judge key level sel) := .ite _ (d.setTm_onlyTm _) (d.setTm_onlyTm _)

theorem Dev.setBucket_onlyTm (d : Dev) (e : Nat) (b : Bucket) : d.OnlyTm (d.setBucket e b) :=
  .ite _ (d.setTm_onlyTm _) (.ite _ (d.setTm_onlyTm _) (d.setTm_onlyTm _))

theorem Dev.place_onlyTm (d : Dev) (e w : Nat) : d.OnlyTm (d.place e w) :=
  .ite _ (d.setTm_onlyTm _) (.ite _ (d.setTm_onlyTm _) (d.setTm_onlyTm _))

theorem Dev.chargeShaper_onlyTm (d : Dev) (e n : Nat) : d.OnlyTm (d.chargeShaper e n) :=
  .ite _ (.refl d) ((d.setBucket_onlyTm e _).trans
    (.ite _ ((Dev.setTm_onlyTm _ _).trans (Dev.place_onlyTm _ _ _)) (.refl _)))

theorem Dev.chargeTag_onlyTm (d : Dev) (key level len w : Nat) : d.OnlyTm (d.chargeTag key level len w) := rfl

theorem Dev.settle_onlyTm (d : Dev) (key : Nat) (sel : Bool) : d.OnlyTm (d.settle key sel) := rfl

theorem Dev.chargeSelection_onlyTm (d : Dev) (port m k q f : Nat) : d.OnlyTm (d.chargeSelection port m k q f) := by
  have hshapers := ((d.chargeShaper_onlyTm q f).trans (Dev.chargeShaper_onlyTm _ (nodeEnt m) f)).trans
    (Dev.chargeShaper_onlyTm _ (portEnt port) (d.portCharge port f))
  refine .trans ?_ (Dev.settle_onlyTm _ _ _)
  refine .trans ?_ (.ite _ (Dev.settle_onlyTm _ _ _) (Dev.judge_onlyTm _ _ _ _))
  refine .trans (.trans ?_ (Dev.chargeTag_onlyTm _ _ _ _ _)) (Dev.settle_onlyTm _ _ _)
  exact (hshapers.trans (Dev.chargeTag_onlyTm _ _ _ _ _)).trans (.ite _ (Dev.chargeTag_onlyTm _ _ _ _ _) (.refl _))

theorem Dev.chargeDirect_onlyTm (d : Dev) (port q f : Nat) : d.OnlyTm (d.chargeDirect port q f) :=
  (((d.judge_onlyTm _ _ _).trans (Dev.judge_onlyTm _ _ _ _)).trans (Dev.judge_onlyTm _ _ _ _)).trans (Dev.chargeSelection_onlyTm _ _ _ _ _ _)

theorem Dev.chargeEnded_onlyTm (d : Dev) (port : Nat) (t : Tx) : d.OnlyTm (d.chargeEnded port t) := .ite _ (d.chargeDirect_onlyTm _ _ _) (.refl d)

end Sys2Proof.Machine
end

section
/-! Transmission (R14, R82, R94, R222, R394): the start and the end of a frame on the wire, and the bytes of a plain frame. -/

namespace Sys2Proof.Machine

/-! FRAME_TRANSMIT_START -/

section
variable {d : Dev} {port : Nat} {x : Sel} (up : d.portState port = 1) (idle : d.tx port = none) (next : d.nextTx port = some x)
include up idle next

theorem Dev.transmitStart_clean :
    d.transmitStart port .clean =
      let b := (d.setEp (portEp port) (if x.cells = [] then (d.ep (portEp port)).remove x else (d.ep (portEp port)).begin x)).buildFrame port x.ent
      b.2.setTx port (some ⟨x.ent, x.queue, b.1, b.2.clk + b.2.wireNs port b.1.length⟩) := by
  cases h : x.cells <;> simp [Dev.transmitStart, up, idle, next, Dev.eccCount, h]

theorem Dev.transmitStart_bad (held : x.ent.ctl = false) :
    d.transmitStart port .bad =
      (((d.setEp (portEp port) ((d.ep (portEp port)).remove x)).eccCount 0 (cellDie x.ent.first) .bad).event
        (portPage port) 3 1 x.ent.first port 0).dropEnt x.queue x.ent := by
  simp [Dev.transmitStart, up, idle, next, held]

end

/-! FRAME_TRANSMIT_END -/

/-- A frame's cells were still to come when it ended on the wire. -/
def Dev.Outran (d : Dev) (port : Nat) (t : Tx) : Prop :=
  d.arriving t.ent.owner = true ∨ ∃ x ∈ (d.ep (portEp port)).sel, x.port = port ∧ x.onWire = true

/-- The state once a frame has left the transmit MAC and its endpoint. -/
def Dev.offWire (d : Dev) (port : Nat) (t : Tx) : Dev := ((d.chargeEnded port t).setTx port none).dropOnWire port

theorem Dev.offWire_isBad (d : Dev) (port : Nat) (t : Tx) (owner : Nat) : (d.offWire port t).isBad owner = d.isBad owner := by
  have hleft (x : Dev) : ((x.setTx port none).dropOnWire port).badFrames = x.badFrames := rfl
  rw [Dev.isBad, Dev.isBad, Dev.offWire, hleft, (d.chargeEnded_onlyTm port t).badFrames]

theorem Dev.offWire_keepsSettings (d : Dev) (port : Nat) (t : Tx) : d.KeepsSettings (d.offWire port t) := by
  have hleft (x : Dev) : ((x.setTx port none).dropOnWire port).csr = x.csr := rfl
  exact .of_csr ((hleft _).trans (d.chargeEnded_onlyTm port t).csr)

theorem Dev.endInverted_keepsSettings (d : Dev) (port : Nat) : d.KeepsSettings (d.endInverted port) :=
  d.bump_keepsSettings _ (.inr ⟨.inr (by simp only [Fld.at]; omega), by simp only [Fld.at]; omega⟩)

section
variable {d : Dev} {port : Nat} {t : Tx} (sending : d.tx port = some t)
include sending

theorem Dev.transmitEnd_eq :
    d.transmitEnd port =
      let d0 := d.offWire port t
      let outran := !t.ent.ctl && (d.arriving t.ent.owner || (d.ep (portEp port)).sel.any fun x => x.port == port && x.onWire)
      let d1 := if outran && !d0.isBad t.ent.owner then (d0.endInverted port).emit (.frame port (invertFcs t.bytes))
        else d0.emit (.frame port t.bytes)
      if t.ent.ctl then d1 else d1.dropEnt t.queue t.ent := by
  simp only [Dev.transmitEnd, sending]
  rfl

theorem Dev.transmitEnd_ctl (ctl : t.ent.ctl = true) : d.transmitEnd port = (d.offWire port t).emit (.frame port t.bytes) := by
  simp [Dev.transmitEnd_eq sending, ctl]

theorem Dev.transmitEnd_whole (held : t.ent.ctl = false) (whole : ¬d.Outran port t) :
    d.transmitEnd port = ((d.offWire port t).emit (.frame port t.bytes)).dropEnt t.queue t.ent := by
  have hwhole : (d.arriving t.ent.owner || (d.ep (portEp port)).sel.any fun x => x.port == port && x.onWire) = false := by
    rw [Bool.eq_false_iff]
    exact fun h => whole (by simpa [Dev.Outran] using h)
  simp [Dev.transmitEnd_eq sending, held, hwhole]

theorem Dev.transmitEnd_outran (held : t.ent.ctl = false) (outran : d.Outran port t) (fine : d.isBad t.ent.owner = false) :
    d.transmitEnd port = (((d.offWire port t).endInverted port).emit (.frame port (invertFcs t.bytes))).dropEnt t.queue t.ent := by
  have houtran : (d.arriving t.ent.owner || (d.ep (portEp port)).sel.any fun x => x.port == port && x.onWire) = true := by
    simpa [Dev.Outran] using outran
  simp [Dev.transmitEnd_eq sending, held, houtran, Dev.offWire_isBad, fine]

theorem Dev.transmitEnd_keepsSettings : d.KeepsSettings (d.transmitEnd port) := by
  have hemit : ∀ (x : Dev) (o : Out), d.KeepsSettings x → d.KeepsSettings (x.emit o) := fun x o h => h.trans (.of_csr rfl)
  have hoff := d.offWire_keepsSettings port t
  have hsent : ∀ c : Bool, d.KeepsSettings (if c then ((d.offWire port t).endInverted port).emit (.frame port (invertFcs t.bytes))
      else (d.offWire port t).emit (.frame port t.bytes)) :=
    fun c => .ite _ (hemit _ _ (hoff.trans (Dev.endInverted_keepsSettings _ _))) (hemit _ _ hoff)
  rw [Dev.transmitEnd_eq sending]
  exact .ite _ (hsent _) ((hsent _).trans (Dev.dropEnt_keepsSettings _ _ _))

/-- A port that does not loop receives nothing of what it sends. -/
theorem Dev.frameSent_unlooped (hp : port < 128) (plain : d.loops port = false) : d.frameSent port = d.transmitEnd port := by
  have hplain : (d.transmitEnd port).loops port = false := ((Dev.transmitEnd_keepsSettings sending).loops hp).trans plain
  unfold Dev.frameSent
  dsimp only
  split
  · rw [hplain]
    rfl
  · rfl

end

/-! The bytes of a plain frame -/

theorem Dev.ptpSend_off {d : Dev} {port : Nat} (b : List Byte)
    (off : d.get (8 + port / 64) (F.TIME_PORT_TS_TX_MODE.at (8 * (port % 64))) = 0) : d.ptpSend port b = (b, d) := if_pos (.inl off)

theorem Dev.entBytes_unmarked (d : Dev) (die : Nat) {e : QEnt} (clear : e.ce = false) :
    d.entBytes die e = ((d.chainBytes e.first).take e.len, d) := by
  simp [Dev.entBytes, clear]

/-- A packet padded to 60 bytes. -/
def padded (b : List Byte) : List Byte := b ++ List.replicate (60 - b.length) 0

theorem padded_length (b : List Byte) : (padded b).length = max 60 b.length := by
  simp only [padded, List.length_append, List.length_replicate]
  omega

theorem Dev.buildFrame_plain {d : Dev} {port : Nat} {e : QEnt} (held : e.ctl = false) (clear : e.ce = false) (plain : e.lead = [])
    (off : d.get (8 + port / 64) (F.TIME_PORT_TS_TX_MODE.at (8 * (port % 64))) = 0) :
    d.buildFrame port e =
      (padded ((d.chainBytes e.first).take e.len) ++ fcsOf (padded ((d.chainBytes e.first).take e.len)), d) := by
  simp [Dev.buildFrame, held, d.entBytes_unmarked _ clear, plain, Dev.ptpSend_off _ off, padded]

/-! The statement on sending -/

/-- Settles O41: a selection by the ports that ask and the window, a transfer by the endpoint that asks, and a frame's start and
end by what its cells read as and whether it overran them. -/
theorem framesAreSelectedAndSent : Obligations.FramesAreSelectedAndSent := by
  unfold Obligations.FramesAreSelectedAndSent
  refine ⟨fun s pg port m k q e r => ⟨fun off ecc => ?stopped, fun on free => ⟨fun quiet ecc => ?idle, fun turn best head => ?ungated⟩,
      fun on mine network asks gated nofill best head => ?gated⟩,
    fun s i a c cs punts host at_ cells more queued near room on alone => ?endpoint,
    fun s a c cs punts host at_ cells more near room on alone => ?host,
    fun s port x f => ⟨fun up idle next => ⟨?started, fun held => ?unreadable⟩,
      fun plain sending => ⟨fun ctl => ?control, fun held whole => ?whole, fun held outran fine => ?outran⟩, ?bytes⟩⟩
  case stopped => exact next_dev (Dev.selection_stopped ecc off)
  case idle => exact next_dev (Dev.selection_idle ecc on (Dev.oversize_ungated free) quiet)
  case ungated =>
    have hport : port ∈ s.dev.servedReady pg.val := (List.mem_filter.1 (Dev.grant_mem turn)).1
    have hopen : port < 128 → (s.dev.grant (Rr.ports pg.val) 152 (s.dev.asking (s.dev.servedReady pg.val))).2.gate port = none :=
      fun network => by rw [Dev.gate, Dev.grant_tm]; exact free port hport network
    have hplain := Dev.ungated_plain hopen
    exact ⟨next_dev ((Dev.selection_granted .clean on (Dev.oversize_ungated free) turn).trans
        (Dev.selectPort_taken hplain best head fun network gated => absurd gated (by rw [hopen (of_decide_eq_true network)]; decide))),
      next_dev ((Dev.selection_granted .bad on (Dev.oversize_ungated free) turn).trans (Dev.selectPort_bad hplain best head))⟩
  case gated =>
    have hturn := Dev.selection_alone .clean on mine network asks
    have hplain := Dev.unfilled_plain nofill
    exact ⟨fun fits => next_dev (hturn.trans (Dev.selectPort_taken hplain best head fun _ _ => fits)),
      fun late => next_dev (hturn.trans (Dev.selectPort_blocked hplain best head network gated late))⟩
  case endpoint =>
    have hkept := s.dev.closeCycle_keepsPaths
    exact ⟨_, next_dev (Dev.cellTransfer_endpoint i.isLt punts host at_ cells more queued near room on alone), rfl, rfl,
      Dev.ep_setEp_same _ _ _, fun j hne => (Dev.ep_setEp_ne _ _ hne).trans (hkept.ep j), hkept.hif, hkept.cells, hkept.tm⟩
  case host =>
    have hkept := s.dev.closeCycle_keepsPaths
    exact ⟨_, next_dev (Dev.cellTransfer_host punts host at_ cells more near room on alone), rfl, rfl, rfl, hkept.ep, hkept.cells, hkept.tm⟩
  case started => exact next_dev (Dev.transmitStart_clean up idle next)
  case unreadable => exact next_dev (Dev.transmitStart_bad up idle next held)
  case control => exact next_dev ((Dev.frameSent_unlooped sending port.isLt (plain _)).trans (Dev.transmitEnd_ctl sending ctl))
  case whole => exact next_dev ((Dev.frameSent_unlooped sending port.isLt (plain _)).trans (Dev.transmitEnd_whole sending held whole))
  case outran => exact next_dev ((Dev.frameSent_unlooped sending port.isLt (plain _)).trans (Dev.transmitEnd_outran sending held outran fine))
  case bytes =>
    intro d p e held clear plain off
    have hframe := Dev.buildFrame_plain held clear plain off
    refine ⟨hframe, ?_⟩
    rw [hframe, List.length_append, padded_length, fcsOf, leBytes_length]

end Sys2Proof.Machine
end

section
/-! Stealing and completion (R102, R103, R106, R109, R110): what a steal comes to by its thief and its victims, and what a report
does by its slot. -/

namespace Sys2Proof.Machine

/-! NEAR_STEAL (R102) -/

theorem Dev.nearSteal_idle {d : Dev} {c : Nat} (idle : d.isThief c = false) : d.nearSteal c = d := by
  simp [Dev.nearSteal, idle]

theorem Dev.nearSteal_takes {d d1 : Dev} {c v : Nat} (thief : d.isThief c = true)
    (victim : d.pickVictim c (d.victims c (c / 32) F.ENG_STEAL_THR_NEAR) = (some v, d1)) :
    d.nearSteal c = d1.moveHeads c v (d1.stealSize c v) 1 := by
  simp [Dev.nearSteal, thief, victim]

/-! FAR_STEAL (R103) -/

theorem Dev.farSteal_idle {d : Dev} {c : Nat} (idle : d.isThief c = false) : d.farSteal c = d := by
  simp [Dev.farSteal, idle]

section
variable {d : Dev} {c : Nat}

/-- A thief with no near victim, allowed to steal from the other die and not refused in this interval, has a far victim (R103). -/
structure Dev.SeeksFar (d : Dev) (c : Nat) : Prop where
  thief : d.isThief c = true
  noNear : d.victims c (c / 32) F.ENG_STEAL_THR_NEAR = []
  allowed : d.get (engPage c) F.ENG_CFG_FAR_EN ≠ 0
  unrefused : (d.ord (c / 32)).farRefused.contains c = false
  capped : 0 < d.get (ordPage (c / 32)) F.ORD_FAR_CAP_HEADS
  victims : d.victims c (1 - c / 32) F.ENG_STEAL_THR_FAR ≠ []
  power : d.domOn 27 = true

variable (seeks : d.SeeksFar c)
include seeks

/-- FAR_STEAL goes by the allowance alone. -/
theorem Dev.SeeksFar.farSteal_eq :
    d.farSteal c =
      if (d.ord (c / 32)).farUsed ≥ d.get (ordPage (c / 32)) F.ORD_FAR_CAP_HEADS then
        (d.setOrd (c / 32) { d.ord (c / 32) with farRefused := (d.ord (c / 32)).farRefused ++ [c] }).ordCnt (c / 32) 10
      else match d.pickVictim c (d.victims c (1 - c / 32) F.ENG_STEAL_THR_FAR) with
        | (none, _) => d
        | (some v, d1) =>
          let n := min (d1.stealSize c v) (d.get (ordPage (c / 32)) F.ORD_FAR_CAP_HEADS - (d.ord (c / 32)).farUsed)
          ((d1.setOrd (c / 32) { d1.ord (c / 32) with farUsed := (d.ord (c / 32)).farUsed + n }).ordCnt (c / 32) 9 n).moveHeads c v n 2 := by
  obtain ⟨thief, noNear, allowed, unrefused, capped, victims, power⟩ := seeks
  refine (if_neg ?_).trans rfl
  simp only [thief, noNear, unrefused, power, allowed, capped.ne', List.isEmpty_eq_false_iff.2 victims, decide_false, List.isEmpty_nil,
    Bool.not_true, Bool.or_false, Bool.false_eq_true, not_false_eq_true]

theorem Dev.SeeksFar.farSteal_refused (spent : d.get (ordPage (c / 32)) F.ORD_FAR_CAP_HEADS ≤ (d.ord (c / 32)).farUsed) :
    d.farSteal c = (d.setOrd (c / 32) { d.ord (c / 32) with farRefused := (d.ord (c / 32)).farRefused ++ [c] }).ordCnt (c / 32) 10 :=
  seeks.farSteal_eq.trans (if_pos spent)

theorem Dev.SeeksFar.farSteal_takes {d1 : Dev} {v : Nat} (left : (d.ord (c / 32)).farUsed < d.get (ordPage (c / 32)) F.ORD_FAR_CAP_HEADS)
    (victim : d.pickVictim c (d.victims c (1 - c / 32) F.ENG_STEAL_THR_FAR) = (some v, d1)) :
    let n := min (d1.stealSize c v) (d.get (ordPage (c / 32)) F.ORD_FAR_CAP_HEADS - (d.ord (c / 32)).farUsed)
    d.farSteal c =
      ((d1.setOrd (c / 32) { d1.ord (c / 32) with farUsed := (d.ord (c / 32)).farUsed + n }).ordCnt (c / 32) 9 n).moveHeads c v n 2 := by
  rw [seeks.farSteal_eq, if_neg (Nat.not_le_of_lt left), victim]

end

/-! COMPLETION_REPORT (R106, R109) -/

/-- The slot that a report names still waits for it. -/
def Ord.awaitsReport (o : Ord) (s : Nat) (r : Report) : Prop := (o.slot s).state = 1 ∧ (o.slot s).dom = r.dom ∧ (o.slot s).ticket = r.ticket

section
variable {d : Dev} {die s : Nat} {r : Report} (arrived : (d.ord die).reports.find? (·.slot = s) = some r)
include arrived

theorem Dev.completionReport_completes (waits : (d.ord die).awaitsReport s r) :
    d.completionReport die s = (d.setOrd die { d.ord die with reports := (d.ord die).reports.erase r }).complete die s r.ending := by
  simp only [Dev.completionReport, arrived]
  exact if_pos waits

theorem Dev.completionReport_orphan (gone : ¬ (d.ord die).awaitsReport s r) :
    d.completionReport die s = (d.setOrd die { d.ord die with reports := (d.ord die).reports.erase r }).orphan die r := by
  simp only [Dev.completionReport, arrived]
  exact if_neg gone

end

section
variable (d : Dev) (die s : Nat) {e : Ending}

/-- An outcome that retires in order stays in the slot: a forward, a replication, and a punt where ORD_CFG.PUNT_ORDER holds. -/
theorem Dev.complete_stores (ordered : e.kind = 0 ∨ e.kind = 1 ∨ e.kind = 3 ∧ d.live (ordPage die) F.ORD_CFG_PUNT_ORDER ≠ 0) :
    d.complete die s e =
      (d.setSlot die s { (d.ord die).slot s with state := 2, pkt := e.pkt, ending := some e }).joinReady die ((d.ord die).slot s).dom := by
  have hpass : e.kind ≠ 4 := by omega
  have hdrop : e.kind ≠ 2 := by omega
  have hpunt : ¬(e.kind = 3 ∧ d.live (ordPage die) F.ORD_CFG_PUNT_ORDER = 0) := by omega
  simp only [Dev.complete, if_neg hpass, if_neg hdrop, if_neg hpunt]

theorem Dev.complete_drop (drop : e.kind = 2) :
    d.complete die s e =
      (((d.freePkt e.pkt).ordCnt die 2).setSlot die s { (d.ord die).slot s with state := 3 }).joinReady die ((d.ord die).slot s).dom := by
  simp [Dev.complete, drop]

theorem Dev.complete_punt (punt : e.kind = 3) (unordered : d.live (ordPage die) F.ORD_CFG_PUNT_ORDER = 0) :
    d.complete die s e = ((d.puntEnding die e).setSlot die s { (d.ord die).slot s with state := 3 }).joinReady die ((d.ord die).slot s).dom := by
  simp [Dev.complete, punt, unordered]

theorem Dev.complete_secondPass (again : e.kind = 4) :
    d.complete die s e = (d.setSlot die s { (d.ord die).slot s with pass2 := true }).ordCnt die 5 := by
  simp [Dev.complete, again]

end

section
variable (d : Dev) (die : Nat) {r : Report}

theorem Dev.orphan_lost (lost : r.lost = true) : d.orphan die r = d.bump 0x04 (F.ERR_MISC_CNT_COUNT.at 12) := by
  simp [Dev.orphan, lost]

theorem Dev.orphan_secondPass (arrived : r.lost = false) (again : r.ending.kind = 4) : d.orphan die r = d := by
  simp [Dev.orphan, arrived, again]

theorem Dev.orphan_frees (arrived : r.lost = false) (ended : r.ending.kind ≠ 4) :
    d.orphan die r = ((d.freePkt r.ending.pkt).ordCnt die 7).int (ordPage die) 2 := by
  simp [Dev.orphan, arrived, ended]

end

/-! The statement on stealing and reports -/

/-- Settles O25: a steal by its thief, its victims and the allowance, and a report by whether its slot waits and by its outcome. -/
theorem clustersStealAndReport : Obligations.ClustersStealAndReport := by
  unfold Obligations.ClustersStealAndReport
  refine ⟨fun s c die v d1 => ⟨fun thief victim => ?near, fun idle => ⟨?noNear, ?noFar⟩,
      fun thief noNear allowed unrefused capped victims power => ?far, rfl⟩,
    fun s die slot r arrived => ⟨fun state dom ticket => ?waits, fun gone => ?gone⟩⟩
  case near => exact next_dev (Dev.nearSteal_takes thief victim)
  case noNear => exact next_dev (Dev.nearSteal_idle idle)
  case noFar => exact next_dev (Dev.farSteal_idle idle)
  case far =>
    have seeks : s.dev.SeeksFar c.val := ⟨thief, noNear, allowed, unrefused, capped, victims, power⟩
    exact ⟨fun spent => next_dev (seeks.farSteal_refused spent), fun left victim => next_dev (seeks.farSteal_takes left victim)⟩
  case waits =>
    have hreport := Dev.completionReport_completes arrived ⟨state, dom, ticket⟩
    exact ⟨fun ordered => next_dev (hreport.trans (Dev.complete_stores _ _ _ ordered)),
      fun drop => next_dev (hreport.trans (Dev.complete_drop _ _ _ drop)),
      fun punt unordered => next_dev (hreport.trans (Dev.complete_punt _ _ _ punt unordered)),
      fun again => next_dev (hreport.trans (Dev.complete_secondPass _ _ _ again))⟩
  case gone =>
    have hreport := Dev.completionReport_orphan arrived gone
    exact ⟨fun here again => next_dev (hreport.trans (Dev.orphan_secondPass _ _ here again)),
      fun here ended => next_dev (hreport.trans (Dev.orphan_frees _ _ here ended)),
      fun lost => next_dev (hreport.trans (Dev.orphan_lost _ _ lost))⟩

end Sys2Proof.Machine
end

section
/-! Retirement, ageing and recirculation (R106, R109, R110, R156): what a retirement comes to by the state of the front ticket's slot
and by its outcome, and what makes a slot VOID. -/

namespace Sys2Proof.Machine

/-! hand_on (R14, R106) -/

section
variable {d : Dev} {die : Nat} {e : Ending}

theorem Dev.handOn_punt (punt : e.kind = 3) : d.handOn die e = some (d.puntEnding die e) := if_pos punt

theorem Dev.handOn_bad (whole : e.kind ≠ 3) (bad : d.isBad e.pkt.owner = true) :
    d.handOn die e = some (((d.badDrop e.pkt.owner).freePkt e.pkt).ordCnt die 4) :=
  (if_neg whole).trans (if_pos bad)

theorem Dev.handOn_forward (forward : e.kind = 0) (good : d.isBad e.pkt.owner = false) :
    d.handOn die e = (d.handUnicast die 0 ⟨e.arg, e.color, e.pkt, false, false, 0⟩).map fun d => d.ordCnt die 1 := by
  simp [Dev.handOn, forward, good]

theorem Dev.handOn_replicate (replicate : e.kind = 1) (good : d.isBad e.pkt.owner = false) :
    d.handOn die e = (d.handMulticast die e.arg e.pkt).map fun d => d.ordCnt die 1 := by
  simp [Dev.handOn, replicate, good]

end

/-! TICKET_RETIRE (R106) -/

section
variable {d : Dev} {die dom k : Nat} {rest : List Nat} (on : d.active (ordPage die) = true) (front : (d.ord die).ready = dom :: rest)
  (next : (d.ord die).find dom ((d.ord die).domain dom).nextRetire = some k)
include on front next

/-- A VOID ticket is skipped. -/
theorem Dev.ticketRetire_void (void : ((d.ord die).slot k).state = 3) : d.ticketRetire die = d.passTicket die dom k := by
  simp [Dev.ticketRetire, on, front, next, void]

section
variable {e : Ending} (done : ((d.ord die).slot k).state = 2) (ending : ((d.ord die).slot k).ending = some e)
include done ending

/-- A DONE ticket retires once its packet is handed on. -/
theorem Dev.ticketRetire_handed {d' : Dev} (handed : d.handOn die e = some d') : d.ticketRetire die = d'.passTicket die dom k := by
  simp [Dev.ticketRetire, on, front, next, done, ending, handed]

/-- It waits where the taker is full. -/
theorem Dev.ticketRetire_waits (full : d.handOn die e = none) : d.ticketRetire die = d := by
  simp [Dev.ticketRetire, on, front, next, done, ending, full]

end
end

/-! Slots that become VOID (R109, R394) -/

section
variable {d : Dev} {die s : Nat}

theorem Dev.ticketAged_pending (pending : ((d.ord die).slot s).state = 1)
    (oldest : ((d.ord die).domain ((d.ord die).slot s).dom).nextRetire = ((d.ord die).slot s).ticket) :
    d.ticketAged die s = ((d.voidSlot die s).ordCnt die 6).int (ordPage die) 0 := if_pos ⟨pending, oldest⟩

theorem Dev.ticketAged_other (other : ((d.ord die).slot s).state ≠ 1) : d.ticketAged die s = d := if_neg fun h => other h.1

theorem Dev.slotUe_pending (pending : ((d.ord die).slot s).state = 1) :
    d.slotUe die s =
      (((((d.eccCount 5 die .bad).voidSlot die s).int (ordPage die) 0).ordCnt die 11).int (ordPage die) 3).err (ordPage die) 0x21 s := by
  simp [Dev.slotUe, pending]

theorem Dev.slotUe_free (free : ((d.ord die).slot s).state = 0) : d.slotUe die s = d.eccCount 5 die .bad := if_pos free

end

/-! RECIRC_ENQUEUE (R110) and EPOCH_FLIP (R156) -/

theorem Dev.recircEnqueue_room {d : Dev} {t : Nat} {h : Head} {e : Ending} (held : (d.thread t).head = some h)
    (ended : (d.thread t).ended = some e) (waits : (d.thread t).st = 4) (room : (d.pg e.arg).recirc.length < 64) :
    d.recircEnqueue t = (d.setThread t Thread.init).enqueueRecirc e.arg h := by
  simp [Dev.recircEnqueue, held, ended, waits, room]

theorem exec_epochFlip_drained {s : State} {die : Fin 2} (req : BitVec 16) (hr : s.dev.reachable (ordPage die.val))
    (drained : s.dev.get (ordPage die.val) (F.ORD_EPOCH_INFL_COUNT.at (4 * (1 - s.dev.get (ordPage die.val) F.ORD_EPOCH_CUR))) = 0) :
    exec (.epochFlip die req) s =
      .next { s with dev := s.dev.set (ordPage die.val) F.ORD_EPOCH_CUR (1 - s.dev.get (ordPage die.val) F.ORD_EPOCH_CUR) } :=
  (runHost_eq _ s _ (Reach.act_epochFlip ⟨s.trust, s.dev⟩ die req.toNat hr drained)).trans (next_dev (if_pos drained))

/-! The statement on tickets -/

/-- Settles O26: a retirement by the slot of the front ticket and by its outcome, an aged and an uncorrectable slot by its state. -/
theorem ticketsRetireInOrder : Obligations.TicketsRetireInOrder := by
  unfold Obligations.TicketsRetireInOrder
  refine ⟨fun s die dom k rest on front next => ⟨fun void => ?void, fun e done ending => ?done⟩,
    fun s die slot th req h e => ⟨fun pending oldest => ?aged, fun other => ?unaged, fun pending => ?uncorrectable, fun free => ?free,
      fun held ended waits room => ?recirculated, fun hr drained => exec_epochFlip_drained req hr drained⟩⟩
  case void => exact next_dev (Dev.ticketRetire_void on front next void)
  case done =>
    have handed : ∀ {d' : Dev}, s.dev.handOn die.val e = some d' → s.dev.ticketRetire die.val = d'.passTicket die.val dom k :=
      fun h => Dev.ticketRetire_handed on front next done ending h
    refine ⟨fun punt => next_dev (handed (Dev.handOn_punt punt)), fun whole bad => next_dev (handed (Dev.handOn_bad whole bad)),
      fun forward good => ⟨fun d taken => next_dev (handed ?_), fun full => ?_⟩, fun replicate good d taken => next_dev (handed ?_)⟩
    · rw [Dev.handOn_forward forward good, taken]
      rfl
    · exact next_dev (Dev.ticketRetire_waits on front next done ending (by rw [Dev.handOn_forward forward good, full]; rfl))
    · rw [Dev.handOn_replicate replicate good, taken]
      rfl
  case aged => exact next_dev (Dev.ticketAged_pending pending oldest)
  case unaged => exact next_dev (Dev.ticketAged_other other)
  case uncorrectable => exact next_dev (Dev.slotUe_pending pending)
  case free => exact next_dev (Dev.slotUe_free free)
  case recirculated => exact next_dev (Dev.recircEnqueue_room held ended waits room)

end Sys2Proof.Machine
end

section
/-! Microwords that issue (R104, R118, R119, R136, R138, R139, R151): where each SEQ code leaves the thread that its engine chooses,
and the ending that each code of an outcome asks for. -/

namespace Sys2Proof.Machine

/-! The block and the thread as a microword's SEQ finds them -/

/-- The block once the microword is counted and its units have acted (R130). -/
def Dev.unitsDone (d : Dev) (t : Nat) (w : Mw) : Dev := (d.bump64 (engPage (t / 128)) 0x120 1).unitsAct t w

/-- A thread with one more issue counted to its head, whose break bit is honoured again (R140). -/
def Thread.counted (x : Thread) : Thread :=
  { x with skipBrk := false, head := x.head.map fun h => { h with issues := h.issues + 1 } }

/-- A thread with a condition nibble latched (R120). -/
def Thread.latching (x : Thread) (nib : Nat) : Thread := { x with latch := nib }

/-- Where the SEQ codes that neither wait nor end the pass leave a thread: CONT 0, BRANCH 1, CALL 2, RET 3, TRET 4, YIELD 5;
`next` is the address after the microword's own, `target` the formed address (R118, R119). -/
def Thread.sequenced (x : Thread) (seq next target : Nat) : Thread :=
  match seq with
  | 0 => { x with upc := next }
  | 2 => { x with stack := next :: x.stack, upc := target }
  | 3 => { x with stack := x.stack.tail, upc := x.stack.headD 0 }
  | 4 => x.resumeFrame
  | _ => { x with upc := target }

/-! Counts -/

theorem Dev.csCorrected_records (d : Dev) (c n : Nat) : d.Records (d.csCorrected c n) :=
  ((d.bump_records _ _ _).trans (Dev.bump_records _ _ _ _)).trans (Dev.bump_records _ _ _ _)

theorem Dev.Records.thread {a b : Dev} (h : a.Records b) (t : Nat) : b.thread t = a.thread t :=
  congrArg (fun e : Engine => Map.rd Thread.init e.threads t) h.eng

@[simp] theorem Dev.csCorrected_thread (d : Dev) (c n t : Nat) : (d.csCorrected c n).thread t = d.thread t :=
  (d.csCorrected_records c n).thread t

@[simp] theorem Dev.thread_setThread_same (d : Dev) (t : Nat) (x : Thread) : (d.setThread t x).thread t = x :=
  Map.rd_wr_same _ _ _ _

/-! A legal microword (R139) -/

/-- The thread chosen issues its microword, which the command's SEQ names, and settles in READY or WAIT_LOOKUP. -/
theorem Dev.issue_word {d g d' : Dev} {t n chk : Nat} {w : Mw} (pick : d.pickThread t = some g) (slot : d.issueKind t = .word w)
    (read : chk ≠ 7) (code : w.seq = n) (word : (g.csCorrected (t / 128) chk).issueWord t w = d') :
    d.issue t n chk = d'.settleThread t := by
  simp [Dev.issue, pick, slot, code, read, word]

section
variable {d : Dev} {t : Nat} {w : Mw}

section
variable {x : Thread} (before : d.thread t = x)
include before

theorem Dev.issueWord_moves {n : Nat} (code : w.seq = n) (goesOn : n ≤ 5) :
    d.issueWord t w = (d.unitsDone t w).setThread t
      ((((d.unitsDone t w).thread t).counted.latching (x.cond t w.csel)).sequenced n ((x.upc + 1) % 16384) (formed w (x.cond t w.csel))) := by
  subst before
  interval_cases n <;> simp only [Dev.issueWord, code] <;> rfl

theorem Dev.issueWord_wait (code : w.seq = 6) :
    d.issueWord t w =
      if ((d.unitsDone t w).thread t).counted.outstanding = true then
        (d.unitsDone t w).setThread t { ((d.unitsDone t w).thread t).counted with st := 3, waitWord := some (w, x.upc) }
      else (d.unitsDone t w).setThread t
        { ((d.unitsDone t w).thread t).counted with latch := x.cond t w.csel, upc := formed w (x.cond t w.csel) } := by
  subst before
  simp only [Dev.issueWord, code]
  rfl

end

/-- The block once the thread of a microword that ends its pass is counted and latched. -/
def Dev.endReady (d : Dev) (t : Nat) (w : Mw) : Dev :=
  (d.unitsDone t w).setThread t (((d.unitsDone t w).thread t).counted.latching ((d.thread t).cond t w.csel))

theorem Dev.issueWord_ends {n : Nat} (code : w.seq = n) (low : 7 ≤ n) (high : n ≤ 11) :
    d.issueWord t w = (d.endReady t w).endBySeq t n := by
  interval_cases n <;> simp only [Dev.issueWord, code] <;> rfl

theorem Dev.issueWord_abort (code : w.seq = 12) : d.issueWord t w = (d.endReady t w).endByTrap t 5 true false := by
  simp only [Dev.issueWord, code]
  rfl

end

/-! Outcomes (R104, R151) -/

section
variable {d : Dev} {t : Nat} {h : Head} (held : (d.thread t).head = some h)
include held

theorem Dev.endBySeq_forward :
    d.endBySeq t 7 = d.endPlaced t
      ⟨0, bits ((d.thread t).mdWord 15) 0 17, min 2 (bits ((d.thread t).mdWord 15) 17 2), 0, 0, h.pkt, h.md⟩ := by
  simp only [Dev.endBySeq, held]
  rfl

theorem Dev.endBySeq_multicast : d.endBySeq t 8 = d.endPlaced t ⟨1, bits ((d.thread t).mdWord 15) 0 16, 0, 0, 0, h.pkt, h.md⟩ := by
  simp only [Dev.endBySeq, held]
  rfl

theorem Dev.endBySeq_drop : d.endBySeq t 9 = d.endPass t ⟨2, 0, 0, 0, 0, h.pkt, h.md⟩ := by
  simp only [Dev.endBySeq, held]
  rfl

theorem Dev.endBySeq_punt (named : bit ((d.thread t).mdWord 15) 16 = false) :
    d.endBySeq t 10 = d.endPlaced t
      ⟨3, bits ((d.thread t).mdWord 15) 0 10, 0, bits ((d.thread t).mdWord 15) 10 6, 1, h.pkt, h.md⟩ := by
  simp [Dev.endBySeq, held, named]

theorem Dev.endBySeq_puntDefault (byDefault : bit ((d.thread t).mdWord 15) 16 = true) (en : d.get (pgPage h.pkt.pg) F.PG_PUNT_CH_EN = 1) :
    d.endBySeq t 10 = d.endPlaced t
      ⟨3, d.get (pgPage h.pkt.pg) F.PG_PUNT_CH_CHAN, 0, bits ((d.thread t).mdWord 15) 10 6, 1, h.pkt, h.md⟩ := by
  simp [Dev.endBySeq, held, byDefault, en]

theorem Dev.endBySeq_puntOff (byDefault : bit ((d.thread t).mdWord 15) 16 = true) (off : d.get (pgPage h.pkt.pg) F.PG_PUNT_CH_EN = 0)
    (valid : geometryOk h.pkt.flen ((d.thread t).geometry h.pkt.flen) = true) :
    d.endBySeq t 10 = d.endPass t ⟨2, 0, 0, 0, 0, h.pkt, h.md⟩ := by
  simp [Dev.endBySeq, held, byDefault, off, valid]

theorem Dev.endBySeq_recirculate (on : d.running (pgPage (bits ((d.thread t).mdWord 15) 0 4)) = true) :
    d.endBySeq t 11 = (d.engCnt (t / 128) 7).endPass t ⟨4, bits ((d.thread t).mdWord 15) 0 4, 0, 0, 0, h.pkt, h.md⟩ := by
  simp [Dev.endBySeq, held, on]

theorem Dev.endBySeq_recirculateOff (off : d.running (pgPage (bits ((d.thread t).mdWord 15) 0 4)) = false) :
    d.endBySeq t 11 = d.endByTrap t 5 false false := by
  simp [Dev.endBySeq, held, off]

end

/-! The statement on sequencing -/

/-- Settles O30: the issue counts and lets the units act, then the thread moves, waits or ends by its SEQ code. -/
theorem issuesSequenceAndEndPasses : Obligations.IssuesSequenceAndEndPasses := by
  unfold Obligations.IssuesSequenceAndEndPasses
  refine ⟨fun s th chk w g read pick slot => ?goesOn, fun s th chk w h g read pick slot => ?ends⟩
  case goesOn =>
    intro old nib next d y x
    have hold : (g.csCorrected (th.val / 128) chk.val).thread th.val = g.thread th.val := Dev.csCorrected_thread _ _ _ _
    have moves : ∀ {n : Nat}, w.seq = n → n ≤ 5 →
        s.dev.issue th.val n chk.val = (d.setThread th.val (x.sequenced n next (formed w nib))).settleThread th.val :=
      fun code goesOn => Dev.issue_word pick slot read code (Dev.issueWord_moves hold code goesOn)
    exact ⟨fun code => next_dev (moves code (by decide)), fun code => next_dev (moves code (by decide)),
      fun code => next_dev (moves code (by decide)), fun code => next_dev (moves code (by decide)),
      fun code => next_dev (moves code (by decide)), fun code => next_dev (moves code (by decide)),
      fun code out => next_dev (Dev.issue_word pick slot read code ((Dev.issueWord_wait hold code).trans (if_pos out))),
      fun code returned => next_dev (Dev.issue_word pick slot read code
        ((Dev.issueWord_wait hold code).trans (if_neg (ne_true_of_eq_false returned))))⟩
  case ends =>
    intro nib d0 x d y m chan en held
    have hd : (g.csCorrected (th.val / 128) chk.val).endReady th.val w = d := by
      rw [Dev.endReady, Dev.csCorrected_thread]
      rfl
    have ends : ∀ {n : Nat} {d' : Dev}, w.seq = n → 7 ≤ n → n ≤ 11 → d.endBySeq th.val n = d' →
        s.dev.issue th.val n chk.val = d'.settleThread th.val := fun code low high ending =>
      Dev.issue_word pick slot read code ((Dev.issueWord_ends code low high).trans (by rw [hd, ending]))
    exact ⟨fun code => next_dev (ends code (by decide) (by decide) (Dev.endBySeq_forward held)),
      fun code => next_dev (ends code (by decide) (by decide) (Dev.endBySeq_multicast held)),
      fun code => next_dev (ends code (by decide) (by decide) (Dev.endBySeq_drop held)),
      fun code named => next_dev (ends code (by decide) (by decide) (Dev.endBySeq_punt held named)),
      fun code byDefault on => next_dev (ends code (by decide) (by decide) (Dev.endBySeq_puntDefault held byDefault on)),
      fun code byDefault off valid => next_dev (ends code (by decide) (by decide) (Dev.endBySeq_puntOff held byDefault off valid)),
      fun code on => next_dev (ends code (by decide) (by decide) (Dev.endBySeq_recirculate held on)),
      fun code off => next_dev (ends code (by decide) (by decide) (Dev.endBySeq_recirculateOff held off)),
      fun code => next_dev (Dev.issue_word pick slot read code ((Dev.issueWord_abort code).trans (by rw [hd])))⟩

end Sys2Proof.Machine
end

section
/-! RESUME (R140) and results that a thread awaits (R96, R132): a thread that leaves DEBUG while its next microword uses a register
that a lookup has still to write is in WAIT_LOOKUP, not READY. -/

namespace Sys2Proof.Machine

/-! Awaited results (R96, R132) -/

/-- A READY thread goes to WAIT_LOOKUP where its next microword uses a register that a lookup of it has yet to write. -/
theorem Dev.settleThread_hazard {d : Dev} {t : Nat} {x : Thread} (now : d.thread t = x) (held : x.head.isSome = true)
    (going : x.ended = none) (free : x.waitWord = none) (ready : x.st = 2) (hazard : d.hazard t = true) :
    d.settleThread t = d.setThread t { x with st := 3 } := by
  simp [Dev.settleThread, now, held, going, free, ready, hazard]

/-- A thread that RESUME 2 takes to its handler. -/
def Dev.vectored (d : Dev) (t : Nat) : Thread := { d.thread t with st := 2, upc := (d.trapBase (t / 128) + 64) % 16384 }

/-- RESUME 2 leaves a thread in WAIT_LOOKUP where its handler begins with a microword that uses an awaited register. -/
theorem Dev.resume_vector_hazard {d : Dev} {t : Nat} (held : (d.thread t).head.isSome = true) (going : (d.thread t).ended = none)
    (free : (d.thread t).waitWord = none) (hazard : (d.setThread t (d.vectored t)).hazard t = true) :
    ((d.resume t 2).thread t).st = 3 := by
  have hresume : d.resume t 2 = (d.setThread t (d.vectored t)).settleThread t := rfl
  rw [hresume, Dev.settleThread_hazard (x := d.vectored t) (Dev.thread_setThread_same d t _) held going free rfl hazard,
    Dev.thread_setThread_same]

/-! RESUME 2 (R140) -/

/-- ENG_DBG_CTL as the register table has it. -/
def dbgCtl : RegDesc :=
  ⟨0x0300, 1, 65536, 1, 4, .single, [⟨0, 1, .rw, 0, false⟩, ⟨1, 1, .wo, 0, false⟩, ⟨8, 4, .rw, 0, false⟩, ⟨12, 3, .rw, 0, false⟩,
    ⟨16, 1, .wo, 0, false⟩, ⟨17, 2, .wo, 0, false⟩]⟩

theorem regAt_dbgCtl (c : Fin 64) : regAt (engPage c.val) 0x0300 = some dbgCtl := by revert c; decide

theorem actsAt_dbgCtl_vector (d : Dev) (c : Fin 64) : ActsAt d (engPage c.val) 0x0300 0x40000 dbgCtl where
  at_ := regAt_dbgCtl c
  only := by decide
  low := by decide
  mode h := absurd h.2 (by decide)
  pwr := by revert c; decide
  desc h := absurd h.2 (by decide)
  shown := by simp [Dev.shown, pageKind_eng]
  keep := by simp [Dev.keepFields, pageKind_eng]
  clamp := by simp [clampWord, pageKind_eng]
  bound := by simp [Dev.boundCheck, pageKind_eng]
  swc := by simp [pageKind_eng]

/-- The action bits of RESUME 2 as ENG_DBG_CTL gets them. -/
theorem actNum_vector (d : Dev) (p : Nat) :
    bits (d.actNum p 0x0300 0x40000 dbgCtl) 17 2 = 2 ∧ bit (d.actNum p 0x0300 0x40000 dbgCtl) 1 = false ∧
      bit (d.actNum p 0x0300 0x40000 dbgCtl) 16 = false := by
  refine ⟨?_, d.actNum_bit _ _ _ _ _ (by decide), d.actNum_bit _ _ _ _ _ (by decide)⟩
  rw [Dev.actNum, actWord, bits_lor, bits_land]
  have hk : bits dbgCtl.keepMask 17 2 = 0 := by decide
  rw [hk]
  show bits (d.word p 0x0300).toNat 17 2 &&& 0 ||| bits 0x40000 17 2 = 2
  rw [Nat.and_zero, Nat.zero_or]
  rfl

theorem Reach.act_vector (x : Reach) (c : Fin 64) (req : Nat) (hr : x.dev.reachable (engPage c.val))
    (debug : (x.dev.thread (x.dev.dbgThread c.val)).st = 5) :
    x.act (engPage c.val) 0x0300 0x40000 req = ⟨x.trust, x.dev.resume (x.dev.dbgThread c.val) 2⟩ := by
  obtain ⟨how, all, one⟩ := actNum_vector x.dev (engPage c.val)
  have ht : isTrust (engPage c.val) 0x0300 = false := by clear * -; revert c; decide
  rw [x.act_eq _ _ _ req _ hr (by decide) (by decide) ht (actsAt_dbgCtl_vector x.dev c)
    (by simp [Dev.ignores, pageKind_eng]) (by simp [Dev.actRefused, pageKind_eng, pageInst_eng, debug])]
  simp [Dev.act, pageKind_eng, pageInst_eng, Dev.dbgControl, how, all, one, debug]

/-- ENG_DBG_CTL selects thread `t` in its cluster. -/
structure Dev.Selects (d : Dev) (t : Nat) : Prop where
  engine : d.get (engPage (t / 128)) F.ENG_DBG_CTL_ENGINE = t / 8 % 16
  thread : d.get (engPage (t / 128)) F.ENG_DBG_CTL_THREAD = t % 8

theorem Dev.Selects.dbgThread {d : Dev} {t : Nat} (selects : d.Selects t) : d.dbgThread (t / 128) = t := by
  rw [Dev.dbgThread, selects.engine, selects.thread]
  omega

theorem Reach.defined_dbgCtl (x : Reach) (c : Fin 64) :
    x.defined (engPage c.val) 0x0300 = Nat.land (x.dev.word (engPage c.val) 0x0300).toNat dbgCtl.keepMask := by
  have ht : isTrust (engPage c.val) 0x0300 = false := by clear * -; revert c; decide
  simp [Reach.defined, regAt_dbgCtl, Reach.shown, ht, (actsAt_dbgCtl_vector x.dev c).shown]

section
variable {s : State} {th : Fin 8192} {req : BitVec 16} (selects : s.dev.Selects th.val)
include selects

/-- A debug write that selects the thread already selected only acts. -/
theorem Reach.debugWrite_selected (b n : Nat) :
    (⟨s.trust, s.dev⟩ : Reach).debugWrite th.val b n = (⟨s.trust, s.dev⟩ : Reach).act (engPage (th.val / 128)) 0x0300 b n := by
  have hword := Reach.defined_dbgCtl ⟨s.trust, s.dev⟩ ⟨th.val / 128, by omega⟩
  have hkeep : bits dbgCtl.keepMask 8 4 = 2 ^ 4 - 1 ∧ bits dbgCtl.keepMask 12 3 = 2 ^ 3 - 1 := by decide
  have engine : bits ((⟨s.trust, s.dev⟩ : Reach).defined (engPage (th.val / 128)) 0x0300) 8 4 = th.val / 8 % 16 := by
    rw [hword, bits_land, hkeep.1, land_ones]
    exact selects.engine
  have thread : bits ((⟨s.trust, s.dev⟩ : Reach).defined (engPage (th.val / 128)) 0x0300) 12 3 = th.val % 8 := by
    rw [hword, bits_land, hkeep.2, land_ones]
    exact selects.thread
  simp only [Reach.debugWrite, Reach.act, ← engine, ← thread, putBits_bits]

theorem exec_resumeVector_selected (hr : s.dev.reachable (engPage (th.val / 128))) (debug : (s.dev.thread th.val).st = 5) :
    exec (.resumeVector th req) s = .next { s with dev := s.dev.resume th.val 2 } := by
  have hact := Reach.act_vector ⟨s.trust, s.dev⟩ ⟨th.val / 128, by omega⟩ req.toNat hr (by rw [selects.dbgThread]; exact debug)
  rw [selects.dbgThread] at hact
  exact runHost_eq _ s _ ((Reach.debugWrite_selected selects _ _).trans hact)

theorem resumeVector_waits {t : State} (hr : s.dev.reachable (engPage (th.val / 128))) (debug : (s.dev.thread th.val).st = 5)
    (held : (s.dev.thread th.val).head.isSome = true) (going : (s.dev.thread th.val).ended = none)
    (free : (s.dev.thread th.val).waitWord = none) (hazard : (s.dev.setThread th.val (s.dev.vectored th.val)).hazard th.val = true)
    (resumed : exec (.resumeVector th req) s = .next t) : (t.dev.thread th.val).st = 3 := by
  rw [exec_resumeVector_selected selects hr debug] at resumed
  injection resumed with hstate
  subst hstate
  exact Dev.resume_vector_hazard held going free hazard

end

/-! The counterexample -/

/-- The head of a packet of port 3. -/
def haltedHead : Head := ⟨⟨5, 5, 64, 68, 3, 0, 3, 0, false⟩, List.replicate 256 0, List.replicate 64 0, 0, 0, 12288, 0, 0, false, 0⟩

/-- A lookup that is out, with a 32-bit result for register 3. -/
def lookupOut : LkSlot :=
  { LkSlot.init with busy := true, rreg := 3, desc := [BitVec.ofNat 32 (1 + 32 * 2 ^ 17), 0, 0, 0, 0, 0, 0, 0] }

/-- A thread halted at address 1 with that lookup out. -/
def haltedThread : Thread :=
  let x : Thread := { Thread.init with st := 5, head := some haltedHead, upc := 1, launched := 1, slots := [(0, lookupOut)] }
  { x with frame := x.frameOf 1 4 0 }

/-- Every domain ON, thread 0 halted so, and at 64, where RESUME 2 takes it with trap base 0, the microword CONT of CSEL 0x23, which
latches the low nibble of register 3. -/
def haltedBlock : Dev :=
  { ((List.range 30).foldl (fun d n => d.setDom n 3) Dev.reset).setThread 0 haltedThread with
    cs := ⟨[(64, BitVec.ofNat 192 (0x23 * 2 ^ 168))], [], [], []⟩ }

def haltedMachine : State := { State.reset with dev := haltedBlock }

theorem haltedBlock_reachable : haltedBlock.reachable (engPage 0) := by decide +kernel

theorem haltedBlock_thread : haltedBlock.thread 0 = haltedThread := by decide +kernel

theorem haltedBlock_hazard : (haltedBlock.setThread 0 (haltedBlock.vectored 0)).hazard 0 = true := by decide +kernel

theorem haltedMachine_selects : haltedMachine.dev.Selects (0 : Fin 8192).val := ⟨by decide +kernel, by decide +kernel⟩

/-- RESUME_VECTOR leaves the thread in WAIT_LOOKUP. -/
theorem haltedMachine_waits {t : State} {req : BitVec 16} (resumed : exec (.resumeVector 0 req) haltedMachine = .next t) :
    (t.dev.thread (0 : Fin 8192).val).st = 3 := by
  have hthread : haltedMachine.dev.thread (0 : Fin 8192).val = haltedThread := haltedBlock_thread
  exact resumeVector_waits (s := haltedMachine) (th := 0) haltedMachine_selects haltedBlock_reachable (congrArg Thread.st hthread)
    (congrArg (·.head.isSome) hthread) (congrArg Thread.ended hthread) (congrArg Thread.waitWord hthread) haltedBlock_hazard resumed

/-- Refutes O31: RESUME 2 does not always leave the thread in state 2. The thread above is halted with a lookup out for register 3, and
its handler's first microword reads register 3, so that it resumes into state 3, WAIT_LOOKUP, as R96 and R132 have it. -/
theorem not_trapsAndDebugReachTheThread : ¬ Obligations.TrapsAndDebugReachTheThread := by
  unfold Obligations.TrapsAndDebugReachTheThread
  rintro ⟨-, hdebug⟩
  obtain ⟨hop, hl, -, hon⟩ := haltedBlock_reachable
  have hst : (haltedMachine.dev.thread (0 : Fin 8192).val).st = 5 := congrArg Thread.st haltedBlock_thread
  obtain ⟨-, hresume, -, -⟩ := hdebug haltedMachine 0 0 0 0 0 hop hl
  obtain ⟨-, ⟨t, hexec, hthread⟩, -⟩ := hresume hon hst
  exact absurd ((haltedMachine_waits hexec).symm.trans (congrArg Thread.st hthread)) (by decide)

end Sys2Proof.Machine
end

section
/-! Counts and sums of the ALUs (R123): CLZ is the place of the first set bit from the top, and end-around carry keeps a sum modulo
65,535. -/

namespace Sys2Proof.Machine

/-! CLZ -/

theorem clz64_eq_findIdx (v : Nat) : clz64 v = (List.range 64).findIdx fun i => bit v (63 - i) := by
  have hle : ((List.range 64).map fun i => 63 - i).findIdx (bit v) ≤ 64 := List.findIdx_le_length.trans_eq (by simp)
  rw [← Function.comp_def (bit v), ← List.findIdx_map]
  simpa [clz64, List.takeWhile_eq_take_findIdx_not] using hle

theorem clz64_le (v : Nat) : clz64 v ≤ 64 := by
  rw [clz64_eq_findIdx]
  exact List.findIdx_le_length.trans_eq List.length_range

theorem bit_first_below_clz64 {v : Nat} (h : clz64 v < 64) : bit v (63 - clz64 v) = true := by
  rw [clz64_eq_findIdx] at h ⊢
  simpa only [List.getElem_range] using List.findIdx_getElem (w := h.trans_eq List.length_range.symm)

theorem bit_above_clz64 {v i : Nat} (hi : i < 64) (above : 64 - clz64 v ≤ i) : bit v i = false := by
  have hle := clz64_le v
  have hlt : 63 - i < clz64 v := by omega
  rw [clz64_eq_findIdx] at hlt
  simpa [show 63 - (63 - i) = i by omega] using List.not_of_lt_findIdx hlt

/-- A number of 64 bits other than 0 has a set bit below 64. -/
theorem clz64_lt {v : Nat} (hv : v < 2 ^ 64) (set : v ≠ 0) : clz64 v < 64 := by
  by_contra none
  refine set (Nat.eq_of_testBit_eq fun i => ?_)
  rw [Nat.zero_testBit]
  rcases lt_or_ge i 64 with low | high
  · rw [testBit_eq_bit, bit_above_clz64 low (by omega)]
  · exact Nat.testBit_lt_two_pow (hv.trans_le (Nat.pow_le_pow_right (by decide) high))

/-! Sums with end-around carry -/

theorem onesSum_mod (l : List Nat) : onesSum l % 65535 = l.sum % 65535 := by
  unfold onesSum
  dsimp only
  omega

/-- Two folds bring the sum of as many as 65,536 numbers of 16 bits to 16 bits. -/
theorem onesSum_lt {l : List Nat} (h : l.sum ≤ 65536 * 65535) : onesSum l < 65536 := by
  unfold onesSum
  dsimp only
  omega

theorem onesSum_eq_zero {l : List Nat} : onesSum l = 0 ↔ l.sum = 0 := by
  unfold onesSum
  dsimp only
  omega

/-- 65,536 is 1 modulo 65,535, so that the bits above a lane may be added to it. -/
theorem lane_add_rest (v k : Nat) : v / 2 ^ k % 2 ^ 16 + v / 2 ^ (k + 16) ≡ v / 2 ^ k [MOD 65535] := by
  rw [pow_add, ← Nat.div_div_eq_div_mul, Nat.ModEq]
  omega

theorem lanes_mod {v : Nat} (hv : v < 2 ^ 64) : ([bits v 0 16, bits v 16 16, bits v 32 16, bits v 48 16] : List Nat).sum ≡ v [MOD 65535] := by
  have top : bits v 48 16 = v / 2 ^ 48 := Nat.mod_eq_of_lt (Nat.div_lt_of_lt_mul hv)
  rw [top]
  calc
    [bits v 0 16, bits v 16 16, bits v 32 16, v / 2 ^ 48].sum = bits v 0 16 + (bits v 16 16 + (bits v 32 16 + v / 2 ^ 48)) := by simp
    _ ≡ bits v 0 16 + (bits v 16 16 + v / 2 ^ 32) [MOD 65535] := ((lane_add_rest v 32).add_left _).add_left _
    _ ≡ bits v 0 16 + v / 2 ^ 16 [MOD 65535] := (lane_add_rest v 16).add_left _
    _ ≡ v / 2 ^ 0 [MOD 65535] := lane_add_rest v 0
    _ = v := by simp

theorem fold16_lt (v : Nat) : fold16 v < 65536 := by
  have lane (l : Nat) : bits v l 16 < 65536 := bits_lt v l 16
  refine onesSum_lt ?_
  simp only [List.sum_cons, List.sum_nil]
  linarith [lane 0, lane 16, lane 32, lane 48]

/-- Settles O28: CLZ by the first set bit from the top, the sums by their value modulo 65,535. -/
theorem countsAndSumsAreRight : Obligations.CountsAndSumsAreRight := by
  unfold Obligations.CountsAndSumsAreRight
  intro v hv
  refine ⟨clz64_le v, fun set => ⟨bit_first_below_clz64 (clz64_lt hv set), clz64_lt hv set⟩, fun i => bit_above_clz64, fold16_lt v,
    (onesSum_mod _).trans (lanes_mod hv), fun a b ha hb => ?_⟩
  have hsum : ([a, b] : List Nat).sum = a + b := by simp
  refine ⟨onesSum_lt (by omega), (onesSum_mod _).trans (by rw [hsum]), fun zero => ?_⟩
  have := onesSum_eq_zero.1 zero
  omega

end Sys2Proof.Machine
end

section
/-! ALUs (R121 to R124, R132, R133): a command of an ALU waits for a register that a lookup has still to write, ends the pass with
ILLEGAL on illegal fields, and otherwise writes its result and its flags. -/

namespace Sys2Proof.Machine

/-- A command whose effect `row` comes to `d`, but to nothing while the thread awaits a register. -/
theorem acts_or_waits {s : State} {c : Instr} {row d : Dev} {awaits : Bool} (effect : exec c s = .next { s with dev := row })
    (acts : awaits = false → row = d) (waits : awaits = true → row = s.dev) :
    (awaits = false → exec c s = .next { s with dev := d }) ∧ (awaits = true → exec c s = .next s) :=
  ⟨fun free => effect.trans (next_dev (acts free)), fun held => effect.trans (next_dev (waits held))⟩

/-! ALUs (R121–R124, R132, R133) -/

section
variable {d : Dev} {t op dst sa sb shm : Nat} (side : Bool) (imm : Nat)

theorem Dev.aluRow_waits (awaits : (d.thread t).awaits (AluF.touches ⟨op, dst, sa, sb, shm⟩) = true) :
    d.aluRow t side op dst sa sb shm imm = d := by
  simp [Dev.aluRow, awaits]

variable (ready : d.mayIssue t = true) (free : (d.thread t).awaits (AluF.touches ⟨op, dst, sa, sb, shm⟩) = false)
include ready free

theorem Dev.aluRow_illegal (illegal : AluF.illegal ⟨op, dst, sa, sb, shm⟩ = true) :
    d.aluRow t side op dst sa sb shm imm = d.endByTrap t 5 false false := by
  simp [Dev.aluRow, ready, free, illegal]

theorem Dev.aluRow_legal (legal : AluF.illegal ⟨op, dst, sa, sb, shm⟩ = false) :
    d.aluRow t side op dst sa sb shm imm = d.setThread t ((d.thread t).aluAct (d.thread t) t imm side ⟨op, dst, sa, sb, shm⟩) := by
  simp [Dev.aluRow, ready, free, legal]

end

section
variable {op dst sa sb : Nat} (shm : Nat)

/-- Fields are legal for a defined opcode whose sources and destination are legal; CMP (10) and TST (11) name no destination. -/
theorem AluF.legal (defined : op ≤ 18) (hA : usesA op = true → srcLegal sa = true) (hB : usesB op = true → srcLegal sb = true)
    (hd : dstLegal dst = true) (compares : (op = 10 ∨ op = 11) → dst = 0x3F) : AluF.illegal ⟨op, dst, sa, sb, shm⟩ = false := by
  have checked {uses legal : Bool} (h : uses = true → legal = true) : (uses && !legal) = false := by
    cases uses <;> simp_all
  have hc : ((op == 10 || op == 11) && dst != 0x3F) = false := by
    rw [Bool.and_eq_false_iff]
    by_cases h : op = 10 ∨ op = 11
    · exact .inr (by simp [compares h])
    · exact .inl (by simpa using h)
  simp [AluF.illegal, checked hA, checked hB, hc, hd, defined]

theorem AluF.illegal_operand (acts : op ≠ 0) (hA : usesA op = true) (hB : usesB op = true)
    (operand : dstLegal dst = false ∨ srcLegal sa = false ∨ srcLegal sb = false) : AluF.illegal ⟨op, dst, sa, sb, shm⟩ = true := by
  rcases operand with h | h | h <;> simp [AluF.illegal, acts, hA, hB, h]

theorem AluF.illegal_compare (compares : op = 10 ∨ op = 11) (h : dst ≠ 0x3F) : AluF.illegal ⟨op, dst, sa, sb, shm⟩ = true := by
  rcases compares with rfl | rfl <;> simp [AluF.illegal, h]

end

/-- The flag nibble V, C, N, Z of a result of `w` bits (R124). -/
def flagNibble (w r : Nat) (c v : Bool) : Nat := b2n v * 8 + b2n c * 4 + b2n (bit (r % 2 ^ w) (w - 1)) * 2 + b2n (r % 2 ^ w = 0)

theorem flagNibble_noCarry (w r : Nat) : flagNibble w r false false = b2n (bit (r % 2 ^ w) (w - 1)) * 2 + b2n (r % 2 ^ w = 0) := by
  simp [flagNibble, b2n]

/-- The bits that an ALU's result keeps under MPOS; INS and EXT use the mask as their field (R122). -/
def keptWidth (op shm : Nat) : Nat := if shmPos shm && op != 0x08 && op != 0x09 then shmMw shm else 64

theorem aluOut_eq (op a b shm : Nat) :
    aluOut op a b shm = ((aluRaw op a b shm).1 % 2 ^ keptWidth op shm,
      flagNibble (keptWidth op shm) (aluRaw op a b shm).1 (aluRaw op a b shm).2.1 (aluRaw op a b shm).2.2) := rfl

theorem keptWidth_masked {op : Nat} (shm : Nat) (h : op ≠ 8 ∧ op ≠ 9) : keptWidth op shm = if bit shm 14 then shmMw shm else 64 := by
  simp [keptWidth, h, shmPos]

theorem keptWidth_field {op : Nat} (shm : Nat) (h : op = 8 ∨ op = 9) : keptWidth op shm = 64 := by
  rcases h with rfl | rfl <;> simp [keptWidth]

/-- A thread with the flags of ALU A or of ALU B. -/
def Thread.setFlags (x : Thread) (side : Bool) (f : Nat) : Thread := if side then { x with flagsB := f } else { x with flagsA := f }

/-- What an ALU leaves of a thread: the result of `w` bits in its destination and, where FE asks for them, its flags (R122, R124). -/
def Thread.aluWrite (x : Thread) (side : Bool) (dst shm w r : Nat) (c v : Bool) : Thread :=
  if bit shm 15 then (x.write dst (r % 2 ^ w)).setFlags side (flagNibble w r c v) else x.write dst (r % 2 ^ w)

/-- What the opcode makes of a thread's operands: result, C and V (R123). -/
def Thread.aluResult (x : Thread) (t imm op sa sb shm : Nat) : Nat × Bool × Bool := aluRaw op (x.src t imm sa) (x.src t imm sb) shm

section
variable {x : Thread} {t imm : Nat} {side : Bool} {op dst sa sb shm : Nat}

theorem Thread.aluAct_writes (writes : op ≠ 0 ∧ op ≠ 10 ∧ op ≠ 11) :
    x.aluAct x t imm side ⟨op, dst, sa, sb, shm⟩ =
      x.aluWrite side dst shm (keptWidth op shm) (x.aluResult t imm op sa sb shm).1 (x.aluResult t imm op sa sb shm).2.1
        (x.aluResult t imm op sa sb shm).2.2 := by
  obtain ⟨h0, h10, h11⟩ := writes
  simp [Thread.aluAct, aluOut_eq, h0, h10, h11, shmFe, Thread.aluWrite, Thread.setFlags, Thread.aluResult]

theorem Thread.aluAct_compares (compares : op = 10 ∨ op = 11) :
    x.aluAct x t imm side ⟨op, dst, sa, sb, shm⟩ =
      x.setFlags side (flagNibble (keptWidth op shm) (x.aluResult t imm op sa sb shm).1 (x.aluResult t imm op sa sb shm).2.1
        (x.aluResult t imm op sa sb shm).2.2) := by
  rcases compares with rfl | rfl <;> simp [Thread.aluAct, aluOut_eq, Thread.setFlags, Thread.aluResult]

end

theorem Thread.aluWrite_noCarry (x : Thread) (side : Bool) (dst shm w r : Nat) :
    x.aluWrite side dst shm w r false false =
      if bit shm 15 then (x.write dst (r % 2 ^ w)).setFlags side (b2n (bit (r % 2 ^ w) (w - 1)) * 2 + b2n (r % 2 ^ w = 0))
      else x.write dst (r % 2 ^ w) := by
  rw [Thread.aluWrite, flagNibble_noCarry]

section
variable {s : State} {c : Instr} {t op dst sa sb shm imm w : Nat} {side : Bool}
  (effect : exec c s = .next { s with dev := s.dev.aluRow t side op dst sa sb shm imm }) (ready : s.dev.mayIssue t = true)
  (legal : AluF.illegal ⟨op, dst, sa, sb, shm⟩ = false) (width : keptWidth op shm = w)
include effect ready legal width

/-- A command of an ALU that writes its result. -/
theorem aluCommand_writes (writes : op ≠ 0 ∧ op ≠ 10 ∧ op ≠ 11) :
    let x := s.dev.thread t
    let r := x.aluResult t imm op sa sb shm
    let awaits := x.awaits (AluF.touches ⟨op, dst, sa, sb, shm⟩)
    (awaits = false → exec c s = .next { s with dev := s.dev.setThread t (x.aluWrite side dst shm w r.1 r.2.1 r.2.2) }) ∧
    (awaits = true → exec c s = .next s) := by
  subst width
  refine acts_or_waits effect (fun free => ?_) (Dev.aluRow_waits side imm)
  rw [Dev.aluRow_legal side imm ready free legal, Thread.aluAct_writes writes]

/-- CMP and TST, which write flags alone. -/
theorem aluCommand_compares (compares : op = 10 ∨ op = 11) :
    let x := s.dev.thread t
    let r := x.aluResult t imm op sa sb shm
    let awaits := x.awaits (AluF.touches ⟨op, dst, sa, sb, shm⟩)
    (awaits = false → exec c s = .next { s with dev := s.dev.setThread t (x.setFlags side (flagNibble w r.1 r.2.1 r.2.2)) }) ∧
    (awaits = true → exec c s = .next s) := by
  subst width
  refine acts_or_waits effect (fun free => ?_) (Dev.aluRow_waits side imm)
  rw [Dev.aluRow_legal side imm ready free legal, Thread.aluAct_compares compares]

end

/-! The head port (R125, R132) -/

section
variable {d : Dev} {t : Nat} {off len dir reg flg : Nat} (imm : Nat)

theorem Dev.hpRow_waits (awaits : (d.thread t).awaits (HpF.touches ⟨off, len, dir, reg, flg⟩) = true) :
    d.hpRow t off len dir reg flg imm = d := by
  simp [Dev.hpRow, awaits]

variable (ready : d.mayIssue t = true) (free : (d.thread t).awaits (HpF.touches ⟨off, len, dir, reg, flg⟩) = false)
include ready free

theorem Dev.hpRow_illegal (illegal : HpF.illegal ⟨off, len, dir, reg, flg⟩ = true) :
    d.hpRow t off len dir reg flg imm = d.endByTrap t 5 false false := by
  simp [Dev.hpRow, ready, free, illegal]

theorem Dev.hpRow_legal (legal : HpF.illegal ⟨off, len, dir, reg, flg⟩ = false) :
    d.hpRow t off len dir reg flg imm = d.setThread t ((d.thread t).hpAct (d.thread t) imm ⟨off, len, dir, reg, flg⟩) := by
  simp [Dev.hpRow, ready, free, legal]

end

theorem HpF.illegal_length {p : HpF} (h : 10 ≤ p.len ∨ p.len = 9 ∧ p.reg % 2 = 1) : p.illegal = true := by
  rcases h with h | ⟨h9, odd⟩
  · simp [HpF.illegal, h]
    omega
  · simp [HpF.illegal, h9, odd]

/-! The statement on the ALUs -/

/-- Settles O27: legal operands write the result that the opcode's row of `aluRaw` gives, cut to the bits that the mask keeps; any
illegal field traps, and an awaited register holds the command back. -/
theorem aluUnitsFollowTheirTable : Obligations.AluUnitsFollowTheirTable := by
  unfold Obligations.AluUnitsFollowTheirTable
  refine ⟨fun s th side dst sa sb shm imm ready ha hb hd => ?sums, fun s th side dst sa sb shm imm ready hd => ?bitwise,
    fun s th side dst sa sb shm imm off len flg ready => ?illegal⟩
  case sums =>
    intro x awaits runs m a shift b w diff nib flag writes tests
    have writing {op : Nat} {c : Instr} (kind : op ≤ 18 ∧ op ≠ 0 ∧ op ≠ 8 ∧ op ≠ 9 ∧ op ≠ 10 ∧ op ≠ 11)
        (effect : exec c s = .next { s with dev := s.dev.aluRow th.val side op dst.toNat sa.toNat sb.toNat shm.toNat imm.toNat }) :
        let r := x.aluResult th.val imm.toNat op sa.toNat sb.toNat shm.toNat
        runs op c (writes r.1 r.2.1 r.2.2) :=
      aluCommand_writes effect ready (AluF.legal _ kind.1 (fun _ => ha) (fun _ => hb) hd (by omega)) (keptWidth_masked _ (by omega)) (by omega)
    have testing {op : Nat} {c : Instr} (kind : op = 10 ∨ op = 11) (none : dst = 0x3F)
        (effect : exec c s = .next { s with dev := s.dev.aluRow th.val side op dst.toNat sa.toNat sb.toNat shm.toNat imm.toNat }) :
        let r := x.aluResult th.val imm.toNat op sa.toNat sb.toNat shm.toNat
        runs op c (tests r.1 r.2.1 r.2.2) :=
      aluCommand_compares effect ready (AluF.legal _ (by omega) (fun _ => ha) (fun _ => hb) hd fun _ => congrArg BitVec.toNat none)
        (keptWidth_masked _ (by omega)) kind
    exact ⟨writing (by decide) rfl, writing (by decide) rfl, writing (by decide) rfl, writing (by decide) rfl, writing (by decide) rfl,
      fun none => ⟨testing (.inl rfl) none rfl, testing (.inr rfl) none rfl⟩⟩
  case bitwise =>
    intro x awaits runs m sh a b0 shift b narrow nib writes
    have writing {op w : Nat} {c : Instr} (kind : op ≤ 18 ∧ op ≠ 0 ∧ op ≠ 10 ∧ op ≠ 11) (width : keptWidth op shm.toNat = w)
        (hA : usesA op = true → srcLegal sa.toNat = true) (hB : usesB op = true → srcLegal sb.toNat = true)
        (noCarry : (x.aluResult th.val imm.toNat op sa.toNat sb.toNat shm.toNat).2 = (false, false))
        (effect : exec c s = .next { s with dev := s.dev.aluRow th.val side op dst.toNat sa.toNat sb.toNat shm.toNat imm.toNat }) :
        runs op c (writes w (x.aluResult th.val imm.toNat op sa.toNat sb.toNat shm.toNat).1) := by
      have acts := aluCommand_writes effect ready (AluF.legal _ kind.1 hA hB hd (by omega)) width kind.2
      dsimp only at acts
      rw [noCarry, Thread.aluWrite_noCarry] at acts
      exact acts
    have unused {uses : Bool} {p : Prop} (h : uses = false) : uses = true → p := fun used => absurd used (by simp [h])
    refine ⟨fun hb => ?ofB, fun ha => ?ofA, fun ha hb => ?ofBoth⟩
    case ofB =>
      have alone {op w : Nat} {c : Instr} (kind) (width) (noA : usesA op = false) :=
        writing (op := op) (w := w) (c := c) kind width (unused noA) fun _ => hb
      exact ⟨alone (by decide) (keptWidth_masked _ (by decide)) rfl rfl rfl, alone (by decide) (keptWidth_masked _ (by decide)) rfl rfl rfl,
        alone (by decide) (keptWidth_masked _ (by decide)) rfl rfl rfl, alone (by decide) (keptWidth_masked _ (by decide)) rfl rfl rfl⟩
    case ofA => exact writing (by decide) (keptWidth_field _ (.inr rfl)) (fun _ => ha) (unused rfl) rfl rfl
    case ofBoth =>
      have both {op w : Nat} {c : Instr} (kind) (width) := writing (op := op) (w := w) (c := c) kind width (fun _ => ha) fun _ => hb
      exact ⟨both (by decide) (keptWidth_masked _ (by decide)) rfl rfl, both (by decide) (keptWidth_masked _ (by decide)) rfl rfl,
        both (by decide) (keptWidth_masked _ (by decide)) rfl rfl, both (by decide) (keptWidth_masked _ (by decide)) rfl rfl,
        both (by decide) (keptWidth_field _ (.inl rfl)) rfl rfl, both (by decide) (keptWidth_masked _ (by decide)) rfl rfl⟩
  case illegal =>
    intro ended x ends bad
    have ending {op : Nat} {c : Instr} (illegal : AluF.illegal ⟨op, dst.toNat, sa.toNat, sb.toNat, shm.toNat⟩ = true)
        (effect : exec c s = .next { s with dev := s.dev.aluRow th.val side op dst.toNat sa.toNat sb.toNat shm.toNat imm.toNat }) :
        ends op c := fun free => effect.trans (next_dev (Dev.aluRow_illegal side _ ready free illegal))
    refine ⟨fun operand => ?operands, fun named => ?compares, fun length => ?lengths⟩
    case operands =>
      have illegal (op : Nat) (acts : op ≠ 0) (hA : usesA op = true) (hB : usesB op = true) :=
        AluF.illegal_operand shm.toNat acts hA hB operand
      exact ⟨ending (illegal 2 (by decide) rfl rfl) rfl, ending (illegal 3 (by decide) rfl rfl) rfl, ending (illegal 4 (by decide) rfl rfl) rfl,
        ending (illegal 5 (by decide) rfl rfl) rfl, ending (illegal 6 (by decide) rfl rfl) rfl, ending (illegal 7 (by decide) rfl rfl) rfl,
        ending (illegal 8 (by decide) rfl rfl) rfl, ending (illegal 12 (by decide) rfl rfl) rfl, ending (illegal 13 (by decide) rfl rfl) rfl,
        ending (illegal 16 (by decide) rfl rfl) rfl, ending (illegal 18 (by decide) rfl rfl) rfl⟩
    case compares =>
      have hne : dst.toNat ≠ 0x3F := fun h => named (BitVec.eq_of_toNat_eq h)
      exact ⟨ending (AluF.illegal_compare _ (.inl rfl) hne) rfl, ending (AluF.illegal_compare _ (.inr rfl) hne) rfl⟩
    case lengths =>
      have badly {dir : Nat} {c : Instr}
          (effect : exec c s = .next { s with dev := s.dev.hpRow th.val off.toNat len.toNat dir dst.toNat flg.toNat imm.toNat }) : bad dir c :=
        fun free => effect.trans (next_dev (Dev.hpRow_illegal _ ready free
          (HpF.illegal_length (length.imp_right (And.imp_left (congrArg BitVec.toNat))))))
      exact ⟨badly rfl, badly rfl, badly rfl, badly rfl⟩

end Sys2Proof.Machine
end

section
/-! The head port (R125): what it moves between the head or the metadata and the registers. -/

namespace Sys2Proof.Machine

/-! Legal fields -/

theorem HpF.reads {off len dir reg flg : Nat} (h : dir % 2 = 0) : HpF.write ⟨off, len, dir, reg, flg⟩ = false := by
  simp [HpF.write, h]

theorem HpF.writes {off len dir reg flg : Nat} (h : dir % 2 = 1) : HpF.write ⟨off, len, dir, reg, flg⟩ = true := by
  simp [HpF.write, h]

theorem HpF.legal_load {p : HpF} (reads : p.write = false) (single : p.len ≤ 8) (reg : p.reg < 32) : p.illegal = false := by
  have hlen : p.len < 10 ∧ p.len ≠ 9 := by omega
  simp [HpF.illegal, reads, hlen, reg]

theorem HpF.legal_pair {p : HpF} (pair : p.len = 9) (reg : p.reg < 32) (even : p.reg % 2 = 0) (plain : bit p.flg 3 = false) :
    p.illegal = false := by
  simp [HpF.illegal, pair, reg, even, plain]

theorem HpF.legal_store {p : HpF} (writes : p.write = true) (single : p.len ≤ 8) (reg : p.reg < 32 ∨ p.reg = 63)
    (plain : bit p.flg 3 = false) : p.illegal = false := by
  have hlen : p.len < 10 ∧ p.len ≠ 9 := by omega
  rcases reg with reg | reg <;> simp [HpF.illegal, writes, hlen, single, reg, plain]

/-! Moves -/

/-- The bytes that the port reads: the head's first 256 or the metadata's first 64. -/
def Thread.portBytes (x : Thread) (p : HpF) : List Byte := (if p.mdata then x.md else x.hb).take (if p.mdata then 64 else 256)

/-- Bytes stored at the port's offset into the head or the metadata, cut at its end. -/
def Thread.portStore (x : Thread) (p : HpF) (b : List Byte) : Thread :=
  if p.mdata then x.setMd ((splice x.md (p.offset x) b).take 64) else x.setHb ((splice x.hb (p.offset x) b).take 256)

section
variable (x : Thread) (imm : Nat) {p : HpF}

theorem Thread.hpAct_load (reads : p.write = false) (moves : p.len ≠ 0) (single : p.len ≠ 9) :
    x.hpAct x imm p = x.setReg p.reg (hpLoad p.flg (slice (x.portBytes p) (p.offset x) p.len)) := by
  simp [Thread.hpAct, Thread.portBytes, reads, moves, single]

theorem Thread.hpAct_loadPair (reads : p.write = false) (pair : p.len = 9) :
    x.hpAct x imm p = (x.setReg p.reg (hpLoad p.flg (slice (x.portBytes p) (p.offset x) 8))).setReg (p.reg + 1)
      (hpLoad p.flg (slice (x.portBytes p) (p.offset x + 8) 8)) := by
  simp [Thread.hpAct, Thread.portBytes, reads, pair]

theorem Thread.hpAct_store (writes : p.write = true) (moves : p.len ≠ 0) (single : p.len ≠ 9) :
    x.hpAct x imm p = x.portStore p (hpStore p.flg p.len (if p.reg = 0x3F then imm else x.reg p.reg)) := by
  simp [Thread.hpAct, Thread.portStore, writes, moves, single]

theorem Thread.hpAct_storePair (writes : p.write = true) (pair : p.len = 9) (reg : p.reg < 32) :
    x.hpAct x imm p = x.portStore p (hpStore p.flg 8 (x.reg p.reg) ++ hpStore p.flg 8 (x.reg (p.reg + 1))) := by
  have notImm : p.reg ≠ 0x3F := by omega
  simp [Thread.hpAct, Thread.portStore, writes, pair, notImm]

end

/-! Commands -/

section
variable {s : State} {c : Instr} {t off len dir reg flg imm : Nat}
  (effect : exec c s = .next { s with dev := s.dev.hpRow t off len dir reg flg imm }) (ready : s.dev.mayIssue t = true)
include effect ready

theorem hpCommand_moves {y : Thread} (legal : HpF.illegal ⟨off, len, dir, reg, flg⟩ = false)
    (moved : (s.dev.thread t).hpAct (s.dev.thread t) imm ⟨off, len, dir, reg, flg⟩ = y) :
    let awaits := (s.dev.thread t).awaits (HpF.touches ⟨off, len, dir, reg, flg⟩)
    (awaits = false → exec c s = .next { s with dev := s.dev.setThread t y }) ∧ (awaits = true → exec c s = .next s) := by
  subst moved
  exact acts_or_waits effect (fun free => Dev.hpRow_legal imm ready free legal) (Dev.hpRow_waits imm)

theorem hpCommand_loads (reads : dir % 2 = 0) (moves : len ≠ 0) (single : len ≤ 8) (inFile : reg < 32) :
    let p : HpF := ⟨off, len, dir, reg, flg⟩
    let x := s.dev.thread t
    (x.awaits p.touches = false → exec c s =
      .next { s with dev := s.dev.setThread t (x.setReg reg (hpLoad flg (slice (x.portBytes p) (p.offset x) len))) }) ∧
    (x.awaits p.touches = true → exec c s = .next s) :=
  hpCommand_moves effect ready (HpF.legal_load (HpF.reads reads) single inFile)
    (Thread.hpAct_load _ imm (HpF.reads reads) moves (Nat.ne_of_lt (Nat.lt_succ_of_le single)))

theorem hpCommand_loadsPair (reads : dir % 2 = 0) (pair : len = 9) (inFile : reg < 32) (even : reg % 2 = 0) (plain : bit flg 3 = false) :
    let p : HpF := ⟨off, len, dir, reg, flg⟩
    let x := s.dev.thread t
    (x.awaits p.touches = false → exec c s =
      .next { s with dev := s.dev.setThread t ((x.setReg reg (hpLoad flg (slice (x.portBytes p) (p.offset x) 8))).setReg (reg + 1)
        (hpLoad flg (slice (x.portBytes p) (p.offset x + 8) 8))) }) ∧
    (x.awaits p.touches = true → exec c s = .next s) :=
  hpCommand_moves effect ready (HpF.legal_pair pair inFile even plain) (Thread.hpAct_loadPair _ imm (HpF.reads reads) pair)

theorem hpCommand_stores (writes : dir % 2 = 1) (moves : len ≠ 0) (single : len ≤ 8) (source : reg < 32 ∨ reg = 63)
    (plain : bit flg 3 = false) :
    let p : HpF := ⟨off, len, dir, reg, flg⟩
    let x := s.dev.thread t
    (x.awaits p.touches = false → exec c s =
      .next { s with dev := s.dev.setThread t (x.portStore p (hpStore flg len (if reg = 63 then imm else x.reg reg))) }) ∧
    (x.awaits p.touches = true → exec c s = .next s) :=
  hpCommand_moves effect ready (HpF.legal_store (HpF.writes writes) single source plain)
    (Thread.hpAct_store _ imm (HpF.writes writes) moves (Nat.ne_of_lt (Nat.lt_succ_of_le single)))

theorem hpCommand_storesPair (writes : dir % 2 = 1) (pair : len = 9) (inFile : reg < 32) (even : reg % 2 = 0) (plain : bit flg 3 = false) :
    let p : HpF := ⟨off, len, dir, reg, flg⟩
    let x := s.dev.thread t
    (x.awaits p.touches = false → exec c s =
      .next { s with dev := s.dev.setThread t (x.portStore p (hpStore flg 8 (x.reg reg) ++ hpStore flg 8 (x.reg (reg + 1)))) }) ∧
    (x.awaits p.touches = true → exec c s = .next s) :=
  hpCommand_moves effect ready (HpF.legal_pair pair inFile even plain) (Thread.hpAct_storePair _ imm (HpF.writes writes) pair inFile)

end

/-- Settles O29: single registers and pairs, loaded and stored, of the head (DIR 0 and 1) and of the metadata (2 and 3). -/
theorem theHeadPortMovesBytes : Obligations.TheHeadPortMovesBytes := by
  unfold Obligations.TheHeadPortMovesBytes
  intro s th off len reg flg imm ready nonempty x runs f o n r load store
  have moves : n ≠ 0 := Nat.ne_of_gt nonempty
  refine ⟨fun single inFile => ?load, fun pair inFile even plain => ?loadPair, fun single source plain => ?store,
    fun pair inFile even plain => ?storePair⟩
  case load => exact ⟨hpCommand_loads rfl ready rfl moves single inFile, hpCommand_loads rfl ready rfl moves single inFile⟩
  case loadPair => exact ⟨hpCommand_loadsPair rfl ready rfl pair inFile even plain, hpCommand_loadsPair rfl ready rfl pair inFile even plain⟩
  case store => exact ⟨hpCommand_stores rfl ready rfl moves single source plain, hpCommand_stores rfl ready rfl moves single source plain⟩
  case storePair => exact ⟨hpCommand_storesPair rfl ready rfl pair inFile even plain, hpCommand_storesPair rfl ready rfl pair inFile even plain⟩

end Sys2Proof.Machine
end

section
/-! Lookups (R126, R127, R131, R163 to R168) and counter bumps (R128): the slot that a launch takes, what a return answers by its table,
and where the answer goes. -/

namespace Sys2Proof.Machine

/-! Threads and counts -/

theorem Dev.thread_setThread_ne (d : Dev) {t k : Nat} (x : Thread) (h : k ≠ t) : (d.setThread t x).thread k = d.thread k :=
  Map.rd_wr_ne _ _ _ _ h

theorem satAdd_lt (w v n : Nat) : satAdd w v n < 2 ^ w := by
  have := Nat.two_pow_pos w
  unfold satAdd
  omega

/-- A count of a function that is not STOPPED goes up by one and stops at its greatest value (R68). -/
theorem Dev.get_cnt_same {d : Dev} {p : Nat} {f : Fld} (k : Nat) (hf : f.lsb + f.wd ≤ 32) (runs : d.fn p ≠ 0) :
    (d.cnt p f k).get p (f.at (4 * k)) = satAdd f.wd (d.get p (f.at (4 * k))) 1 := by
  have counts : d.cnt p f k = d.set p (f.at (4 * k)) (satAdd f.wd (d.get p (f.at (4 * k))) 1) := by
    simp [Dev.cnt, Dev.bump, runs, Dev.tally, Fld.at]
  rw [counts, Dev.get_set_same d p (f.at (4 * k)) _ hf]
  exact Nat.mod_eq_of_lt (satAdd_lt f.wd _ 1)

theorem Dev.get_cnt_ne (d : Dev) (p : Nat) {f g : Fld} {k : Nat} (h : g.off ≠ f.off + 4 * k) : (d.cnt p f k).get p g = d.get p g := by
  unfold Dev.cnt Dev.bump
  split
  · rfl
  · exact Dev.get_set_ne _ _ _ _ _ _ (by simpa [csrKey, Fld.at] using h)

/-! Launch (R126, R163, R173) -/

section
variable (d : Dev) (t : Nat) (x : Thread) (l : LkF)

/-- What becomes of a request: 1 it meets the EPOCH condition, 2 its quota refuses it, 0 it reaches its table (R163). -/
def Dev.launchFate : Nat :=
  let q := d.quadOf (t / 128)
  let i := d.lkIndex q l.table x.epoch
  let w := d.lkDesc t x l
  if df w 0 5 1 = 1 ∨ dType w = 0 ∨ dType w ≥ 5 then 1 else if df w 1 22 10 ≠ 0 ∧ d.requestsOut q i ≥ df w 1 22 10 then 2 else 0

theorem Dev.launchFate_eq_one :
    d.launchFate t x l = 1 ↔ df (d.lkDesc t x l) 0 5 1 = 1 ∨ dType (d.lkDesc t x l) = 0 ∨ dType (d.lkDesc t x l) ≥ 5 := by
  unfold Dev.launchFate
  dsimp only
  split
  case isTrue h => simp [h]
  case isFalse h => split <;> simpa using h

/-- The key of a lookup: registers or metadata doublewords, the first most significant, cut to the key width (R126). -/
def Thread.lookupKey (w : List Word) (ksel : Nat) : Nat :=
  joinRegs ((List.range (cdiv (dKb w) 64)).map fun j => if ksel < 32 then x.reg (ksel + j) else x.mdDouble (ksel - 32 + j)) % 2 ^ dKb w

/-- A lookup asks for a learn request (R173). -/
abbrev LkF.Learns (w : List Word) : Prop := l.flg = 1 ∧ dLearn w = true ∧ dType w = 1 ∧ l.rreg ≠ 0x3F

/-- The slot of a lookup as it leaves the thread (R126, R127, R163, R173). -/
def Dev.launchSlot : LkSlot :=
  let w := d.lkDesc t x l
  ⟨true, 0, l.te, l.rreg, d.lkIndex (d.quadOf (t / 128)) l.table x.epoch, d.quadOf (t / 128), w, d.launchFate t x l, x.lookupKey w l.ksel,
    l.flg, if l.Learns w then joinRegs ((resRegs w l.rreg).map x.reg) % 2 ^ (dRb w - 16) else 0, decide (l.Learns w), x.upc⟩

/-- The block with a request counted at its quadrant, and with it what the request meets there (R163). -/
def Dev.launchCounted : Dev :=
  let p := lkpPage (d.quadOf (t / 128))
  let d' := d.cnt p F.LKP_CNT_COUNT 0
  if d.launchFate t x l = 1 then d'.cnt p F.LKP_CNT_COUNT 4 else if d.launchFate t x l = 2 then d'.cnt p F.LKP_CNT_COUNT 3 else d'

theorem Dev.launchCounted_records : d.Records (d.launchCounted t x l) :=
  (d.cnt_records _ _ _).trans (.ite _ (Dev.cnt_records _ _ _ _) (.ite _ (Dev.cnt_records _ _ _ _) (.refl _)))

theorem Dev.launchCounted_requests (runs : d.fn (lkpPage (d.quadOf (t / 128))) ≠ 0) :
    (d.launchCounted t x l).get (lkpPage (d.quadOf (t / 128))) F.LKP_CNT_COUNT =
      satAdd 32 (d.get (lkpPage (d.quadOf (t / 128))) F.LKP_CNT_COUNT) 1 := by
  have first := Dev.get_cnt_same (f := F.LKP_CNT_COUNT) 0 (by decide) runs
  unfold Dev.launchCounted
  dsimp only
  split
  · exact (Dev.get_cnt_ne _ _ (by decide)).trans first
  · split
    · exact (Dev.get_cnt_ne _ _ (by decide)).trans first
    · exact first

variable {l}

theorem Dev.launch_takesSlot (named : l.table ≠ 0) :
    d.launch t x l = (d.launchCounted t x l).setThread t
      { (d.thread t).setLk ((d.thread t).launched % 8) (d.launchSlot t x l) with launched := (d.thread t).launched + 1 } := by
  rw [← (d.launchCounted_records t x l).thread t]
  rw [Dev.launch, if_neg named]
  rfl

end

/-- A launch takes the thread's next slot, is counted at its quadrant and leaves every other thread as it was. -/
theorem Dev.launch_leaves (d : Dev) {t : Nat} {x : Thread} {l : LkF} (before : d.thread t = x) (named : l.table ≠ 0) :
    (d.launch t x l).thread t = { x.setLk (x.launched % 8) (d.launchSlot t x l) with launched := x.launched + 1 } ∧
    (∀ k, k ≠ t → (d.launch t x l).thread k = d.thread k) ∧
    (d.fn (lkpPage (d.quadOf (t / 128))) ≠ 0 → (d.launch t x l).get (lkpPage (d.quadOf (t / 128))) F.LKP_CNT_COUNT =
      satAdd 32 (d.get (lkpPage (d.quadOf (t / 128))) F.LKP_CNT_COUNT) 1) := by
  rw [d.launch_takesSlot t x named, before]
  exact ⟨Dev.thread_setThread_same _ _ _,
    fun k other => (Dev.thread_setThread_ne _ _ other).trans ((d.launchCounted_records t x l).thread k), d.launchCounted_requests t x l⟩

section
variable {d : Dev} {t table ksel rreg flg : Nat} {te : Bool}

/-- A lookup of a READY thread whose slot is free and whose registers are all there. -/
theorem Dev.lkRow_ready (ready : d.mayIssue t = true) (slot : ((d.thread t).slot ((d.thread t).launched % 8)).busy = false)
    (free : (d.thread t).awaits (LkF.touches ⟨table, ksel, rreg, flg, te⟩ (d.lkDesc t (d.thread t) ⟨table, ksel, rreg, flg, te⟩)) = false) :
    d.lkRow t table ksel rreg flg te =
      if LkF.illegal ⟨table, ksel, rreg, flg, te⟩ (d.lkDesc t (d.thread t) ⟨table, ksel, rreg, flg, te⟩) = true then
        d.endByTrap t 5 false false
      else d.launch t (d.thread t) ⟨table, ksel, rreg, flg, te⟩ := by
  simp [Dev.lkRow, ready, slot, free]

end

/-- The command of a lookup with this LK_FLG (R126): plain, with a learn request, without a refresh. -/
def lookupCommand (th : Fin 8192) (table : BitVec 10) (ksel rreg : BitVec 6) (te : Bool) (flg : Nat) : Instr :=
  if flg = 0 then .plainLookup th table ksel rreg te
  else if flg = 1 then .lookupWithLearn th table ksel rreg te else .lookupNoRefresh th table ksel rreg te

theorem exec_lookupCommand (th : Fin 8192) (table : BitVec 10) (ksel rreg : BitVec 6) (te : Bool) {flg : Nat} (known : flg < 3) (s : State) :
    exec (lookupCommand th table ksel rreg te flg) s =
      .next { s with dev := s.dev.lkRow th.val table.toNat ksel.toNat rreg.toNat flg te } := by
  interval_cases flg <;> rfl

theorem LkF.legal_noTable (l : LkF) (w : List Word) (h : l.table = 0) : l.illegal w = false := by
  simp [LkF.illegal, h]

theorem Dev.launch_noTable (d : Dev) (t : Nat) (x : Thread) {l : LkF} (h : l.table = 0) : d.launch t x l = d := if_pos h

/-! Return (R127, R131) -/

/-- A thread once the slot of a lookup that returned is free and shows its status. -/
def Thread.returned (x : Thread) (k : Nat) (sl : LkSlot) (r : LkRet) : Thread := x.setLk k { sl with busy := false, status := r.status }

/-- A thread that goes on with what a lookup returned: the EPOCH condition, or the result in its registers. -/
def Thread.taking (x : Thread) (sl : LkSlot) (r : LkRet) : Thread :=
  if r.epoch then { x with epochFail := true } else if sl.rreg = 0x3F then x else x.putResult sl.rreg (cdiv r.rb 64) r.res

section
variable {d : Dev} {t k : Nat} {ecc : Ecc}

theorem Thread.taking_epoch (x : Thread) (sl : LkSlot) {r : LkRet} (epoch : r.epoch = true) :
    x.taking sl r = { x with epochFail := true } := if_pos epoch

theorem Thread.taking_result (x : Thread) (sl : LkSlot) {r : LkRet} (valid : r.epoch = false) :
    x.taking sl r = if sl.rreg = 0x3F then x else x.putResult sl.rreg (cdiv r.rb 64) r.res := if_neg (ne_true_of_eq_false valid)

theorem Dev.lookupResult_idle (idle : ((d.thread t).slot k).busy = false) : d.lookupResult t k ecc = d := by
  simp [Dev.lookupResult, idle]

section
variable {x : Thread} {r : LkRet} {d' : Dev} (busy : ((d.thread t).slot k).busy = true)
  (answer : d.lookupReturn ((d.thread t).slot k) ecc = (r, d')) (shown : (d'.thread t).returned k ((d.thread t).slot k) r = x)
include busy answer shown

/-- A pass that has ended leaves its thread once its lookups are back (R138). -/
theorem Dev.lookupResult_ended (ended : x.ended.isSome = true) : d.lookupResult t k ecc = (d'.setThread t x).leave t := by
  subst shown
  simp only [Dev.lookupResult, busy, answer]
  exact if_pos ended

theorem Dev.lookupResult_going (going : x.ended = none) :
    d.lookupResult t k ecc = (d'.setThread t ((x.taking ((d.thread t).slot k) r).wake t)).settleThread t := by
  subst shown
  simp only [Dev.lookupResult, busy, answer]
  exact if_neg fun ended => Option.isSome_iff_ne_none.1 ended going

end

end

/-! What a request comes to (R163, R167, R168) -/

section
variable (d : Dev) {sl : LkSlot}

theorem Dev.lookupReturn_epoch (ecc : Ecc) (fate : sl.fate = 1) : d.lookupReturn sl ecc = (⟨0, 0, 0, true⟩, d) := if_pos fate

theorem Dev.lookupReturn_refused (ecc : Ecc) (fate : sl.fate = 2) : d.lookupReturn sl ecc = (⟨8, 0, dRb sl.desc, false⟩, d) := by
  rw [Dev.lookupReturn, if_neg (by omega), if_pos fate]

theorem Dev.readLines_clean (q : Nat) (lines : List Nat) : d.readLines q lines .clean = (d.lkp.mem, d) := by
  unfold Dev.readLines
  split <;> rfl

/-- A request that reaches its table returns what the access finds there. -/
theorem Dev.lookupReturn_clean (fate : sl.fate = 0) :
    (d.lookupReturn sl .clean).1 =
      let o := d.access d.lkp.mem sl.quad sl.desc sl.key
      ⟨b2n o.hit + b2n o.fault.isSome * 2 + b2n o.flag * 4, o.res, dRb sl.desc, false⟩ := by
  simp [Dev.lookupReturn, fate, Dev.readLines_clean]

theorem Dev.access_hash {w : List Word} (m : Map Word) (q key : Nat) (ty : dType w = 1) : d.access m q w key = hashAccess m q w key := if_pos ty

theorem Dev.access_direct {w : List Word} (m : Map Word) (q key : Nat) (ty : dType w = 2) : d.access m q w key = directAccess m q w key := by
  simp [Dev.access, ty]

end

section
variable {m : Map Word} {q : Nat} {w : List Word} {key : Nat}

theorem hashAccess_hit {p : Nat} {rest : List Nat} (hits : hitsOf m q w key = p :: rest) :
    hashAccess m q w key = ⟨true, bit (entryAt m q w p) 2, eRes w (entryAt m q w p), none, 0, p, rest.length + 1⟩ := by
  simp only [hashAccess, hits]

theorem hashAccess_miss (hits : hitsOf m q w key = []) : hashAccess m q w key = missOf w := by
  simp only [hashAccess, hits]

theorem directAccess_within (h : key < df w 6 0 26) :
    directAccess m q w key =
      ⟨true, false, memNat m (lkWord q (dBase w + key * directBytes w)) (directBytes w / 4) % 2 ^ dRb w, none, 0, 0, 1⟩ := if_pos h

theorem directAccess_beyond (h : df w 6 0 26 ≤ key) : directAccess m q w key = { missOf w with flag := true } := if_neg (by omega)

end

/-! Counter bumps (R128) -/

section
variable {d : Dev} {t : Nat} (imm : Nat) (ready : d.mayIssue t = true)
include ready

theorem Dev.bumpRow_free {sel : Nat} (legal : sel ≠ 3) (free : (d.thread t).awaits (bumpTouches sel) = false) :
    d.bumpRow t sel imm = d.counterBump (d.thread t) sel imm := by
  simp [Dev.bumpRow, ready, free, legal]

theorem Dev.bumpRow_illegal : d.bumpRow t 3 imm = d.endByTrap t 5 false false := by
  simp [Dev.bumpRow, ready, bumpTouches, Thread.awaits]

end

/-! The statement on lookups -/

/-- Settles O32: a launch by the slot it takes, a return by what it leaves in the thread, its answer by the request's fate and its table,
and a counter bump by its selector. -/
theorem lookupsLeaveAndReturn : Obligations.LookupsLeaveAndReturn := by
  unfold Obligations.LookupsLeaveAndReturn
  refine ⟨fun s th table ksel rreg te flg ready => ?leaves, fun s th k ecc => ?returns, fun d sl p rest => ?answers,
    fun s th imm ready => ?bumps⟩
  case leaves =>
    intro x l w q c known slot free
    have effect := exec_lookupCommand th table ksel rreg te known s
    have row := Dev.lkRow_ready ready slot free
    have launches (legal : l.illegal w = false) : exec c s = .next { s with dev := s.dev.launch th.val x l } :=
      effect.trans (next_dev (row.trans (if_neg (ne_true_of_eq_false legal))))
    refine ⟨fun absent => ?idle, fun illegal => effect.trans (next_dev (row.trans (if_pos illegal))), fun named legal => ?launched⟩
    case idle =>
      have absent : l.table = 0 := congrArg BitVec.toNat absent
      exact (launches (l.legal_noTable w absent)).trans (next_dev (Dev.launch_noTable _ _ _ absent))
    case launched =>
      intro n key
      have named : l.table ≠ 0 := fun h => named (BitVec.eq_of_toNat_eq h)
      obtain ⟨own, others, counted⟩ := s.dev.launch_leaves (t := th.val) rfl named
      have keeps : rreg.toNat ≠ 0x3F ↔ rreg ≠ 0x3F := not_congr (BitVec.toNat_inj (y := 0x3F#6))
      exact ⟨_, s.dev.launchSlot th.val x l, launches legal, rfl, rfl, own, rfl, rfl, rfl, rfl, rfl, rfl, rfl, rfl,
        decide_eq_true_iff.trans (by simp only [LkF.Learns]; rw [keeps]), s.dev.launchFate_eq_one th.val x l, others, counted⟩
  case returns =>
    intro sl r d x
    have back {y : Thread} (busy : sl.busy = true) (going : x.ended = none) (taken : x.taking sl r = y) :
        exec (.lookupResult th k ecc) s = .next { s with dev := (d.setThread th.val (y.wake th.val)).settleThread th.val } := by
      subst taken
      exact next_dev (Dev.lookupResult_going busy rfl rfl going)
    exact ⟨fun idle => next_dev (Dev.lookupResult_idle idle), fun busy ended => next_dev (Dev.lookupResult_ended busy rfl rfl ended),
      fun busy going epoch => back busy going (x.taking_epoch sl epoch), fun busy going valid => back busy going (x.taking_result sl valid)⟩
  case answers =>
    intro w m
    refine ⟨d.lookupReturn_epoch _, d.lookupReturn_refused _, fun fate ty hits => ?hit, fun fate ty hits => ?miss,
      fun fate ty within => ?within, fun fate ty beyond => ?beyond⟩
    case hit =>
      rw [d.lookupReturn_clean fate, d.access_hash _ _ _ ty, hashAccess_hit hits]
      rfl
    case miss =>
      rw [d.lookupReturn_clean fate, d.access_hash _ _ _ ty, hashAccess_miss hits]
      rfl
    case within =>
      rw [d.lookupReturn_clean fate, d.access_direct _ _ _ ty, directAccess_within within]
      rfl
    case beyond =>
      rw [d.lookupReturn_clean fate, d.access_direct _ _ _ ty, directAccess_beyond beyond]
      rfl
  case bumps =>
    intro x
    exact ⟨next_dev (Dev.bumpRow_free _ ready (by decide) rfl), next_dev (Dev.bumpRow_free _ ready (by decide) rfl),
      fun free => next_dev (Dev.bumpRow_free _ ready (by decide) free), next_dev (Dev.bumpRow_illegal _ ready)⟩

end Sys2Proof.Machine
end

section
/-! Steps and the trust anchors (R149, R411): a command keeps what no write of a trust register ends, unless it loses the island. -/

namespace Sys2Proof.Machine

theorem Trust.reset_wf : Trust.reset.wf := by decide

theorem step_of_empty {s : State} (empty : s.pending = []) : step s = .next { s with dev := s.dev.tick } := by
  rw [step, empty]

theorem step_of_front {s : State} {c : Instr} {rest : List Instr} (front : s.pending = c :: rest) :
    step s = exec c { s with pending := rest } := by
  rw [step, front]

/-- A host read leaves the anchors as they were, and so whatever holds of them. -/
theorem Reach.hostRead_keeps {P : Trust → Prop} (x : Reach) (bar a req : Nat) (e : Ecc) (h : P x.trust) : P (x.hostRead bar a req e).trust :=
  (x.hostRead_trust bar a req e).symm ▸ h

/-- An effect on the block alone leaves the anchors. -/
theorem trust_of_dev {d : Dev} {s t : State} (e : (.next { s with dev := d } : Host.Outcome State Fault Refusal) = .next t) :
    t.trust = s.trust := by
  cases e
  rfl

/-- A host access leaves the anchors that it gives. -/
theorem trust_of_runHost {f : Reach → Reach} {s t : State} (e : runHost f s = .next t) : t.trust = (f ⟨s.trust, s.dev⟩).trust := by
  cases e
  rfl

/-- The two commands that lose the island leave the anchors at reset (R411). -/
theorem exec_losesIsland {c : Instr} {s t : State} (loses : losesIsland c = true) (e : exec c s = .next t) : t.trust = Trust.reset := by
  cases c
  case systemReset | standbyLoss => cases e; rfl
  all_goals cases loses

section
variable {P : Trust → Prop} (stable : Trust.Stable P) {c : Instr} {s t : State}

/-- The anchors after a host access, for a property that the access keeps. -/
theorem runHost_keeps {f : Reach → Reach} (e : runHost f s = .next t) (kept : P (f ⟨s.trust, s.dev⟩).trust) : P t.trust :=
  (trust_of_runHost e).symm ▸ kept

include stable

/-- A command that does not lose the island keeps the property: it is a host access of one of these kinds, or acts on the block alone. -/
theorem exec_keeps_trust (keeps : losesIsland c = false) (h : P s.trust) (e : exec c s = .next t) : P t.trust := by
  cases c
  case systemReset | standbyLoss => cases keeps
  all_goals simp only [exec] at e
  case regWrite | pairLowWrite | pairHighWrite | intSet | captureRearm | msixUnmask | csWordWrite | csCommit | apertureWrite | ewRead |
      ewWrite | descriptorCommit | modeRequest | domainRequest | faultClear | dmaCtxInval | dbTail | dbArm | portRetrain =>
    exact runHost_keeps e (Reach.hostWrite_trust stable _ _ _ _ _ _ h)
  case dbgDataWrite =>
    exact runHost_keeps e (Reach.hostWrite_trust stable _ _ _ _ _ _ (Reach.hostWrite_trust stable _ _ _ _ _ _ h))
  case pairLowRead | pairHighRead | rcRead | csWord0Read | apertureRead | logRecordLatch | timeNowLatch =>
    exact runHost_keeps e (Reach.hostRead_keeps _ _ _ _ _ h)
  case fnStart | fnStop | shadowDiscard | imagePolicyLock | verify | epochFlip | haltAll | channelStart | channelStop | rsArm | rsCancel |
      errLogPop | counterRead | counterReadClear | lrnEvtPop | eliPropPop | rstReq | twArm | twCancel | modEvtPop | modAdvPop |
      ledgerRead | ledgerWrite | fence | pealMemRead | pealMemWrite | set | step | slew | timeAbort | timeCapPop | timeTxPop |
      chimeArm | chimeCancel | winCommit =>
    exact runHost_keeps e (Reach.act_trust stable _ _ _ _ _ h)
  case halt | resumeContinue | resumeVector | resumeAbort => exact runHost_keeps e (Reach.debugWrite_trust stable _ _ _ _ h)
  case insert | update | delete | find => exact runHost_keeps e (Reach.lookupGo_trust stable _ _ _ _ h)
  case modCmdRead | modCmdWrite => exact runHost_keeps e (Reach.moduleGo_trust stable _ _ _ _ h)
  case txnRead | txnWrite => exact runHost_keeps e (Reach.transactGo_trust stable _ _ _ _ _ h)
  case writeList => exact runHost_keeps e (Reach.writeList_trust stable _ _ h)
  case request => exact runHost_keeps e (Reach.request_trust stable _ _ _ h)
  all_goals exact (trust_of_dev e).symm ▸ h

/-- A step keeps the property unless its command loses the island. -/
theorem step_keeps_trust (keeps : ∀ c rest, s.pending = c :: rest → losesIsland c = false) (h : P s.trust) (e : step s = .next t) :
    P t.trust := by
  cases front : s.pending with
  | nil => exact (trust_of_dev ((step_of_empty front).symm.trans e)).symm ▸ h
  | cons c rest => exact exec_keeps_trust (s := { s with pending := rest }) stable (keeps c rest front) h ((step_of_front front).symm.trans e)

end

/-- Settles O3: the two commands that lose the island leave the anchors at reset; any other keeps their form, as a write of a trust
register does. -/
theorem trustAnchorsKeepTheirForm : Obligations.TrustAnchorsKeepTheirForm := by
  unfold Obligations.TrustAnchorsKeepTheirForm
  intro s t wf e
  by_cases keeps : ∀ c rest, s.pending = c :: rest → losesIsland c = false
  · exact step_keeps_trust Trust.stable_wf keeps wf e
  · push Not at keeps
    obtain ⟨c, rest, front, loses⟩ := keeps
    have reset : t.trust = Trust.reset := exec_losesIsland (by simpa using loses) ((step_of_front front).symm.trans e)
    exact reset ▸ Trust.reset_wf

/-- Settles O4: while LOCK is 1 no write changes an anchor, so that being these anchors is itself a property that steps keep. -/
theorem lockedTrustAnchorsStay : Obligations.LockedTrustAnchorsStay := by
  unfold Obligations.LockedTrustAnchorsStay
  intro s t locked keeps e
  exact step_keeps_trust (Trust.stable_locked s.trust locked) keeps rfl e

end Sys2Proof.Machine
end

section
/-! Entries of HASH tables (R165, R166): a bucket as one number, which a write of an entry changes at that entry alone, and the fields
of an entry. -/

namespace Sys2Proof.Machine

/-! Words of lookup memory -/

theorem memNat_congr {m m' : Map Word} (n : Nat) : ∀ {a : Nat}, (∀ k, a ≤ k → k < a + n → Map.rd 0 m k = Map.rd 0 m' k) →
    memNat m a n = memNat m' a n := by
  induction n with
  | zero => intro a _; rfl
  | succ n ih =>
    intro a same
    rw [memNat, memNat, same a (by omega) (by omega), ih fun k lo hi => same k (by omega) (by omega)]

/-- Words apart from those written keep their number. -/
theorem memNat_memPut_apart (m : Map Word) {a b n : Nat} (k v : Nat) (apart : b + k ≤ a ∨ a + n ≤ b) :
    memNat (memPut m a n v) b k = memNat m b k :=
  memNat_congr k fun i lo hi => memPut_out n m a v i (by omega)

/-! Buckets -/

/-- The bits of an entry (R166). -/
abbrev entryBits (w : List Word) : Nat := 4 + dKb w + dRb w

/-- The words of a bucket. -/
abbrev bucketWords (w : List Word) : Nat := bucketBytes w / 4

/-- The first word of bucket `b`. -/
abbrev bucketStart (q : Nat) (w : List Word) (b : Nat) : Nat := lkWord q (dBase w + b * bucketBytes w)

/-- A bucket as one number. -/
def bucketNat (m : Map Word) (q : Nat) (w : List Word) (b : Nat) : Nat := memNat m (bucketStart q w b) (bucketWords w)

section
variable (m : Map Word) (q : Nat) (w : List Word) (p e : Nat)

theorem entryAt_eq_bits : entryAt m q w p = bits (bucketNat m q w (p / 4)) (p % 4 * entryBits w) (entryBits w) := rfl

/-- A bucket is as long as its four entries at the least. -/
theorem entryBits_le_bucketWords : 4 * entryBits w ≤ 32 * bucketWords w := by
  unfold entryBits bucketWords bucketBytes cdiv
  omega

/-- Buckets follow one another with no gap. -/
theorem bucketStart_eq (b : Nat) : bucketStart q w b = bucketStart q w 0 + b * bucketWords w := by
  have base : dBase w = 4 * (df w 1 0 22 * 16) := by unfold dBase; omega
  have words : bucketBytes w = 4 * bucketWords w := by unfold bucketWords bucketBytes; omega
  have bytes : dBase w + b * bucketBytes w = 4 * (df w 1 0 22 * 16 + b * bucketWords w) := by rw [base, words]; ring
  unfold bucketStart lkWord
  rw [bytes, Nat.zero_mul, base]
  omega

theorem bucketStart_apart {b b' : Nat} (h : b' ≠ b) :
    bucketStart q w b' + bucketWords w ≤ bucketStart q w b ∨ bucketStart q w b + bucketWords w ≤ bucketStart q w b' := by
  rw [bucketStart_eq q w b, bucketStart_eq q w b', Nat.add_assoc, Nat.add_assoc, ← Nat.succ_mul, ← Nat.succ_mul]
  have step {i j : Nat} (lt : i < j) : (i + 1) * bucketWords w ≤ j * bucketWords w := Nat.mul_le_mul_right _ lt
  rcases Nat.lt_or_gt_of_ne h with lt | lt
  · exact .inl (Nat.add_le_add_left (step lt) _)
  · exact .inr (Nat.add_le_add_left (step lt) _)

/-- An entry lies within the four entries of its bucket. -/
theorem entryPlace_le : p % 4 * entryBits w + entryBits w ≤ 4 * entryBits w := by
  have way : p % 4 + 1 ≤ 4 := by omega
  calc p % 4 * entryBits w + entryBits w = (p % 4 + 1) * entryBits w := by ring
    _ ≤ 4 * entryBits w := Nat.mul_le_mul_right _ way

/-- Two entries of a bucket lie apart. -/
theorem entryPlace_apart {i j : Nat} (h : i ≠ j) :
    i * entryBits w + entryBits w ≤ j * entryBits w ∨ j * entryBits w + entryBits w ≤ i * entryBits w := by
  rw [← Nat.succ_mul, ← Nat.succ_mul]
  rcases Nat.lt_or_gt_of_ne h with lt | lt
  · exact .inl (Nat.mul_le_mul_right _ lt)
  · exact .inr (Nat.mul_le_mul_right _ lt)

/-- The bucket of a written entry: its four entries, with the one written. -/
theorem bucketNat_putEntry_same :
    bucketNat (putEntry m q w p e) q w (p / 4) =
      putBits (bucketNat m q w (p / 4) % 2 ^ (4 * entryBits w)) (p % 4 * entryBits w) (entryBits w) e := by
  have fits := putBits_lt (bucketNat m q w (p / 4) % 2 ^ (4 * entryBits w)) (p % 4 * entryBits w) (entryBits w) e (4 * entryBits w)
    (Nat.mod_lt _ (by positivity)) (entryPlace_le w p)
  have room := Nat.pow_le_pow_right (n := 2) (by omega) (entryBits_le_bucketWords w)
  exact (memNat_memPut _ _ _ _).trans (Nat.mod_eq_of_lt (fits.trans_le room))

theorem bucketNat_putEntry_ne {b : Nat} (h : b ≠ p / 4) : bucketNat (putEntry m q w p e) q w b = bucketNat m q w b :=
  memNat_memPut_apart m _ _ (bucketStart_apart q w h)

/-- A field within the low bits reads as in the number cut to them. -/
theorem bits_mod_two_pow {v n l k : Nat} (h : l + k ≤ n) : bits (v % 2 ^ n) l k = bits v l k := by
  apply Nat.eq_of_testBit_eq
  intro i
  rw [bits_testBit, bits_testBit, Nat.testBit_mod_two_pow]
  by_cases inside : i < k
  · simp [inside, show l + i < n by omega]
  · simp [inside]

theorem entryAt_putEntry_same : entryAt (putEntry m q w p e) q w p = e % 2 ^ entryBits w := by
  rw [entryAt_eq_bits, bucketNat_putEntry_same, bits_putBits]

theorem entryAt_putEntry_ne {p' : Nat} (h : p' ≠ p) : entryAt (putEntry m q w p e) q w p' = entryAt m q w p' := by
  rw [entryAt_eq_bits, entryAt_eq_bits]
  by_cases bucket : p' / 4 = p / 4
  · have way : p' % 4 ≠ p % 4 := by omega
    rw [bucket, bucketNat_putEntry_same, bits_putBits_ne _ _ _ _ _ _ (entryPlace_apart w way), bits_mod_two_pow (entryPlace_le w p')]
  · rw [bucketNat_putEntry_ne _ _ _ _ _ bucket]

end

/-! Fields of an entry -/

/-- The four flags of an entry as a number: V, A, S, L (R166). -/
def flagsNat (v a s l : Bool) : Nat := b2n v + b2n a * 2 + b2n s * 4 + b2n l * 8

theorem flagsNat_lt : ∀ v a s l, flagsNat v a s l < 2 ^ 4 := by decide

theorem bit_flagsNat : ∀ v a s l, bit (flagsNat v a s l) 0 = v ∧ bit (flagsNat v a s l) 1 = a ∧ bit (flagsNat v a s l) 2 = s ∧
    bit (flagsNat v a s l) 3 = l := by decide

section
variable (w : List Word) (v a s l : Bool) (key res : Nat)

/-- An entry is its flags, and above them its key and its result. -/
theorem mkEntry_eq_flags :
    mkEntry w v a s l key res = flagsNat v a s l + 2 ^ 4 * (key % 2 ^ dKb w + 2 ^ dKb w * (res % 2 ^ dRb w)) := by
  rw [mkEntry, flagsNat, pow_add]
  ring

theorem mkEntry_div : mkEntry w v a s l key res / 2 ^ 4 = key % 2 ^ dKb w + 2 ^ dKb w * (res % 2 ^ dRb w) := by
  rw [mkEntry_eq_flags, Nat.add_mul_div_left _ _ (by decide), Nat.div_eq_of_lt (flagsNat_lt v a s l), Nat.zero_add]

theorem eKey_mkEntry : eKey w (mkEntry w v a s l key res) = key % 2 ^ dKb w := by
  rw [eKey, bits, mkEntry_div, Nat.add_mul_mod_self_left, Nat.mod_mod]

theorem eRes_mkEntry : eRes w (mkEntry w v a s l key res) = res % 2 ^ dRb w := by
  have cut : key % 2 ^ dKb w < 2 ^ dKb w := Nat.mod_lt _ (by positivity)
  rw [eRes, bits, pow_add, ← Nat.div_div_eq_div_mul, mkEntry_div, Nat.add_mul_div_left _ _ (by positivity), Nat.div_eq_of_lt cut,
    Nat.zero_add, Nat.mod_mod]

theorem bit_mkEntry {i : Nat} (h : i < 4) : bit (mkEntry w v a s l key res) i = bit (flagsNat v a s l) i := by
  have low : mkEntry w v a s l key res % 2 ^ 4 = flagsNat v a s l := by
    rw [mkEntry_eq_flags, Nat.add_mul_mod_self_left, Nat.mod_eq_of_lt (flagsNat_lt v a s l)]
  rw [← testBit_eq_bit, ← testBit_eq_bit, ← low, Nat.testBit_mod_two_pow]
  simp [h]

end

/-- Settles O33: the bucket of a written entry changes at that entry alone, and no other bucket changes; an entry's fields lie one above
another. -/
theorem entriesReadBack : Obligations.EntriesReadBack := by
  unfold Obligations.EntriesReadBack
  intro m q w p p' e
  refine ⟨entryAt_putEntry_same m q w p e, entryAt_putEntry_ne m q w p e, putEntry_wf m q w p e, fun key v a s l res => ?_⟩
  obtain ⟨valid, active, static, learned⟩ := bit_flagsNat v a s l
  exact ⟨eKey_mkEntry w v a s l key res, eRes_mkEntry w v a s l key res, (bit_mkEntry w v a s l key res (by decide)).trans valid,
    (bit_mkEntry w v a s l key res (by decide)).trans active, (bit_mkEntry w v a s l key res (by decide)).trans static,
    (bit_mkEntry w v a s l key res (by decide)).trans learned⟩

end Sys2Proof.Machine
end

section
/-! Host commands of the lookup quadrants (R162, R169, R170): the queue that GO joins, what an operation comes to by its table and what
it reads, and the commit of a descriptor. -/

namespace Sys2Proof.Machine

/-! GO (R169) -/

theorem runHost_lookupGo (s : State) (q : Fin 4) (op : Nat) (req : BitVec 16) (hr : s.dev.reachable (lkpPage q.val))
    (idle : s.dev.get (lkpPage q.val) F.LKP_CMD_STAT_BUSY = 0) (selected : s.dev.get (lkpPage q.val) F.LKP_CMD_CTL_OP = op) :
    runHost (fun x => x.lookupGo q.val op req.toNat) s = .next { s with dev := s.dev.lkpGo q.val } :=
  runHost_eq _ s _ ((if_pos selected).trans (Reach.act_lkpGo ⟨s.trust, s.dev⟩ q req.toNat hr fun busy => absurd (idle.symm.trans busy) (by decide)))

/-! The pages of a command -/

theorem Dev.flam_set (d : Dev) (die : Nat) {p : Nat} {f : Fld} (v : Nat) (other : p ≠ 1) (low : f.off < 65536) :
    (d.set p f v).flam die = d.flam die := by
  have apart (o : Nat) (ho : o < 65536) : csrKey 1 o ≠ csrKey p f.off := fun h => other (csrKey_inj ho low h).1.symm
  unfold Dev.flam
  split <;> rw [Dev.get_set_ne _ _ _ _ _ _ (apart _ (by decide))]

/-- A quadrant is served by the page that served it, whatever register outside the SVC page was written. -/
theorem Dev.lkStore_set (d : Dev) (q : Nat) {p : Nat} {f : Fld} (v : Nat) (other : p ≠ 1) (low : f.off < 65536) :
    (d.set p f v).lkStore q = d.lkStore q := by
  unfold Dev.lkStore
  rw [Dev.flam_set d _ v other low]

theorem Dev.lkStore_putEngine (d : Dev) (q k : Nat) (e : Lkp) : (d.putEngine q e).lkStore k = d.lkStore k := by
  have other : lrnPage q ≠ 1 := by unfold lrnPage; omega
  unfold Dev.putEngine Dev.peak
  rw [Dev.lkStore_set _ _ _ other (by decide), Dev.lkStore_set _ _ _ other (by decide)]
  rfl

theorem Dev.lkStore_takeOp (d : Dev) (q k : Nat) : (d.takeOp q).lkStore k = d.lkStore k := d.lkStore_putEngine q k _

/-! One operation (R169) -/

section
variable (d : Dev) (q : Nat)

/-- The descriptor that the command registers name, and the key cut to its width. -/
abbrev Dev.cmdDesc : List Word := d.desc q (d.get (lkpPage q) F.LKP_CMD_CTL_TABLE)
abbrev Dev.cmdKey : Nat := d.cmdNat (lkpPage q) F.LKP_CMD_KEY_KEY % 2 ^ dKb (d.cmdDesc q)

/-- The block as a command finds it: CTL of LKP_CMD_STAT reads 0 until a FIND shows its entry's flags. -/
abbrev Dev.cmdBegun : Dev := d.set (lkpPage q) F.LKP_CMD_STAT_CTL 0

/-- The command names an entry that its table can hold: a HASH table, or a DIRECT table and an index below its size. -/
def Dev.CmdReads : Prop :=
  dType (d.cmdDesc q) = 1 ∨ dType (d.cmdDesc q) = 2 ∧ d.cmdKey q < df (d.cmdDesc q) 6 0 26

variable {d q}

/-- CODE 4: another type of table, or an index beyond the size. -/
theorem Dev.runCmd_refused (ecc : Ecc) (refused : ¬ d.CmdReads q) : d.runCmd q ecc = (d.cmdBegun q).cmdEnd q 4 0 := by
  obtain ⟨notHash, beyond⟩ := not_or.1 refused
  unfold Dev.runCmd
  dsimp only
  by_cases direct : dType (d.cmdDesc q) = 2
  · rw [if_pos (c := _ ∧ _) ⟨direct, Nat.le_of_not_lt fun h => beyond ⟨direct, h⟩⟩, ite_self]
  · exact if_pos (.inr (.inr (.inr (not_or.2 ⟨notHash, direct⟩))))

section
variable (served : d.lkStore q = q) (lo : 1 ≤ d.get (lkpPage q) F.LKP_CMD_CTL_OP) (hi : d.get (lkpPage q) F.LKP_CMD_CTL_OP ≤ 4)
  (reads : d.CmdReads q)
include served lo hi reads

/-- A command that reads its table passes both tests that end with CODE 4. -/
theorem Dev.runCmd_read (ecc : Ecc) :
    d.runCmd q ecc =
      if ecc = .bad then
        let r := (d.cmdBegun q).badLine ((d.cmdBegun q).cmdLines q (d.cmdDesc q) (d.get (lkpPage q) F.LKP_CMD_CTL_OP) (d.cmdKey q))
        (r.2.bucketUe q r.1).cmdEnd q 5 0
      else if dType (d.cmdDesc q) = 1 then
        ((d.cmdBegun q).eccCount 2 (q / 2) ecc).hashCmd q (d.cmdDesc q) (d.get (lkpPage q) F.LKP_CMD_CTL_OP) (d.cmdKey q)
          (d.cmdNat (lkpPage q) F.LKP_CMD_RES_RES)
      else
        ((d.cmdBegun q).eccCount 2 (q / 2) ecc).directCmd q (d.cmdDesc q) (d.get (lkpPage q) F.LKP_CMD_CTL_OP) (d.cmdKey q)
          (d.cmdNat (lkpPage q) F.LKP_CMD_RES_RES) := by
  have other : lkpPage q ≠ 1 := by unfold lkpPage; omega
  have here : (d.cmdBegun q).lkStore q = q := (d.lkStore_set q 0 other (by decide)).trans served
  have typed : dType (d.cmdDesc q) = 1 ∨ dType (d.cmdDesc q) = 2 := reads.imp_right And.left
  have within : ¬(dType (d.cmdDesc q) = 2 ∧ d.cmdKey q ≥ df (d.cmdDesc q) 6 0 26) := by
    rintro ⟨direct, beyond⟩
    rcases reads with hash | ⟨-, below⟩ <;> omega
  refine (if_neg ?_).trans (if_neg within)
  rintro (h | h | h | h)
  · exact h here
  · omega
  · omega
  · exact h typed

theorem Dev.runCmd_bad :
    d.runCmd q .bad =
      (({ d.cmdBegun q with fresh := (d.cmdBegun q).fresh + 1 } : Dev).bucketUe q
        (let lines := (d.cmdBegun q).cmdLines q (d.cmdDesc q) (d.get (lkpPage q) F.LKP_CMD_CTL_OP) (d.cmdKey q)
         lines.getD ((Config.freeWord (d.cmdBegun q).fresh).toNat % lines.length) 0)).cmdEnd q 5 0 :=
  (Dev.runCmd_read served lo hi reads .bad).trans (if_pos rfl)

theorem Dev.runCmd_hash (hash : dType (d.cmdDesc q) = 1) :
    d.runCmd q .clean = (d.cmdBegun q).hashCmd q (d.cmdDesc q) (d.get (lkpPage q) F.LKP_CMD_CTL_OP) (d.cmdKey q)
      (d.cmdNat (lkpPage q) F.LKP_CMD_RES_RES) :=
  (Dev.runCmd_read served lo hi reads .clean).trans ((if_neg nofun).trans (if_pos hash))

theorem Dev.runCmd_direct (direct : dType (d.cmdDesc q) = 2) :
    d.runCmd q .clean = (d.cmdBegun q).directCmd q (d.cmdDesc q) (d.get (lkpPage q) F.LKP_CMD_CTL_OP) (d.cmdKey q)
      (d.cmdNat (lkpPage q) F.LKP_CMD_RES_RES) :=
  (Dev.runCmd_read served lo hi reads .clean).trans ((if_neg nofun).trans (if_neg (by omega)))

end

/-- The engine carries out the command at the head of its queue, and the ager has its turn. -/
theorem Dev.lkpCommandDone_cmd (ecc : Ecc) {r : List EngOp} (front : (d.engine q).ops = .cmd :: r) :
    d.lkpCommandDone q ecc = ((d.takeOp q).runCmd q ecc).ageTurns q := by
  simp only [Dev.lkpCommandDone, front]

end

theorem exec_lkpCommandDone (q : Fin 4) (ecc : Ecc) (s : State) :
    exec (.lkpCommandDone q ecc) s = .next { s with dev := s.dev.lkpCommandDone q.val ecc } := rfl

/-! The operations on a HASH table (R169, R170) -/

theorem placeEntry_free {m : Map Word} {q : Nat} {w : List Word} {key j : Nat} (new vp : Nat)
    (free : freeWay m q w (candidate w key 0) = some j) :
    placeEntry m q w key new vp = (some (candidate w key 0 * 4 + j, 0), putEntry m q w (candidate w key 0 * 4 + j) new, vp) := by
  simp only [placeEntry, free]

section
variable {d : Dev} {q : Nat} {w : List Word} {key : Nat} (res : Nat)

theorem Dev.hashCmd_absent {op : Nat} (absent : hitsOf d.lkp.mem q w key = []) (other : op ≠ 1) :
    d.hashCmd q w op key res = d.cmdEnd q 2 0 := by
  simp only [Dev.hashCmd, absent, if_pos other]

theorem Dev.hashCmd_insert {j : Nat} (absent : hitsOf d.lkp.mem q w key = [])
    (free : freeWay d.lkp.mem q w (candidate w key 0) = some j) :
    d.hashCmd q w 1 key res =
      let p := lkpPage q
      let pos := candidate w key 0 * 4 + j
      let e := mkEntry w true false (d.get p F.LKP_CMD_CTL_STATIC = 1) (d.get p F.LKP_CMD_CTL_LEARNED = 1) key (withLstate w res 0)
      let d1 := (d.setMem (putEntry d.lkp.mem q w pos e)).setEngine q { d.engine q with vp := (d.engine q).vp }
      ((d1.bump p (F.LKP_CNT_COUNT.at 24) 0).set p F.LKP_CMD_POS_POS pos).cmdEnd q 0 0 := by
  simp only [Dev.hashCmd, absent, placeEntry_free _ _ free, ne_eq, not_true_eq_false, if_false]

/-- A command whose key is there shows its position and does one thing to its entry. -/
theorem Dev.hashCmd_present {pos : Nat} {r : List Nat} (op : Nat) (present : hitsOf d.lkp.mem q w key = pos :: r) :
    d.hashCmd q w op key res =
      let p := lkpPage q
      let m := d.lkp.mem
      let e := entryAt m q w pos
      let d1 := d.set p F.LKP_CMD_POS_POS pos
      if op = 1 then d1.cmdEnd q 1 0
      else if op = 2 then
        (d1.setMem (putEntry m q w pos (mkEntry w true (bit e 1) (d.get p F.LKP_CMD_CTL_STATIC = 1) (bit e 3) key
          (withLstate w res (entryState w e))))).cmdEnd q 0 0
      else if op = 3 then (d1.setMem (putEntry m q w pos (clrBit e 0))).cmdEnd q 0 0
      else
        ((d1.showRec p F.LKP_CMD_RES_RES.off 8 ((List.range 8).map fun k => BitVec.ofNat 32 (eRes w e / 2 ^ (32 * k)))).set p
          F.LKP_CMD_STAT_CTL (e % 16)).cmdEnd q 0 0 := by
  simp only [Dev.hashCmd, present]

end

/-! Descriptors (R162) -/

section
variable (d : Dev) (q t : Nat) (v : Word)

/-- The eight words that a write of `v` to word 7 commits: words held, or else stored, and `v`. -/
abbrev Dev.newDesc : List Word :=
  (List.range 7).map (fun k => (Map.rd none d.lkp.held (heldKey q t k)).getD (d.word (lkpPage q) (0x8000 + 32 * t + 4 * k))) ++ [v]

/-- The block with the held words of a descriptor dropped. -/
abbrev Dev.dropHeldDesc : Dev :=
  { d with lkp := { d.lkp with held := d.lkp.held.dropRange (heldKey q t 0) (heldKey q t 8) } }

variable {d q t v} (req : Nat)

theorem Dev.commitDesc_good (good : descCheck ((d.dropHeldDesc q t).lkBytes q) t (d.newDesc q t v) = none) :
    d.commitDesc q t v req = (d.dropHeldDesc q t).showRec (lkpPage q) (0x8000 + 32 * t) 8 (d.newDesc q t v) := by
  simp only [Dev.commitDesc, good]

theorem Dev.commitDesc_bad {n : Nat} (bad : descCheck ((d.dropHeldDesc q t).lkBytes q) t (d.newDesc q t v) = some n) :
    d.commitDesc q t v req = (d.dropHeldDesc q t).capture
      { page := lkpPage q, kinds := [0x21], off := 0x8000 + 32 * t + 28, data := v.toNat, write := true, req := req, d5 := t, d6 := n } := by
  simp only [Dev.commitDesc, bad]

end

/-- Word 7 of a descriptor but descriptor 0 is written through the check. -/
theorem Dev.regWrite_descCommit (d : Dev) (q : Fin 4) (t : Fin 1024) (v : Word) (req : Nat) (used : t.val ≠ 0) :
    d.regWrite (lkpPage q.val) (0x8000 + 32 * t.val + 28) v req = d.commitDesc q.val t.val v req := by
  have lkp : lkpPage q.val ≠ 1 ∧ lkpPage q.val ≠ 2 := by unfold lkpPage; omega
  have number : (0x8000 + 32 * t.val + 28 - 0x8000) / 32 = t.val := by omega
  have word : (0x8000 + 32 * t.val + 28) / 4 % 8 = 7 := by omega
  have above : 0x8020 ≤ 0x8000 + 32 * t.val + 28 := by omega
  have below : ¬ t.val ≥ 1024 := by omega
  simp only [Dev.regWrite, lkp, pageKind_lkp, pageInst_lkp, number, word, above, below, false_and, true_and, if_false, if_true,
    Nat.lt_irrefl]

theorem exec_descriptorCommit (s : State) (q : Fin 4) (t : Fin 1024) (v : Word) (req : BitVec 16) (hr : s.dev.reachable (lkpPage q.val))
    (used : t.val ≠ 0) :
    exec (.descriptorCommit q t v 15 req) s = .next { s with dev := s.dev.commitDesc q.val t.val v req.toNat } := by
  have other : isTrust (lkpPage q.val) (0x8000 + 32 * t.val + 28) = false := by
    have page : lkpPage q.val ≠ 1 := by unfold lkpPage; omega
    simp [isTrust, page]
  have address : 65536 * lkpPage q.val + 0x8000 + 32 * t.val + 28 = 65536 * lkpPage q.val + (0x8000 + 32 * t.val + 28) := by omega
  have effect : exec (.descriptorCommit q t v 15 req) s =
      runHost (fun x => x.hostWrite 0 (65536 * lkpPage q.val + 0x8000 + 32 * t.val + 28) v 15 req.toNat) s := rfl
  rw [effect, address, runHost_regWrite s v req hr (by omega) (by omega) other, Dev.regWrite_descCommit s.dev q t v req.toNat used]

/-! The statement on commands -/

/-- Settles O34: GO joins the queue; an operation by what its table lets it read and by the line that is bad; a commit by its check; and
each operation on a HASH table by whether the key is there. -/
theorem lookupCommandsRunOneAtATime : Obligations.LookupCommandsRunOneAtATime := by
  unfold Obligations.LookupCommandsRunOneAtATime
  refine ⟨fun s q req t data ecc r => ⟨fun hr idle => ?go, fun front served => ?done, fun hr used => ?commit⟩,
    fun d q w key res => ⟨fun absent => ?absent, fun pos r present => ?present⟩⟩
  case go =>
    exact ⟨runHost_lookupGo s q 1 req hr idle, runHost_lookupGo s q 2 req hr idle, runHost_lookupGo s q 3 req hr idle,
      runHost_lookupGo s q 4 req hr idle⟩
  case done =>
    intro d op w key res d1 lo hi
    have served : d.lkStore q.val = q.val := (s.dev.lkStore_takeOp q.val q.val).trans served
    have run (ecc : Ecc) {d' : Dev} (h : d.runCmd q.val ecc = d') :
        exec (.lkpCommandDone q ecc) s = .next { s with dev := d'.ageTurns q.val } := by
      subst h
      exact (exec_lkpCommandDone q ecc s).trans (next_dev (Dev.lkpCommandDone_cmd ecc front))
    refine ⟨fun hash => run .clean (Dev.runCmd_hash served lo hi (.inl hash) hash),
      fun direct below => run .clean (Dev.runCmd_direct served lo hi (.inr ⟨direct, below⟩) direct),
      fun notHash beyond => run ecc (Dev.runCmd_refused ecc ?_), fun reads => run .bad (Dev.runCmd_bad served lo hi reads)⟩
    rintro (hash | ⟨direct, below⟩)
    · exact notHash hash
    · exact Nat.not_lt.2 (beyond direct) below
  case commit =>
    have effect := exec_descriptorCommit s q t data req hr used
    exact ⟨fun good => effect.trans (next_dev (Dev.commitDesc_good _ good)),
      fun n bad => effect.trans (next_dev (Dev.commitDesc_bad _ bad))⟩
  case absent =>
    exact ⟨fun j free => Dev.hashCmd_insert res absent free, Dev.hashCmd_absent res absent (by decide),
      Dev.hashCmd_absent res absent (by decide), Dev.hashCmd_absent res absent (by decide)⟩
  case present =>
    have effect (op : Nat) := Dev.hashCmd_present res op present
    exact ⟨(effect 1).trans (if_pos rfl), (effect 2).trans ((if_neg (by decide)).trans (if_pos rfl)),
      (effect 3).trans ((if_neg (by decide)).trans ((if_neg (by decide)).trans (if_pos rfl))),
      (effect 4).trans ((if_neg (by decide)).trans ((if_neg (by decide)).trans (if_neg (by decide))))⟩

end Sys2Proof.Machine
end

section
/-! Learning, ageing and learn events (R169, R175, R176, R179): the row of R175 that a request meets, the turn that a visit takes or
waits for, and the pop of an event. -/

namespace Sys2Proof.Machine

/-! Learn requests (R175) -/

section
variable {d : Dev} {q table key data : Nat}

/-- A request whose descriptor is no learning HASH table is counted as dropped. -/
theorem Dev.runLearn_dropped (other : ¬(dType (d.desc q table) = 1 ∧ dLearn (d.desc q table) = true)) :
    d.runLearn q table key data = d.cnt (lrnPage q) F.LRN_CNT_COUNT 1 := if_pos other

variable (learns : dType (d.desc q table) = 1 ∧ dLearn (d.desc q table) = true)
include learns

theorem Dev.runLearn_absent (absent : hitsOf d.lkp.mem q (d.desc q table) key = []) :
    d.runLearn q table key data = d.learnNew q table (d.desc q table) key data := by
  simp only [Dev.runLearn, learns, absent, true_and, not_true_eq_false, if_false]

/-- A request whose key is there, by the entry's data, its static flag and its hold count. -/
theorem Dev.runLearn_present {pos : Nat} {l : List Nat} (present : hitsOf d.lkp.mem q (d.desc q table) key = pos :: l) :
    d.runLearn q table key data =
      let p := lrnPage q
      let w := d.desc q table
      let e := entryAt d.lkp.mem q w pos
      if eRes w e % 2 ^ (dRb w - 16) = data then (d.setMem (putEntry d.lkp.mem q w pos (setBit e 1))).cnt p F.LRN_CNT_COUNT 3
      else if bit e 2 = true then d.cnt p F.LRN_CNT_COUNT 7
      else if bits (entryState w e) 4 4 > 0 then d.cnt p F.LRN_CNT_COUNT 6
      else d.learnMove q table w key data pos := by
  simp only [Dev.runLearn, learns, present, true_and, not_true_eq_false, if_false]

end

section
variable {d : Dev} {q table key data : Nat} {move : Bool} {r : List EngOp} (front : (d.engine q).ops = .learn table move key data :: r)
include front

/-- The engine carries out the request at the head of its queue, and the ager has its turn. -/
theorem Dev.engineLearn_clean : d.engineLearn q move .clean = ((d.takeOp q).runLearn q table key data).ageTurns q := by
  simp [Dev.engineLearn, front, Dev.eccCount]

/-- A request read as uncorrectable is counted, as the error and as dropped. -/
theorem Dev.engineLearn_bad :
    d.engineLearn q move .bad = (((d.takeOp q).eccCount 7 (q / 2) .bad).cnt (lrnPage q) F.LRN_CNT_COUNT 1).ageTurns q := by
  simp [Dev.engineLearn, front]

end

theorem exec_learnNew (s : State) (q : Fin 4) (ecc : Ecc) :
    exec (.learnNew (q, ecc)) s = .next { s with dev := s.dev.engineLearn q.val false ecc } := rfl

theorem exec_learnMove (s : State) (q : Fin 4) (ecc : Ecc) :
    exec (.learnMove (q, ecc)) s = .next { s with dev := s.dev.engineLearn q.val true ecc } := rfl

/-! The ager (R169, R176) -/

@[simp] theorem Dev.engine_setEngine_same (d : Dev) (q : Nat) (e : Lkp) : (d.setEngine q e).engine q = e := Map.rd_wr_same _ _ _ _

/-- The later of two writes of an engine stands. -/
theorem Dev.setEngine_setEngine (d : Dev) (q : Nat) (e e' : Lkp) : (d.setEngine q e).setEngine q e' = d.setEngine q e' := by
  simp only [Dev.setEngine, Map.wr_wr]

section
variable {d : Dev} {q table pos : Nat}

/-- The ager waits while an operation has the turn. -/
theorem Dev.ageTurns_waits (busy : (d.engine q).ops ≠ []) (turns : (d.engine q).turns < 15) : d.ageTurns q = d := by
  unfold Dev.ageTurns
  dsimp only
  split
  · rfl
  · rw [if_neg busy, if_neg (by omega)]

/-- The one visit that waits is made once no operation waits or the ager is owed its turn. -/
theorem Dev.ageTurns_single (one : (d.engine q).visits = [(table, pos)]) (turn : (d.engine q).ops = [] ∨ 15 ≤ (d.engine q).turns) :
    d.ageTurns q = (d.setEngine q { d.engine q with visits := [], turns := 0 }).visitAt q table pos := by
  simp only [Dev.ageTurns, one, List.foldl_cons, List.foldl_nil]
  by_cases idle : (d.engine q).ops = []
  · rw [if_pos idle]
  · rw [if_neg idle, if_pos (turn.resolve_left idle)]

section
variable (serves : d.lkStore q = q) (runs : d.running (lrnPage q) = true)
  (learns : dType (d.desc q table) = 1 ∧ dLearn (d.desc q table) = true) (within : pos < 2 ^ (dNb (d.desc q table) + 3))
include serves runs learns within

/-- A visit of a position of a learning HASH table joins those that wait. -/
theorem Dev.ageingVisit_joins :
    d.ageingVisit q table pos =
      (d.setEngine q { d.engine q with visits := (d.engine q).visits ++ [(table, pos)] }).ageTurns q := by
  refine if_neg ?_
  rintro (h | h | h | h)
  · exact h serves
  · simp [runs] at h
  · exact h learns
  · omega

theorem Dev.ageingVisit_waits (busy : (d.engine q).ops ≠ []) (turns : (d.engine q).turns < 15) :
    d.ageingVisit q table pos = d.setEngine q { d.engine q with visits := (d.engine q).visits ++ [(table, pos)] } :=
  (Dev.ageingVisit_joins serves runs learns within).trans (Dev.ageTurns_waits (by simpa using busy) (by simpa using turns))

theorem Dev.ageingVisit_made (alone : (d.engine q).visits = []) (turn : (d.engine q).ops = [] ∨ 15 ≤ (d.engine q).turns) :
    d.ageingVisit q table pos = (d.setEngine q { d.engine q with turns := 0 }).visitAt q table pos := by
  rw [Dev.ageingVisit_joins serves runs learns within, Dev.ageTurns_single (table := table) (pos := pos) (by simp [alone]) (by simpa using turn),
    Dev.setEngine_setEngine, Dev.engine_setEngine_same]
  simp only [← alone]

end

/-! One visit (R176) -/

/-- The entry that a visit writes, and whether it has aged out. -/
abbrev Dev.visited (d : Dev) (q table pos : Nat) : Nat × Bool :=
  visit (d.get (lrnPage q) F.LRN_SWEEP_AGE_LIMIT) (d.get (lrnPage q) F.LRN_SWEEP_AGE_EN = 1) (d.desc q table)
    (entryAt d.lkp.mem q (d.desc q table) pos)

theorem Dev.visitAt_empty (empty : bit (entryAt d.lkp.mem q (d.desc q table) pos) 0 = false) : d.visitAt q table pos = d :=
  if_pos (.inr (.inr (by simp [empty])))

section
variable (learns : dType (d.desc q table) = 1 ∧ dLearn (d.desc q table) = true) (within : pos < 2 ^ (dNb (d.desc q table) + 3))
  (valid : bit (entryAt d.lkp.mem q (d.desc q table) pos) 0 = true)
include learns within valid

/-- A visit of a valid entry writes it anew, and counts and reports it once it has aged out. -/
theorem Dev.visitAt_valid :
    d.visitAt q table pos =
      let w := d.desc q table
      let d1 := d.setMem (putEntry d.lkp.mem q w pos (d.visited q table pos).1)
      if (d.visited q table pos).2 = true then
        (d1.cnt (lrnPage q) F.LRN_CNT_COUNT 8).learnEvent q 4 table pos (eKey w (entryAt d.lkp.mem q w pos))
      else d1 := by
  refine if_neg ?_
  rintro (h | h | h)
  · exact h learns
  · omega
  · simp [valid] at h

end

end

theorem exec_ageingVisit (s : State) (q : Fin 4) (table : Fin 1024) (pos : Nat) :
    exec (.ageingVisit q table pos) s = .next { s with dev := s.dev.ageingVisit q.val table.val pos } := rfl

/-! Events (R179) -/

theorem exec_lrnEvtPop (s : State) (q : Fin 4) (req : BitVec 16) (hr : s.dev.reachable (lrnPage q.val)) :
    exec (.lrnEvtPop q req) s = .next { s with dev := s.dev.popEvt q.val } :=
  runHost_eq _ s _ (Reach.act_evtPop ⟨s.trust, s.dev⟩ q req.toNat hr)

/-! The statement on learning -/

/-- Settles O35: a request by the row of R175 that it meets, a visit by whose turn it is and by the entry it finds, and the pop. -/
theorem learningFollowsItsTable : Obligations.LearningFollowsItsTable := by
  unfold Obligations.LearningFollowsItsTable
  intro s q table key data pos r req d p w m e
  refine ⟨fun hash learning => ⟨fun front absent => ?new, fun l front present => ?move⟩, fun move front => ?lost, fun front other => ?dropped,
    ?visits, exec_lrnEvtPop s q req⟩
  case new =>
    exact next_dev ((Dev.engineLearn_clean front).trans (congrArg (Dev.ageTurns · q.val) (Dev.runLearn_absent ⟨hash, learning⟩ absent)))
  case move =>
    have row {d' : Dev} (h : d.runLearn q.val table.val key data = d') :
        exec (.learnMove (q, .clean)) s = .next { s with dev := d'.ageTurns q.val } := by
      subst h
      exact (exec_learnMove s q .clean).trans (next_dev (Dev.engineLearn_clean front))
    have rows := Dev.runLearn_present (data := data) ⟨hash, learning⟩ present
    refine ⟨fun same => row (rows.trans (if_pos same)), fun differs static => row (rows.trans ((if_neg differs).trans (if_pos static))),
      fun differs free held => row (rows.trans ((if_neg differs).trans ((if_neg (ne_true_of_eq_false free)).trans (if_pos held)))),
      fun differs free unheld => row (rows.trans ((if_neg differs).trans ((if_neg (ne_true_of_eq_false free)).trans (if_neg (Nat.not_lt.2 unheld.le)))))⟩
  case lost =>
    intro lost
    have effect := Dev.engineLearn_bad front
    refine ⟨fun new => ?_, fun moved => ?_⟩
    · subst new
      exact next_dev effect
    · subst moved
      exact next_dev effect
  case dropped =>
    exact next_dev ((Dev.engineLearn_clean front).trans (congrArg (Dev.ageTurns · q.val) (Dev.runLearn_dropped other)))
  case visits =>
    intro w x v d1 serves runs hash learning within
    have effect := exec_ageingVisit s q table pos
    refine ⟨fun busy turns => effect.trans (next_dev (Dev.ageingVisit_waits serves runs ⟨hash, learning⟩ within busy turns)),
      fun alone turn => ?_⟩
    have made := effect.trans (next_dev (Dev.ageingVisit_made serves runs ⟨hash, learning⟩ within alone turn))
    refine ⟨fun empty => made.trans (next_dev (Dev.visitAt_empty (d := d1) empty)), fun valid stays => ?_, fun valid aged => ?_⟩
    · exact made.trans (next_dev ((Dev.visitAt_valid (d := d1) ⟨hash, learning⟩ within valid).trans (if_neg (ne_true_of_eq_false stays))))
    · exact made.trans (next_dev ((Dev.visitAt_valid (d := d1) ⟨hash, learning⟩ within valid).trans (if_pos aged)))

end Sys2Proof.Machine
end

section
/-! Admission (R203, R215 to R217): whose turn it is among the sources of a die, what becomes of its oldest offer, the ECN mark by the
queue's profile, and the cells granted to requesters that wait. -/

namespace Sys2Proof.Machine

/-! The source in turn (R216) -/

theorem Dev.grant_rr (d : Dev) (res n : Nat) (req : List Nat) : ∃ rr, (d.grant res n req).2 = { d with rr := rr } := by
  unfold Dev.grant
  split
  · exact ⟨d.rr, rfl⟩
  · split
    · exact ⟨_, rfl⟩
    · exact ⟨d.rr, rfl⟩

section
variable (d : Dev) (die : Nat)

/-- How many packets wait for a die's decision. -/
def Dev.offersWaiting : Nat := ((List.range 3).map fun j => (d.offers die j).length).sum

/-- R17's turn among the sources of a die that have a packet waiting. -/
def Dev.sourceTurn : Option Nat × Dev := d.grant (Rr.swc die) 3 ((List.range 3).filter fun j => !(d.offers die j).isEmpty)

variable {d die} {src k : Nat} {g : Dev}

theorem Dev.admitSource_named (few : d.offersWaiting die ≤ 16) : d.admitSource die src = (src, d) := if_pos few

theorem Dev.admitSource_turn (many : 16 < d.offersWaiting die) (turn : d.sourceTurn die = (some k, g)) :
    d.admitSource die src = (k, g) := by
  refine (if_neg (Nat.not_le.2 many)).trans ?_
  rw [← Dev.sourceTurn, turn]

/-- The source is the one given while at most 16 packets wait, and the one in turn otherwise; only a round-robin pointer moves. -/
theorem Dev.admitSource_eq
    (chosen : d.offersWaiting die ≤ 16 ∧ k = src ∧ g = d ∨ 16 < d.offersWaiting die ∧ d.sourceTurn die = (some k, g)) :
    d.admitSource die src = (k, g) ∧ ∃ rr, g = { d with rr := rr } := by
  obtain ⟨few, rfl, rfl⟩ | ⟨many, turn⟩ := chosen
  · exact ⟨Dev.admitSource_named few, g.rr, rfl⟩
  · obtain ⟨rr, moved⟩ := d.grant_rr (Rr.swc die) 3 ((List.range 3).filter fun j => !(d.offers die j).isEmpty)
    exact ⟨Dev.admitSource_turn many turn, rr, (congrArg Prod.snd turn).symm.trans moved⟩

end

/-! The oldest offer (R215) -/

section
variable (d : Dev) (die src : Nat) (o : Offer)

/-- The source offers the packets behind its oldest one. -/
def Dev.offerTaken (rest : List Offer) : Dev := d.setSwc { d.swc with offers := d.swc.offers.wr [] (3 * die + src) rest }

/-- The decision on an offer: 0 admits it, and every other value is the reason to drop it. -/
def Dev.offerWhy : Nat := d.admissionCode die o.queue (d.chain o.pkt.first).length (min o.color 2) (decide (src ≠ 1) && !o.shared)

/-- Peal counts the decision on a replica (R256). -/
def Dev.offerCounted : Dev :=
  if src = 1 then d.pealReason die o.cntBase (d.offerWhy die src o) (max 64 (o.pkt.len + 4)) else d

/-- The offer is dropped for its reason: counted at its port, and at Carillon for a member's queue, and let go. -/
def Dev.offerDropped : Dev :=
  let c := d.offerCounted die src o
  let port := d.qPort o.queue
  let m := if src ≠ 1 ∧ c.attached (c.qNode o.queue) = true ∧ c.isMember port = true then c.cnt (carPage die) F.CAR_GLB_CNT_COUNT 0 else c
  (m.dropCount port (d.offerWhy die src o - 1)).letGo o.pkt.first o.pkt.owner o.shared o.final

/-- The offer is admitted: marked or not by its queue's ECN profile, charged to the queue and placed at its end. -/
def Dev.offerAdmitted (ecc : Ecc) : Dev :=
  let c := d.offerCounted die src o
  let cells := (d.chain o.pkt.first).length
  let mark := c.ecnMark die o.queue (c.cntOf die o.queue)
  let m := if mark.1 = true then mark.2.dropCount (d.qPort o.queue) 3 else mark.2
  let owned := if o.shared = true then m else m.setOwners o.pkt.owner o.pkt.first 0
  let charged := (owned.cntAdd die o.queue cells).cnt (swcPage die) F.SWC_CNT_COUNT 7
  charged.placeEnt o.queue (c.qCells o.queue)
    ⟨o.pkt.first, o.pkt.len, o.pkt.owner, o.color, charged.time.ns, die, o.pkt.inport % 128, o.pkt.prio, mark.1, o.shared, o.final, false,
      o.pkt.pfc, cells, [], 0, false⟩ ecc

variable {d die src o} {rest : List Offer} (ecc : Ecc) (front : d.offers die src = o :: rest) (serves : d.active (swcPage die) = true)
  (takes : d.active (tmPage (o.queue / 65536)) = true) (linked : die = o.queue / 65536 ∨ d.domOn 27 = true)
include front serves takes linked

/-- The oldest offer of a source is decided once its die serves, its queue's traffic manager can take it and the dies are linked. -/
theorem Dev.admitFrom_decides :
    d.admitFrom die src ecc =
      if (d.offerTaken die src rest).offerWhy die src o ≠ 0 then (d.offerTaken die src rest).offerDropped die src o
      else (d.offerTaken die src rest).offerAdmitted die src o ecc := by
  have unhindered : ¬((!d.active (swcPage die) || !d.active (tmPage (o.queue / 65536)) || (die != o.queue / 65536 && !d.domOn 27)) = true) := by
    rcases linked with same | east
    · rw [← same] at takes
      simp [serves, takes, ← same]
    · simp [serves, takes, east]
  rw [Dev.admitFrom, front]
  exact if_neg unhindered

theorem Dev.admitFrom_dropped (why : (d.offerTaken die src rest).offerWhy die src o ≠ 0) :
    d.admitFrom die src ecc = (d.offerTaken die src rest).offerDropped die src o :=
  (Dev.admitFrom_decides ecc front serves takes linked).trans (if_pos why)

theorem Dev.admitFrom_admitted (why : (d.offerTaken die src rest).offerWhy die src o = 0) :
    d.admitFrom die src ecc = (d.offerTaken die src rest).offerAdmitted die src o ecc :=
  (Dev.admitFrom_decides ecc front serves takes linked).trans (if_neg (not_not.2 why))

end

/-! ADMISSION (R215, R216) -/

/-- After a decision that took a mesh packet, the packets of the mesh that were held go on. -/
def Dev.meshGoesOn (before after : Dev) (die : Nat) : Dev :=
  if (after.offers die 2).length < (before.offers die 2).length then after.uluxGranted die else after

theorem exec_admission {s : State} {die : Fin 2} {src : Fin 3} {ecc : Ecc} {k : Nat} {g d' : Dev}
    (source : s.dev.admitSource die.val src.val = (k, g)) (decided : g.admitFrom die.val k ecc = d') :
    exec (.admission die src ecc) s = .next { s with dev := s.dev.meshGoesOn d' die.val } := by
  have admitted : s.dev.admission die.val src.val ecc = d' := by rw [Dev.admission, source, ← decided]
  subst admitted
  rfl

/-! The ECN mark (R217) -/

section
variable {d : Dev} {die q n : Nat}

theorem Dev.ecnMark_off (off : d.adm die q F.SWC_ADM_PROF_ECN_EN = 0) : d.ecnMark die q n = (false, d) := if_pos off

theorem Dev.ecnMark_spilled (on : d.adm die q F.SWC_ADM_PROF_ECN_EN ≠ 0) (bySpill : d.adm die q F.SWC_ADM_PROF_ECN_SPILL = 1)
    (spilled : (d.queue q).spilled = true) : d.ecnMark die q n = (true, d) := (if_neg on).trans (if_pos ⟨bySpill, spilled⟩)

theorem Dev.ecnMark_above (on : d.adm die q F.SWC_ADM_PROF_ECN_EN ≠ 0) (above : d.adm die q F.SWC_ADM_PROF_ECN_MAX ≤ n) :
    d.ecnMark die q n = (true, d) := (if_neg on).trans (ite_eq_left_iff.2 fun _ => if_pos above)

theorem Dev.ecnMark_below (byCount : d.adm die q F.SWC_ADM_PROF_ECN_SPILL = 0) (under : n < d.adm die q F.SWC_ADM_PROF_ECN_MAX)
    (below : n ≤ d.adm die q F.SWC_ADM_PROF_ECN_MIN) : d.ecnMark die q n = (false, d) :=
  ite_eq_left_iff.2 fun _ => (if_neg fun spill => absurd (byCount.symm.trans spill.1) (by decide)).trans
    ((if_neg (Nat.not_le.2 under)).trans (if_pos below))

end

/-! Requesters that wait (R203, R204) -/

/-- A requester may take a cell under its maximum, within its minimum or where the cells left exceed what the minimums still keep. -/
theorem Dev.mayTake_iff (d : Dev) (die r : Nat) :
    d.mayTake die r = true ↔ d.used die r < d.quotaMax die r ∧
      (d.used die r < d.quotaMin die r ∨ ((List.range 16).map fun q => d.quotaMin die q - d.used die q).sum < d.freeCells die) := by
  unfold Dev.mayTake
  split
  case isTrue full => exact ⟨nofun, fun h => absurd h.1 (Nat.not_lt.2 full)⟩
  case isFalse under =>
    have below := Nat.lt_of_not_le under
    split
    case isTrue kept => exact ⟨fun _ => ⟨below, .inl kept⟩, fun _ => rfl⟩
    case isFalse spent => exact decide_eq_true_iff.trans ⟨fun free => ⟨below, .inr free⟩, fun h => h.2.resolve_left spent⟩

section
variable {d : Dev} {die r : Nat}

theorem Dev.cellGranted_none (unnamed : ∀ x ∈ (d.bpm die).waits, x.1 ≠ r) : d.cellGranted die r = d := by
  have found : (d.bpm die).waits.find? (·.1 = r) = none := List.find?_eq_none.2 fun x hx => by simpa using unnamed x hx
  rw [Dev.cellGranted, found]

variable {w : CellWait} {l m : List (Nat × CellWait)} (waits : (d.bpm die).waits = l ++ (r, w) :: m) (oldest : ∀ x ∈ l, x.1 ≠ r)
include waits oldest

/-- The oldest wait of a requester is the first that names it, and no other wait moves when it ends. -/
theorem Dev.cellGranted_oldest :
    d.cellGranted die r = if d.mayTake die r = true then (d.setBpm die { d.bpm die with waits := l ++ m }).cellFor die w else d := by
  have found : (d.bpm die).waits.find? (·.1 = r) = some (r, w) := by
    have others : l.find? (·.1 = r) = none := List.find?_eq_none.2 fun x hx => by simpa using oldest x hx
    rw [waits, List.find?_append, others, Option.none_or]
    exact List.find?_cons_of_pos (decide_eq_true rfl)
  have ended : (d.bpm die).waits.erase (r, w) = l ++ m := by
    rw [waits, List.erase_append_right _ fun mem => oldest _ mem rfl, List.erase_cons_head]
  simp only [Dev.cellGranted, found, ended]

theorem Dev.cellGranted_held (held : d.mayTake die r = false) : d.cellGranted die r = d :=
  (Dev.cellGranted_oldest waits oldest).trans (if_neg (ne_true_of_eq_false held))

theorem Dev.cellGranted_served (served : d.mayTake die r = true) :
    d.cellGranted die r = (d.setBpm die { d.bpm die with waits := l ++ m }).cellFor die w :=
  (Dev.cellGranted_oldest waits oldest).trans (if_pos served)

end

theorem exec_cellGrantedAfterWait (s : State) (die : Fin 2) (r : Fin 16) :
    exec (.cellGrantedAfterWait die r) s = .next { s with dev := s.dev.cellGranted die.val r.val } := rfl

/-! The statement on admission -/

/-- Settles O39: the oldest offer of the source in turn by the decision on it, the mark by its queue's profile, and the grant to a
requester by its oldest wait. -/
theorem admissionDecides : Obligations.AdmissionDecides := by
  unfold Obligations.AdmissionDecides
  refine ⟨⟨fun s die src k g o rest ecc chosen front serves takes linked => ?offer, fun d die q n => rfl,
      fun d die q n => ⟨Dev.ecnMark_off, Dev.ecnMark_spilled, Dev.ecnMark_above, Dev.ecnMark_below⟩⟩,
    fun s die r w l m => ⟨fun unnamed => ?waitless, fun waits oldest => ⟨fun held => ?held, fun served => ?served⟩, s.dev.mayTake_iff die.val r.val⟩⟩
  case offer =>
    obtain ⟨source, rr, rfl⟩ := Dev.admitSource_eq (src := src.val) chosen
    exact ⟨fun why => exec_admission source (Dev.admitFrom_dropped ecc front serves takes linked why),
      fun why => exec_admission source (Dev.admitFrom_admitted ecc front serves takes linked why)⟩
  case waitless => exact (exec_cellGrantedAfterWait s die r).trans (next_dev (Dev.cellGranted_none unnamed))
  case held => exact (exec_cellGrantedAfterWait s die r).trans (next_dev (Dev.cellGranted_held waits oldest held))
  case served => exact (exec_cellGrantedAfterWait s die r).trans (next_dev (Dev.cellGranted_served waits oldest served))

end Sys2Proof.Machine
end

section
/-! Spill pages (R208 to R210): the open page at its timeout, a recall by the queue's level and its segment's front, the recalled page
as it comes back, and the ring of a stack that becomes ready. -/

namespace Sys2Proof.Machine

/-! The open page (R209) -/

section
variable {d : Dev} {q : Nat} {g : Page} {l : List Page} (last : (d.queue q).seg = l ++ [g]) (unwritten : g.written = false)
include last unwritten

/-- The last page of a segment leaves the writer for its stack's memory, which is powered. -/
theorem Dev.closePage_powered (on : d.domOn (14 + pageStack g.ptr) = true) :
    d.closePage q = ((d.hbmWrite (pageStack g.ptr) 1 (pageAddr g.ptr) (g.image 0)).setQueue q
      { d.queue q with seg := l ++ [{ g with written := true, data := [] }] }).cnt (bpmPage (q / 65536)) F.BPM_CNT_COUNT 3 := by
  simp only [Dev.closePage, last, List.getLast?_concat, List.dropLast_concat, unwritten, on, Bool.false_eq_true, Bool.not_true, if_false]

theorem Dev.openPageTimeout_begun (begun : g.slots > 0) : d.openPageTimeout q = d.closePage q := by
  simp [Dev.openPageTimeout, last, unwritten, begun]

end

theorem exec_openPageTimeout (s : State) (q : Fin 131072) :
    exec (.openPageTimeout q) s = .next { s with dev := s.dev.openPageTimeout q.val } := rfl

/-! Recall (R209) -/

section
variable {d : Dev} {q : Nat}

/-- The queue's on-chip cells are below the recall level of its spill profile. -/
def Dev.recallLow (d : Dev) (q : Nat) : Bool :=
  decide (d.qCells q < 16 * d.get (bpmPage (q / 65536)) (F.BPM_SPILL_PROF_RECALL.at (4 * d.qSpill q)))

theorem Dev.recall_full (full : d.recallLow q = false) : d.recall q = d := if_pos (.inl (congrArg (! ·) full))

variable (low : d.recallLow q = true)
include low

/-- Below its level a queue recalls as long as fewer than 4 of its pages are under way. -/
theorem Dev.recall_outstanding (few : ((d.queue q).seg.filter (·.recalling)).length < 4) :
    ¬((!d.recallLow q) = true ∨ ((d.queue q).seg.filter (·.recalling)).length ≥ 4) := by
  rw [low]
  rintro (high | many)
  · exact Bool.false_ne_true high
  · exact Nat.not_le.2 few many

theorem Dev.recall_page {g : Page} {l : List Page} (front : (d.queue q).seg = g :: l) (waits : g.recalling = false)
    (written : g.written = true) (kept : g.lost = false) (few : (l.filter (·.recalling)).length < 4)
    (serves : d.fn (hbmPage (pageStack g.ptr)) ≠ 0) :
    d.recall q = (d.setQueue q { d.queue q with seg := { g with recalling := true } :: l }).hbmAsk
      (pageStack g.ptr) 0 false (pageAddr g.ptr) 4096 := by
  have recalls := Dev.recall_outstanding low (by simpa [front, waits] using few)
  have oldest : (g :: l).findIdx? (fun x => !x.recalling) = some 0 := by simp [List.findIdx?_cons, waits]
  refine (if_neg recalls).trans ?_
  simp only [front, oldest, List.getElem?_cons_zero, List.set_cons_zero, kept, written, serves, Bool.false_eq_true, if_false, if_true]

theorem Dev.recall_writer (empty : (d.queue q).seg = []) (whole : (d.queue q).partly = none) :
    d.recall q = (d.setQueue q { d.queue q with ents := (d.queue q).ents ++ (d.queue q).writer, writer := [] }).touchQueue q := by
  have recalls := Dev.recall_outstanding low (by simp [empty])
  refine (if_neg recalls).trans ?_
  simp [empty, whole]

end

theorem exec_recall (s : State) (q : Fin 131072) : exec (.recall q) s = .next { s with dev := s.dev.recall q.val } := rfl

/-! The read of a recalled page (R210) -/

theorem mem_badReads {n : Nat} {words : Reads n} {i : Fin n} : i ∈ badReads words ↔ (i, Ecc.bad) ∈ words := by
  simp [badReads]

/-- A word of a page is uncorrectable as the read finds it or as it was known before. -/
theorem Dev.mem_wordsRead (d : Dev) (h : Nat) (at_ : Nat → Nat) (bad corrected : List (Fin 1024)) {w : Nat} (within : w < 1024) :
    w ∈ (d.wordsRead h at_ bad corrected).1 ↔ (∃ i ∈ bad, i.val = w) ∨ Map.rd false d.hbmBad (hbmKey h (at_ w)) = true := by
  simp only [Dev.wordsRead, List.mem_filter, List.mem_range, within, true_and, Bool.or_eq_true, List.any_eq_true, beq_iff_eq]

theorem Dev.recallDone_front {d : Dev} {q : Nat} {g : Page} {l : List Page} (bad corrected : List (Fin 1024))
    (front : (d.queue q).seg = g :: l) (asked : g.recalling = true) (written : g.written = true) (kept : g.lost = false) :
    let at_ : Nat → Nat := fun w => pageAddr g.ptr + 4 * w
    let r := d.wordsRead (pageStack g.ptr) at_ bad corrected
    d.recallDone q bad corrected =
      ((d.hbmServe (pageStack g.ptr) 0 (pageAddr g.ptr) 4096).countWords (pageStack g.ptr) at_ r.1 r.2).takePageBack q g r.1 := by
  intro at_
  have returns : g.recalling = true ∧ g.written = true ∧ (!g.lost) = true := ⟨asked, written, congrArg (! ·) kept⟩
  simp only [Dev.recallDone, front, if_pos returns]
  generalize d.wordsRead (pageStack g.ptr) at_ bad corrected = r
  rfl

theorem exec_recallReadDone (s : State) (q : Fin 131072) (words : Reads 1024) :
    exec (.recallReadDone q words) s = .next { s with dev := s.dev.recallDone q.val (badReads words) (correctedReads words) } := rfl

/-! What a write to HBM and an interrupt leave of the registers -/

theorem Dev.hbmPut_csr (n : Nat) : ∀ (d : Dev) (k : Nat) (l : List Byte), (d.hbmPut n k l).csr = d.csr := by
  induction n with
  | zero => exact fun d k l => rfl
  | succ n ih => exact fun d k l => ih _ _ _

/-- A write to HBM counts at most that a migration held it. -/
theorem Dev.hbmWrite_csr (d : Dev) (h port a : Nat) (l : List Byte) :
    (d.hbmWrite h port a l).csr = (d.cnt (hbmPage h) F.HBM_CNT_COUNT 11).csr ∨ (d.hbmWrite h port a l).csr = d.csr := by
  unfold Dev.hbmWrite
  dsimp only
  rw [Dev.hbmPut_csr]
  split
  · exact .inl rfl
  · exact .inr rfl

theorem Dev.live_congr {a b : Dev} (h : a.csr = b.csr) (p : Nat) (f : Fld) : a.live p f = b.live p f := by
  rw [Dev.live, Dev.liveWord, h, Dev.word_congr h, ← Dev.liveWord, ← Dev.live]

/-- A count of a page moves no setting of another page. -/
theorem Dev.live_cnt_other (d : Dev) {p q k : Nat} {f g : Fld} (other : q ≠ p) (counts : f.off + 4 * k < 65536) (low : g.off < 65536) :
    (d.cnt p f k).live q g = d.live q g := by
  unfold Dev.cnt Dev.bump
  split
  · rfl
  · have apart : csrKey q g.off ≠ csrKey p (f.off + 4 * k) := fun same => other (csrKey_inj low counts same).1
    rw [Dev.live, Dev.liveWord, Dev.tally, Dev.word_set_ne _ _ _ _ _ _ apart]
    rfl

/-- A write to HBM moves no setting of a page other than its controller's. -/
theorem Dev.hbmWrite_live (d : Dev) (h port a : Nat) (l : List Byte) {q : Nat} {g : Fld} (other : q ≠ hbmPage h) (low : g.off < 65536) :
    (d.hbmWrite h port a l).live q g = d.live q g := by
  rcases d.hbmWrite_csr h port a l with counted | same
  · exact (Dev.live_congr counted q g).trans (d.live_cnt_other other (by decide) low)
  · exact Dev.live_congr same q g

/-- An interrupt leaves the block-specific registers of every page. -/
theorem Dev.get_int_block (d : Dev) (p i q : Nat) {f : Fld} (specific : 0x100 ≤ f.off) (low : f.off < 65536) :
    (d.int p i).get q f = d.get q f := by
  rw [Dev.get, Dev.int, Dev.word_setInt_raise, ← Dev.get, d.get_raiseInt p _ q f specific low]

/-! Words written one after another -/

theorem leNat_leBytes (n : Nat) : ∀ v, leNat (leBytes n v) = v % 256 ^ n := by
  induction n with
  | zero => exact fun v => (Nat.mod_one v).symm
  | succ n ih =>
    intro v
    rw [leBytes, leNat, ih, BitVec.toNat_ofNat, pow_succ' 256 n, Nat.mod_mul]

/-- The word at a place in a row of words is the one that was put there. -/
theorem word_of_flatMap {α : Type} {f : α → List Byte} (word : ∀ x, (f x).length = 4) :
    ∀ (l : List α) {i : Nat} (h : i < l.length), ((l.flatMap f).drop (4 * i)).take 4 = f l[i]
  | x :: l, 0, _ => by simp [List.flatMap_cons, ← word x]
  | x :: l, i + 1, h => by
    have next : 4 * (i + 1) = (f x).length + 4 * i := by rw [word]; ring
    rw [List.flatMap_cons, next, List.drop_length_add_append, word_of_flatMap word l (Nat.lt_of_succ_lt_succ h), List.getElem_cons_succ]

/-- Numbers written to HBM word by word are read there word by word. -/
theorem Dev.hbmWrite_words (d : Dev) (h port a : Nat) (v : Nat → Nat) {n i : Nat} (within : i < n) :
    Map.rd 0 (d.hbmWrite h port a ((List.range n).flatMap fun j => leBytes 4 (v j))).hbmMem (hbmKey h a + i) = BitVec.ofNat 32 (v i) := by
  have words (j : Nat) : (leBytes 4 (v j)).length = 4 := leBytes_length 4 (v j)
  have all : cdiv ((List.range n).flatMap fun j => leBytes 4 (v j)).length 4 = n := by
    simp only [List.length_flatMap, words, List.map_const', List.sum_replicate, List.length_range, smul_eq_mul, cdiv]
    omega
  obtain ⟨d', -, put⟩ := d.hbmWrite_mem h port a ((List.range n).flatMap fun j => leBytes 4 (v j))
  rw [put, all, Dev.hbmPut_in _ _ _ _ _ within, word_of_flatMap words _ (by simpa using within), List.getElem_range, leNat_leBytes]
  apply BitVec.eq_of_toNat_eq
  simp

/-! The ring of a stack (R208) -/

section
variable (d : Dev) (h : Nat)

/-- Every page of a stack's region is written to the stack's ring in memory. -/
def Dev.ringWritten : Dev :=
  d.hbmWrite h 3 (d.ringBase h) ((List.range (d.ringSize h)).flatMap fun i => leBytes 4 (d.pgBase h + i + h * 2 ^ 23))

/-- A stack's ring holds `n` pages, and BPM_PG_STAT shows them free and the stack ready. -/
def Dev.ringShown (n : Nat) : Dev :=
  (((d.setRing h { PageRing.init with count := n, valid := true }).setPgFree h n).set (bpmPage (h / 2))
    (F.BPM_PG_STAT_READY.at (16 * (h % 2))) 1).int (bpmPage (h / 2)) 4

theorem Dev.ringShown_ring (n : Nat) : (d.ringShown h n).ring h = { PageRing.init with count := n, valid := true } := by
  rw [Dev.ring, Dev.ringShown, (Dev.int_records _ _ _).rings]
  exact Map.rd_wr_same _ _ _ _

theorem Dev.ringShown_ready (n : Nat) : (d.ringShown h n).get (bpmPage (h / 2)) (F.BPM_PG_STAT_READY.at (16 * (h % 2))) = 1 := by
  rw [Dev.ringShown, Dev.get_int_block _ _ _ _ (by simp only [Fld.at]; omega) (by simp only [Fld.at]; omega)]
  exact Dev.get_set_same _ _ _ _ (by simp only [Fld.at]; decide)

theorem Dev.ringShown_free (n : Nat) : (d.ringShown h n).pgFree h = n % 2 ^ 23 := by
  rw [Dev.pgFree, Dev.ringShown, Dev.get_int_block _ _ _ _ (by simp only [Fld.at]; omega) (by simp only [Fld.at]; omega)]
  refine Eq.trans (Dev.get_set_apart _ _ _ _ _ rfl (by simp only [Fld.at]; decide) (by simp only [Fld.at]; decide)) ?_
  exact Dev.get_set_same _ _ _ _ (by simp only [Fld.at]; decide)

theorem Dev.ringShown_hbmMem (n : Nat) : (d.ringShown h n).hbmMem = d.hbmMem := by
  rw [Dev.ringShown, (Dev.int_records _ _ _).hbmMem, Dev.set_hbmMem, Dev.setPgFree, Dev.set_hbmMem, Dev.setRing]

variable {d h}

/-- The region of a stack is a setting of its buffer pool, which the write of the ring leaves. -/
theorem Dev.ringSize_ringWritten (stack : h < 4) : (d.ringWritten h).ringSize h = d.ringSize h := by
  have other : bpmPage (h / 2) ≠ hbmPage h := by unfold bpmPage hbmPage; omega
  simp only [Dev.ringSize, Dev.pgLimit, Dev.pgBase]
  rw [Dev.ringWritten, Dev.hbmWrite_live _ _ _ _ _ other (by simp only [Fld.at]; omega),
    Dev.hbmWrite_live _ _ _ _ _ other (by simp only [Fld.at]; omega)]

theorem Dev.pageRingReady_builds (stack : h < 4) (valid : (d.ring h).valid = true) (serves : d.running (bpmPage (h / 2)) = true)
    (runs : d.running (hbmPage h) = true) (unready : d.get (bpmPage (h / 2)) (F.BPM_PG_STAT_READY.at (16 * (h % 2))) = 0) :
    d.pageRingReady h = (d.ringWritten h).ringShown h (d.ringSize h) := by
  rw [← Dev.ringSize_ringWritten stack]
  exact if_pos ⟨valid, serves, runs, unready⟩

end

theorem exec_pageRingReady (s : State) (stack : Fin 4) :
    exec (.pageRingReady stack) s = .next { s with dev := s.dev.pageRingReady stack.val } := rfl

/-! The statement on spill pages -/

/-- Settles O43: the open page as it is written, a recall by the level and by what the segment begins with, the page as its read finds
it, and the ring as it is written and shown. -/
theorem spillPagesAreWrittenAndRecalled : Obligations.SpillPagesAreWrittenAndRecalled := by
  unfold Obligations.SpillPagesAreWrittenAndRecalled
  intro s q g l stack words x die low
  refine ⟨fun last unwritten begun on => ?timeout, fun full => ?full, fun low front waits written kept few serves => ?page,
    fun low empty whole => ?writer, fun front asked written kept => ⟨?read, fun w within => ?bad⟩, fun valid serves runs unready => ?ring⟩
  case timeout =>
    exact (exec_openPageTimeout s q).trans
      (next_dev ((Dev.openPageTimeout_begun last unwritten begun).trans (Dev.closePage_powered last unwritten on)))
  case full => exact (exec_recall s q).trans (next_dev (Dev.recall_full full))
  case page => exact (exec_recall s q).trans (next_dev (Dev.recall_page low front waits written kept few serves))
  case writer => exact (exec_recall s q).trans (next_dev (Dev.recall_writer low empty whole))
  case read => exact (exec_recallReadDone s q words).trans (next_dev (Dev.recallDone_front _ _ front asked written kept))
  case bad =>
    refine (s.dev.mem_wordsRead _ _ _ _ within).trans (or_congr_left (exists_congr fun i => ?_))
    rw [mem_badReads, and_comm]
  case ring =>
    refine ⟨_, (exec_pageRingReady s stack).trans (next_dev (Dev.pageRingReady_builds stack.isLt valid serves runs unready)),
      Dev.ringShown_ring _ _ _, Dev.ringShown_ready _ _ _, Dev.ringShown_free _ _ _, fun i within => ?_⟩
    rw [Dev.ringShown_hbmMem]
    exact s.dev.hbmWrite_words _ _ _ _ within

end Sys2Proof.Machine
end

section
/-! The dynamic threshold (R214, R215): what the decision on a packet is by the queue, its cap and the shared cells it would take. -/

namespace Sys2Proof.Machine

section
variable (d : Dev) (die q c k : Nat)

/-- The cells of a queue above its minimum once `c` cells more are charged to it (R214). -/
def Dev.sharedAfter : Nat := d.cntOf die q + c - d.adm die q F.SWC_ADM_PROF_MIN

/-- The shared cells that a packet of `c` cells takes anew (R215). -/
def Dev.sharedNew : Nat := d.sharedAfter die q c - (d.cntOf die q - d.adm die q F.SWC_ADM_PROF_MIN)

/-- How far above its minimum a queue may stand for a packet of colour `k` (R215). -/
def Dev.dynThreshold : Nat :=
  let code := d.adm die q (if k = 0 then F.SWC_ADM_PROF_ALPHA_G else if k = 1 then F.SWC_ADM_PROF_ALPHA_Y else F.SWC_ADM_PROF_ALPHA_R)
  if code = 0 then 0 else d.sharedFree die * 2 ^ (code - 1) / 128

variable {d die q c k}

/-- A packet takes no shared cell exactly when it is empty or the queue stays within its minimum. -/
theorem Dev.sharedNew_eq_zero_iff : d.sharedNew die q c = 0 ↔ c = 0 ∨ d.cntOf die q + c ≤ d.adm die q F.SWC_ADM_PROF_MIN := by
  unfold Dev.sharedNew Dev.sharedAfter
  omega

variable {u : Bool}

theorem Dev.admissionCode_closed (closed : d.queueClosed q u = true) : d.admissionCode die q c k u = 3 := if_pos closed

variable (takes : d.queueClosed q u = false)
include takes

theorem Dev.admissionCode_capped (capped : d.capBit die q = true) : d.admissionCode die q c k u = 2 :=
  (if_neg (ne_true_of_eq_false takes)).trans (if_pos capped)

variable (uncapped : d.capBit die q = false)
include uncapped

/-- A queue that is neither closed nor at its cap admits by the shared cells alone. -/
theorem Dev.admissionCode_shared : d.admissionCode die q c k u =
    if d.sharedNew die q c = 0 then 0
    else if d.dynThreshold die q k < d.sharedAfter die q c ∨ d.sharedFree die < d.sharedNew die q c then 1 else 0 :=
  (if_neg (ne_true_of_eq_false takes)).trans (if_neg (ne_true_of_eq_false uncapped))

theorem Dev.admissionCode_within (within : d.cntOf die q + c ≤ d.adm die q F.SWC_ADM_PROF_MIN) : d.admissionCode die q c k u = 0 :=
  (Dev.admissionCode_shared takes uncapped).trans (if_pos (Dev.sharedNew_eq_zero_iff.2 (.inr within)))

variable (beyond : d.adm die q F.SWC_ADM_PROF_MIN < d.cntOf die q + c) (cells : 0 < c)
include beyond cells

theorem Dev.admissionCode_beyond : d.admissionCode die q c k u =
    if d.dynThreshold die q k < d.sharedAfter die q c ∨ d.sharedFree die < d.sharedNew die q c then 1 else 0 := by
  have takesShared : d.sharedNew die q c ≠ 0 := fun zero => by
    rcases Dev.sharedNew_eq_zero_iff.1 zero with empty | within <;> omega
  exact (Dev.admissionCode_shared takes uncapped).trans (if_neg takesShared)

theorem Dev.admissionCode_eq_one_iff : d.admissionCode die q c k u = 1 ↔
    d.dynThreshold die q k < d.sharedAfter die q c ∨ d.sharedFree die < d.sharedNew die q c := by
  rw [Dev.admissionCode_beyond takes uncapped beyond cells]
  exact ⟨fun refused => by_contra fun fits => absurd ((if_neg fits).symm.trans refused) (by decide), fun refused => if_pos refused⟩

theorem Dev.admissionCode_eq_zero_iff : d.admissionCode die q c k u = 0 ↔
    d.sharedAfter die q c ≤ d.dynThreshold die q k ∧ d.sharedNew die q c ≤ d.sharedFree die := by
  rw [Dev.admissionCode_beyond takes uncapped beyond cells, ← not_lt, ← not_lt, ← not_or]
  exact ⟨fun admitted refused => absurd ((if_pos refused).symm.trans admitted) (by decide), fun fits => if_neg fits⟩

end

/-- Settles O40: the closed queue, the cap, the minimum and the shared cells are R215's tests in their order. -/
theorem theThresholdIsDynamic : Obligations.TheThresholdIsDynamic := by
  unfold Obligations.TheThresholdIsDynamic
  exact fun d die q c k u => ⟨Dev.admissionCode_closed, Dev.admissionCode_capped, Dev.admissionCode_within,
    fun takes uncapped beyond cells =>
      ⟨Dev.admissionCode_eq_zero_iff takes uncapped beyond cells, Dev.admissionCode_eq_one_iff takes uncapped beyond cells⟩⟩

end Sys2Proof.Machine
end

section
/-! Links and port states (R81, R226, R227): what the events of a link, a hold timer and a flush come to by the port's state. -/

namespace Sys2Proof.Machine

/-! STATE of a port (R226) -/

/-- A port's STATE is the one just written, cut to its field. -/
theorem Dev.portState_setPortState_same (d : Dev) (port st : Nat) : (d.setPortState port st).portState port = st % 8 := by
  rw [Dev.portState, Dev.setPortState, Dev.get_int_block _ _ _ _ (by simp only [Fld.at]; omega) (by simp only [Fld.at]; omega)]
  exact Dev.get_set_same _ _ _ _ (by simp only [Fld.at]; decide)

/-- The states of other ports stay. -/
theorem Dev.portState_setPortState_ne (d : Dev) {port other : Nat} (st : Nat) (h : other ≠ port) :
    (d.setPortState port st).portState other = d.portState other := by
  rw [Dev.portState, Dev.setPortState, Dev.get_int_block _ _ _ _ (by simp only [Fld.at]; omega) (by simp only [Fld.at]; omega)]
  exact Dev.get_set_ne _ _ _ _ _ _ (by simp only [Fld.at, csrKey, swcPage]; omega)

/-! The events of a link (R81, R226) -/

section
variable {d : Dev} {port : Nat}

theorem Dev.linkUp_rises (runs : d.running (portPage port) = true) (starts : d.portStarts port = true)
    (enabled : bit (d.live (portPage port) F.PG_PORT_EN_EN) (port % 8) = true)
    (unlinked : bit (d.get (portPage port) F.PG_STAT_LINK) (port % 8) = false) :
    d.linkUp port = ((d.setLink port true).stateUp port).memberMoved port :=
  if_neg (by simp [runs, starts, enabled, unlinked])

theorem Dev.linkDown_unlinked (unlinked : bit (d.get (portPage port) F.PG_STAT_LINK) (port % 8) = false) : d.linkDown port = d :=
  if_pos (by simp [unlinked])

theorem Dev.linkDown_falls (linked : bit (d.get (portPage port) F.PG_STAT_LINK) (port % 8) = true) :
    d.linkDown port = ((d.setLink port false).linkLost port).memberMoved port := if_neg (by simp [linked])

theorem Dev.linkLost_flushing (flushing : d.portState port = 3) : d.linkLost port = d.setUpPending port 0 := if_pos flushing

variable (up : d.portState port = 1) (idle : d.tx port = none)
include up idle

/-- A port in UP with nothing in transmission holds or flushes by its hold time. -/
theorem Dev.linkLost_up : d.linkLost port =
    let us := d.get (portPage port) (F.PG_PORT_HOLD_US.at (4 * (port % 8)))
    if us = 0 then d.setPortState port 3 else ((d.setPortState port 2).setHoldLeft port us).holdShapers port := by
  have notFlushing : d.portState port ≠ 3 := by rw [up]; decide
  rw [Dev.linkLost, if_neg notFlushing, Dev.stateDown, idle]
  exact if_neg (not_not.2 up)

theorem Dev.linkLost_flushes (noHold : d.get (portPage port) (F.PG_PORT_HOLD_US.at (4 * (port % 8))) = 0) :
    d.linkLost port = d.setPortState port 3 := (Dev.linkLost_up up idle).trans (if_pos noHold)

theorem Dev.linkLost_holds (hold : d.get (portPage port) (F.PG_PORT_HOLD_US.at (4 * (port % 8))) ≠ 0) :
    d.linkLost port = ((d.setPortState port 2).setHoldLeft port (d.get (portPage port) (F.PG_PORT_HOLD_US.at (4 * (port % 8))))).holdShapers port :=
  (Dev.linkLost_up up idle).trans (if_neg hold)

end

theorem exec_portLinkUp (s : State) (port : Fin 128) : exec (.portLinkUp port) s = .next { s with dev := s.dev.linkUp port.val } := rfl

theorem exec_portLinkDown (s : State) (port : Fin 128) : exec (.portLinkDown port) s = .next { s with dev := s.dev.linkDown port.val } := rfl

/-- A link that goes down leaves the port as its state and its hold time have it. -/
theorem exec_portLinkDown_falls {s : State} {port : Fin 128} {d' : Dev}
    (linked : bit (s.dev.get (portPage port.val) F.PG_STAT_LINK) (port.val % 8) = true)
    (lost : (s.dev.setLink port.val false).linkLost port.val = d') :
    exec (.portLinkDown port) s = .next { s with dev := d'.memberMoved port.val } :=
  (exec_portLinkDown s port).trans (next_dev ((Dev.linkDown_falls linked).trans (congrArg (·.memberMoved port.val) lost)))

/-! The hold timer and the flush (R226, R227) -/

section
variable {d : Dev} {port : Nat}

theorem Dev.holdExpire_holding (holding : d.portState port = 2) :
    d.holdExpire port = (((d.setPortState port 3).setHoldLeft port 0).holdShapers port).memberMoved port := if_pos holding

theorem Dev.holdExpire_other (other : d.portState port ≠ 2) : d.holdExpire port = d := if_neg other

theorem Dev.flushDone_flushing (flushing : d.portState port = 3) :
    d.flushDone port =
      let up := d.get (swcPage (port / 64)) (F.SWC_PORT_STATE_UP_PENDING.at (4 * (port % 64))) = 1
      let f := (d.flushPort port).setUpPending port 0
      ((f.setPortState port (if !f.portStarts port then 0 else if up then 1 else 4)).int (swcPage (port / 64)) 3).memberMoved port :=
  if_neg (not_not.2 flushing)

theorem Dev.flushDone_other (other : d.portState port ≠ 3) : d.flushDone port = d := if_pos other

end

theorem exec_holdTimerExpire (s : State) (port : Fin 128) :
    exec (.holdTimerExpire port) s = .next { s with dev := s.dev.holdExpire port.val } := rfl

theorem exec_flushDone (s : State) (port : Fin 128) : exec (.flushDone port) s = .next { s with dev := s.dev.flushDone port.val } := rfl

/-! The statement on links -/

/-- Settles O23: the link's events by what there is to do and by the port's state, the hold timer and the flush by the state they end,
and STATE as each of them writes it. -/
theorem portsFollowTheirLinks : Obligations.PortsFollowTheirLinks := by
  unfold Obligations.PortsFollowTheirLinks
  refine ⟨fun s port => ⟨fun runs starts enabled unlinked => ?up,
      fun linked => ⟨fun flushing => ?forget, fun up idle => ⟨fun noHold => ?flush, fun hold => ?hold⟩⟩, fun unlinked => ?unlinked⟩,
    fun s port => ⟨fun holding => ?expire, fun other => ?noExpire, fun flushing => ?done, fun other => ?noDone,
      fun d st fits => ⟨?same, fun q other => ?other⟩⟩⟩
  case up => exact (exec_portLinkUp s port).trans (next_dev (Dev.linkUp_rises runs starts enabled unlinked))
  case forget => exact exec_portLinkDown_falls linked (Dev.linkLost_flushing flushing)
  case flush => exact exec_portLinkDown_falls linked (Dev.linkLost_flushes up idle noHold)
  case hold => exact exec_portLinkDown_falls linked (Dev.linkLost_holds up idle hold)
  case unlinked => exact (exec_portLinkDown s port).trans (next_dev (Dev.linkDown_unlinked unlinked))
  case expire => exact (exec_holdTimerExpire s port).trans (next_dev (Dev.holdExpire_holding holding))
  case noExpire => exact (exec_holdTimerExpire s port).trans (next_dev (Dev.holdExpire_other other))
  case done => exact (exec_flushDone s port).trans (next_dev (Dev.flushDone_flushing flushing))
  case noDone => exact (exec_flushDone s port).trans (next_dev (Dev.flushDone_other other))
  case same => exact (d.portState_setPortState_same _ st).trans (Nat.mod_eq_of_lt fits)
  case other => exact d.portState_setPortState_ne st fun same => other (Fin.ext same)

end Sys2Proof.Machine
end

section
/-! PFC (R220, R221): what a received frame pauses and releases, the end of a pause, and the refresh of a pause that is sent. -/

namespace Sys2Proof.Machine

/-! A priority's bit of PAUSED -/

/-- A bit that is set or cleared is written with its new value, and no other. -/
theorem setOrClearBit_eq_putBits (v i : Nat) (on : Bool) : (if on then setBit v i else clrBit v i) = putBits v i 1 (b2n on) := by
  cases on
  case false => exact clrBit_eq_putBits v i
  case true => exact setBit_eq_putBits v i

theorem bit_putBits_one_same (v i : Nat) (on : Bool) : bit (putBits v i 1 (b2n on)) i = on := by
  show (bits (putBits v i 1 (b2n on)) i 1 == 1) = on
  rw [bits_putBits]
  cases on <;> rfl

theorem bit_putBits_one_ne (v x : Nat) {i k : Nat} (h : k ≠ i) : bit (putBits v i 1 x) k = bit v k := by
  show (bits (putBits v i 1 x) k 1 == 1) = (bits v k 1 == 1)
  rw [bits_putBits_ne _ _ _ _ _ _ (by omega)]

theorem bit_mod_two_pow (v : Nat) {k n : Nat} (h : k < n) : bit (v % 2 ^ n) k = bit v k := by
  show (bits (v % 2 ^ n) k 1 == 1) = (bits v k 1 == 1)
  rw [bits_mod_two_pow h]

/-! Pauses (R221) -/

section
variable (d : Dev) (port prio : Nat) (on : Bool)

/-- SWC_PFC_STAT of a port with the PAUSED bit of one priority as given. -/
def Dev.pausedShown : Dev :=
  let f := F.SWC_PFC_STAT_PAUSED.at (4 * (port % 64))
  d.set (swcPage (port / 64)) f (if on then setBit (d.get (swcPage (port / 64)) f) prio else clrBit (d.get (swcPage (port / 64)) f) prio)

/-- The queues of a port that a pause of one priority holds (R221). -/
def Dev.queuesHeld : List Nat := (d.portQueues port).filter fun q => d.qPfcEn q && d.qPrio q == prio

/-- Which queues a pause holds is read from the queue and node stores and the trunks, and from no register. -/
theorem Dev.queuesHeld_registers (c : Csr) : ({ d with csr := c } : Dev).queuesHeld port prio = d.queuesHeld port prio := rfl

/-- The priority's bit is written first, and the queues it holds follow. -/
theorem Dev.setPaused_eq : d.setPaused port prio on =
    ((d.pausedShown port prio on).queuesHeld port prio).foldl (fun d q => (d.syncPause q).touchQueue q) (d.pausedShown port prio on) := rfl

/-- Where the priority holds no queue, its bit is all that a change of its pause writes. -/
theorem Dev.setPaused_noQueues (unheld : d.queuesHeld port prio = []) : d.setPaused port prio on = d.pausedShown port prio on := by
  have still : (d.pausedShown port prio on).queuesHeld port prio = [] := (d.queuesHeld_registers port prio _).trans unheld
  rw [Dev.setPaused_eq, still, List.foldl_nil]

theorem Dev.pausedShown_get :
    (d.pausedShown port prio on).get (swcPage (port / 64)) (F.SWC_PFC_STAT_PAUSED.at (4 * (port % 64))) =
      putBits (d.get (swcPage (port / 64)) (F.SWC_PFC_STAT_PAUSED.at (4 * (port % 64)))) prio 1 (b2n on) % 2 ^ 8 := by
  rw [Dev.pausedShown, setOrClearBit_eq_putBits]
  exact Dev.get_set_same _ _ _ _ (by simp only [Fld.at]; decide)

theorem Dev.pausedShown_queue (q : Nat) : (d.pausedShown port prio on).queue q = d.queue q := rfl

end

/-! Received frames (R221) -/

section
variable {d : Dev} {port en : Nat} {times : List Nat}

theorem Dev.pfcReceive_disabled (off : d.get (swcPage (port / 64)) (F.SWC_PFC_CFG_RX_EN.at (4 * (port % 64))) = 0) :
    d.pfcReceive port en times = d := if_pos off

theorem Dev.pfcReceive_enabled (on : d.get (swcPage (port / 64)) (F.SWC_PFC_CFG_RX_EN.at (4 * (port % 64))) = 1) :
    d.pfcReceive port en times = (setBits 8 en).foldl (fun d i => d.setPaused port i (decide (times.getD i 0 ≠ 0)))
      (d.cnt (swcPage (port / 64)) F.SWC_CNT_COUNT 3) := if_neg (by rw [on]; decide)

variable (opened : d.portOpen port = true) (plain : d.isMember port = false)
include opened plain

/-- A frame on an open port outside a trunk is counted, and acted on where receive admission is open. -/
theorem Dev.pfcFrame_open : d.pfcFrame port en times =
    if !d.admits port then d.pgCnt (port / 8) (port % 8) 0 else (d.pgCnt (port / 8) (port % 8) 5).pfcReceive port en times :=
  if_neg (by simp [opened, plain])

theorem Dev.pfcFrame_unadmitted (shut : d.admits port = false) : d.pfcFrame port en times = d.pgCnt (port / 8) (port % 8) 0 :=
  (Dev.pfcFrame_open opened plain).trans (if_pos (by rw [shut]; rfl))

theorem Dev.pfcFrame_admitted (admits : d.admits port = true) :
    d.pfcFrame port en times = (d.pgCnt (port / 8) (port % 8) 5).pfcReceive port en times :=
  (Dev.pfcFrame_open opened plain).trans (if_neg (by rw [admits]; decide))

end

theorem exec_pfcFrameReceive (s : State) (port : Fin 128) (en : BitVec 8) (times : List Nat) :
    exec (.pfcFrameReceive port en times) s = .next { s with dev := s.dev.pfcFrame port.val en.toNat times } := rfl

theorem exec_pfcPauseExpire (s : State) (port : Fin 128) (prio : Fin 8) :
    exec (.pfcPauseExpire port prio) s = .next { s with dev := s.dev.pfcExpire port.val prio.val } := rfl

/-! Refreshes (R220) -/

section
variable {d : Dev} {port prio : Nat}

theorem Dev.pfcRefresh_sends (paused : bit (d.get (swcPage (port / 64)) (F.SWC_PFC_STAT_XOFF.at (4 * (port % 64)))) prio = true)
    (enabled : d.pfcEnabled port prio = true) (full : d.get (swcPage (port / 64)) F.SWC_PFC_THR_XON ≤ d.pfcCount port prio) :
    d.pfcRefresh port prio = d.sendPfc port prio (d.get (swcPage (port / 64)) (F.SWC_PFC_CFG_QUANTA.at (4 * (port % 64)))) :=
  if_pos ⟨paused, enabled, full⟩

theorem Dev.pfcRefresh_below (below : d.pfcCount port prio < d.get (swcPage (port / 64)) F.SWC_PFC_THR_XON) : d.pfcRefresh port prio = d :=
  if_neg fun sends => Nat.not_le.2 below sends.2.2

end

theorem exec_pfcRefresh (s : State) (port : Fin 128) (prio : Fin 8) :
    exec (.pfcRefresh port prio) s = .next { s with dev := s.dev.pfcRefresh port.val prio.val } := rfl

/-! The statement on PFC -/

/-- Settles O42: a frame by receive admission and RX_EN, the end of a pause, a refresh by the count against XON, and the bit that a
pause writes. -/
theorem pauseFollowsReceivedFrames : Obligations.PauseFollowsReceivedFrames := by
  unfold Obligations.PauseFollowsReceivedFrames
  intro s port prio en times p n
  refine ⟨fun opened plain shut => ?shut, fun opened plain admits => ⟨fun off => ?off, fun on => ?on⟩, fun reachable => ?expire,
    fun paused enabled full => ?sends, fun below => ?below, fun d on q unheld => ?bit⟩
  case shut => exact (exec_pfcFrameReceive s port en times).trans (next_dev (Dev.pfcFrame_unadmitted opened plain shut))
  case off =>
    exact (exec_pfcFrameReceive s port en times).trans (next_dev ((Dev.pfcFrame_admitted opened plain admits).trans (Dev.pfcReceive_disabled off)))
  case on =>
    exact (exec_pfcFrameReceive s port en times).trans (next_dev ((Dev.pfcFrame_admitted opened plain admits).trans (Dev.pfcReceive_enabled on)))
  case expire => exact (exec_pfcPauseExpire s port prio).trans (next_dev (if_pos reachable))
  case sends => exact (exec_pfcRefresh s port prio).trans (next_dev (Dev.pfcRefresh_sends paused enabled full))
  case below => exact (exec_pfcRefresh s port prio).trans (next_dev (Dev.pfcRefresh_below below))
  case bit =>
    dsimp only
    rw [d.setPaused_noQueues port.val prio.val on unheld, d.pausedShown_get port.val prio.val on, bit_mod_two_pow _ prio.isLt]
    refine ⟨bit_putBits_one_same _ _ on, fun k field other => ?_, d.pausedShown_queue port.val prio.val on q⟩
    rw [bit_mod_two_pow _ field, bit_putBits_one_ne _ _ other]

end Sys2Proof.Machine
end

section
/-! Steps, commands and reset (R38, R411): what a step runs, that a command answers and leaves the queue, and the state after reset. -/

namespace Sys2Proof.Machine

/-- Settles O1: a step on an empty queue is a tick, which advances the clock; on any other it is the front command's effect. -/
theorem stepRunsTheFrontCommand : Obligations.StepRunsTheFrontCommand := by
  unfold Obligations.StepRunsTheFrontCommand
  exact ⟨fun _ _ _ => step_of_front, fun s empty => ⟨step_of_empty empty, by rw [Dev.tick, Dev.setPower_power]⟩⟩

/-- Settles O2: each arm of `exec` gives a next state outright, made of the given one by its block and its trust anchors alone. -/
theorem everyCommandAnswersAndLeavesTheQueue : Obligations.EveryCommandAnswersAndLeavesTheQueue := by
  unfold Obligations.EveryCommandAnswersAndLeavesTheQueue
  intro c s
  cases c <;> exact ⟨_, rfl, rfl⟩

/-- Settles O6: the laws of each memory, one clause after another. -/
theorem memoryOperationsKeepTheForm : Obligations.MemoryOperationsKeepTheForm := by
  unfold Obligations.MemoryOperationsKeepTheForm
  intro d a b e c v h wf
  have mem : Map.wf (fun _ => 0) d.lkp.mem = true := ((Memory.wf_iff d).1 wf).2.2.2.1
  exact ⟨d.writeCell_wf a b wf, d.cellBytes_writeCell a b, fun _ => d.cellBytes_writeCell_ne b, d.setCell_wf a e wf, d.cell_setCell a e,
    fun _ => d.cell_setCell_ne e, d.csCommit_wf c a v wf, fun space => d.aptPut_wf space a v wf, d.markBad_wf h a wf,
    fun q w p x => d.setMem_wf _ (putEntry_wf _ q w p x mem) wf, fun port => ⟨d.hbmWrite_wf h port a b wf,
      fun n => d.hbmRead_hbmWrite h port a n b, fun x n aligned start apart => d.hbmRead_hbmWrite_out h port a x n b start aligned apart⟩⟩

/-- An HBM word that nothing has written reads 0. -/
theorem Dev.hbmRead_unwritten {d : Dev} {h a : Nat} (n : Nat) (unwritten : ∀ i, i < cdiv n 4 → Map.rd 0 d.hbmMem (hbmKey h a + i) = 0) :
    d.hbmRead h a n = List.replicate n 0 := by
  have words : ∀ i ∈ List.range (cdiv n 4), leBytes 4 (Map.rd 0 d.hbmMem (hbmKey h a + i)).toNat = List.replicate 4 0 := fun i hi => by
    rw [unwritten i (List.mem_range.1 hi)]
    rfl
  have enough : n ≤ cdiv n 4 * 4 := by unfold cdiv; omega
  rw [Dev.hbmRead, List.flatMap_congr words, List.eq_replicate_iff]
  refine ⟨by simpa using enough, fun b hb => ?_⟩
  obtain ⟨i, -, hi⟩ := List.mem_flatMap.1 (List.mem_of_mem_take hb)
  exact List.eq_of_mem_replicate hi

/-- No register has been written at reset: each domain's state is its register's reset value. -/
theorem Dev.domState_reset : ∀ n : Fin 30, Dev.reset.domState n.val = if n.val = 29 then 3 else 0 := by decide +kernel

/-- Settles O5: nothing has been written, so that registers, HBM words and cells read what their stores give where they list nothing. -/
theorem resetIsWellFormed : Obligations.ResetIsWellFormed := by
  unfold Obligations.ResetIsWellFormed
  exact ⟨rfl, rfl, Trust.reset_wf, Memory.wf_reset, by decide, rfl, rfl, by decide, Dev.domState_reset, fun _ _ => rfl,
    fun _ _ n => Dev.hbmRead_unwritten n fun _ _ => rfl, fun _ => rfl⟩

end Sys2Proof.Machine
end

section
/-! Loss of the island (R411, log entry 57): the registers beyond the island's pages and the states of the domains stay. -/

namespace Sys2Proof.Machine

theorem Dev.resetPage_word_ne (d : Dev) {p q o : Nat} (other : q ≠ p) (low : o < 65536) : (d.resetPage p).word q o = d.word q o :=
  Map.rd_dropRange_out _ _ _ _ (by unfold csrKey; omega)

/-- Setting the states of domains one after another, each its own. -/
theorem Dev.domState_setDoms (d e : Dev) (k : Nat) (narrow : ∀ i, e.domState i < 8) : ∀ n, n < k →
    (((List.range k).map fun n => (n, e.domState n)).foldl (fun d x => d.setDom x.1 x.2) d).domState n = e.domState n := by
  rw [List.foldl_map]
  induction k with
  | zero => exact fun n hn => absurd hn (Nat.not_lt_zero n)
  | succ k ih =>
    intro n hn
    rw [List.range_succ, List.foldl_append, List.foldl_cons, List.foldl_nil]
    rcases eq_or_ne n k with rfl | hne
    · rw [Dev.domState_setDom_same, Nat.mod_eq_of_lt (narrow n)]
    · rw [Dev.domState_setDom_ne _ _ hne]
      exact ih n (by omega)

theorem Dev.domState_lt (d : Dev) (n : Nat) : d.domState n < 8 := bits_lt _ _ _

/-- The island's pages at reset, with the states of the domains as they were. -/
def Dev.islandRegs (d : Dev) : Dev :=
  ((List.range 30).map fun n => (n, d.domState n)).foldl (fun d x => d.setDom x.1 x.2) (islandPages.foldl (fun d p => d.resetPage p) d)

theorem Dev.islandStop_eq (d : Dev) : d.islandStop =
    { d.islandRegs with
      log := ErrLog.reset, modes := Modes.reset,
      power := { d.islandRegs.power with island := false, thermLow := false, trip := false, lossSeen := false, changes := [], pd29Faults := [],
                                         refSlewing := false, holdNs := 0 } } := by
  simp only [Dev.islandStop, Dev.islandRegs]

theorem Dev.islandStop_csr (d : Dev) : d.islandStop.csr = d.islandRegs.csr := by rw [Dev.islandStop_eq]

theorem Dev.islandStop_domState (d : Dev) {n : Nat} (hn : n < 30) : d.islandStop.domState n = d.domState n :=
  (Dev.get_congr d.islandStop_csr _ _).trans (Dev.domState_setDoms _ d 30 d.domState_lt n hn)

theorem Dev.islandStop_word (d : Dev) {q o : Nat} (beyond : 5 ≤ q) (low : o < 65536) : d.islandStop.word q o = d.word q o := by
  refine (Dev.word_congr d.islandStop_csr q o).trans ?_
  refine (Dev.foldl_keeps (Dev.word · q o) _ _ (fun d x hx => ?states) _).trans (Dev.foldl_keeps (Dev.word · q o) _ _ (fun d p hp => ?pages) d)
  case states =>
    obtain ⟨n, hn, rfl⟩ := List.mem_map.1 hx
    refine d.word_set_ne _ _ _ _ _ ?_
    have := List.mem_range.1 hn
    simp only [Fld.at, csrKey]
    omega
  case pages =>
    refine d.resetPage_word_ne ?_ low
    rintro rfl
    have : ∀ q ∈ islandPages, q < 5 := by decide
    exact absurd (this _ hp) (by omega)

theorem exec_systemReset (s : State) :
    exec .systemReset s = .next { s with trust := Trust.reset, dev := s.dev.islandStop.setPower { s.dev.islandStop.power with rstLow := true } } := rfl

theorem exec_standbyLoss (s : State) :
    exec .standbyLoss s = .next { s with trust := Trust.reset, dev := s.dev.islandStop.setPower { s.dev.islandStop.power with standbyOk := false } } := rfl

theorem Dev.islandStop_clears (d : Dev) : d.islandStop.log = ErrLog.reset ∧ d.islandStop.modes = Modes.reset ∧ d.islandStop.power.island = false := by
  rw [Dev.islandStop_eq]
  exact ⟨rfl, rfl, rfl⟩

/-- A stopped island: log and mode unit at reset, the domains' states and the pages beyond the island as they were in `a`. -/
def Dev.IslandLost (a b : Dev) : Prop :=
  b.log = ErrLog.reset ∧ b.modes = Modes.reset ∧ (∀ n, n < 30 → b.domState n = a.domState n) ∧
    ∀ q o, 5 ≤ q → o < 65536 → b.word q o = a.word q o

theorem Dev.islandStop_lost (d : Dev) : d.IslandLost d.islandStop :=
  ⟨d.islandStop_clears.1, d.islandStop_clears.2.1, fun _ => d.islandStop_domState, fun _ _ => d.islandStop_word⟩

/-- What a command answers that stops the island and notes its cause in the inputs. -/
theorem islandLost_answer {s : State} {c : Instr} {d : Dev} {x : Power} (lost : s.dev.IslandLost d)
    (answer : exec c s = .next { s with trust := Trust.reset, dev := d.setPower x }) (stopped : x.island = false) :
    ∃ t, exec c s = .next t ∧ t.pending = s.pending ∧ t.trust = Trust.reset ∧ t.dev.log = ErrLog.reset ∧ t.dev.modes = Modes.reset ∧
      t.dev.power.island = false ∧ t.dev.power = x ∧ (∀ n, n < 30 → t.dev.domState n = s.dev.domState n) ∧
      ∀ q o, 5 ≤ q → o < 65536 → t.dev.word q o = s.dev.word q o := by
  obtain ⟨log, modes, states, regs⟩ := lost
  exact ⟨_, answer, rfl, rfl, log, modes, stopped, rfl, states, regs⟩

/-- Settles O17: both commands stop the island and note their own input. -/
theorem islandLossClearsTheAnchors : Obligations.IslandLossClearsTheAnchors := by
  unfold Obligations.IslandLossClearsTheAnchors
  intro s
  obtain ⟨-, -, stopped⟩ := s.dev.islandStop_clears
  have lost := s.dev.islandStop_lost
  obtain ⟨t, ht, queue, trust, log, modes, island, inputs, states, regs⟩ := islandLost_answer lost (exec_systemReset s) stopped
  obtain ⟨u, hu, queue', trust', log', modes', island', inputs', states', regs'⟩ := islandLost_answer lost (exec_standbyLoss s) stopped
  exact ⟨⟨t, ht, queue, trust, log, modes, island, by rw [inputs], states, regs⟩,
    ⟨u, hu, queue', trust', log', modes', island', by rw [inputs'], states', regs'⟩⟩

end Sys2Proof.Machine
end

section
/-! The event log and the patrol scrub (R389, R390, R392): what appending a record does to the ring and to the registers that show
it, how the host reads and pops it, and what a scrub visit counts. -/

namespace Sys2Proof.Machine

/-! Appending (R389, R390) -/

/-- The ring and the latch with a record appended. -/
def ErrLog.append (l : ErrLog) (w : List Word) : ErrLog :=
  { l with ring := (if 4096 ≤ l.ring.length then l.ring.drop 1 else l.ring) ++ [w],
           latch := if 4096 ≤ l.ring.length then none else l.latch }

theorem ErrLog.append_room {l : ErrLog} (w : List Word) (room : l.ring.length < 4096) :
    (l.append w).ring = l.ring ++ [w] ∧ (l.append w).latch = l.latch := by
  simp only [ErrLog.append, if_neg (Nat.not_le.2 room), and_self]

theorem ErrLog.append_full {l : ErrLog} (w : List Word) (full : 4096 ≤ l.ring.length) :
    (l.append w).ring = l.ring.drop 1 ++ [w] ∧ (l.append w).latch = none := by
  simp only [ErrLog.append, if_pos full, and_self]

theorem ErrLog.append_length {l : ErrLog} (w : List Word) (within : l.ring.length ≤ 4096) : (l.append w).ring.length ≤ 4096 := by
  rcases Nat.lt_or_ge l.ring.length 4096 with room | full
  · rw [(ErrLog.append_room w room).1, List.length_append, List.length_singleton]
    exact room
  · rw [(ErrLog.append_full w full).1, List.length_append, List.length_drop, List.length_singleton]
    omega

/-- The record of an append, as the time and the sequence number at it make it. -/
def Dev.recordWords (d : Dev) (r : LogRec) : List Word := r.words d.time.sec d.time.ns (d.get 0x04 F.ERR_LOG_SEQ_SEQ)

/-- The ring with the record appended, and the sequence number and the count that show it. -/
def Dev.appended (d : Dev) (r : LogRec) : Dev :=
  (({ d with log := d.log.append (d.recordWords r) } : Dev).set 0x04 F.ERR_LOG_SEQ_SEQ (d.get 0x04 F.ERR_LOG_SEQ_SEQ + 1)).set 0x04
    F.ERR_LOG_STAT_COUNT (d.log.append (d.recordWords r)).ring.length

/-- With a full ring a record is lost. -/
def Dev.noteLost (d : Dev) (full : Prop) [Decidable full] : Dev := if full then (d.bump 0x04 F.ERR_LOG_STAT_LOST).int 0x04 1 else d

/-- The interrupts of an append: the ring was empty, and the record's class. -/
def Dev.noteAppend (d : Dev) (was : Bool) (cls : Nat) : Dev :=
  let d := if was = true then d.int 0x04 0 else d
  let d := if cls = 1 ∨ cls = 2 then d.int 0x04 2 else d
  if cls = 7 then d.int 0x04 4 else d

theorem Dev.pushLog_eq (d : Dev) (r : LogRec) :
    d.pushLog r = ((d.appended r).noteLost (4096 ≤ d.log.ring.length)).noteAppend d.log.ring.isEmpty r.cls := rfl

/-- Interrupts write the common header alone. -/
theorem Dev.get_int (d : Dev) (p i q : Nat) {f : Fld} (low : 0x100 ≤ f.off) (high : f.off < 65536) : (d.int p i).get q f = d.get q f :=
  congrArg (fun w : Word => bits w.toNat f.lsb f.wd) (d.word_setInt p _ q f.off (by unfold csrKey; omega) (by unfold csrKey; omega))

theorem Dev.log_int (d : Dev) (p i : Nat) : (d.int p i).log = d.log := by
  simp only [Dev.int, Dev.setInt, Dev.raiseInt, Dev.sendRoute, Dev.sendMsix]
  split_ifs <;> rfl

theorem Dev.bit_int (d : Dev) (p : Nat) {i : Nat} (hi : i < 32) : bit ((d.int p i).word p 0x10).toNat i = true := by
  rw [Dev.int, Dev.word_setInt_stat, BitVec.toNat_or, BitVec.toNat_ofNat, Nat.mod_eq_of_lt (Nat.pow_lt_pow_right (by decide) hi)]
  exact (bit_lor _ _ _).trans (by rw [bit_two_pow, decide_eq_true rfl, Bool.or_true])

theorem Dev.noteAppend_get (d : Dev) (was : Bool) (cls : Nat) {f : Fld} (low : 0x100 ≤ f.off) (high : f.off < 65536) :
    (d.noteAppend was cls).get 0x04 f = d.get 0x04 f := by
  have step : ∀ (e : Dev) (c : Prop) [Decidable c] (i : Nat), (if c then e.int 0x04 i else e).get 0x04 f = e.get 0x04 f := fun e c _ i => by
    split
    · exact e.get_int _ _ _ low high
    · rfl
  rw [Dev.noteAppend, step, step, step]

theorem Dev.noteAppend_log (d : Dev) (was : Bool) (cls : Nat) : (d.noteAppend was cls).log = d.log := by
  have step : ∀ (e : Dev) (c : Prop) [Decidable c] (i : Nat), (if c then e.int 0x04 i else e).log = e.log := fun e c _ i => by
    split
    · exact e.log_int _ _
    · rfl
  rw [Dev.noteAppend, step, step, step]

theorem Dev.noteAppend_ints (d : Dev) (was : Bool) (cls : Nat) : d.KeepsHeader (d.noteAppend was cls) := by
  have step : ∀ (e : Dev) (c : Prop) [Decidable c] (i : Nat), d.KeepsHeader e → d.KeepsHeader (if c then e.int 0x04 i else e) :=
    fun e c _ i h => h.trans (.ite c (e.setInt_keepsHeader _ _) (.refl e))
  exact step _ _ _ (step _ _ _ (step _ _ _ (.refl d)))

theorem Dev.noteLost_log (d : Dev) (full : Prop) [Decidable full] : (d.noteLost full).log = d.log := by
  unfold Dev.noteLost
  split
  · rw [Dev.log_int, Dev.bump_eq_tally _ _ _ _ rfl]
    exact Dev.set_log _ _ _ _
  · rfl

theorem Dev.noteLost_get (d : Dev) (full : Prop) [Decidable full] {f : Fld} (low : 0x100 ≤ f.off) (high : f.off < 65536)
    (apart : ∀ v, (d.set 0x04 F.ERR_LOG_STAT_LOST v).get 0x04 f = d.get 0x04 f) : (d.noteLost full).get 0x04 f = d.get 0x04 f := by
  unfold Dev.noteLost
  split
  · rw [Dev.get_int _ _ _ _ low high, Dev.bump_eq_tally _ _ _ _ rfl]
    exact apart _
  · rfl

section
variable (d : Dev) (r : LogRec)

theorem Dev.pushLog_log : (d.pushLog r).log = d.log.append (d.recordWords r) := by
  rw [Dev.pushLog_eq, Dev.noteAppend_log, Dev.noteLost_log]
  rfl

theorem Dev.pushLog_seq : (d.pushLog r).get 0x04 F.ERR_LOG_SEQ_SEQ = (d.get 0x04 F.ERR_LOG_SEQ_SEQ + 1) % 2 ^ 32 := by
  rw [Dev.pushLog_eq, Dev.noteAppend_get _ _ _ (by decide) (by decide),
    Dev.noteLost_get _ _ (by decide) (by decide) fun v => Dev.get_set_ne _ _ _ _ _ _ (by decide), Dev.appended,
    Dev.get_set_ne _ _ _ _ _ _ (by decide), Dev.get_set_same _ _ _ _ (by decide)]

theorem Dev.pushLog_count (within : d.log.ring.length ≤ 4096) :
    (d.pushLog r).get 0x04 F.ERR_LOG_STAT_COUNT = (d.log.append (d.recordWords r)).ring.length := by
  have held : (d.log.append (d.recordWords r)).ring.length ≤ 4096 := ErrLog.append_length _ within
  rw [Dev.pushLog_eq, Dev.noteAppend_get _ _ _ (by decide) (by decide),
    Dev.noteLost_get _ _ (by decide) (by decide) fun v => Dev.get_set_apart _ _ F.ERR_LOG_STAT_LOST F.ERR_LOG_STAT_COUNT v rfl (by decide) (by decide),
    Dev.appended, Dev.get_set_same _ _ _ _ (by decide)]
  exact Nat.mod_eq_of_lt (held.trans_lt (by decide))

theorem Dev.appended_lost : (d.appended r).get 0x04 F.ERR_LOG_STAT_LOST = d.get 0x04 F.ERR_LOG_STAT_LOST := by
  rw [Dev.appended, Dev.get_set_apart _ _ F.ERR_LOG_STAT_COUNT F.ERR_LOG_STAT_LOST _ rfl (by decide) (by decide), Dev.get_set_ne _ _ _ _ _ _ (by decide)]
  rfl

theorem Dev.pushLog_lost (full : 4096 ≤ d.log.ring.length) :
    bit ((d.pushLog r).word 0x04 0x10).toNat 1 = true ∧
      (d.pushLog r).get 0x04 F.ERR_LOG_STAT_LOST = satAdd 16 (d.get 0x04 F.ERR_LOG_STAT_LOST) 1 := by
  rw [Dev.pushLog_eq, Dev.noteLost, if_pos full]
  refine ⟨(Dev.noteAppend_ints _ _ _).ints _ _ (Dev.bit_int _ _ (by decide)), ?_⟩
  rw [Dev.noteAppend_get _ _ _ (by decide) (by decide), Dev.get_int _ _ _ _ (by decide) (by decide), Dev.bump_eq_tally _ _ _ _ rfl,
    Dev.tally, Dev.get_set_same _ _ _ _ (by decide), Dev.appended_lost]
  exact Nat.mod_eq_of_lt (satAdd_lt _ _ _)

/-- The record's class raises its interrupt. -/
theorem Dev.pushLog_class : ((r.cls = 1 ∨ r.cls = 2) → bit ((d.pushLog r).word 0x04 0x10).toNat 2 = true) ∧
    (r.cls = 7 → bit ((d.pushLog r).word 0x04 0x10).toNat 4 = true) := by
  rw [Dev.pushLog_eq]
  generalize (d.appended r).noteLost (4096 ≤ d.log.ring.length) = e
  refine ⟨fun ecc => ?_, fun power => ?_⟩
  · have other : r.cls ≠ 7 := by omega
    simp only [Dev.noteAppend, if_pos ecc, if_neg other]
    exact Dev.bit_int _ _ (by decide)
  · simp only [Dev.noteAppend, if_pos power]
    exact Dev.bit_int _ _ (by decide)

/-- A class that is not logged leaves the log. -/
theorem Dev.post_unlogged (off : bit (d.get 0x04 F.ERR_CFG_LOG_EN) r.cls = false) (cls : r.cls < 8) : (d.post r).log = d.log := by
  have apart : csrKey 0x04 F.ERR_CFG_LOG_EN.off ≠ csrKey 0x04 (F.ERR_CNT_COUNT.at (4 * r.cls)).off := by
    simp only [Fld.at, csrKey]
    omega
  have counts : d.bump 0x04 (F.ERR_CNT_COUNT.at (4 * r.cls)) = d.tally 0x04 (F.ERR_CNT_COUNT.at (4 * r.cls)) :=
    Dev.bump_eq_tally _ _ _ _ rfl
  have same : (d.tally 0x04 (F.ERR_CNT_COUNT.at (4 * r.cls))).get 0x04 F.ERR_CFG_LOG_EN = d.get 0x04 F.ERR_CFG_LOG_EN :=
    Dev.get_set_ne _ _ _ _ _ _ apart
  rw [Dev.post, counts, same, off, if_neg Bool.false_ne_true]
  exact Dev.set_log _ _ _ _

end

/-! Reading and popping (R390) -/

theorem exec_errLogPop (s : State) (req : BitVec 16) (hr : s.dev.reachable 0x04) : exec (.errLogPop req) s = .next { s with dev := s.dev.logPop } :=
  runHost_eq _ s _ (Reach.act_logPop _ _ hr)

/-- A host read of ERR_LOG_REC[k]. -/
theorem runHost_logRead (s : State) (k : Fin 8) (req : BitVec 16) (hr : s.dev.reachable 0x04) :
    runHost (fun x => x.hostRead 0 (65536 * 0x04 + (0x0120 + 4 * k.val)) req.toNat .clean) s =
      .next { s with dev := (s.dev.logRead k.val req.toNat).2.emit (.readData (s.dev.logRead k.val req.toNat).1) } := by
  have read : s.dev.regRead 0x04 (0x0120 + 4 * k.val) req.toNat = s.dev.logRead k.val req.toNat := by
    rw [Dev.regRead, if_pos ⟨rfl, by omega, by omega⟩, Nat.add_sub_cancel_left, Nat.mul_div_cancel_left _ (by decide)]
  have plain : isTrust 0x04 (0x0120 + 4 * k.val) = false := rfl
  rw [runHost_regRead s req hr (by omega) (by omega) plain, read]

theorem exec_logRecordLatch (s : State) (req : BitVec 16) (hr : s.dev.reachable 0x04) :
    exec (.logRecordLatch req) s = .next { s with dev := (s.dev.logRead 0 req.toNat).2.emit (.readData (s.dev.logRead 0 req.toNat).1) } :=
  runHost_logRead s 0 req hr

section
variable {d : Dev} {w : List Word} {l : List (List Word)}

theorem Dev.logRead_empty (empty : d.log.ring = []) (req : Nat) : d.logRead 0 req = (0, d) := by
  simp only [Dev.logRead, empty, if_true, List.isEmpty_nil, List.headD_nil, List.getD_nil]

theorem Dev.logRead_oldest (held : d.log.ring = w :: l) (req : Nat) :
    d.logRead 0 req = (w.getD 0 0, { d with log := { d.log with latch := some w } }) := by
  simp only [Dev.logRead, held, if_true, List.isEmpty_cons, List.headD_cons, Bool.false_eq_true, if_false]

theorem Dev.logRead_latched {k : Nat} (later : k ≠ 0) (latched : d.log.latch = some w) (req : Nat) : d.logRead k req = (w.getD k 0, d) := by
  simp only [Dev.logRead, latched, if_neg later]

theorem Dev.logRead_unlatched {k : Nat} (later : k ≠ 0) (held : d.log.ring = w :: l) (free : d.log.latch = none) (req : Nat) :
    d.logRead k req = (w.getD k 0, d.capture { page := 0x04, kinds := [0x05], off := 0x0120 + 4 * k, req := req }) := by
  simp only [Dev.logRead, held, free, if_neg later, List.headD_cons]

theorem Dev.logPop_empty (empty : d.log.ring = []) : d.logPop = d := by rw [Dev.logPop, empty]

theorem Dev.logPop_oldest (held : d.log.ring = w :: l) :
    d.logPop = ({ d with log := { d.log with ring := l, latch := none } } : Dev).set 0x04 F.ERR_LOG_STAT_COUNT l.length := by
  simp only [Dev.logPop, held]

end

/-! Scrub visits (R392, R394) -/

theorem exec_scrubVisit (s : State) (m : Fin 8) (die : Fin 2) (addr : Nat) (ecc : Ecc) :
    exec (.scrubVisit m die addr ecc) s = .next { s with dev := s.dev.scrubVisit m.val die.val addr ecc } := rfl

section
variable {d : Dev} {m die addr : Nat}

theorem Dev.scrubVisit_none (ecc : Ecc) (h : d.get 0x04 F.ERR_SCRUB_EN = 0 ∨ d.pageOn (scrubPage m die addr) = false) :
    d.scrubVisit m die addr ecc = d := if_pos (h.imp_right fun off => by rw [off]; rfl)

/-- The scrubber has visited a word. -/
def Dev.seen (d : Dev) : Dev := { d with log := { d.log with visited := true } }

variable (on : d.get 0x04 F.ERR_SCRUB_EN ≠ 0) (power : d.pageOn (scrubPage m die addr) = true)
include on power

theorem Dev.scrubVisit_made (ecc : Ecc) : d.scrubVisit m die addr ecc = match ecc with
    | .bad => (((if m = 5 then d.seen else d.seen.eccCount m die .bad)).event (scrubPage m die addr) 4 (if m = 0 ∨ m = 4 then 1 else 2) m addr
        (pageInst (scrubPage m die addr))).contain m die addr
    | e => d.seen.eccCount m die e :=
  if_neg (by simp [on, power])

end

theorem Dev.Records.cell {a b : Dev} (h : a.Records b) (c : Nat) : b.cell c = a.cell c := by rw [Dev.cell, h.cells, Dev.cell]

/-- An uncorrectable entry of an allocated cell is marked. -/
theorem Dev.contain_entry {d : Dev} {die addr : Nat} (entry : addr < 262144) (alloc : (d.cell (262144 * die + addr)).alloc = true) :
    d.contain 1 die addr = d.setCell (262144 * die + addr) { d.cell (262144 * die + addr) with ue := true } := by
  simp only [Dev.contain, if_pos entry, alloc, if_true]

/-- Counting and logging the word leaves the entry to be marked as it was. -/
theorem Dev.contain_seen {d : Dev} {die addr : Nat} (entry : addr < 262144) (alloc : (d.cell (262144 * die + addr)).alloc = true) :
    ((d.seen.eccCount 1 die .bad).event (bpmPage die) 4 2 1 addr (pageInst (bpmPage die))).contain 1 die addr =
      ((d.seen.eccCount 1 die .bad).event (bpmPage die) 4 2 1 addr (pageInst (bpmPage die))).setCell (262144 * die + addr)
        { d.cell (262144 * die + addr) with ue := true } := by
  have kept := ((d.seen.eccCount_records 1 die .bad).trans
    (Dev.event_records _ (bpmPage die) 4 2 1 addr (pageInst (bpmPage die)))).cell (262144 * die + addr)
  have cell : d.seen.cell (262144 * die + addr) = d.cell (262144 * die + addr) := rfl
  rw [cell] at kept
  rw [Dev.contain_entry entry (by rw [kept]; exact alloc), kept]

/-- Settles O14: an append in its parts, the host's reads and pops by what the ring and the latch hold, and the visits by what the
check bits say. -/
theorem theLogKeepsItsNewestRecords : Obligations.TheLogKeepsItsNewestRecords := by
  unfold Obligations.TheLogKeepsItsNewestRecords
  refine ⟨fun d r => ?appends, fun s req hr => ⟨fun empty => ?empty, fun w l held => ?held⟩, fun s m die addr ecc => ⟨fun off => ?off, fun on power => ?visits⟩⟩
  case appends =>
    intro seq w
    rw [Dev.pushLog_log]
    refine ⟨fun room => ErrLog.append_room _ room, fun full => ?_, fun within => ⟨ErrLog.append_length _ within, d.pushLog_count r within⟩,
      d.pushLog_seq r, (d.pushLog_class r).1, (d.pushLog_class r).2, d.post_unlogged r⟩
    obtain ⟨ring, latch⟩ := ErrLog.append_full (d.recordWords r) full
    exact ⟨ring, latch, d.pushLog_lost r full⟩
  case empty =>
    exact ⟨(exec_errLogPop s req hr).trans (by rw [Dev.logPop_empty empty]), by rw [exec_logRecordLatch s req hr, Dev.logRead_empty empty]⟩
  case held =>
    refine ⟨(exec_errLogPop s req hr).trans (next_dev (Dev.logPop_oldest held)), by rw [exec_logRecordLatch s req hr, Dev.logRead_oldest held],
      fun k later latched => ?_, fun k later free => ?_⟩
    · rw [Nat.add_assoc, exec_rcRead_bar0, runHost_logRead s k req hr, Dev.logRead_latched later latched]
    · dsimp only
      rw [Nat.add_assoc, exec_rcRead_bar0, runHost_logRead s k req hr, Dev.logRead_unlatched later held free]
  case off => exact (exec_scrubVisit s m die addr ecc).trans (by rw [Dev.scrubVisit_none ecc off])
  case visits =>
    refine ⟨(exec_scrubVisit _ _ _ _ _).trans (next_dev (Dev.scrubVisit_made on power .clean)),
      (exec_scrubVisit _ _ _ _ _).trans (next_dev (Dev.scrubVisit_made on power .corrected)), fun hm entry alloc => ?_⟩
    subst hm
    exact (exec_scrubVisit _ _ _ _ _).trans (next_dev ((Dev.scrubVisit_made on power .bad).trans (Dev.contain_seen entry alloc)))

end Sys2Proof.Machine
end
section
/-! The address map of a stack (R292): the grains of a logical address go to 30 ranks in turn, and the remap gives the physical rank. -/

namespace Sys2Proof.Machine

section
variable {x : Hbm} {rate g : Nat} (trained : x.full = some (rate, g))
include trained

theorem Hbm.split_of_full (a : Nat) : x.split a = (a / (256 * 2 ^ g) % 30, a / (256 * 2 ^ g) / 30 * (256 * 2 ^ g) + a % (256 * 2 ^ g)) := by
  rw [Hbm.split, trained, Option.getD_some]

theorem Hbm.join_of_full (lr r : Nat) : x.join lr r = (r / (256 * 2 ^ g) * 30 + lr) * (256 * 2 ^ g) + r % (256 * 2 ^ g) := by
  rw [Hbm.join, trained, Option.getD_some]

end

/-- A grain of 256 B to 8 KB divides a rank of 768 MB. -/
theorem grain_divides {g : Nat} (h : g ≤ 5) : 256 * 2 ^ g * (98304 * 2 ^ (5 - g)) = 768 * 2 ^ 20 := by
  interval_cases g <;> rfl

section
variable {G n : Nat} (size : G * n = 768 * 2 ^ 20)
include size

/-- An address of the stack lies below the end of its rank. -/
theorem rankAddress_lt {a : Nat} (h : a < hbmSize) : a / G / 30 * G + a % G < 768 * 2 ^ 20 := by
  have pos : 0 < G := Nat.pos_of_ne_zero fun zero => by rw [zero] at size; omega
  have grains : a / G < 30 * n := (Nat.div_lt_iff_lt_mul pos).2 (h.trans_eq (by
    rw [Nat.mul_assoc, Nat.mul_comm n G, size]; decide))
  calc a / G / 30 * G + a % G < a / G / 30 * G + G := Nat.add_lt_add_left (Nat.mod_lt _ pos) _
    _ = (a / G / 30 + 1) * G := (Nat.succ_mul _ _).symm
    _ ≤ n * G := Nat.mul_le_mul_right G (by omega)
    _ = 768 * 2 ^ 20 := by rw [Nat.mul_comm, size]

/-- An address of a rank is one of the stack's. -/
theorem stackAddress_lt {lr r : Nat} (hl : lr < 30) (h : r < 768 * 2 ^ 20) : (r / G * 30 + lr) * G + r % G < hbmSize := by
  have pos : 0 < G := Nat.pos_of_ne_zero fun zero => by rw [zero] at size; omega
  have grains : r / G < n := (Nat.div_lt_iff_lt_mul pos).2 (by rw [Nat.mul_comm, size]; exact h)
  calc (r / G * 30 + lr) * G + r % G < (r / G * 30 + lr) * G + G := Nat.add_lt_add_left (Nat.mod_lt _ pos) _
    _ = (r / G * 30 + lr + 1) * G := (Nat.succ_mul _ _).symm
    _ ≤ (30 * n) * G := Nat.mul_le_mul_right G (by omega)
    _ = hbmSize := by rw [Nat.mul_assoc, Nat.mul_comm n G, size]; rfl

end

section
variable {G : Nat} (pos : 0 < G)
include pos

/-- From the rank and its address back to the address of the stack. -/
theorem stackAddress_rankAddress (a : Nat) :
    ((a / G / 30 * G + a % G) / G * 30 + a / G % 30) * G + (a / G / 30 * G + a % G) % G = a := by
  have grain : (a / G / 30 * G + a % G) / G = a / G / 30 := by
    rw [Nat.add_comm, Nat.add_mul_div_right _ _ pos, Nat.div_eq_of_lt (Nat.mod_lt _ pos), Nat.zero_add]
  have offset : (a / G / 30 * G + a % G) % G = a % G := by rw [Nat.add_comm, Nat.add_mul_mod_self_right, Nat.mod_mod]
  rw [grain, offset, Nat.div_add_mod', Nat.div_add_mod']

/-- From an address of the stack back to the rank and its address. -/
theorem rankAddress_stackAddress {lr : Nat} (r : Nat) (hl : lr < 30) :
    let a := (r / G * 30 + lr) * G + r % G
    a / G % 30 = lr ∧ a / G / 30 * G + a % G = r := by
  intro a
  have grain : ((r / G * 30 + lr) * G + r % G) / G = r / G * 30 + lr := by
    rw [Nat.add_comm, Nat.add_mul_div_right _ _ pos, Nat.div_eq_of_lt (Nat.mod_lt _ pos), Nat.zero_add]
  have offset : ((r / G * 30 + lr) * G + r % G) % G = r % G := by rw [Nat.add_comm, Nat.add_mul_mod_self_right, Nat.mod_mod]
  simp only [a, grain, offset]
  have rank : (r / G * 30 + lr) / 30 = r / G := by omega
  exact ⟨by omega, by rw [rank, Nat.div_add_mod']⟩

end

/-- With no migration an access reaches the one rank in use that carries its logical rank. -/
theorem Hbm.serves_only {x : Hbm} {p lr : Nat} (pg : Nat) (hp : p < 32) (settled : x.mig = none) (state : (x.rank p).state = 1)
    (carries : (x.rank p).lrank = lr)
    (alone : ∀ q, q < 32 → q ≠ p → ¬(((x.rank q).state = 1 ∨ (x.rank q).state = 2) ∧ (x.rank q).lrank = lr)) : x.serves lr pg = p := by
  have first : ((List.range 32).find? fun q => ((x.rank q).state = 1 ∨ (x.rank q).state = 2) ∧ (x.rank q).lrank = lr) = some p := by
    refine List.find?_range_eq_some.2 ⟨by simp [state, carries], List.mem_range.2 hp, fun q hq => ?_⟩
    simpa only [Bool.not_eq_true', decide_eq_false_iff_not] using alone q (hq.trans hp) (Nat.ne_of_lt hq)
  simp only [Hbm.serves, settled, first, Option.getD_some]

/-- Settles O48: the grain divides the rank, so that both directions of the map stay within their bounds and are inverse. -/
theorem stackAddressesMapExactly : Obligations.StackAddressesMapExactly := by
  unfold Obligations.StackAddressesMapExactly
  intro x rate g a lr r trained code grain
  have pos : 0 < grain := Nat.mul_pos (by decide) (Nat.two_pow_pos g)
  have size := grain_divides code
  rw [Hbm.split_of_full trained, Hbm.join_of_full trained, Hbm.join_of_full trained, Hbm.split_of_full trained]
  refine ⟨rfl, fun within => ⟨Nat.mod_lt _ (by decide), rankAddress_lt size within, stackAddress_rankAddress pos a⟩,
    fun hl hr => ⟨stackAddress_lt size hl hr, ?inverse⟩, fun p hp settled state carries alone => ?phys⟩
  case inverse =>
    obtain ⟨rank, address⟩ := rankAddress_stackAddress pos r hl
    exact Prod.ext rank address
  case phys =>
    rw [Hbm.phys, Hbm.split_of_full trained]
    exact Hbm.serves_only _ hp settled state carries alone

end Sys2Proof.Machine
end

section
/-! The time counter (R312, R327): where a move puts it, when a pulse falls due, and what one cycle adds. -/

namespace Sys2Proof.Machine

/-! Moves -/

/-- A time in whole nanoseconds by its second and its nanosecond. -/
theorem div_mod_second (n : Nat) : n / 1000000000 * 1000000000 + n % 1000000000 = n := Nat.div_add_mod' n _

/-- The place in the counter's range that a move goes to. -/
def timePlace (v : Int) : Nat := (v % (timeSpan : Int)).toNat

theorem timePlace_of_mem {v : Int} (low : 0 ≤ v) (high : v < timeSpan) : timePlace v = v.toNat := by
  rw [timePlace, Int.emod_eq_of_lt low high]

theorem timePlace_lt (v : Int) : timePlace v < timeSpan := by
  have span : (0 : Int) < timeSpan := by decide
  have := Int.emod_lt_of_pos v span
  unfold timePlace
  omega

section
variable (d : Dev) (v : Int)

theorem Dev.moveTime_sec : (d.moveTime v).time.sec = timePlace v / 1000000000 := rfl
theorem Dev.moveTime_ns : (d.moveTime v).time.ns = timePlace v % 1000000000 := rfl
theorem Dev.moveTime_frac : (d.moveTime v).time.frac = d.time.frac := rfl

theorem Dev.moveTime_ppsDue : (d.moveTime v).time.ppsDue =
    (d.time.ppsDue || (decide (diff64 (timePlace v) ((d.now / 1000000000 + 1) * 1000000000) ≥ 0) && d.ppsOn)) := rfl

theorem Dev.moveTime_now : (d.moveTime v).now = timePlace v := by
  rw [Dev.now, Dev.moveTime_sec, Dev.moveTime_ns, div_mod_second]

theorem Dev.moveTime_within : (d.moveTime v).time.ns < 1000000000 ∧ (d.moveTime v).time.sec < 2 ^ 48 :=
  ⟨Nat.mod_lt _ (by decide), Nat.div_lt_of_lt_mul ((timePlace_lt v).trans_eq (Nat.mul_comm _ _))⟩

end

/-! Pulses (R327) -/

/-- The difference of two times that lie less than half its range apart has their order. -/
theorem diff64_nonneg {a b : Nat} (above : (a : Int) - b < 2 ^ 63) (below : (b : Int) - a ≤ 2 ^ 63) : 0 ≤ diff64 a b ↔ b ≤ a := by
  have modulus : (a + 2 ^ 64 - b % 2 ^ 64) % 2 ^ 64 = if b ≤ a then a - b else a + 2 ^ 64 - b := by
    split <;> omega
  rw [diff64, modulus, toSigned]
  split <;> split <;> omega

theorem Dev.second_of_now {d : Dev} (ns : d.time.ns < 1000000000) : d.now / 1000000000 = d.time.sec := by
  unfold Dev.now
  omega

/-- With no pulse waiting, a move makes one due exactly when it passes a second boundary with PPS enabled. -/
theorem Dev.moveTime_pulse {d : Dev} {v : Int} (ns : d.time.ns < 1000000000) (idle : d.time.ppsDue = false) (low : 0 ≤ v)
    (high : v < timeSpan) (above : v - d.now < 2 ^ 62) (below : d.now - v < 2 ^ 62) :
    (d.moveTime v).time.ppsDue = true ↔ d.ppsOn = true ∧ (d.time.sec : Int) < v / 1000000000 := by
  have boundary : 0 ≤ diff64 v.toNat ((d.time.sec + 1) * 1000000000) ↔ (d.time.sec + 1) * 1000000000 ≤ v.toNat :=
    diff64_nonneg (by unfold Dev.now at above; omega) (by unfold Dev.now at below; omega)
  rw [Dev.moveTime_ppsDue, idle, Bool.false_or, Bool.and_eq_true, decide_eq_true_iff, timePlace_of_mem low high, Dev.second_of_now ns,
    ge_iff_le, boundary, and_comm]
  exact and_congr_right fun _ => by omega

theorem Dev.moveTime_noPulse {d : Dev} (v : Int) (idle : d.time.ppsDue = false) (off : d.ppsOn = false) :
    (d.moveTime v).time.ppsDue = false := by
  rw [Dev.moveTime_ppsDue, idle, off, Bool.and_false, Bool.or_false]

/-! One cycle (R312) -/

theorem toSigned_lower (n v : Nat) : -(2 ^ n : Int) ≤ toSigned (n + 1) v := by
  have half : (2 : Int) ^ (n + 1) = 2 * 2 ^ n := Int.pow_succ' 2 n
  rw [toSigned]
  split
  · have : (0 : Int) < 2 ^ n := Int.pow_pos (by decide)
    omega
  · rename_i h
    rw [Nat.add_sub_cancel, Nat.not_lt] at h
    have : ((2 ^ n : Nat) : Int) ≤ (v % 2 ^ (n + 1) : Nat) := Int.ofNat_le.2 h
    push_cast at this ⊢
    omega

theorem toSigned_upper (n v : Nat) : toSigned (n + 1) v < 2 ^ n := by
  rw [toSigned]
  split
  · rename_i h
    exact_mod_cast h
  · have := Nat.mod_lt v (Nat.two_pow_pos (n + 1))
    have : (0 : Int) < 2 ^ n := Int.pow_pos (by decide)
    omega

theorem Dev.advance_stopped {d : Dev} (off : d.timeRuns = false) : d.advance = d := if_pos (by rw [off]; rfl)

/-- With no slew in hand a cycle adds none. -/
theorem Dev.slewStep_none {d : Dev} (plain : d.time.slew = 0) : d.slewStep = 0 := by
  simp only [Dev.slewStep, plain, ge_iff_le, le_refl, if_true]
  split <;> omega

/-- The count of 2⁻³² ns that a cycle takes the counter to, the fraction before it among them. -/
def Dev.cycleUnits (d : Dev) : Int := (d.time.frac : Int) + 2 ^ 32 + toSigned 32 (d.get 0x08 F.TIME_FREQ_FREQ)

theorem Dev.advance_runs {d : Dev} (runs : d.timeRuns = true) (plain : d.time.slew = 0) :
    d.advance = (d.setTime { d.time with frac := (d.cycleUnits % 2 ^ 32).toNat, slew := 0 }).moveTime ((d.now : Int) + d.cycleUnits / 2 ^ 32) := by
  rw [Dev.advance, if_neg (by rw [runs]; decide)]
  simp only [Dev.slewStep_none plain, plain, sub_zero, zero_mul, Int.zero_ediv, add_zero]
  rfl

theorem Dev.cycleUnits_bounds {d : Dev} (frac : d.time.frac < 2 ^ 32) : 0 ≤ d.cycleUnits ∧ d.cycleUnits < 3 * 2 ^ 32 := by
  have lower : -(2 ^ 31 : Int) ≤ toSigned 32 (d.get 0x08 F.TIME_FREQ_FREQ) := toSigned_lower 31 _
  have upper : toSigned 32 (d.get 0x08 F.TIME_FREQ_FREQ) < 2 ^ 31 := toSigned_upper 31 _
  unfold Dev.cycleUnits
  omega

/-- Before the last second of its range the counter does not wrap in a cycle. -/
theorem timePlace_add {now f : Nat} (early : now < timeSpan - 1000000000) (few : f < 3 * 2 ^ 32) :
    timePlace ((now : Int) + (f : Int) / 2 ^ 32) = now + f / 2 ^ 32 := by
  have whole : (now : Int) + (f : Int) / 2 ^ 32 = ((now + f / 2 ^ 32 : Nat) : Int) := by push_cast; rfl
  have within : now + f / 2 ^ 32 < timeSpan := by omega
  rw [whole, timePlace_of_mem (Int.natCast_nonneg _) (by exact_mod_cast within), Int.toNat_natCast]

theorem Dev.now_early {d : Dev} (ns : d.time.ns < 1000000000) (sec : d.time.sec < 2 ^ 48 - 1) : d.now < timeSpan - 1000000000 := by
  unfold Dev.now timeSpan
  omega

/-- A cycle without slew: 1 ns and the frequency, whole nanoseconds to the count and the rest to the fraction. -/
theorem Dev.advance_cycle {d : Dev} {f : Nat} (ns : d.time.ns < 1000000000) (sec : d.time.sec < 2 ^ 48 - 1) (runs : d.timeRuns = true)
    (plain : d.time.slew = 0) (units : d.cycleUnits = f) (few : f < 3 * 2 ^ 32) :
    d.advance.now = d.now + f / 2 ^ 32 ∧ d.advance.time.frac = f % 2 ^ 32 ∧ d.advance.time.ns < 1000000000 := by
  rw [Dev.advance_runs runs plain, units]
  refine ⟨(Dev.moveTime_now _ _).trans (timePlace_add (Dev.now_early ns sec) few), (Dev.moveTime_frac _ _).trans ?_, (Dev.moveTime_within _ _).1⟩
  rw [Dev.setTime_time]
  exact Int.toNat_natCast (f % 2 ^ 32)

/-- Settles O37: a move ends at its place in the counter's range, and a cycle is a move by its whole nanoseconds. -/
theorem theCounterKeepsTheTime : Obligations.TheCounterKeepsTheTime := by
  unfold Obligations.TheCounterKeepsTheTime
  intro d v ns frac
  obtain ⟨positive, few⟩ := Dev.cycleUnits_bounds frac
  refine ⟨fun low high => ?place, d.moveTime_within v, fun idle low high above below => Dev.moveTime_pulse ns idle low high above below,
    Dev.moveTime_noPulse v, Dev.advance_stopped, fun runs plain sec =>
      Dev.advance_cycle ns sec runs plain (Int.toNat_of_nonneg positive).symm ((Int.toNat_lt positive).2 few)⟩
  case place => rw [Dev.moveTime_now, timePlace_of_mem low high]

end Sys2Proof.Machine
end

section
/-! What a Ulux link sends (R370, R372, R377): the fields of a cell's header, the replay after an acknowledgement timeout, and what a
port sends next. -/

namespace Sys2Proof.Machine

/-! The header of a cell reads back. -/

theorem slice_append_left (a b : List Byte) (n : Nat) (h : a.length = n) : slice (a ++ b) 0 n = a := by simp [slice, ← h]

theorem slice_of_take (b c : List Byte) {o n k : Nat} (hb : b.length = k) (within : o + n ≤ k) : slice (b ++ c) o n = slice b o n := by
  have hd : (b ++ c).drop o = b.drop o ++ c := List.drop_append_of_le_length (by omega)
  have ht : (b.drop o ++ c).take n = (b.drop o).take n := List.take_append_of_le_length (by rw [List.length_drop]; omega)
  simp only [slice, hd, ht]

/-- The word of a header with these fields. -/
def headerWord (kind vc lseq ack c0 c1 c2 c3 reach : Nat) : Nat :=
  kind * 2 ^ 60 + vc * 2 ^ 58 + lseq * 2 ^ 46 + ack * 2 ^ 34 + (c0 * 2 ^ 10 + c1 * 2 ^ 16 + c2 * 2 ^ 22 + c3 * 2 ^ 28) + reach * 2 ^ 6

section
variable {kind vc lseq ack c0 c1 c2 c3 reach : Nat} (hkind : kind < 16) (hvc : vc < 4) (hlseq : lseq < 4096) (hack : ack < 4096)
  (h0 : c0 < 64) (h1 : c1 < 64) (h2 : c2 < 64) (h3 : c3 < 64) (hreach : reach < 16)
include hkind hvc hlseq hack h0 h1 h2 h3 hreach

theorem headerWord_lt : headerWord kind vc lseq ack c0 c1 c2 c3 reach < 256 ^ 8 := by
  unfold headerWord
  omega

theorem headerWord_fields :
    let h := headerWord kind vc lseq ack c0 c1 c2 c3 reach
    bits h 60 4 = kind ∧ bits h 58 2 = vc ∧ bits h 46 12 = lseq ∧ bits h 34 12 = ack ∧ bits h 6 4 = reach := by
  unfold headerWord bits
  refine ⟨?_, ?_, ?_, ?_, ?_⟩ <;> omega

end

/-- The credits that a cell returns. -/
def Dev.giveCred (d : Dev) (p v : Nat) : Nat := if d.credOpen p v then min 63 ((d.uport p).owed.getD v 0) else 0

theorem Dev.giveCred_lt (d : Dev) (p v : Nat) : d.giveCred p v < 64 := by
  unfold Dev.giveCred
  split <;> omega

/-- The first 252 bytes of a cell. -/
def Dev.cellBody (d : Dev) (p kind vc lseq : Nat) (pl : List Byte) : List Byte :=
  beBytes 8 (headerWord kind vc lseq (d.uport p).ack (d.giveCred p 0) (d.giveCred p 1) (d.giveCred p 2) (d.giveCred p 3) d.direct4) ++ slice pl 0 244

theorem Dev.cellBody_length (d : Dev) (p kind vc lseq : Nat) (pl : List Byte) : (d.cellBody p kind vc lseq pl).length = 252 := by
  simp [Dev.cellBody]

theorem sum_four (c k : Nat → Nat) : ((List.range 4).map fun v => ((List.range 4).map c).getD v 0 * k v).sum =
    c 0 * k 0 + c 1 * k 1 + c 2 * k 2 + c 3 * k 3 := by
  simp only [show List.range 4 = [0, 1, 2, 3] from rfl, List.map_cons, List.map_nil, List.sum_cons, List.sum_nil, List.getD_cons_zero,
    List.getD_cons_succ, Nat.add_zero, Nat.add_assoc]

theorem Dev.ulxSendCell_cell (d : Dev) (p kind vc lseq : Nat) (pl : List Byte) :
    (d.ulxSendCell p kind vc lseq pl).1 = d.cellBody p kind vc lseq pl ++ beBytes 4 (crc32c 0xFFFFFFFF (d.cellBody p kind vc lseq pl)) := by
  have credits := sum_four (d.giveCred p) fun v => 2 ^ (10 + 6 * v)
  simp only [Nat.reduceMul, Nat.reduceAdd] at credits
  simp only [Dev.cellBody, headerWord, ← credits]
  rfl

theorem Dev.ulxSendCell_payload (d : Dev) (p kind vc lseq : Nat) (pl : List Byte) :
    slice (d.ulxSendCell p kind vc lseq pl).1 8 244 = slice pl 0 244 := by
  rw [Dev.ulxSendCell_cell, slice_of_take _ _ (d.cellBody_length p kind vc lseq pl) (by omega)]
  exact slice_append_right (beBytes 8 _) (slice pl 0 244) 244 (slice_length pl 0 244)

theorem Dev.ulxSendCell_header {d : Dev} {p kind vc lseq : Nat} (pl : List Byte) (hkind : kind < 16) (hvc : vc < 4) (hlseq : lseq < 4096)
    (hack : (d.uport p).ack < 4096) (hreach : d.direct4 < 16) :
    beAt (d.ulxSendCell p kind vc lseq pl).1 0 8 =
      headerWord kind vc lseq (d.uport p).ack (d.giveCred p 0) (d.giveCred p 1) (d.giveCred p 2) (d.giveCred p 3) d.direct4 := by
  rw [Dev.ulxSendCell_cell, beAt, slice_of_take _ _ (d.cellBody_length p kind vc lseq pl) (by omega), Dev.cellBody,
    slice_append_left _ _ 8 (beBytes_length 8 _), beNat_beBytes]
  exact Nat.mod_eq_of_lt (headerWord_lt hkind hvc hlseq hack (d.giveCred_lt p 0) (d.giveCred_lt p 1) (d.giveCred_lt p 2) (d.giveCred_lt p 3) hreach)

/-! The commands of a port. -/

theorem Dev.replay_limit {d : Dev} {p : Nat} {a : Sent} {r : List Sent} (held : (d.uport p).replay = a :: r)
    (limit : d.get (uPage p) F.ULX_LINK_REPLAY_MAX ≤ a.resends) :
    d.replay p = ((d.bump (uPage p) (F.ULX_PORT_CNT_COUNT.at (16 * (p % 8) + 12))).event (uPage p) 9 5 p (d.uport p).replay.length 0).leaveUp p 1 := by
  rw [Dev.replay, held]
  exact if_pos limit

theorem Dev.replay_one {d : Dev} {p : Nat} {a : Sent} (held : (d.uport p).replay = [a])
    (below : a.resends < d.get (uPage p) F.ULX_LINK_REPLAY_MAX) :
    d.replay p = (((d.setUport p { d.uport p with replay := [{ a with resends := a.resends + 1 }] }).bump (uPage p)
      (F.ULX_PORT_CNT_COUNT.at (16 * (p % 8) + 8))).ulxSendCell p 1 (cellHdr a.cell).vc a.lseq (slice a.cell 8 244)).2 := by
  rw [Dev.replay, held]
  exact if_neg (Nat.not_le.mpr below)

theorem Dev.ulxCellSend_first {d : Dev} {p vc : Nat} {pl : List Byte} {o : List (Nat × List Byte)} (up : d.uUp p = true)
    (room : (d.uport p).replay.length < 1024) (waiting : (d.uport p).out = (vc, pl) :: o) (credit : 0 < (d.uport p).cred.getD vc 0) :
    d.ulxCellSend p = (d.setUport p { d.uport p with out := o }).ulxSendData p vc pl := by
  have first : (if (d.uport p).replay.length < 1024 then (d.uport p).out.find? fun o => decide ((d.uport p).cred.getD o.1 0 > 0) else none) =
      some (vc, pl) := by rw [if_pos room, waiting, List.find?_cons_of_pos (p := fun o : Nat × List Byte => decide ((d.uport p).cred.getD o.1 0 > 0)) (decide_eq_true credit)]
  simp only [Dev.ulxCellSend, up, first, Bool.not_true, Bool.false_eq_true, if_false]
  rw [waiting, List.erase_cons_head]

theorem Dev.countWaits_idle {d : Dev} (idle : d.ulx.queues = []) : d.countWaits = d := by rw [Dev.countWaits, idle]; rfl

/-- With nothing received no cell is in transit. -/
theorem Dev.noTransit {d : Dev} (empty : ∀ i, i < 16 → (d.uport i).rx = []) :
    (((List.range 16).map fun i => ((d.uport i).rx.filter fun c => (routeOf c.payload).dst ≠ d.power.uxId).map fun c => (i, c)).flatten) = [] := by
  rw [List.flatten_eq_nil_iff]
  intro l hl
  obtain ⟨i, hi, rfl⟩ := List.mem_map.mp hl
  rw [empty i (List.mem_range.mp hi)]
  rfl

theorem Dev.ulxCellSend_null {d : Dev} {p : Nat} (up : d.uUp p = true) (none : (d.uport p).out = [])
    (empty : ∀ i, i < 16 → (d.uport i).rx = []) (noAgain : d.ulx.again = []) (idle : d.ulx.queues = []) :
    d.ulxCellSend p = d.ulxSend p 0 [] := by
  simp only [Dev.ulxCellSend, up, none, List.find?_nil, ite_self, Dev.noTransit empty, Dev.sendTransit, noAgain, Dev.sendAgain,
    Dev.countWaits_idle idle, idle, List.map_nil, List.findSome?_nil, Bool.not_true, Bool.false_eq_true, if_false]

/-- Settles O58: a port that is not UP does nothing, an UP one replays or sends by its queues, and the header of each cell is the sum of
fields that do not overlap, so that each reads back. -/
theorem linksReplayAndSend : Obligations.LinksReplayAndSend := by
  unfold Obligations.LinksReplayAndSend
  intro s port a r d p g x
  have timeout : exec (.ackTimeout port) s = .next { s with dev := d.ackTimeout p } := rfl
  have send : exec (.ulxCellSend port) s = .next { s with dev := d.ulxCellSend p } := rfl
  have replays (up : d.uUp p = true) : d.ackTimeout p = d.replay p := if_pos up
  refine ⟨fun down => ⟨?timeoutDown, ?sendDown⟩, fun up held => ?nothing, fun up held limit => ?limit, fun up held below => ?again,
    fun vc pl o up room waiting credit => ?first, fun up none empty noAgain idle => ?null, fun b q kind vc lseq pl hkind hvc hlseq hack hreach => ?cell⟩
  case timeoutDown => exact timeout.trans (next_dev (if_neg (by rw [down]; exact Bool.false_ne_true)))
  case sendDown => exact send.trans (next_dev (if_pos (by rw [down]; rfl)))
  case nothing =>
    have idle : d.replay p = d := by rw [Dev.replay, held]
    exact timeout.trans (next_dev ((replays up).trans idle))
  case limit => exact timeout.trans (next_dev ((replays up).trans (Dev.replay_limit held limit)))
  case again => exact timeout.trans (next_dev ((replays up).trans (Dev.replay_one held below)))
  case first => exact send.trans (next_dev (Dev.ulxCellSend_first up room waiting credit))
  case null => exact send.trans (next_dev (Dev.ulxCellSend_null up none empty noAgain idle))
  case cell =>
    obtain ⟨kindOk, vcOk, lseqOk, ackOk, reachOk⟩ := headerWord_fields hkind hvc hlseq hack (b.giveCred_lt q 0) (b.giveCred_lt q 1)
      (b.giveCred_lt q 2) (b.giveCred_lt q 3) hreach
    have header := Dev.ulxSendCell_header pl hkind hvc hlseq hack hreach
    refine ⟨ucellOk_ulxSendCell b q kind vc lseq pl, ?_, ?_, ?_, ?_, ?_, Dev.ulxSendCell_payload b q kind vc lseq pl⟩ <;>
      simpa only [cellHdr, header]

end Sys2Proof.Machine
end

section
/-! Chimes, PPS and the time of the mesh (R325, R327, R328, R382): one equation for each outcome. -/

namespace Sys2Proof.Machine

section
variable {d : Dev} {c : Nat}

/-! Chimes (R325, R326) -/

/-- The chime that ARM commits. -/
def Dev.armed (d : Dev) (c : Nat) : Chime :=
  let f (x : Fld) : Nat := d.get 0x08 (x.at (32 * c))
  let start := d.commitTime (f F.TIME_CHIME_START_S) (f F.TIME_CHIME_START_NS)
  ⟨f F.TIME_CHIME_PERIODIC = 1, start, f F.TIME_CHIME_PERIOD_NS, f F.TIME_CHIME_WIDTH_NS, start⟩

theorem Dev.chimeArm_later (good : d.chimeBad c = false) (later : d.due (d.armed c).next = false) :
    d.chimeArm c = (d.setChime c (some (d.armed c))).chimeState c 1 :=
  (if_neg (by rw [good]; exact Bool.false_ne_true)).trans (if_neg (ne_true_of_eq_false later))

theorem Dev.chimeArm_late (good : d.chimeBad c = false) (late : d.due (d.armed c).next = true) (once : (d.armed c).periodic = false) :
    d.chimeArm c = (((d.setPulse c true).chimeState c 3).int 0x08 4).setChime c none := by
  have nothing : ¬ d.get 0x08 (F.TIME_CHIME_PERIODIC.at (32 * c)) = 1 := of_decide_eq_false once
  refine ((if_neg (by rw [good]; exact Bool.false_ne_true)).trans (if_pos late)).trans ?_
  exact congrArg (((d.setPulse c true).chimeState c 3).int 0x08 4 |>.setChime c) (if_neg nothing)

theorem Dev.chimePulse_none (idle : d.chime c = none) : d.chimePulse c = d := by rw [Dev.chimePulse, idle]

section
variable {y : Chime} (held : d.chime c = some y) (running : d.running 0x08 = true) (due : d.due y.next = true)
include held running due

/-- A due chime raises its output; a single one is done, a periodic one moves on. -/
theorem Dev.chimePulse_due : d.chimePulse c =
    if !y.periodic then ((d.setPulse c true).setChime c none).chimeState c 2
    else
      let n := (d.setPulse c true).chimeNext y
      let t := (d.setPulse c true).setChime c (some { y with next := n.1 })
      if n.2 = 0 then t else (t.bump 0x08 (F.TIME_CHIME_SKIP.at (32 * c)) n.2).int 0x08 4 := by
  rw [Dev.chimePulse, held]
  exact if_neg (by rw [running, due]; decide)

theorem Dev.chimePulse_once (once : y.periodic = false) : d.chimePulse c = ((d.setPulse c true).setChime c none).chimeState c 2 :=
  (Dev.chimePulse_due held running due).trans (if_pos (by rw [once]; rfl))

theorem Dev.chimePulse_again (again : y.periodic = true) : d.chimePulse c =
    if ((d.setPulse c true).chimeNext y).2 = 0 then (d.setPulse c true).setChime c (some { y with next := ((d.setPulse c true).chimeNext y).1 })
    else (((d.setPulse c true).setChime c (some { y with next := ((d.setPulse c true).chimeNext y).1 })).bump 0x08
      (F.TIME_CHIME_SKIP.at (32 * c)) ((d.setPulse c true).chimeNext y).2).int 0x08 4 :=
  (Dev.chimePulse_due held running due).trans (if_neg (by rw [again]; decide))

end

/-! PPS (R327) -/

theorem Dev.ppsPulse_due (due : d.time.ppsDue = true) (running : d.running 0x08 = true) (on : d.get 0x08 F.TIME_PPS_EN = 1) :
    d.ppsPulse = d.setTime { d.time with pps := true, ppsDue := false } := if_pos ⟨due, running, on⟩

theorem Dev.ppsPulse_none (h : d.time.ppsDue = false ∨ d.get 0x08 F.TIME_PPS_EN = 0) : d.ppsPulse = d := by
  refine if_neg fun ⟨due, _, on⟩ => ?_
  rcases h with idle | off
  · rw [idle] at due
    exact Bool.false_ne_true due
  · rw [off] at on
    exact absurd on (by decide)

/-! The time of the mesh (R328, R382) -/

theorem Dev.meshExchange_leader (leader : d.meshRole = 1) (running : d.running 0x08 = true) :
    d.meshExchange =
      ((List.range 4).filter fun e => e ≠ d.power.uxId && (d.isMemberDev 0 e || d.isMemberDev 1 e)).foldl
        (fun t e => match (t.portsTo e).head? with
          | some p => t.timeCell p 1 e d.time.xseq t.now
          | none => t) (d.setTime { d.time with xseq := (d.time.xseq + 1) % 65536 }) :=
  if_neg (by rw [leader, running]; decide)

theorem Dev.meshExchange_other (other : d.meshRole ≠ 1) : d.meshExchange = d := if_pos (Or.inl other)

section
variable {p src x t1 : Nat} {cell : List Byte} {a : Dev}

theorem Dev.syncReceive_follower (arrives : d.timeArrive p cell 1 = (some (src, x, t1), a)) (follower : a.meshRole = 2)
    (leader : src = a.live 0x08 F.TIME_MESH_CFG_LEADER) :
    d.syncReceive p cell = (a.setTime { a.time with exchanges := a.time.exchanges ++ [⟨src, p, x, t1, a.now, a.now⟩] }).timeCell p 2 src x a.now := by
  rw [Dev.syncReceive, arrives]
  exact if_neg fun h => h.elim (· follower) (· leader)

theorem Dev.dreqReceive_leader (arrives : d.timeArrive p cell 2 = (some (src, x, t1), a)) (leader : a.meshRole = 1) :
    d.dreqReceive p cell = a.timeCell p 3 src x a.now := by
  rw [Dev.dreqReceive, arrives]
  exact if_neg (not_not_intro leader)

theorem Dev.respReceive_follower {e : Exchange} (arrives : d.timeArrive p cell 3 = (some (src, x, t1), a))
    (open_ : (a.time.exchanges.find? fun e => e.dev = src && e.xseq = x) = some e)
    (follower : (a.setTime { a.time with exchanges := a.time.exchanges.erase e }).meshRole = 2) :
    d.respReceive p cell =
      let b := a.setTime { a.time with exchanges := a.time.exchanges.erase e }
      let u := b.meshUpdate ((((e.t2 : Int) - e.t1) - ((t1 : Int) - e.t3)) / 2)
      if u.now = b.now then u else u.placeGates := by
  simp only [Dev.respReceive, arrives, open_]
  exact if_pos follower

end

theorem Dev.exchangeAbandon_oldest {e : Exchange} {r : List Exchange} (waiting : d.time.exchanges = e :: r) :
    d.exchangeAbandon = (d.setTime { d.time with exchanges := r }).cnt (uPage e.port) F.ULX_CNT_COUNT 3 := by rw [Dev.exchangeAbandon, waiting]

/-- LOCK is cleared, with its interrupt where it was set. -/
def Dev.unlocked (d : Dev) : Dev :=
  let u := (d.setTime { d.time with good := 0 }).set 0x08 F.TIME_STAT_LOCK 0
  if d.get 0x08 F.TIME_STAT_LOCK = 1 then u.int 0x08 6 else u

theorem Dev.meshLost_follower (follower : d.meshRole = 2) (running : d.running 0x08 = true) :
    d.meshLost = if d.unlocked.get 0x08 F.TIME_STAT_LOST = 1 then d.unlocked else (d.unlocked.set 0x08 F.TIME_STAT_LOST 1).int 0x08 7 :=
  if_neg (by rw [follower, running]; decide)

end

/-- Settles O38: a chime pulses at its time or at once, PPS at a passed second boundary, and each cell of the mesh's time acts by its
role. -/
theorem chimesPulseAndMeshTimeIsExchanged : Obligations.ChimesPulseAndMeshTimeIsExchanged := by
  unfold Obligations.ChimesPulseAndMeshTimeIsExchanged
  refine ⟨fun s c req => ?chimes, fun s port cell src x t1 e r d => ?mesh⟩
  case chimes =>
    have arm (hr : s.dev.reachable 0x08) (good : s.dev.chimeBad c.val = false) :
        exec (.chimeArm c req) s = .next { s with dev := s.dev.chimeArm c.val } := runHost_eq _ s _ (Reach.act_chimeArm _ c _ hr good)
    have pulse : exec (.chimePulse c) s = .next { s with dev := s.dev.chimePulse c.val } := rfl
    have second : exec .pps s = .next { s with dev := s.dev.ppsPulse } := rfl
    refine ⟨fun hr good => ⟨fun later => ?later, fun late once => ?late⟩, fun hr => ?cancel,
      fun y held running due => ⟨fun once => ?once, fun again => ⟨fun none => ?inTime, fun some => ?skips⟩⟩, fun idle => ?idle, rfl,
      fun due running on => ?pps, fun h => ?noPps, rfl⟩
    case later => exact (arm hr good).trans (next_dev (Dev.chimeArm_later good later))
    case late => exact (arm hr good).trans (next_dev (Dev.chimeArm_late good late once))
    case cancel => exact runHost_eq _ s _ (Reach.act_chimeCancel _ c _ hr)
    case once => exact pulse.trans (next_dev (Dev.chimePulse_once held running due once))
    case inTime => exact pulse.trans (next_dev ((Dev.chimePulse_again held running due again).trans (if_pos none)))
    case skips => exact pulse.trans (next_dev ((Dev.chimePulse_again held running due again).trans (if_neg some)))
    case idle => exact pulse.trans (next_dev (Dev.chimePulse_none idle))
    case pps => exact second.trans (next_dev (Dev.ppsPulse_due due running on))
    case noPps => exact second.trans (next_dev (Dev.ppsPulse_none h))
  case mesh =>
    have exchange : exec .meshExchange s = .next { s with dev := s.dev.meshExchange } := rfl
    have lost : exec .meshLost s = .next { s with dev := s.dev.meshLost } := rfl
    refine ⟨fun leader running => ?leader, fun other => ?other, fun arrives follower leader => ?sync, fun arrives leader => ?dreq,
      fun arrives open_ => fun follower => ?resp, fun waiting => ?abandon, fun follower running => ⟨fun known => ?known, fun fresh => ?fresh⟩⟩
    case leader => exact exchange.trans (next_dev (Dev.meshExchange_leader leader running))
    case other => exact exchange.trans (next_dev (Dev.meshExchange_other other))
    case sync => exact Eq.trans (b := .next { s with dev := s.dev.syncReceive port.val cell }) rfl (next_dev (Dev.syncReceive_follower arrives follower leader))
    case dreq => exact Eq.trans (b := .next { s with dev := s.dev.dreqReceive port.val cell }) rfl (next_dev (Dev.dreqReceive_leader arrives leader))
    case resp => exact Eq.trans (b := .next { s with dev := s.dev.respReceive port.val cell }) rfl (next_dev (Dev.respReceive_follower arrives open_ follower))
    case abandon => exact Eq.trans (b := .next { s with dev := s.dev.exchangeAbandon }) rfl (next_dev (Dev.exchangeAbandon_oldest waiting))
    case known => exact lost.trans (next_dev ((Dev.meshLost_follower follower running).trans (if_pos known)))
    case fresh =>
      have missing : ¬ s.dev.unlocked.get 0x08 F.TIME_STAT_LOST = 1 := fun h => absurd (fresh.symm.trans h) (by decide)
      exact lost.trans (next_dev ((Dev.meshLost_follower follower running).trans (if_neg missing)))

end Sys2Proof.Machine
end

section
/-! The wheel of the shapers, gate lists and rate schedules (R236, R237, R240, R243, R244): one equation for each outcome. -/

namespace Sys2Proof.Machine

section
variable {d : Dev}

/-! The wheel (R236, R237) -/

/-- The due slot of the wheel is emptied, what is beyond 128 entities carried into the next. -/
def Dev.takeSlot (d : Dev) (die : Nat) : Dev :=
  let key := 4096 * die + d.clk / 8 % 4096
  let next := 4096 * die + (d.clk / 8 + 1) % 4096
  d.setTm { d.tm with fine := (d.tm.fine.wr [] key []).wr [] next ((Map.rd [] d.tm.fine key).drop 128 ++ Map.rd [] d.tm.fine next) }

/-- The entities of the due slot. -/
def Dev.dueSlot (d : Dev) (die : Nat) : List Nat := Map.rd [] d.tm.fine (4096 * die + d.clk / 8 % 4096)

theorem Dev.shaperWake_eq (d : Dev) (die : Nat) : d.shaperWake die =
    ((d.dueSlot die).take 128).foldl (fun d e => d.wakeEnt e)
      (if ((d.dueSlot die).drop 128).isEmpty then d.takeSlot die
       else ((d.takeSlot die).bump (tmPage die) (F.TM_CNT_COUNT.at 8) ((d.dueSlot die).drop 128).length).int (tmPage die) 4) := rfl

theorem Dev.shaperWake_few {die : Nat} (few : (d.dueSlot die).length ≤ 128) :
    d.shaperWake die = (d.dueSlot die).foldl (fun d e => d.wakeEnt e) (d.takeSlot die) := by
  rw [Dev.shaperWake_eq, List.take_of_length_le few, List.drop_of_length_le few, List.isEmpty_nil, if_pos rfl]

theorem Dev.shaperWake_many {die : Nat} (many : 128 < (d.dueSlot die).length) :
    d.shaperWake die = ((d.dueSlot die).take 128).foldl (fun d e => d.wakeEnt e)
      (((d.takeSlot die).bump (tmPage die) (F.TM_CNT_COUNT.at 8) ((d.dueSlot die).length - 128)).int (tmPage die) 4) := by
  have late : ¬ ((d.dueSlot die).drop 128).isEmpty = true := by
    rw [List.isEmpty_iff_length_eq_zero, List.length_drop]
    omega
  rw [Dev.shaperWake_eq, if_neg late, List.length_drop]

theorem Bucket.refill_tokens {b : Bucket} {rate lim now : Nat} (open_ : b.paused = false) (room : b.full = false) :
    (b.refill rate lim now).tokens = min (lim : Int) (b.tokens + (((now - b.last) * rate * 65536 + b.frac) / 8000000 : Nat)) := by
  have gains : (b.refill rate lim now).tokens = if b.tokens + (((now - b.last) * rate * 65536 + b.frac) / 8000000 : Nat) ≥ (lim : Int) then (lim : Int)
      else b.tokens + (((now - b.last) * rate * 65536 + b.frac) / 8000000 : Nat) := by
    simp only [Bucket.refill, open_, room, Bool.false_eq_true, if_false]
    split <;> rfl
  rw [gains]
  generalize b.tokens + (((now - b.last) * rate * 65536 + b.frac) / 8000000 : Nat) = gained
  split
  · omega
  · omega

/-! Gate lists (R240) -/

/-- When the entry in force ends. -/
def Gate.ends (g : Gate) : Nat := match g.idx with | none => g.base | some i => g.began + (g.entries.getD i (0, 0)).2

/-- The list with its next entry in force. -/
def Gate.turned (g : Gate) : Gate :=
  { g with idx := some (match g.idx with | none => 0 | some i => (i + 1) % g.entries.length), began := g.ends }

theorem Dev.gateBoundary_early {port : Nat} {g : Gate} (held : d.gate port = some g) (early : d.due g.ends = false) : d.gateBoundary port = d := by
  rw [Dev.gateBoundary, held]
  exact if_pos (congrArg Bool.not early)

theorem Dev.gateBoundary_turns {port : Nat} {g : Gate} (held : d.gate port = some g) (due : d.due g.ends = true)
    (unblocked : Map.rd none d.tm.blocked port = none) :
    d.gateBoundary port = (d.setTm { d.tm with gates := d.tm.gates.wr none port (some g.turned) }).touchPort port := by
  have now : ¬ (!d.due g.ends) = true := by rw [due]; decide
  rw [Dev.gateBoundary, held]
  refine (if_neg now).trans ?_
  simp only [Dev.setTm, unblocked]
  rfl

/-! The rate schedule (R243, R244) -/

theorem Dev.rsTime_dir (d : Dev) (port : Nat) : (d.rsTime port).2 < 4 := by
  simp only [Dev.rsTime]
  split
  · exact (by decide : 1 < 4)
  · split
    · exact (by decide : 2 < 4)
    · exact (by decide : 0 < 4)

/-- The entry that ARM leaves when its time is yet to come. -/
def Dev.rsHeld (d : Dev) (port : Nat) : Dev :=
  let p := tmPage (port / 64)
  let n := 16 * (port % 64)
  ((d.set p (F.TM_RS_CTL_DIR.at n) (d.rsTime port).2).setTm
    { d.tm with rs := d.tm.rs.wr none port (some ⟨d.get p (F.TM_RS_RATE.at n), (d.rsTime port).1⟩) }).set p (F.TM_RS_CTL_STATE.at n) 1

theorem Dev.rsApply_idle {port st : Nat} (idle : d.get (tmPage (port / 64)) (F.TM_RS_CTL_STATE.at (16 * (port % 64))) ≠ 1) : d.rsApply port st = d := by
  rw [Dev.rsApply]
  split
  · rfl
  · exact if_neg fun h => idle h.1

theorem Dev.rsArm_later {port : Nat} (good : d.rsBad port = false) (later : d.due (d.rsTime port).1 = false)
    (idle : d.get (tmPage (port / 64)) (F.TM_RS_CTL_STATE.at (16 * (port % 64))) ≠ 1) : d.rsArm port = d.rsHeld port := by
  rw [Dev.rsArm]
  refine (if_neg (by rw [good]; exact Bool.false_ne_true)).trans ?_
  simp only [Dev.rsApply_idle idle, if_neg idle]
  exact if_neg fun h => ne_true_of_eq_false later h.1

theorem Dev.rsHeld_entry (d : Dev) (port : Nat) : Map.rd none (d.rsHeld port).tm.rs port =
    some ⟨d.get (tmPage (port / 64)) (F.TM_RS_RATE.at (16 * (port % 64))), (d.rsTime port).1⟩ := by
  rw [Dev.rsHeld, Dev.set_tm]
  exact Map.rd_wr_same none d.tm.rs port (some ⟨d.get (tmPage (port / 64)) (F.TM_RS_RATE.at (16 * (port % 64))), (d.rsTime port).1⟩)

theorem Dev.rsHeld_state (d : Dev) (port : Nat) :
    (d.rsHeld port).get (tmPage (port / 64)) (F.TM_RS_CTL_STATE.at (16 * (port % 64))) = 1 :=
  Dev.get_set_same _ _ _ _ (show 2 + 2 ≤ 32 by decide)

theorem Dev.rsHeld_dir (d : Dev) (port : Nat) :
    (d.rsHeld port).get (tmPage (port / 64)) (F.TM_RS_CTL_DIR.at (16 * (port % 64))) = (d.rsTime port).2 := by
  rw [Dev.rsHeld, Dev.get_set_apart _ _ (F.TM_RS_CTL_STATE.at _) (F.TM_RS_CTL_DIR.at _) 1 rfl (show 2 + 2 ≤ 32 by decide)
    (Or.inr (show 2 + 2 ≤ 4 by decide))]
  exact (Dev.get_set_same _ _ _ _ (show 4 + 2 ≤ 32 by decide)).trans (Nat.mod_eq_of_lt (d.rsTime_dir port))

theorem Dev.live_set_ne (d : Dev) {p q : Nat} {f g : Fld} (v : Nat) (other : csrKey q g.off ≠ csrKey p f.off) : (d.set p f v).live q g = d.live q g := by
  rw [Dev.live, Dev.live, Dev.liveWord, Dev.liveWord, Dev.word_set_ne _ _ _ _ _ _ other]
  rfl

theorem Dev.entRate_port (d : Dev) (port : Nat) :
    d.entRate (portEnt port) = d.live (tmPage ((d.portHome port).getD 0)) (F.TM_PORT_RATE_KBPS.at (4 * port)) := by
  have place : portEnt port - 500000 = port := Nat.add_sub_cancel_left ..
  rw [Dev.entRate, if_neg (by unfold portEnt; omega), if_neg (by unfold portEnt; omega), place]

theorem Dev.portHome_network (a b : Dev) {port : Nat} (network : port < 128) : a.portHome port = b.portHome port := by
  simp only [Dev.portHome, if_pos network]

/-- The registers of the rate schedule lie beyond those of the rates. -/
theorem rateKey_ne (q p : Nat) {port : Nat} (network : port < 128) {g : Fld} (there : g.off = 0x100C + 16 * (port % 64)) :
    csrKey q (F.TM_PORT_RATE_KBPS.at (4 * port)).off ≠ csrKey p g.off := by
  rw [there]
  change q * 65536 + (0x0400 + 4 * port) ≠ p * 65536 + (0x100C + 16 * (port % 64))
  omega

theorem Dev.rsHeld_rate (d : Dev) {port : Nat} (network : port < 128) : (d.rsHeld port).entRate (portEnt port) = d.entRate (portEnt port) := by
  rw [Dev.entRate_port, Dev.entRate_port, Dev.portHome_network _ d network, Dev.rsHeld, Dev.live_set_ne _ _ (rateKey_ne _ _ network rfl)]
  exact Dev.live_set_ne _ _ (rateKey_ne _ _ network rfl)

theorem Dev.rsCancel_armed {port : Nat} (armed : d.get (tmPage (port / 64)) (F.TM_RS_CTL_STATE.at (16 * (port % 64))) = 1) :
    d.rsCancel port = (d.set (tmPage (port / 64)) (F.TM_RS_CTL_STATE.at (16 * (port % 64))) 0).setTm { d.tm with rs := d.tm.rs.wr none port none } :=
  if_pos armed

theorem Dev.rsApply_due {port : Nat} {e : RsEntry} (held : Map.rd none d.tm.rs port = some e)
    (armed : d.get (tmPage (port / 64)) (F.TM_RS_CTL_STATE.at (16 * (port % 64))) = 1) (due : d.due e.time = true)
    (running : d.running (tmPage (port / 64)) = true) :
    d.rsApply port 2 = (d.rsApplyAs port e.rate 2).setTm { (d.rsApplyAs port e.rate 2).tm with rs := (d.rsApplyAs port e.rate 2).tm.rs.wr none port none } := by
  have applies : d.get (tmPage (port / 64)) (F.TM_RS_CTL_STATE.at (16 * (port % 64))) = 1 ∧ d.due e.time = true ∧
      (2 = 3 ∨ d.running (tmPage (port / 64)) = true) := ⟨armed, due, Or.inr running⟩
  simp only [Dev.rsApply, held, if_pos applies, if_neg (show ¬ 2 = 3 by decide)]

end

/-- Settles O44: the wheel, the gate lists and the rate schedule each act by the clock, and an armed rate leaves the rate in force. -/
theorem shapersGatesAndRatesKeepTime : Obligations.ShapersGatesAndRatesKeepTime := by
  unfold Obligations.ShapersGatesAndRatesKeepTime
  refine ⟨fun s die e => ?wheel, fun s port g req => ?port⟩
  case wheel =>
    have wakes : exec (.shaperWake die) s = .next { s with dev := s.dev.shaperWake die.val } := rfl
    exact ⟨fun few => wakes.trans (next_dev (Dev.shaperWake_few few)), fun many => wakes.trans (next_dev (Dev.shaperWake_many many)), rfl,
      fun _ open_ room => Bucket.refill_tokens open_ room⟩
  case port =>
    have boundary : exec (.gateBoundary port) s = .next { s with dev := s.dev.gateBoundary port.val } := rfl
    have apply : exec (.rsApply port) s = .next { s with dev := s.dev.rsApply port.val 2 } := rfl
    refine ⟨fun held early => ?early, fun held due unblocked => ?turns, fun hr => ⟨fun good later idle => ?arm, fun armed => ?cancel⟩,
      fun e held armed due running => ?apply⟩
    case early => exact boundary.trans (next_dev (Dev.gateBoundary_early held early))
    case turns => exact boundary.trans (next_dev (Dev.gateBoundary_turns held due unblocked))
    case arm =>
      have arms := runHost_eq (fun x => x.act _ _ 1 req.toNat) s _ (Reach.act_rs ⟨s.trust, s.dev⟩ port 1 _ hr (Or.inl ⟨rfl, good⟩))
      exact ⟨_, arms.trans (next_dev ((if_pos rfl).trans (Dev.rsArm_later good later idle))), rfl, rfl, s.dev.rsHeld_entry port.val,
        s.dev.rsHeld_state port.val, s.dev.rsHeld_dir port.val, s.dev.rsHeld_rate port.isLt⟩
    case cancel =>
      have cancels := runHost_eq (fun x => x.act _ _ 2 req.toNat) s _ (Reach.act_rs ⟨s.trust, s.dev⟩ port 2 _ hr (Or.inr rfl))
      exact cancels.trans (next_dev ((if_neg (by decide)).trans (Dev.rsCancel_armed armed)))
    case apply => exact apply.trans (next_dev (Dev.rsApply_due held armed due running))

end Sys2Proof.Machine
end

section
/-! Replication (R252, R253, R255, R257, R259): the start of a walk, its steps, its end, the fence and the entries of the lists. -/

namespace Sys2Proof.Machine

/-! Freeing a packet leaves the Peal engines as they are. -/

theorem Dev.sendPfc_peals (d : Dev) (port prio time : Nat) : (d.sendPfc port prio time).peals = d.peals := by
  have counted := (d.bump_records (swcPage (port / 64)) (F.SWC_CNT_COUNT.at 8) 1).peals
  simp only [Dev.sendPfc]
  split <;> split <;> simp [(Dev.int_records _ _ _).peals, counted]

theorem Dev.pfcJudge_peals (d : Dev) (port prio was : Nat) : (d.pfcJudge port prio was).peals = d.peals := by
  simp only [Dev.pfcJudge]
  repeat' split
  all_goals simp only [Dev.sendPfc_peals]

theorem Dev.pfcRelease_peals (d : Dev) (ptr : Nat) : (d.pfcRelease ptr).peals = d.peals := by
  simp only [Dev.pfcRelease]
  split
  · rfl
  · exact Dev.pfcJudge_peals _ _ _ _

theorem Dev.ptrBad_records (d : Dev) (p ptr code : Nat) : d.Records (d.ptrBad p ptr code) :=
  .ite _ (.refl d) (((d.bump_records _ _ _).trans (Dev.int_records _ _ _)).trans (Dev.err_records _ _ _ _ _ _))

theorem Dev.moveMark_peals (d : Dev) (old : Nat) (new : Option Nat) : (d.moveMark old new).peals = d.peals := rfl

theorem Dev.freeCell_peals (d : Dev) (ptr : Nat) : (d.freeCell ptr).peals = d.peals := by
  simp only [Dev.freeCell]
  split
  · exact (d.ptrBad_records _ _ _).peals
  · simp only [Dev.set_peals, Dev.setBpm_peals, Dev.moveMark_peals, Dev.setCell_peals, Dev.pfcRelease_peals]

theorem Dev.walkFree_peals (d : Dev) (l : List Nat) : (d.walkFree l).peals = d.peals := by
  have freed := Dev.foldl_keeps Dev.peals
    (fun d c => if cellDie c = cellDie (l.headD 0) then d.freeCell c else d.ptrBad (bpmPage (cellDie (l.headD 0))) c 1)
    (l.takeWhile fun c => !(d.cell c).ue) (fun d c _ => by
      split
      · exact d.freeCell_peals c
      · exact (d.ptrBad_records _ _ _).peals) d
  simp only [Dev.walkFree]
  split
  · exact freed
  · exact ((((Dev.bump_records _ _ _ _).trans (Dev.int_records _ _ _)).trans (Dev.err_records _ _ _ _ _ _)).peals).trans freed

theorem Dev.freePkt_peals (d : Dev) (p : Pkt) : (d.freePkt p).peals = d.peals := d.walkFree_peals _

theorem Dev.peal_congr {a b : Dev} (h : a.peals = b.peals) (die : Nat) : a.peal die = b.peal die := by rw [Dev.peal, h, Dev.peal]

theorem Dev.peal_setPeal (d : Dev) (die : Nat) (x : Peal) : (d.setPeal die x).peal die = x := Map.rd_wr_same Peal.init d.peals die x

/-! The start of a walk (R253, R255) -/

section
variable {d : Dev} {die : Nat}

theorem Dev.walkOn_idle (idle : (d.peal die).walk = none) (bad corr : List Nat) (n : Nat) : d.walkOn die bad corr (n + 1) = d := by
  rw [Dev.walkOn, idle]

/-- The packet at the front of the queue is taken. -/
def Dev.takeFront (d : Dev) (die : Nat) (rest : List McPkt) : Dev := (d.setPealQueue die rest).cnt (pealPage die) F.PEAL_CNT_COUNT 0

theorem Dev.setPealQueue_pealMem (d : Dev) (die : Nat) (l : List McPkt) : (d.setPealQueue die l).pealMem = d.pealMem := by
  rw [Dev.setPealQueue, Dev.peak, Dev.set_pealMem, Dev.set_pealMem]
  rfl

theorem Dev.setPealQueue_badFrames (d : Dev) (die : Nat) (l : List McPkt) : (d.setPealQueue die l).badFrames = d.badFrames := by
  rw [Dev.setPealQueue, Dev.peak, Dev.set_badFrames, Dev.set_badFrames]
  rfl

theorem Dev.setPealQueue_peals (d : Dev) (die : Nat) (l : List McPkt) :
    (d.setPealQueue die l).peals = (d.setPeal die { d.peal die with queue := l }).peals := by
  rw [Dev.setPealQueue, Dev.peak, Dev.set_peals, Dev.set_peals]

theorem Dev.takeFront_records (d : Dev) (die : Nat) (rest : List McPkt) : (d.setPealQueue die rest).Records (d.takeFront die rest) :=
  Dev.cnt_records _ _ _ _

theorem Dev.takeFront_peal (d : Dev) (die : Nat) (rest : List McPkt) : (d.takeFront die rest).peal die = { d.peal die with queue := rest } :=
  (Dev.peal_congr ((d.takeFront_records die rest).peals.trans (d.setPealQueue_peals die rest)) die).trans (d.peal_setPeal die _)

theorem Dev.takeFront_pealMem (d : Dev) (die : Nat) (rest : List McPkt) : (d.takeFront die rest).pealMem = d.pealMem :=
  (d.takeFront_records die rest).pealMem.trans (d.setPealQueue_pealMem die rest)

theorem Dev.takeFront_isBad (d : Dev) (die : Nat) (rest : List McPkt) (owner : Nat) : (d.takeFront die rest).isBad owner = d.isBad owner := by
  rw [Dev.isBad, (d.takeFront_records die rest).badFrames, d.setPealQueue_badFrames, Dev.isBad]

theorem Dev.takeFront_pealBad (d : Dev) (kind die i : Nat) (rest : List McPkt) : (d.takeFront die rest).pealBad kind die i = d.pealBad kind die i := by
  rw [Dev.pealBad, d.takeFront_pealMem, Dev.pealBad]

theorem Dev.takeFront_group (d : Dev) (die g : Nat) (rest : List McPkt) : (d.takeFront die rest).group die g = d.group die g := by
  rw [Dev.group, d.takeFront_pealMem, Dev.group]

/-- A read that the codes leave alone finds the entry as it is marked. -/
theorem Dev.pealRead_clean {kind i : Nat} (good : d.pealBad kind die i = false) (n : Nat) : d.pealRead die kind i n [] [] = (false, d) := by
  simp only [Dev.pealRead, List.contains_nil, Bool.false_eq_true, if_false, good, Dev.eccCount]

theorem Dev.pealBad_setPealBad (d : Dev) (kind die i : Nat) (v : Bool) : (d.setPealBad kind die i v).pealBad kind die i = v :=
  Map.rd_wr_same false d.pealMem.bad _ v

theorem Dev.pealRead_bad {kind i n : Nat} {bad : List Nat} (found : n ∈ bad) (corr : List Nat) :
    d.pealRead die kind i n bad corr = (true, (d.setPealBad kind die i true).eccCount 7 die .bad) := by
  have hit : bad.contains n = true := List.contains_iff_mem.mpr found
  simp only [Dev.pealRead, hit, if_true, Dev.pealBad_setPealBad]

section
variable {k : McPkt} {rest : List McPkt} (active : d.active (pealPage die) = true) (idle : (d.peal die).walk = none)
  (front : (d.peal die).queue = k :: rest) (good : d.isBad k.pkt.owner = false)
include active idle front good

/-- An idle engine starts a walk with its front packet, then goes on with it. -/
theorem Dev.replicationWalk_starts (bad corr : List Nat) : d.replicationWalk die bad corr =
    (let r := (d.takeFront die rest).pealRead die 0 k.group 0 bad corr
     if r.1 then (r.2.listUe die k.group).freePkt k.pkt
     else
       let g := r.2.group die k.group
       if g.2.1 = 0 then (r.2.freePkt k.pkt).cnt (pealPage die) F.PEAL_CNT_COUNT 9
       else
         let t := r.2.setOwners k.pkt.owner k.pkt.first (g.2.1 - 1)
         t.setPeal die { t.peal die with walk := some (k, g, 0) }).walkOn die bad corr 4097 := by
  have whole : ¬ (d.takeFront die rest).isBad k.pkt.owner = true := by
    rw [Dev.takeFront_isBad, good]
    exact Bool.false_ne_true
  rw [Dev.replicationWalk, if_neg (by rw [active]; decide), idle]
  simp only [Dev.walkStart, front]
  exact congrArg (Dev.walkOn · die bad corr 4097) (if_neg whole)

theorem Dev.replicationWalk_badGroup {bad : List Nat} (found : 0 ∈ bad) (corr : List Nat) : d.replicationWalk die bad corr =
    ((((d.takeFront die rest).setPealBad 0 die k.group true).eccCount 7 die .bad).listUe die k.group).freePkt k.pkt := by
  rw [Dev.replicationWalk_starts active idle front good, Dev.pealRead_bad found]
  have listed (t : Dev) : t.Records (t.listUe die k.group) :=
    ((t.cnt_records _ _ _).trans (Dev.int_records _ _ _)).trans (Dev.err_records _ _ _ _ _ _)
  dsimp only
  rw [if_pos rfl]
  refine Dev.walkOn_idle ?_ bad corr 4096
  rw [Dev.peal_congr (Dev.freePkt_peals _ _), Dev.peal_congr ((Dev.eccCount_records _ _ _ _).trans (listed _)).peals]
  exact (congrArg Peal.walk (d.takeFront_peal die rest)).trans idle

variable (clean : d.pealBad 0 die k.group = false)
include clean

theorem Dev.replicationWalk_empty (empty : (d.group die k.group).2.1 = 0) :
    d.replicationWalk die [] [] = ((d.takeFront die rest).freePkt k.pkt).cnt (pealPage die) F.PEAL_CNT_COUNT 9 := by
  rw [Dev.replicationWalk_starts active idle front good, Dev.pealRead_clean ((d.takeFront_pealBad 0 die _ rest).trans clean)]
  simp only [Dev.takeFront_group, empty, if_true, Bool.false_eq_true, if_false]
  refine Dev.walkOn_idle ?_ [] [] 4096
  rw [Dev.peal_congr (Dev.cnt_records _ _ _ _).peals, Dev.peal_congr (Dev.freePkt_peals _ _), Dev.takeFront_peal]
  exact idle

theorem Dev.replicationWalk_one (one : (d.group die k.group).2.1 = 1) : d.replicationWalk die [] [] =
    (let t := (d.takeFront die rest).setOwners k.pkt.owner k.pkt.first 0
     t.setPeal die { t.peal die with walk := some (k, d.group die k.group, 0) }).walkOn die [] [] 4097 := by
  rw [Dev.replicationWalk_starts active idle front good, Dev.pealRead_clean ((d.takeFront_pealBad 0 die _ rest).trans clean)]
  simp only [Dev.takeFront_group, one, Bool.false_eq_true, if_false, Nat.one_ne_zero, Nat.sub_self]

end

/-! The last step of a walk -/

/-- The walk in hand has ended; a fence that waited for it has nothing left to wait for. -/
def Dev.walkEnded (d : Dev) (die : Nat) : Dev :=
  d.setPeal die { d.peal die with walk := none, fence := if (d.peal die).fence = 1 then 2 else (d.peal die).fence }

theorem Dev.walkOn_last {k : McPkt} {g : Nat × Nat × Nat × Bool} {i : Nat} {t : Dev} (held : (d.peal die).walk = some (k, g, i))
    (last : i + 1 = g.2.1) (step : (d.walkStep die k g i [] []).1 = some t) (n : Nat) : d.walkOn die [] [] (n + 1) = t.walkEnded die := by
  rw [Dev.walkOn, held]
  dsimp only
  split
  case _ refused => exact absurd (step.symm.trans (congrArg Prod.fst refused)) (by simp)
  case _ done =>
    obtain rfl : _ = t := Option.some.inj ((congrArg Prod.fst done).symm.trans step)
    exact if_pos (Nat.le_of_eq last.symm)

theorem Dev.editGranted_refused {k : McPkt} {g : Nat × Nat × Nat × Bool} {i : Nat} (held : (d.peal die).walk = some (k, g, i))
    (refused : d.mayTake (cellDie k.pkt.first) 9 = false) : d.editGranted die = d := by
  rw [Dev.editGranted, held]
  exact if_neg fun h => ne_true_of_eq_false refused h.2

theorem Dev.editGranted_goesOn {k : McPkt} {g : Nat × Nat × Nat × Bool} {i : Nat} (held : (d.peal die).walk = some (k, g, i))
    (waits : (9, CellWait.edit die) ∈ (d.bpm (cellDie k.pkt.first)).waits) (granted : d.mayTake (cellDie k.pkt.first) 9 = true) :
    d.editGranted die = (d.endEditWait (cellDie k.pkt.first) die).walkOn die [] [] 4097 := by
  rw [Dev.editGranted, held]
  exact if_pos ⟨List.contains_iff_mem.mpr waits, granted⟩

theorem Dev.endEditWait_eq (d : Dev) (b die : Nat) : d.endEditWait b die =
    d.setBpm b { d.bpm b with waits := (d.bpm b).waits.filter fun w => w ≠ (9, CellWait.edit die) } := by
  have same : (fun w : Nat × CellWait => w != (9, CellWait.edit die)) = fun w => decide (w ≠ (9, CellWait.edit die)) := by
    funext w
    exact Bool.eq_iff_iff.mpr (bne_iff_ne.trans decide_eq_true_iff.symm)
  rw [Dev.endEditWait, same]

theorem Dev.endEditWait_peal (d : Dev) (b e die : Nat) : (d.endEditWait b e).peal die = d.peal die := rfl

/-! One entry of a list (R252, R253) -/

section
variable {k : McPkt} {g : Nat × Nat × Nat × Bool} {i : Nat}

/-- The replica of entry `i` is not made, for this reason. -/
def Dev.skipped (d : Dev) (die : Nat) (k : McPkt) (g : Nat × Nat × Nat × Bool) (i why : Nat) : Dev :=
  (d.pealReason die (if g.2.2.2 then g.2.2.1 + 1 else 0) why (max 64 (k.pkt.len + 4))).releaseOrFinal k.pkt.owner (decide (i + 1 = g.2.1))

variable (good : d.isBad k.pkt.owner = false) (clean : d.pealBad 1 die (g.1 + i) = false)
include good clean

theorem Dev.walkStep_invalid (invalid : bit (d.listEntry die (g.1 + i)).toNat 19 = false) :
    (d.walkStep die k g i [] []).1 = some (d.skipped die k g i 5) := by
  simp only [Dev.walkStep, good, Dev.pealRead_clean clean, invalid, Bool.false_eq_true, if_false, Bool.not_false, if_true]
  rfl

variable (valid : bit (d.listEntry die (g.1 + i)).toNat 19 = true)
include valid

theorem Dev.walkStep_own (own : bits (d.listEntry die (g.1 + i)).toNat 20 8 = k.pkt.inport) :
    (d.walkStep die k g i [] []).1 = some (d.skipped die k g i 4) := by
  simp only [Dev.walkStep, good, Dev.pealRead_clean clean, valid, own, Bool.false_eq_true, if_false, Bool.not_true, if_true]
  rfl

variable (other : bits (d.listEntry die (g.1 + i)).toNat 20 8 ≠ k.pkt.inport)
include other

theorem Dev.walkStep_member (attached : d.attached (d.qNode (bits (d.listEntry die (g.1 + i)).toNat 0 17)) = true)
    (member : d.isMember (d.qPort (bits (d.listEntry die (g.1 + i)).toNat 0 17)) = true) :
    (d.walkStep die k g i [] []).1 = some (d.skipped die k g i 7) := by
  simp only [Dev.walkStep, good, Dev.pealRead_clean clean, valid, other, attached, member, Bool.false_eq_true, if_false, Bool.not_true, if_true, and_self]
  rfl

theorem Dev.walkStep_offers (plain : d.isMember (d.qPort (bits (d.listEntry die (g.1 + i)).toNat 0 17)) = false)
    (unedited : bits (d.listEntry die (g.1 + i)).toNat 28 12 = 0) (local_ : d.ulxMap die (bits (d.listEntry die (g.1 + i)).toNat 0 17) = none)
    (room : d.canOffer die 1 = true) :
    (d.walkStep die k g i [] []).1 = some (d.offer die 1 ⟨bits (d.listEntry die (g.1 + i)).toNat 0 17, bits (d.listEntry die (g.1 + i)).toNat 17 2,
      k.pkt, true, decide (i + 1 = g.2.1), if g.2.2.2 then g.2.2.1 + 1 else 0⟩) := by
  simp only [Dev.walkStep, good, Dev.pealRead_clean clean, valid, other, plain, unedited, Dev.handUnicast, local_, room, Bool.false_eq_true, if_false,
    Bool.not_true, if_true, and_false, Option.isSome_none]

end

/-! The fence and the entries (R257, R259) -/

theorem Dev.fenceDone_waits (ready : (d.peal die).fence = 2) :
    d.fenceDone die = ((d.setPeal die { d.peal die with fence := 0 }).set (pealPage die) F.PEAL_FENCE_DONE 1).int (pealPage die) 0 := if_pos ready

theorem Dev.fenceDone_none (other : (d.peal die).fence ≠ 2) : d.fenceDone die = d := if_neg other

section
variable {i : Nat} (list : d.pealIdx die = some (0, i))
include list

theorem Dev.memBad_list {v : Nat} (one : (bit v 0 && bit v 1) = false) : d.memBad die v = false := by
  rw [Dev.memBad, list, one]
  simp

theorem Dev.pealMemRead_list : d.pealMemRead die =
    (d.setWord (pealPage die) 0x120 ((d.listEntry die i).setWidth 32)).setWord (pealPage die) 0x124 (BitVec.ofNat 32 ((d.listEntry die i).toNat / 2 ^ 32)) := by
  simp only [Dev.pealMemRead, list]

/-- The list entry that PEAL_MEM_DATA holds. -/
def Dev.pealData (d : Dev) (die : Nat) : BitVec 64 :=
  BitVec.ofNat 64 ((d.word (pealPage die) 0x120).toNat + (d.word (pealPage die) 0x124).toNat * 2 ^ 32)

theorem Dev.pealMemWrite_list : (d.pealMemWrite die).pealMem =
    { (d.setPealBad 1 die i false).pealMem with lists := d.pealMem.lists.wr 0 (524288 * die + i) (d.pealData die) } := by
  rw [Dev.pealMemWrite, list]
  rfl

theorem Dev.pealMemWrite_entry : (d.pealMemWrite die).listEntry die i = d.pealData die := by
  rw [Dev.listEntry, Dev.pealMemWrite_list list]
  exact Map.rd_wr_same 0 _ _ _

theorem Dev.pealMemWrite_good : (d.pealMemWrite die).pealBad 1 die i = false := by
  rw [Dev.pealBad, Dev.pealMemWrite_list list]
  exact d.pealBad_setPealBad 1 die i false

theorem Dev.pealMemWrite_groups : (d.pealMemWrite die).pealMem.groups = d.pealMem.groups := by
  rw [Dev.pealMemWrite_list list]
  rfl

theorem Dev.pealMemWrite_edits : (d.pealMemWrite die).pealMem.edits = d.pealMem.edits := by
  rw [Dev.pealMemWrite_list list]
  rfl

theorem Dev.pealIdx_lt : i < 524288 := by
  have width : d.get (pealPage die) F.PEAL_MEM_IDX_INDEX < 524288 := bits_lt _ 0 19
  unfold Dev.pealIdx at list
  dsimp only at list
  split at list
  · exact absurd list (by simp)
  · have index := (Prod.mk.inj (Option.some.inj list)).2
    omega

theorem Dev.pealMemWrite_other {e j : Nat} (within : j < 524288) (other : (e, j) ≠ (die, i)) :
    (d.pealMemWrite die).listEntry e j = d.listEntry e j := by
  have apart : 524288 * e + j ≠ 524288 * die + i := fun same => other (by
    have := Dev.pealIdx_lt list
    exact Prod.ext (by dsimp only; omega) (by dsimp only; omega))
  rw [Dev.listEntry, Dev.pealMemWrite_list list]
  exact Map.rd_wr_ne 0 0 _ _ apart

end

end

/-- Settles O45: a walk starts with its packet and its group entry, each list entry is offered or skipped by its own lemma, and the
list memory is a map that a write changes at one place. -/
theorem replicationWalksTheList : Obligations.ReplicationWalksTheList := by
  unfold Obligations.ReplicationWalksTheList
  refine ⟨⟨fun s die k rest active idle front good clean => ?start, fun s die k g i held last => ?granted, fun d die i k g good clean => ?entry⟩,
    fun s die req i => ?rest⟩
  case start =>
    refine ⟨fun es found => ?bad, fun empty => ?empty, fun one => fun t step => ?one⟩
    case bad =>
      have mem : 0 ∈ (badReads es).map Fin.val := List.mem_map.mpr ⟨0, List.mem_map.mpr ⟨_, List.mem_filter.mpr ⟨found, rfl⟩, rfl⟩, rfl⟩
      exact Eq.trans (b := .next { s with dev := s.dev.replicationWalk die.val ((badReads es).map Fin.val) ((correctedReads es).map Fin.val) }) rfl
        (next_dev (Dev.replicationWalk_badGroup active idle front good mem _))
    case empty =>
      exact Eq.trans (b := .next { s with dev := s.dev.replicationWalk die.val [] [] }) rfl
        (next_dev (Dev.replicationWalk_empty active idle front good clean empty))
    case one =>
      have ends := Dev.walkOn_last (congrArg Peal.walk (Dev.peal_setPeal _ die.val _)) one.symm step 4096
      exact Eq.trans (b := .next { s with dev := s.dev.replicationWalk die.val [] [] }) rfl
        (next_dev ((Dev.replicationWalk_one active idle front good clean one).trans ends))
  case granted =>
    have runs : exec (.editCellGranted die) s = .next { s with dev := s.dev.editGranted die.val } := rfl
    refine ⟨fun refused => ?refused, fun waits granted => fun t step => ?goesOn⟩
    case refused => exact runs.trans (next_dev (Dev.editGranted_refused held refused))
    case goesOn =>
      have stepped := step
      rw [← Dev.endEditWait_eq] at stepped
      have ends := Dev.walkOn_last ((congrArg Peal.walk (s.dev.endEditWait_peal _ die.val die.val)).trans held) last stepped 4096
      exact runs.trans (next_dev ((Dev.editGranted_goesOn held waits granted).trans ends))
  case entry =>
    exact ⟨fun invalid => Dev.walkStep_invalid good clean invalid, fun valid own => Dev.walkStep_own good clean valid own,
      fun valid other attached member => Dev.walkStep_member good clean valid other attached member,
      fun valid other plain unedited local_ room => Dev.walkStep_offers good clean valid other plain unedited local_ room⟩
  case rest =>
    have done : exec (.fenceDone die) s = .next { s with dev := s.dev.fenceDone die.val } := rfl
    refine ⟨fun hr => ?fence, fun ready => ?done, fun other => ?waits, fun hr list => ⟨?read, ?write⟩⟩
    case fence => exact runHost_eq _ s _ (Reach.act_fence _ die _ hr)
    case done => exact done.trans (next_dev (Dev.fenceDone_waits ready))
    case waits => exact done.trans (next_dev (Dev.fenceDone_none other))
    case read =>
      exact (runHost_eq _ s _ (Reach.act_pealRead _ die _ hr (Dev.memBad_list list rfl))).trans (next_dev (Dev.pealMemRead_list list))
    case write =>
      exact ⟨_, runHost_eq _ s _ (Reach.act_pealWrite _ die _ hr (Dev.memBad_list list rfl)), rfl, rfl, Dev.pealMemWrite_entry list,
        Dev.pealMemWrite_good list, fun e j _ within other => Dev.pealMemWrite_other list within other,
        Dev.pealMemWrite_groups list, Dev.pealMemWrite_edits list⟩

end Sys2Proof.Machine
end

section
/-! Trunk messages, transmit contexts and the miner (R271, R279–R283, R287, R289): what each message and each command on a context does. -/

namespace Sys2Proof.Machine

/-! Sending a message leaves the transmit contexts as they are (R270). -/

theorem Dev.touchNode_onlyTm (d : Dev) (m : Nat) : d.OnlyTm (d.touchNode m) :=
  .trans (List.foldlRecOn (motive := d.OnlyTm) _ _ (.refl d) fun _ h _ _ => h.trans (Dev.judge_onlyTm _ _ _ _)) (Dev.judge_onlyTm _ _ _ _)

theorem Dev.touchQueue_onlyTm (d : Dev) (q : Nat) : d.OnlyTm (d.touchQueue q) := (d.judge_onlyTm _ _ _).trans (Dev.touchNode_onlyTm _ _)

theorem Dev.OnlyTm.car {a b : Dev} (h : a.OnlyTm b) : b.car = a.car := (congrArg Dev.car h).symm

theorem Dev.cntAdd_car (d : Dev) (die q n : Nat) : (d.cntAdd die q n).car = d.car := by
  simp only [Dev.cntAdd, Dev.freeFell]
  split
  · exact (Dev.int_records _ _ _).car
  · rfl

theorem Dev.memberEnqueue_car (d : Dev) (q : Nat) {e : QEnt} (ctl : e.ctl = true) : (d.memberEnqueue q e).car = d.car := by
  have held : ¬ ((!e.ctl) = true ∧ (d.cntAdd e.srcDie q e.cells).direct q e.frameLen = true) := by simp [ctl]
  rw [Dev.memberEnqueue, if_neg held, (Dev.touchQueue_onlyTm _ _).car]
  exact d.cntAdd_car _ _ _

theorem Dev.setMember_tx (d : Dev) (t m : Nat) (x : Member) : (d.setMember t m x).car.tx = d.car.tx := rfl

theorem Dev.chargeMembers_tx (d : Dev) (die t m f : Nat) : (d.chargeMembers die t m f).car.tx = d.car.tx :=
  (Dev.setMember_tx _ _ _ _).trans (Dev.foldl_keeps (fun d => d.car.tx) _ _ (fun _ _ _ => Dev.setMember_tx _ _ _ _) d)

theorem Dev.grant_car (d : Dev) (res n : Nat) (req : List Nat) : (d.grant res n req).2.car = d.car := by
  obtain ⟨rr, same⟩ := d.grant_rr res n req
  rw [same]

theorem Dev.sendMessage_tx (d : Dev) (die t : Nat) (sequenced : Bool) (body : List Byte) : (d.sendMessage die t sequenced body).car.tx = d.car.tx := by
  have picked (ok : Nat → Bool) : (d.pickMember die t ok).2.car.tx = d.car.tx := congrArg Carillon.tx (d.grant_car _ _ _)
  simp only [Dev.sendMessage]
  split
  · rfl
  · split
    case _ r none => exact (congrArg (fun x => x.2.car.tx) none).symm.trans (picked _)
    case _ m u some =>
      have chosen : u.car.tx = d.car.tx := (congrArg (fun x => x.2.car.tx) some).symm.trans (picked _)
      rw [Dev.eliCnt, (Dev.bump_records _ _ _ _).car, Dev.memberEnqueue_car _ _ rfl]
      split
      · exact (Dev.chargeMembers_tx _ _ _ _ _).trans chosen
      · exact chosen

/-! Sequence numbers (R272) -/

theorem seqLater_iff (a b : Nat) : seqLater a b = true ↔ 0 < seqDist a b ∧ seqDist a b < 2 ^ 23 := by simp [seqLater]

theorem seqLater_antisymm {a b : Nat} (later : seqLater a b = true) : seqLater b a = false := by
  refine Bool.eq_false_iff.mpr fun earlier => ?_
  have forward := (seqLater_iff a b).mp later
  have back := (seqLater_iff b a).mp earlier
  unfold seqDist at forward back
  omega

/-! Messages at the receiver (R279–R281) -/

section
variable {d : Dev} {die t : Nat} {body : List Byte}

theorem ctx_of_field {v c epo : Nat} (low : c < 4096) (h : v = c + epo * 4096) : v % 4096 = c ∧ v / 4096 = epo := by omega

theorem Dev.actAtArrival_marker {m seq : Nat} (length : body.length = 8) (type : beAt body 0 1 = 6) :
    d.actAtArrival die t m seq body = d.setFloor t m seq := by
  simp only [Dev.actAtArrival, type, if_true, length]

/-- A reply or a notice goes to its context. -/
theorem Dev.actAtArrival_reply {m seq c epo ty : Nat} (running : d.running (eliPage die) = true) (low : c < 4096) (length : body.length = 8)
    (ctx : beAt body 2 2 = c + epo * 4096) (type : beAt body 0 1 = ty) (reply : ty = 2 ∨ ty = 3 ∨ ty = 5 ∨ ty = 7) :
    d.actAtArrival die t m seq body = d.replyMessage die t ty c epo := by
  obtain ⟨hc, he⟩ := ctx_of_field low ctx
  have other : ty ≠ 6 := by omega
  simp only [Dev.actAtArrival, type, if_neg other, length, reply, running, hc, he, decide_true, Bool.not_true, Bool.false_eq_true, ne_eq,
    not_true_eq_false, or_self, if_false]

section
variable {c epo : Nat} (same : (d.txCtx die t c).epo = epo)
include same

theorem Dev.replyMessage_ack (installing : (d.txCtx die t c).state = 1) :
    d.replyMessage die t 2 c epo = (d.setTxCtx die t c { d.txCtx die t c with state := 2 }).int (eliPage die) 1 := if_pos ⟨rfl, installing, same⟩

theorem Dev.replyMessage_nack (installing : (d.txCtx die t c).state = 1) :
    d.replyMessage die t 3 c epo = ((d.eliCnt die t 7).int (eliPage die) 2).ctxFree die t c := by
  simp only [Dev.replyMessage, (by decide : ¬ 3 = 2), installing, same, false_and, and_self, if_false, if_true]

theorem Dev.replyMessage_wdack (withdrawing : (d.txCtx die t c).state = 3) : d.replyMessage die t 5 c epo = d.ctxFree die t c := by
  simp only [Dev.replyMessage, (by decide : ¬ 5 = 2), (by decide : ¬ 5 = 3), withdrawing, same, false_and, and_self, if_false, if_true]

theorem Dev.replyMessage_stale (active : (d.txCtx die t c).state = 2) :
    d.replyMessage die t 7 c epo = d.startInstall die t c (d.txCtx die t c).len (d.txCtx die t c).nxt
      ((d.txCtx die t c).template.take (d.txCtx die t c).len) (d.txCtx die t c).autoSet (d.txCtx die t c).cand := by
  simp only [Dev.replyMessage, (by decide : ¬ 7 = 2), (by decide : ¬ 7 = 3), (by decide : ¬ 7 = 5), active, same, false_and, and_self, if_false,
    if_true]

end

section
variable {c epo : Nat} (running : d.running (eliPage die) = true) (low : c < 4096) (ctx : beAt body 2 2 = c + epo * 4096)
include running low ctx

/-- An INSTALL of a good template that the context does not hold already. -/
theorem Dev.actSequenced_install (type : beAt body 0 1 = 1) (length : body.length = 8 + beAt body 4 1)
    (good : templateCode (beAt body 4 1) (beAt body 5 1 % 4) (slice body 8 (beAt body 4 1)) = 0)
    (new : (d.rxCtx die t c).epo ≠ epo ∨ (d.rxCtx die t c).valid = false) :
    d.actSequenced die t body = (d.setRxCtx die t c ⟨true, epo, beAt body 4 1, beAt body 5 1 % 4, (d.rxCtx die t c).pkts,
      slice (slice body 8 (beAt body 4 1)) 0 128, (d.rxCtx die t c).noticed⟩).sendMessage die t false (msgBody 2 0 c epo 0 0 []) := by
  obtain ⟨hc, he⟩ := ctx_of_field low ctx
  have other (p : Prop) : ¬ ((d.rxCtx die t c).valid = true ∧ (d.rxCtx die t c).epo = epo ∧ p) := by
    rintro ⟨valid, same, -⟩
    exact new.elim (· same) fun unset => Bool.false_ne_true (unset.symm.trans valid)
  simp only [Dev.actSequenced, running, type, hc, he, if_neg (other _), length, good, ne_eq, not_true_eq_false, and_false, if_true, if_false]

theorem Dev.actSequenced_withdraw (type : beAt body 0 1 = 4) (length : body.length = 8) (same : (d.rxCtx die t c).epo = epo) :
    d.actSequenced die t body =
      (d.setRxCtx die t c { d.rxCtx die t c with valid := false }).sendMessage die t false (msgBody 5 0 c epo 0 0 []) := by
  obtain ⟨hc, he⟩ := ctx_of_field low ctx
  have other : ¬ (4 : Nat) = 1 := by decide
  simp only [Dev.actSequenced, running, type, hc, he, same, length, other, not_true_eq_false, Bool.not_true,
    Bool.false_eq_true, false_and, ne_eq, if_false, if_true]

end

/-- An INSTALL while receive elision is disabled is answered with NACK code 3. -/
theorem Dev.actSequenced_disabled (off : d.running (eliPage die) = false) (type : beAt body 0 1 = 1) (length : body.length = 8 + beAt body 4 1) :
    d.actSequenced die t body = d.sendMessage die t false (msgBody 3 3 (beAt body 2 2 % 4096) (beAt body 2 2 / 4096) 0 0 []) := by
  have code : ¬ (3 : Nat) = 0 := by decide
  simp only [Dev.actSequenced, off, type, length, code, ne_eq, not_true_eq_false, and_false, not_false_eq_true, Bool.false_eq_true, if_true, if_false]

end

/-! Commands on transmit contexts (R280, R287) -/

section
variable {d : Dev} {die t c : Nat}

theorem Dev.ctxInstall_good {len nxt : Nat} {tp : List Byte} (free : (d.txCtx die t c).state = 0) (good : templateCode len nxt (slice tp 0 len) = 0)
    (new : d.ctxTaken die t nxt (slice tp 0 len) = false) :
    (d.ctxInstall die t c len nxt tp).2 = d.startInstall die t c len nxt (slice tp 0 len) false (d.txCtx die t c).cand := by
  have ok : ¬ ((d.txCtx die t c).state ≠ 0 ∨ templateCode len nxt (slice tp 0 len) ≠ 0 ∨ d.ctxTaken die t nxt (slice tp 0 len) = true) :=
    fun h => h.elim (· free) fun h => h.elim (· good) (ne_true_of_eq_false new)
  rw [Dev.ctxInstall, if_neg ok]

theorem Dev.ctxInstall_bad {len nxt : Nat} {tp : List Byte}
    (bad : (d.txCtx die t c).state ≠ 0 ∨ templateCode len nxt (slice tp 0 len) ≠ 0 ∨ d.ctxTaken die t nxt (slice tp 0 len) = true) :
    (d.ctxInstall die t c len nxt tp).2 = d.err (eliPage die) 0x21 := by
  rw [Dev.ctxInstall, if_pos bad, Dev.ctxBad]

theorem Dev.ctxWithdraw_good (used : (d.txCtx die t c).state = 1 ∨ (d.txCtx die t c).state = 2) :
    (d.ctxWithdraw die t c).2 = d.startWithdraw die t c := by rw [Dev.ctxWithdraw, if_pos used]

theorem Dev.ctxWithdraw_bad (unused : (d.txCtx die t c).state = 0 ∨ (d.txCtx die t c).state = 3) :
    (d.ctxWithdraw die t c).2 = d.err (eliPage die) 0x21 := by
  have other : ¬ ((d.txCtx die t c).state = 1 ∨ (d.txCtx die t c).state = 2) := by omega
  rw [Dev.ctxWithdraw, if_neg other, Dev.ctxBad]

theorem Dev.txCtx_setTxCtx (d : Dev) (die t c : Nat) (x : TxCtx) : (d.setTxCtx die t c x).txCtx die t c = x :=
  Map.rd_wr_same TxCtx.init d.car.tx _ x

/-- The context's CAND names the candidate `k`. -/
def Dev.withCand (d : Dev) (die t c k : Nat) : Dev := d.setTxCtx die t c { d.txCtx die t c with cand := k }

/-- The miner's candidate `k`. -/
def Dev.candidate (d : Dev) (die k : Nat) : Cand := Map.rd Cand.init (d.miner die).cands k

theorem Dev.ctxInstallCand_unused {k : Nat} (unused : (d.candidate die k).used = false) :
    (d.ctxInstallCand die t c k).2 = (d.withCand die t c k).err (eliPage die) 0x21 := by
  have none : (!(Map.rd Cand.init ((d.withCand die t c k).miner die).cands k).used) = true := congrArg Bool.not unused
  simp only [Dev.withCand] at none
  simp only [Dev.ctxInstallCand, if_pos none, Dev.ctxBad, Dev.withCand]

theorem slice_whole (l : List Byte) : slice l 0 l.length = l := by simp [slice]

theorem Dev.ctxInstallCand_used {k : Nat} (used : (d.candidate die k).used = true) :
    (d.ctxInstallCand die t c k).2 = ((d.withCand die t c k).ctxInstall die t c (d.candidate die k).template.length (d.candidate die k).nxt
      (d.candidate die k).template).2 := by
  have some : ¬ (!(Map.rd Cand.init ((d.withCand die t c k).miner die).cands k).used) = true := by
    change ¬ (!(d.candidate die k).used) = true
    rw [used]
    decide
  exact congrArg Prod.snd (if_neg some)

theorem Dev.ctxInstallCand_good {k : Nat} (used : (d.candidate die k).used = true) (free : (d.txCtx die t c).state = 0)
    (good : templateCode (d.candidate die k).template.length (d.candidate die k).nxt (d.candidate die k).template = 0)
    (new : (d.withCand die t c k).ctxTaken die t (d.candidate die k).nxt (d.candidate die k).template = false) :
    (d.ctxInstallCand die t c k).2 = (d.withCand die t c k).startInstall die t c (d.candidate die k).template.length (d.candidate die k).nxt
      (d.candidate die k).template false k := by
  have written := d.txCtx_setTxCtx die t c { d.txCtx die t c with cand := k }
  have whole := slice_whole (d.candidate die k).template
  have installs := Dev.ctxInstall_good (d := d.withCand die t c k) (die := die) (t := t) (c := c)
    (len := (d.candidate die k).template.length) (nxt := (d.candidate die k).nxt) (tp := (d.candidate die k).template)
    ((congrArg TxCtx.state written).trans free) (by rw [whole]; exact good) (by rw [whole]; exact new)
  rw [Dev.ctxInstallCand_used used, installs, whole]
  exact congrArg ((d.withCand die t c k).startInstall die t c _ _ _ false) (congrArg TxCtx.cand written)

theorem Dev.ctxCommand_on (f : Dev → Dev) (on : d.pageOn (eliPage die) = true) : d.ctxCommand die f = f d := if_pos on
theorem Dev.ctxCommand_off (f : Dev → Dev) (off : d.pageOn (eliPage die) = false) : d.ctxCommand die f = d := if_neg (ne_true_of_eq_false off)

theorem Dev.startInstall_ctx (d : Dev) (die t c len nxt : Nat) (run : List Byte) (auto : Bool) (cand : Nat) :
    (d.startInstall die t c len nxt run auto cand).txCtx die t c =
      { d.txCtx die t c with state := 1, epo := ((d.txCtx die t c).epo + 1) % 16, autoSet := auto, len := len, nxt := nxt, tries := 1, cand := cand,
                             template := slice run 0 128 } := by
  rw [Dev.txCtx, Dev.startInstall, Dev.sendMessage_tx, Dev.setCtxState, (Dev.int_records _ _ _).car]
  exact d.txCtx_setTxCtx die t c _

/-! Retries (R280) -/

section
variable (home : d.trunkHome t = some die) (running : d.running (eliPage die) = true)
include home running

theorem Dev.messageRetry_eq : d.messageRetry t c =
    if (d.txCtx die t c).state = 1 then
      if (d.txCtx die t c).tries < d.msgRetries die t then
        (d.setTxCtx die t c { d.txCtx die t c with tries := (d.txCtx die t c).tries + 1 }).sendMessage die t true
          (msgBody 1 0 c (d.txCtx die t c).epo (d.txCtx die t c).len (d.txCtx die t c).nxt ((d.txCtx die t c).template.take (d.txCtx die t c).len))
      else ((d.eliCnt die t 7).int (eliPage die) 2).ctxFree die t c
    else if (d.txCtx die t c).state = 3 then
      if (d.txCtx die t c).tries < d.msgRetries die t then
        (d.setTxCtx die t c { d.txCtx die t c with tries := (d.txCtx die t c).tries + 1 }).sendMessage die t true
          (msgBody 4 0 c (d.txCtx die t c).epo 0 0 [])
      else d.ctxFree die t c
    else d := by
  rw [Dev.messageRetry, home]
  exact if_neg (by rw [running]; decide)

theorem Dev.messageRetry_installing (installing : (d.txCtx die t c).state = 1) : d.messageRetry t c =
    if (d.txCtx die t c).tries < d.msgRetries die t then
      (d.setTxCtx die t c { d.txCtx die t c with tries := (d.txCtx die t c).tries + 1 }).sendMessage die t true
        (msgBody 1 0 c (d.txCtx die t c).epo (d.txCtx die t c).len (d.txCtx die t c).nxt ((d.txCtx die t c).template.take (d.txCtx die t c).len))
    else ((d.eliCnt die t 7).int (eliPage die) 2).ctxFree die t c := (Dev.messageRetry_eq home running).trans (if_pos installing)

theorem Dev.messageRetry_withdrawing (withdrawing : (d.txCtx die t c).state = 3) : d.messageRetry t c =
    if (d.txCtx die t c).tries < d.msgRetries die t then
      (d.setTxCtx die t c { d.txCtx die t c with tries := (d.txCtx die t c).tries + 1 }).sendMessage die t true
        (msgBody 4 0 c (d.txCtx die t c).epo 0 0 [])
    else d.ctxFree die t c :=
  (Dev.messageRetry_eq home running).trans ((if_neg (by omega)).trans (if_pos withdrawing))

theorem Dev.messageRetry_settled (settled : (d.txCtx die t c).state = 0 ∨ (d.txCtx die t c).state = 2) : d.messageRetry t c = d :=
  (Dev.messageRetry_eq home running).trans ((if_neg (by omega)).trans (if_neg (by omega)))

end

end

/-! The miner's interval (R283) -/

section
variable {d : Dev} {die : Nat}

/-- The counts of every candidate are halved. -/
def Dev.halveCands (d : Dev) (die : Nat) : Dev :=
  d.setMiner die { d.miner die with cands := (d.miner die).cands.map fun z => (z.1, { z.2 with saved := z.2.saved / 2, err := z.2.err / 2 }) }

theorem Dev.minerInterval_none (running : d.running (eliPage die) = true) (on : d.get (eliPage die) F.ELI_MINE_EN = 1)
    (poor : ∀ i z, (i, z) ∈ (d.miner die).cands → z.used = true → z.saved - z.err < d.get (eliPage die) F.ELI_MINE_THR_MIN_SAVE) :
    d.minerInterval die = d.halveCands die := by
  have none : ((d.miner die).cands.filter fun c => c.2.used && decide (c.2.saved - c.2.err ≥ d.get (eliPage die) F.ELI_MINE_THR_MIN_SAVE)) = [] := by
    refine List.filter_eq_nil_iff.mpr fun c hc worth => ?_
    simp only [Bool.and_eq_true, decide_eq_true_eq] at worth
    exact absurd (poor c.1 c.2 hc worth.1) (Nat.not_lt.mpr worth.2)
  have goes : ¬ ((!d.running (eliPage die) || d.get (eliPage die) F.ELI_MINE_EN = 0) = true) := by
    rw [running, on]
    decide
  rw [Dev.minerInterval]
  refine (if_neg goes).trans ?_
  simp only [none]
  rfl

theorem Dev.minerInterval_stopped (off : d.running (eliPage die) = false) : d.minerInterval die = d := if_pos (by rw [off]; rfl)

end

/-- A message frame counts only on a member port with its type. -/
theorem Dev.messageFrame_good {d : Dev} {port ty : Nat} {frame : List Byte}
    (good : d.isMember port = true ∧ bit (shimFlg frame) 3 = true ∧ beAt (memberBody frame) 0 1 = ty) :
    d.messageFrame port ty frame = d.frameReceive port frame := by
  obtain ⟨member, message, type⟩ := good
  exact if_pos (by rw [member, message, type]; simp)

theorem Dev.messageFrame_other {d : Dev} {port ty : Nat} {frame : List Byte}
    (other : ¬ (d.isMember port = true ∧ bit (shimFlg frame) 3 = true ∧ beAt (memberBody frame) 0 1 = ty)) : d.messageFrame port ty frame = d :=
  if_neg fun h => other (by simpa [and_assoc] using h)

/-- Settles O46: the command of a message is its frame's arrival; each message and each command on a context has its own equation. -/
theorem contextsFollowTheirMessages : Obligations.ContextsFollowTheirMessages := by
  unfold Obligations.ContextsFollowTheirMessages
  refine ⟨⟨fun s port frame => ?frames, fun d die t m seq c epo body running low _ => ?messages, fun d die t body off type length => ?disabled,
    fun a b => seqLater_antisymm⟩, fun s die t c k len nxt tp req => ?commands⟩
  case frames =>
    exact ⟨fun h => next_dev (Dev.messageFrame_good h), fun h => next_dev (Dev.messageFrame_good h), fun h => next_dev (Dev.messageFrame_good h),
      fun h => next_dev (Dev.messageFrame_good h), fun h => next_dev (Dev.messageFrame_good h), fun h => next_dev (Dev.messageFrame_good h),
      fun h => next_dev (Dev.messageFrame_good h), fun h => next_dev (Dev.messageFrame_other h), fun h => next_dev (Dev.messageFrame_other h),
      fun h => next_dev (Dev.messageFrame_other h), fun h => next_dev (Dev.messageFrame_other h), fun h => next_dev (Dev.messageFrame_other h),
      fun h => next_dev (Dev.messageFrame_other h), fun h => next_dev (Dev.messageFrame_other h)⟩
  case messages =>
    refine ⟨fun length type => Dev.actAtArrival_marker length type, fun length ctx same => ⟨fun type state => ?ack, fun type state => ?nack,
      fun type state => ?wdack, fun type state => ?stale⟩, fun type ctx => fun length good new => ?install, fun type ctx length same => ?withdraw⟩
    case ack => exact (Dev.actAtArrival_reply running low length ctx type (by decide)).trans (Dev.replyMessage_ack same state)
    case nack => exact (Dev.actAtArrival_reply running low length ctx type (by decide)).trans (Dev.replyMessage_nack same state)
    case wdack => exact (Dev.actAtArrival_reply running low length ctx type (by decide)).trans (Dev.replyMessage_wdack same state)
    case stale => exact (Dev.actAtArrival_reply running low length ctx type (by decide)).trans (Dev.replyMessage_stale same state)
    case install => exact Dev.actSequenced_install running low ctx type length good new
    case withdraw => exact Dev.actSequenced_withdraw running low ctx type length same
  case disabled => exact Dev.actSequenced_disabled off type length
  case commands =>
    have retry : exec (.messageRetry t c) s = .next { s with dev := s.dev.messageRetry t.val c.val } := rfl
    have interval : exec (.minerInterval die) s = .next { s with dev := s.dev.minerInterval die.val } := rfl
    have install : exec (.ctxInstall die t c len nxt tp) s =
        .next { s with dev := s.dev.ctxCommand die.val (fun d => (d.ctxInstall die.val t.val c.val len.toNat nxt.toNat tp).2) } := rfl
    have withdraw : exec (.ctxWithdraw die t c) s =
        .next { s with dev := s.dev.ctxCommand die.val (fun d => (d.ctxWithdraw die.val t.val c.val).2) } := rfl
    have installCand : exec (.ctxInstallCandidate die t c k) s =
        .next { s with dev := s.dev.ctxCommand die.val (fun d => (d.ctxInstallCand die.val t.val c.val k.val).2) } := rfl
    refine ⟨fun on => ⟨fun free good new => ?install, fun bad => ?installBad, fun used => ?withdraw, fun unused => ?withdrawBad,
      fun unused => ?candBad, fun used free good new => ?cand⟩, fun off => ⟨?offInstall, ?offWithdraw, ?offCand⟩,
      fun home running => ⟨fun state tries => ?again, fun state tries => ?giveUp, fun state tries => ?withdrawAgain, fun state tries => ?withdrawn,
        fun settled => ?settled⟩, ?installed, fun hr => ?pop, fun running on poor => ?halve, fun off => ?idle⟩
    case install => exact install.trans (next_dev ((Dev.ctxCommand_on _ on).trans (Dev.ctxInstall_good free good new)))
    case installBad => exact install.trans (next_dev ((Dev.ctxCommand_on _ on).trans (Dev.ctxInstall_bad bad)))
    case withdraw => exact withdraw.trans (next_dev ((Dev.ctxCommand_on _ on).trans (Dev.ctxWithdraw_good used)))
    case withdrawBad => exact withdraw.trans (next_dev ((Dev.ctxCommand_on _ on).trans (Dev.ctxWithdraw_bad unused)))
    case candBad => exact installCand.trans (next_dev ((Dev.ctxCommand_on _ on).trans (Dev.ctxInstallCand_unused unused)))
    case cand => exact installCand.trans (next_dev ((Dev.ctxCommand_on _ on).trans (Dev.ctxInstallCand_good used free good new)))
    case offInstall => exact install.trans (next_dev (Dev.ctxCommand_off _ off))
    case offWithdraw => exact withdraw.trans (next_dev (Dev.ctxCommand_off _ off))
    case offCand => exact installCand.trans (next_dev (Dev.ctxCommand_off _ off))
    case again => exact retry.trans (next_dev ((Dev.messageRetry_installing home running state).trans (if_pos tries)))
    case giveUp => exact retry.trans (next_dev ((Dev.messageRetry_installing home running state).trans (if_neg (Nat.not_lt.mpr tries))))
    case withdrawAgain => exact retry.trans (next_dev ((Dev.messageRetry_withdrawing home running state).trans (if_pos tries)))
    case withdrawn => exact retry.trans (next_dev ((Dev.messageRetry_withdrawing home running state).trans (if_neg (Nat.not_lt.mpr tries))))
    case settled => exact retry.trans (next_dev (Dev.messageRetry_settled home running settled))
    case installed =>
      have ctx := s.dev.startInstall_ctx die.val t.val c.val len.toNat nxt.toNat (slice tp 0 len.toNat) false (s.dev.txCtx die.val t.val c.val).cand
      exact ⟨congrArg TxCtx.state ctx, congrArg TxCtx.epo ctx, congrArg TxCtx.len ctx⟩
    case pop => exact runHost_eq _ s _ (Reach.act_propPop _ die _ hr)
    case halve => exact interval.trans (next_dev (Dev.minerInterval_none running on poor))
    case idle => exact interval.trans (next_dev (Dev.minerInterval_stopped off))

end Sys2Proof.Machine
end

section
/-! A stack's training, refresh, choice of requests and temperature (R295–R302). -/

namespace Sys2Proof.Machine

/-! The controllers of the stacks -/

theorem Dev.hbm_setHbm (d : Dev) (h : Nat) (x : Hbm) : (d.setHbm h x).hbm h = x := Map.rd_wr_same Hbm.init d.hbms h x

theorem Dev.hbm_setHbm_ne (d : Dev) {h k : Nat} (x : Hbm) (other : k ≠ h) : (d.setHbm h x).hbm k = d.hbm k :=
  Map.rd_wr_ne Hbm.init Hbm.init d.hbms x other

theorem Dev.hbm_congr {a b : Dev} (h : a.hbms = b.hbms) (k : Nat) : a.hbm k = b.hbm k := by rw [Dev.hbm, h, Dev.hbm]

theorem Dev.setHbm_setHbm (d : Dev) (h : Nat) (x y : Hbm) : ((d.setHbm h x).setHbm h y).hbm h = y := Dev.hbm_setHbm _ h y

theorem Hbm.rank_setRank (x : Hbm) (p : Nat) (r : Rank) : (x.setRank p r).rank p = r := Map.rd_wr_same (Rank.init p) x.ranks p r

theorem Hbm.rank_setRank_ne (x : Hbm) {p q : Nat} (r : Rank) (other : q ≠ p) : (x.setRank p r).rank q = x.rank q :=
  Map.rd_wr_ne (Rank.init q) (Rank.init p) x.ranks r other

/-- The first `n` ranks, each replaced by what `f` makes of it. -/
def Hbm.mapRanks (f : Nat → Rank → Rank) (n : Nat) (x : Hbm) : Hbm := (List.range n).foldl (fun x q => x.setRank q (f q (x.rank q))) x

theorem Hbm.mapRanks_rank (f : Nat → Rank → Rank) (x : Hbm) (r : Nat) : ∀ n, (x.mapRanks f n).rank r = if r < n then f r (x.rank r) else x.rank r
  | 0 => rfl
  | n + 1 => by
    have step : x.mapRanks f (n + 1) = (x.mapRanks f n).setRank n (f n ((x.mapRanks f n).rank n)) := by
      simp only [Hbm.mapRanks, List.range_succ, List.foldl_append, List.foldl_cons, List.foldl_nil]
    rw [step]
    by_cases last : r = n
    · subst last
      rw [Hbm.rank_setRank, Hbm.mapRanks_rank f x r r, if_neg (Nat.lt_irrefl r), if_pos (Nat.lt_succ_self r)]
    · rw [Hbm.rank_setRank_ne _ _ last, Hbm.mapRanks_rank f x r n]
      exact if_congr (by omega) rfl rfl

/-- Only the ranks change. -/
theorem Hbm.mapRanks_only (f : Nat → Rank → Rank) (n : Nat) (x : Hbm) : ∃ ranks, x.mapRanks f n = { x with ranks := ranks } := by
  refine List.foldlRecOn (motive := fun y : Hbm => ∃ ranks, y = { x with ranks := ranks }) _ _ ⟨x.ranks, rfl⟩ fun y hy q _ => ?_
  obtain ⟨ranks, rfl⟩ := hy
  exact ⟨_, rfl⟩

/-! Training (R299–R301) -/

section
variable {d : Dev} {h : Nat}

/-- Training has ended. -/
def Dev.untrain (d : Dev) (h : Nat) : Dev := d.setHbm h { d.hbm h with training := false }

/-- No rank, row or request is left of what came before. -/
def Dev.blankStack (d : Dev) (h : Nat) : Dev := d.setHbm h { d.hbm h with ranks := [], rows := [], reqs := [], hits := [], run := [] }

/-- The contents of a stack are zeroed. -/
def Dev.zeroStack (d : Dev) (h : Nat) : Dev :=
  { d with hbmMem := d.hbmMem.dropRange (h * 2 ^ 33) ((h + 1) * 2 ^ 33), hbmBad := d.hbmBad.dropRange (h * 2 ^ 33) ((h + 1) * 2 ^ 33) }

/-- The configuration comes in force. -/
def Dev.configured (d : Dev) (h : Nat) : Dev :=
  d.setHbm h { d.hbm h with full := some (d.live (hbmPage h) F.HBM_CFG_RATE, min 5 (d.live (hbmPage h) F.HBM_CFG_GRAIN)) }

theorem Dev.trainingDone_idle (idle : (d.hbm h).training = false) (fault : Option (Fin 3)) (failed : List (Fin 32)) :
    d.trainingDone h fault failed = d := if_pos (by rw [idle]; rfl)

section
variable (training : (d.hbm h).training = true)
include training

theorem Dev.trainingDone_short (short : (d.hbm h).fullNow = false) (fault : Option (Fin 3)) (failed : List (Fin 32)) :
    d.trainingDone h fault failed =
      if (d.hbm h).image = (d.untrain h).imageNow h then d.untrain h else ((d.untrain h).takeImage h).showHbm h :=
  (if_neg (by rw [training]; decide)).trans (if_pos (by rw [short]; rfl))

variable (full : (d.hbm h).fullNow = true)
include full

/-- Full training ends by the fault that counts. -/
theorem Dev.trainingDone_full (fault : Option (Fin 3)) (failed : List (Fin 32)) : d.trainingDone h fault failed =
    match fault.filter fun c => c.val ≠ 2 ∨ (d.untrain h).live (hbmPage h) F.HBM_CFG_BIST = 1 with
    | some c => (d.untrain h).startFail (hbmPage h) (3 + c.val)
    | none =>
      let r := (((d.untrain h).blankStack h).takeImage h).substituteAll h ((List.range 32).filter fun q => failed.any fun f => f.val = q)
      if !r.1 then r.2.startFail (hbmPage h) 2 else (((r.2.configured h).zeroStack h).set (hbmPage h) F.HBM_STAT_TRAINED 1).showHbm h := by
  refine (if_neg (by rw [training]; decide)).trans ((if_neg (by rw [full]; decide)).trans ?_)
  split
  all_goals simp_all only [Dev.untrain]
  all_goals rfl

theorem Dev.trainingDone_fault {c : Fin 3} (counts : c.val ≠ 2 ∨ d.live (hbmPage h) F.HBM_CFG_BIST = 1) (failed : List (Fin 32)) :
    d.trainingDone h (some c) failed = (d.untrain h).startFail (hbmPage h) (3 + c.val) := by
  have kept : (some c).filter (fun c => c.val ≠ 2 ∨ (d.untrain h).live (hbmPage h) F.HBM_CFG_BIST = 1) = some c :=
    Option.filter_some_pos (decide_eq_true counts)
  rw [Dev.trainingDone_full training full, kept]

theorem Dev.trainingDone_noBist {c : Fin 3} (self : c.val = 2) (off : d.live (hbmPage h) F.HBM_CFG_BIST ≠ 1) (failed : List (Fin 32)) :
    d.trainingDone h (some c) failed = d.trainingDone h none failed := by
  have dropped : (some c).filter (fun c => c.val ≠ 2 ∨ (d.untrain h).live (hbmPage h) F.HBM_CFG_BIST = 1) = none :=
    Option.filter_some_neg (decide_eq_false fun counts => counts.elim (· self) off)
  rw [Dev.trainingDone_full training full, Dev.trainingDone_full training full, dropped]
  rfl

theorem Dev.trainingDone_good : d.trainingDone h none [] =
    ((((((d.untrain h).blankStack h).takeImage h).configured h).zeroStack h).set (hbmPage h) F.HBM_STAT_TRAINED 1).showHbm h := by
  have noneFailed : ((List.range 32).filter fun q => ([] : List (Fin 32)).any fun f => f.val = q) = [] := List.filter_eq_nil_iff.mpr fun _ _ => by simp
  rw [Dev.trainingDone_full training full]
  simp only [Option.filter_none, noneFailed, Dev.substituteAll, List.filter_nil, List.append_nil, Dev.substituteList, Bool.not_true,
    Bool.false_eq_true, if_false]

end

theorem Dev.takeImage_eq (d : Dev) (h : Nat) : d.takeImage h =
    d.setHbm h { (d.hbm h).mapRanks (fun q r => { d.imageRank h q with ce := r.ce, ue := r.ue }) 32 with
      image := d.imageNow h, mig := none, failed := none, queued := [] } := by
  unfold Dev.takeImage Hbm.mapRanks
  rfl

/-- The image gives the ranks; counts of errors stay. -/
theorem Dev.takeImage_hbm (d : Dev) (h : Nat) : ∃ ranks, (d.takeImage h).hbm h =
      { d.hbm h with ranks := ranks, image := d.imageNow h, mig := none, failed := none, queued := [] } ∧
    ∀ q, q < 32 → ((d.takeImage h).hbm h).rank q = { d.imageRank h q with ce := ((d.hbm h).rank q).ce, ue := ((d.hbm h).rank q).ue } := by
  obtain ⟨ranks, only⟩ := Hbm.mapRanks_only (fun q r => { d.imageRank h q with ce := r.ce, ue := r.ue }) 32 (d.hbm h)
  have image : (d.takeImage h).hbm h =
      { d.hbm h with ranks := ranks, image := d.imageNow h, mig := none, failed := none, queued := [] } := by
    rw [Dev.takeImage_eq, Dev.hbm_setHbm, only]
  refine ⟨ranks, image, fun q hq => ?_⟩
  have mapped := Hbm.mapRanks_rank (fun q r => { d.imageRank h q with ce := r.ce, ue := r.ue }) (d.hbm h) q 32
  rw [only, if_pos hq] at mapped
  rw [image]
  exact mapped

theorem Dev.showHbm_hbm (d : Dev) (h k : Nat) : (d.showHbm h).hbm k = d.hbm k := by
  rw [Dev.hbm, Dev.showHbm, Dev.set_hbms, Dev.set_hbms, Dev.set_hbms, Dev.hbm]

theorem Dev.showHbm_hbmMem (d : Dev) (h : Nat) : (d.showHbm h).hbmMem = d.hbmMem := by
  rw [Dev.showHbm, Dev.set_hbmMem, Dev.set_hbmMem, Dev.set_hbmMem]

theorem Dev.showHbm_trained (d : Dev) (h : Nat) : (d.showHbm h).trained h = d.trained h := by
  rw [Dev.trained, Dev.showHbm, Dev.get_set_apart _ _ F.HBM_STAT_QUEUED F.HBM_STAT_TRAINED _ rfl (by decide) (by decide),
    Dev.get_set_apart _ _ F.HBM_STAT_MIG F.HBM_STAT_TRAINED _ rfl (by decide) (by decide),
    Dev.get_set_apart _ _ F.HBM_STAT_SPARES F.HBM_STAT_TRAINED _ rfl (by decide) (by decide), Dev.trained]

theorem Map.rd_filter_out (v : α) (keep : Nat × α → Bool) {x : Nat} (out : ∀ a, keep (x, a) = false) : ∀ m : Map α, Map.rd v (List.filter keep m) x = v
  | [] => rfl
  | (k, a) :: r => by
    rw [List.filter_cons]
    split
    · next kept =>
      have apart : x ≠ k := by rintro rfl; exact Bool.false_ne_true ((out a).symm.trans kept)
      exact (if_neg apart).trans (Map.rd_filter_out v keep out r)
    · exact Map.rd_filter_out v keep out r

/-- A dropped key reads as unlisted. -/
theorem Map.rd_dropRange_in (v : α) (m : Map α) {lo hi x : Nat} (low : lo ≤ x) (high : x < hi) : Map.rd v (Map.dropRange m lo hi) x = v :=
  Map.rd_filter_out v _ (fun _ => by simp [Nat.not_lt.mpr low, Nat.not_le.mpr high]) m

theorem Dev.zeroStack_reads (d : Dev) (h : Nat) {a n : Nat} (within : a + n ≤ hbmSize) (aligned : a % 4 = 0) :
    (d.zeroStack h).hbmRead h a n = List.replicate n 0 := by
  have size : hbmSize = 24159191040 := by decide
  refine Dev.hbmRead_unwritten n fun i hi => Map.rd_dropRange_in 0 d.hbmMem ?_ ?_
  · unfold hbmKey
    omega
  · unfold cdiv at hi
    unfold hbmKey
    omega

theorem Dev.hbmRead_congr {a b : Dev} (same : a.hbmMem = b.hbmMem) (h x n : Nat) : a.hbmRead h x n = b.hbmRead h x n := by
  rw [Dev.hbmRead, same, Dev.hbmRead]

/-- The stack as full training leaves it. -/
def Dev.trainedStack (d : Dev) (h : Nat) : Dev := (((d.untrain h).blankStack h).takeImage h).configured h

theorem Dev.imageRank_congr {a b : Dev} (csr : a.csr = b.csr) (h q : Nat) : a.imageRank h q = b.imageRank h q := by
  simp only [Dev.imageRank, Dev.live_congr csr]

theorem Dev.imageRank_counts (d : Dev) (h q : Nat) : { d.imageRank h q with ce := 0, ue := 0 } = d.imageRank h q := rfl

theorem Rank.init_counts (q : Nat) : (Rank.init q).ce = 0 ∧ (Rank.init q).ue = 0 := ⟨rfl, rfl⟩

theorem Dev.trainedStack_hbm (d : Dev) (h : Nat) : ((d.trainedStack h).hbm h).training = false ∧
    ((d.trainedStack h).hbm h).full = some (d.live (hbmPage h) F.HBM_CFG_RATE, min 5 (d.live (hbmPage h) F.HBM_CFG_GRAIN)) ∧
    ((d.trainedStack h).hbm h).reqs = [] ∧ ((d.trainedStack h).hbm h).rows = [] ∧ ∀ q, q < 32 → ((d.trainedStack h).hbm h).rank q = d.imageRank h q := by
  have blank : ((d.untrain h).blankStack h).hbm h =
      { d.hbm h with training := false, ranks := [], rows := [], reqs := [], hits := [], run := [] } :=
    (Dev.hbm_setHbm _ h _).trans (by rw [Dev.untrain, Dev.hbm_setHbm])
  obtain ⟨ranks, image, rank⟩ := ((d.untrain h).blankStack h).takeImage_hbm h
  have last : (d.trainedStack h).hbm h = { (((d.untrain h).blankStack h).takeImage h).hbm h with
      full := some (d.live (hbmPage h) F.HBM_CFG_RATE, min 5 (d.live (hbmPage h) F.HBM_CFG_GRAIN)) } := Dev.hbm_setHbm _ h _
  refine ⟨?_, ?_, ?_, ?_, fun q hq => ?_⟩
  · rw [last, image, blank]
  · rw [last]
  · rw [last, image, blank]
  · rw [last, image, blank]
  · have counts : (((d.untrain h).blankStack h).hbm h).rank q = Rank.init q := by
      rw [blank]
      rfl
    rw [last]
    refine (rank q hq).trans ?_
    rw [counts, Dev.imageRank_congr (b := d) rfl]
    exact d.imageRank_counts h q

/-! Rows and refresh (R296, R297) -/

section
variable {rank bank : Nat} (trained : d.trained h = true) (on : d.fn (hbmPage h) ≠ 0)
include trained on

theorem Dev.refresh_goes {how : Nat} (now : how ≠ 1) : ¬ ((!d.trained h) = true ∨ d.selfRefresh h = true ∨ how = 1) := by
  have awake : d.selfRefresh h = false := by rw [Dev.selfRefresh, beq_eq_false_iff_ne.mpr on, Bool.false_and]
  rw [trained, awake]
  simpa using now

theorem Dev.refresh_issued : d.refresh h rank bank 0 = d.closeRow h rank bank := by
  rw [Dev.refresh, if_neg (Dev.refresh_goes trained on (by decide)), if_neg (by decide)]

theorem Dev.refresh_forced : d.refresh h rank bank 2 = (d.closeRow h rank bank).cnt (hbmPage h) F.HBM_CNT_COUNT 5 := by
  rw [Dev.refresh, if_neg (Dev.refresh_goes trained on (by decide)), if_pos rfl]

end

theorem Dev.refresh_stopped (stopped : d.fn (hbmPage h) = 0) (rank bank how : Nat) : d.refresh h rank bank how = d := by
  refine if_pos ?_
  rw [Dev.selfRefresh, stopped]
  cases d.trained h <;> simp

/-! The choice of a command slot (R294, R295) -/

theorem Dev.oldest_mem {res : Nat} {l : List HbmReq} {q : HbmReq} {e : Dev} (chosen : d.oldest res l = (some q, e)) : q ∈ l := by
  unfold Dev.oldest at chosen
  split at chosen
  · exact absurd (congrArg Prod.fst chosen) (by simp)
  · exact (List.mem_filter.mp (List.mem_of_find?_eq_some (congrArg Prod.fst chosen))).1

theorem foldl_max_ge (l : List Nat) : ∀ a, a ≤ l.foldl max a ∧ ∀ b ∈ l, b ≤ l.foldl max a := by
  induction l with
  | nil => exact fun a => ⟨Nat.le_refl a, fun _ hb => absurd hb (List.not_mem_nil)⟩
  | cons c r ih =>
    intro a
    obtain ⟨start, rest⟩ := ih (max a c)
    refine ⟨Nat.le_trans (Nat.le_max_left a c) start, fun b hb => ?_⟩
    rcases List.mem_cons.mp hb with rfl | later
    · exact Nat.le_trans (Nat.le_max_right a b) start
    · exact rest b later

theorem Dev.hbmChoose_urgent {rank : Nat} {l : List HbmReq} {q : HbmReq} {e : Dev} (chosen : d.hbmChoose h rank l = (some q, e)) :
    q ∈ l ∧ ∀ r ∈ l, d.urgency h r ≤ d.urgency h q := by
  have offered := Dev.oldest_mem chosen
  have urgent : q ∈ l.filter fun q => d.urgency h q = (l.map (d.urgency h)).foldl max 0 := by
    split at offered
    · exact offered
    · exact (List.mem_filter.mp offered).1
  obtain ⟨mem, top⟩ := List.mem_filter.mp urgent
  refine ⟨mem, fun r hr => ?_⟩
  rw [of_decide_eq_true top]
  exact (foldl_max_ge _ 0).2 _ (List.mem_map_of_mem hr)

/-! Temperature (R298) -/

section
variable {t : Nat}

/-- The temperature is shown, with the warning. -/
def Dev.shownTemp (d : Dev) (h t : Nat) : Dev :=
  let u := d.set (hbmPage h) F.HBM_TEMP_TEMP t
  if toSigned 8 t ≥ (u.get (hbmPage h) F.HBM_TEMP_WARN : Int) then u.int (hbmPage h) 5 else u

/-- The throttle follows the temperature. -/
def Dev.throttled (d : Dev) (h t : Nat) : Dev :=
  let c := toSigned 8 t
  let hot := (d.get (hbmPage h) F.HBM_TEMP_HOT : Int)
  let was := d.get (hbmPage h) F.HBM_STAT_THROTTLE = 1
  if !was ∧ c ≥ hot then (d.set (hbmPage h) F.HBM_STAT_THROTTLE 1).int (hbmPage h) 6
  else if was ∧ c < hot - 5 then d.set (hbmPage h) F.HBM_STAT_THROTTLE 0 else d

/-- How many readings in a row were 105 °C or above. -/
def Dev.hotReadings (d : Dev) (h t : Nat) : Nat := if toSigned 8 t ≥ 105 then (d.hbm h).hot + 1 else 0

theorem Dev.hbmTemp_eq (d : Dev) (h t : Nat) : d.hbmTemp h t =
    let u := (d.shownTemp h t).throttled h t
    (decide (u.hotReadings h t ≥ 2), u.setHbm h { u.hbm h with hot := u.hotReadings h t }) := rfl

theorem Dev.shownTemp_records (d : Dev) (h t : Nat) : d.Records (d.shownTemp h t) :=
  .ite _ ((d.set_records _ _ _).trans (Dev.int_records _ _ _)) (d.set_records _ _ _)

theorem Dev.throttled_records (d : Dev) (h t : Nat) : d.Records (d.throttled h t) :=
  .ite _ ((d.set_records _ _ _).trans (Dev.int_records _ _ _)) (.ite _ (d.set_records _ _ _) (.refl d))

theorem Dev.throttled_hbm (d : Dev) (h t : Nat) : ((d.shownTemp h t).throttled h t).hbm h = d.hbm h :=
  Dev.hbm_congr ((d.shownTemp_records h t).trans (Dev.throttled_records _ h t)).hbms h

theorem Dev.hbmTemp_trip (d : Dev) (h t : Nat) : (d.hbmTemp h t).1 = decide (d.hotReadings h t ≥ 2) := by
  rw [Dev.hbmTemp_eq]
  dsimp only
  rw [Dev.hotReadings, Dev.throttled_hbm, Dev.hotReadings]

theorem Dev.hbmTemp_hot (d : Dev) (h t : Nat) : ((d.hbmTemp h t).2.hbm h).hot = d.hotReadings h t := by
  rw [Dev.hbmTemp_eq]
  dsimp only
  rw [Dev.hbm_setHbm, Dev.hotReadings, Dev.throttled_hbm, Dev.hotReadings]

theorem Dev.hbmTemp_get (d : Dev) (h t : Nat) (f : Fld) :
    (d.hbmTemp h t).2.get (hbmPage h) f = ((d.shownTemp h t).throttled h t).get (hbmPage h) f := rfl

theorem Dev.shownTemp_get (d : Dev) (h t : Nat) {f : Fld} (low : 0x100 ≤ f.off) (high : f.off < 65536) :
    (d.shownTemp h t).get (hbmPage h) f = (d.set (hbmPage h) F.HBM_TEMP_TEMP t).get (hbmPage h) f := by
  simp only [Dev.shownTemp]
  split
  · exact Dev.get_int _ _ _ _ low high
  · rfl

theorem Dev.throttled_temp (d : Dev) (h t : Nat) : (d.throttled h t).get (hbmPage h) F.HBM_TEMP_TEMP = d.get (hbmPage h) F.HBM_TEMP_TEMP := by
  have apart (e : Dev) (v : Nat) : (e.set (hbmPage h) F.HBM_STAT_THROTTLE v).get (hbmPage h) F.HBM_TEMP_TEMP = e.get (hbmPage h) F.HBM_TEMP_TEMP :=
    Dev.get_set_ne _ _ _ _ _ _ (by simp [csrKey])
  simp only [Dev.throttled]
  split
  · exact (Dev.get_int _ _ _ _ (by decide) (by decide)).trans (apart d 1)
  · split
    · exact apart d 0
    · rfl

theorem Dev.hbmTemp_shows {t : Nat} (byte : t < 256) : (d.hbmTemp h t).2.get (hbmPage h) F.HBM_TEMP_TEMP = t := by
  rw [Dev.hbmTemp_get, Dev.throttled_temp, Dev.shownTemp_get _ _ _ (by decide) (by decide), Dev.get_set_same _ _ _ _ (by decide)]
  exact Nat.mod_eq_of_lt byte

theorem Dev.shownTemp_hot (d : Dev) (h t : Nat) : (d.shownTemp h t).get (hbmPage h) F.HBM_TEMP_HOT = d.get (hbmPage h) F.HBM_TEMP_HOT := by
  rw [Dev.shownTemp_get _ _ _ (by decide) (by decide)]
  exact Dev.get_set_apart _ _ F.HBM_TEMP_TEMP F.HBM_TEMP_HOT _ rfl (by decide) (by decide)

theorem Dev.shownTemp_throttle (d : Dev) (h t : Nat) :
    (d.shownTemp h t).get (hbmPage h) F.HBM_STAT_THROTTLE = d.get (hbmPage h) F.HBM_STAT_THROTTLE := by
  rw [Dev.shownTemp_get _ _ _ (by decide) (by decide)]
  exact Dev.get_set_ne _ _ _ _ _ _ (by simp [csrKey])

theorem Dev.throttled_off (off : d.get (hbmPage h) F.HBM_STAT_THROTTLE = 0) :
    (d.throttled h t).get (hbmPage h) F.HBM_STAT_THROTTLE = if (d.get (hbmPage h) F.HBM_TEMP_HOT : Int) ≤ toSigned 8 t then 1 else 0 := by
  have was : ¬ d.get (hbmPage h) F.HBM_STAT_THROTTLE = 1 := by omega
  simp only [Dev.throttled, was, decide_false, Bool.not_false, true_and, false_and, if_false, ge_iff_le]
  split
  · exact (Dev.get_int _ _ _ _ (by decide) (by decide)).trans (Dev.get_set_same _ _ _ _ (by decide))
  · exact off

theorem Dev.throttled_on (on : d.get (hbmPage h) F.HBM_STAT_THROTTLE = 1) :
    (d.throttled h t).get (hbmPage h) F.HBM_STAT_THROTTLE = if toSigned 8 t < (d.get (hbmPage h) F.HBM_TEMP_HOT : Int) - 5 then 0 else 1 := by
  simp only [Dev.throttled, on, decide_true, Bool.not_true, Bool.false_eq_true, true_and, false_and, if_false]
  split
  · exact Dev.get_set_same _ _ _ _ (by decide)
  · exact on

theorem Dev.hbmTemp_throttles (off : d.get (hbmPage h) F.HBM_STAT_THROTTLE = 0) :
    (d.hbmTemp h t).2.get (hbmPage h) F.HBM_STAT_THROTTLE = 1 ↔ (d.get (hbmPage h) F.HBM_TEMP_HOT : Int) ≤ toSigned 8 t := by
  rw [Dev.hbmTemp_get, Dev.throttled_off ((d.shownTemp_throttle h t).trans off), Dev.shownTemp_hot]
  split <;> simp [*]

theorem Dev.hbmTemp_releases (on : d.get (hbmPage h) F.HBM_STAT_THROTTLE = 1) :
    (d.hbmTemp h t).2.get (hbmPage h) F.HBM_STAT_THROTTLE = 0 ↔ toSigned 8 t < (d.get (hbmPage h) F.HBM_TEMP_HOT : Int) - 5 := by
  rw [Dev.hbmTemp_get, Dev.throttled_on ((d.shownTemp_throttle h t).trans on), Dev.shownTemp_hot]
  split <;> simp [*]

theorem Dev.hbmTempRead_eq (d : Dev) (h t : Nat) : d.hbmTempRead h t =
    if !d.domOn (14 + h) then d
    else if !(d.hbmTemp h t).1 then (d.hbmTemp h t).2.thermRelease
    else ((((d.hbmTemp h t).2.setPower { (d.hbmTemp h t).2.power with thermLow := true }).err 0x02 0x25 (32 + h)).dropReq [14 + h]).switchOffNow
      [14 + h] := rfl

section
variable (on : d.domOn (14 + h) = true)
include on

theorem Dev.hbmTempRead_cool (cool : toSigned 8 t < 105 ∨ (d.hbm h).hot = 0) : d.hbmTempRead h t = (d.hbmTemp h t).2.thermRelease := by
  have few : (d.hbmTemp h t).1 = false := by
    rw [Dev.hbmTemp_trip, Dev.hotReadings]
    split
    · have first : (d.hbm h).hot = 0 := by omega
      rw [first]
      decide
    · decide
  rw [Dev.hbmTempRead_eq, on, few]
  rfl

theorem Dev.hbmTempRead_trips (hot : 105 ≤ toSigned 8 t) (again : 0 < (d.hbm h).hot) : d.hbmTempRead h t =
    (((((d.hbmTemp h t).2.setPower { (d.hbmTemp h t).2.power with thermLow := true }).err 0x02 0x25 (32 + h)).dropReq [14 + h]).switchOffNow [14 + h]) := by
  have trips : (d.hbmTemp h t).1 = true := by
    rw [Dev.hbmTemp_trip, Dev.hotReadings, if_pos hot]
    exact decide_eq_true (by omega)
  rw [Dev.hbmTempRead_eq, on, trips]
  rfl

end

end

end

/-- Settles O49: training's end by its cause, refresh outside self-refresh, the most urgent request, and the temperature's throttle and
trip. -/
theorem stacksTrainRefreshAndWatch : Obligations.StacksTrainRefreshAndWatch := by
  unfold Obligations.StacksTrainRefreshAndWatch
  refine ⟨fun s h rank bank failed => ?stack, fun d e h rank l q => Dev.hbmChoose_urgent, fun s h t => ?temperature⟩
  case stack =>
    have done (fault : Option (Fin 3)) (l : List (Fin 32)) : exec (.trainingDone h fault l) s = .next { s with dev := s.dev.trainingDone h.val fault l } := rfl
    have refresh (how : Fin 3) : exec (.refresh h rank bank how) s = .next { s with dev := s.dev.refresh h.val rank.val bank.val how.val } := rfl
    refine ⟨fun idle => ?idle, fun training short same => ?same, fun training short changed => ?changed,
      fun training full c => ⟨fun counts => ?fault, fun self off => ?noBist⟩, fun training full => ?good, rfl, rfl, fun trained on => ?issued, ?postponed,
      fun trained on => ?forced, fun stopped how => ?stopped⟩
    case idle => exact (done none failed).trans (next_dev (Dev.trainingDone_idle idle none failed))
    case same => exact (done none failed).trans (next_dev ((Dev.trainingDone_short training short none failed).trans (if_pos same)))
    case changed => exact (done none failed).trans (next_dev ((Dev.trainingDone_short training short none failed).trans (if_neg changed)))
    case fault => exact (done (some c) failed).trans (next_dev (Dev.trainingDone_fault training full counts failed))
    case noBist =>
      exact (done (some c) failed).trans ((next_dev (Dev.trainingDone_noBist training full self off failed)).trans (done none failed).symm)
    case good =>
      obtain ⟨ended, config, reqs, rows, ranks⟩ := s.dev.trainedStack_hbm h.val
      have stack : ((((s.dev.trainedStack h.val).zeroStack h.val).set (hbmPage h.val) F.HBM_STAT_TRAINED 1).showHbm h.val).hbm h.val =
        (s.dev.trainedStack h.val).hbm h.val := Dev.showHbm_hbm _ h.val h.val
      refine ⟨_, (done none []).trans (next_dev (Dev.trainingDone_good training full)), rfl, rfl, ?_, (congrArg Hbm.training stack).trans ended,
        (congrArg Hbm.full stack).trans config, (congrArg Hbm.reqs stack).trans reqs, (congrArg Hbm.rows stack).trans rows,
        fun q hq => (congrArg (Hbm.rank · q) stack).trans (ranks q hq), fun a n within aligned => ?_⟩
      · exact (Dev.showHbm_trained _ h.val).trans (beq_iff_eq.mpr (Dev.get_set_same _ _ _ _ (by decide)))
      · exact (Dev.hbmRead_congr (Dev.showHbm_hbmMem _ h.val) h.val a n).trans (Dev.zeroStack_reads _ h.val within aligned)
    case issued => exact (refresh 0).trans (next_dev (Dev.refresh_issued trained on))
    case postponed => exact (refresh 1).trans (next_dev (if_pos (Or.inr (Or.inr rfl))))
    case forced => exact (refresh 2).trans (next_dev (Dev.refresh_forced trained on))
    case stopped => exact (refresh how).trans (next_dev (Dev.refresh_stopped stopped _ _ _))
  case temperature =>
    have reads : exec (.hbmTempRead h t) s = .next { s with dev := s.dev.hbmTempRead h.val t.val } := rfl
    have limit : exec (.hbmStopLimit h) s = .next { s with dev := s.dev.hbmStopLimit h.val } := rfl
    refine ⟨fun off => ?off, fun on => ⟨fun cool => ?cool, fun hot again => ?trips⟩, ⟨Dev.hbmTemp_shows t.isLt, s.dev.hbmTemp_hot h.val t.val,
      Dev.hbmTemp_throttles, Dev.hbmTemp_releases⟩, fun stopping on => ?limit, fun other => ?noLimit⟩
    case off => exact reads.trans (next_dev (if_pos (by rw [off]; rfl)))
    case cool => exact reads.trans (next_dev (Dev.hbmTempRead_cool on cool))
    case trips => exact reads.trans (next_dev (Dev.hbmTempRead_trips on hot again))
    case limit => exact limit.trans (next_dev (if_pos ⟨stopping, on⟩))
    case noLimit => exact limit.trans (next_dev (if_neg fun h => other h.1))

end Sys2Proof.Machine
end

section
/-! The patrol scrub, the migration of a rank and the counter pairs (R303–R308). -/

namespace Sys2Proof.Machine

section
variable {d : Dev} {h : Nat}

/-! Issuing a request changes the rows, the requests and the counts (R294–R296). -/

theorem Dev.hbmIssue_hbmBad (d : Dev) (h : Nat) (q : HbmReq) : (d.hbmIssue h q).hbmBad = d.hbmBad := by
  simp only [Dev.hbmIssue]
  split
  · exact (Dev.cnt_records _ _ _ _).hbmBad.trans (Dev.cnt_records _ _ _ _).hbmBad
  · exact (Dev.cnt_records _ _ _ _).hbmBad

theorem Dev.hbmNow_hbmBad (d : Dev) (h port : Nat) (write : Bool) (a n : Nat) : (d.hbmNow h port write a n).hbmBad = d.hbmBad :=
  Dev.foldl_keeps Dev.hbmBad _ _ (fun d q _ => d.hbmIssue_hbmBad h q) d

/-- `b` has the grain and the migration of `a`. -/
def Hbm.SameMig (a b : Hbm) : Prop := b.full = a.full ∧ b.mig = a.mig

theorem Dev.hbmIssue_sameMig (d : Dev) (h : Nat) (q : HbmReq) : (d.hbm h).SameMig ((d.hbmIssue h q).hbm h) := by
  simp only [Dev.hbmIssue]
  split
  · rw [Dev.hbm_congr ((Dev.cnt_records _ _ _ _).hbms.trans (Dev.cnt_records _ _ _ _).hbms), Dev.hbm_setHbm]
    exact ⟨rfl, rfl⟩
  · rw [Dev.hbm_congr (Dev.cnt_records _ _ _ _).hbms, Dev.hbm_setHbm]
    exact ⟨rfl, rfl⟩

theorem Hbm.SameMig.trans {a b c : Hbm} (h1 : a.SameMig b) (h2 : b.SameMig c) : a.SameMig c := ⟨h2.1.trans h1.1, h2.2.trans h1.2⟩

theorem Dev.foldl_sameMig {β : Type} (f : Dev → β → Dev) (step : ∀ (d : Dev) b, (d.hbm h).SameMig ((f d b).hbm h)) (l : List β) (d : Dev) :
    (d.hbm h).SameMig ((l.foldl f d).hbm h) :=
  List.foldlRecOn (motive := fun e => (d.hbm h).SameMig (e.hbm h)) l f ⟨rfl, rfl⟩ fun e he b _ => he.trans (step e b)

theorem Dev.hbmServe_sameMig (d : Dev) (h port a n : Nat) : (d.hbm h).SameMig ((d.hbmServe h port a n).hbm h) :=
  Dev.foldl_sameMig _ (fun d q => d.hbmIssue_sameMig h q) _ d

/-! The patrol scrub (R303) -/

section
variable {a : Nat} (trained : d.trained h = true) (on : d.get (hbmPage h) F.HBM_SCRUB_HOURS ≠ 0) (within : a < hbmSize)
include trained on within

theorem Dev.patrolScrub_reads (ecc : Ecc) : d.patrolScrub h a ecc =
    match (if Map.rd false d.hbmBad (hbmKey h a) then Ecc.bad else ecc) with
    | .clean => d.hbmNow h 6 false a 4
    | .corrected => (((d.hbmNow h 6 false a 4).hbmCe h a).hbmAsk h 6 true a 4).cnt (hbmPage h) F.HBM_CNT_COUNT 2
    | .bad => ((d.hbmNow h 6 false a 4).hbmUe h a).markBad h a := by
  have goes : ¬ ((!d.trained h) = true ∨ d.get (hbmPage h) F.HBM_SCRUB_HOURS = 0 ∨ a ≥ hbmSize) := by
    rw [trained]
    exact fun h => h.elim (by decide) fun h => h.elim on (Nat.not_le.mpr within)
  rw [Dev.patrolScrub, if_neg goes]
  simp only [Dev.hbmNow_hbmBad] <;> rfl

theorem Dev.patrolScrub_good (good : Map.rd false d.hbmBad (hbmKey h a) = false) (ecc : Ecc) : d.patrolScrub h a ecc =
    match ecc with
    | .clean => d.hbmNow h 6 false a 4
    | .corrected => (((d.hbmNow h 6 false a 4).hbmCe h a).hbmAsk h 6 true a 4).cnt (hbmPage h) F.HBM_CNT_COUNT 2
    | .bad => ((d.hbmNow h 6 false a 4).hbmUe h a).markBad h a := by
  rw [Dev.patrolScrub_reads trained on within, good]
  rfl

theorem Dev.patrolScrub_known (bad : Map.rd false d.hbmBad (hbmKey h a) = true) (ecc : Ecc) :
    d.patrolScrub h a ecc = ((d.hbmNow h 6 false a 4).hbmUe h a).markBad h a := by
  rw [Dev.patrolScrub_reads trained on within, bad]
  rfl

end

/-! The copy of a rank page (R308) -/

theorem Hbm.pagePieces_congr {x y : Hbm} (grain : y.full = x.full) (lr pg : Nat) : y.pagePieces lr pg = x.pagePieces lr pg := by
  have piece : y.pagePiece lr pg = x.pagePiece lr pg := by
    funext i
    simp only [Hbm.pagePiece, Hbm.join, grain]
  rw [Hbm.pagePieces, Hbm.pagePieces, grain, piece]

/-- The pieces of a page are read. -/
def Dev.servePieces (d : Dev) (h : Nat) (l : List (Nat × Nat)) : Dev := l.foldl (fun d a => d.hbmServe h 5 a.1 a.2) d

/-- The pieces of a page are written. -/
def Dev.askPieces (d : Dev) (h : Nat) (l : List (Nat × Nat)) : Dev := l.foldl (fun d a => d.hbmAsk h 5 true a.1 a.2) d

/-- The migration from rank `f` has reached page `n`. -/
def Dev.progressTo (d : Dev) (h f n : Nat) : Dev := d.setHbm h ((d.hbm h).setRank f { (d.hbm h).rank f with progress := n })

theorem Dev.servePieces_sameMig (d : Dev) (h : Nat) (l : List (Nat × Nat)) : (d.hbm h).SameMig ((d.servePieces h l).hbm h) :=
  Dev.foldl_sameMig (fun (d : Dev) (a : Nat × Nat) => d.hbmServe h 5 a.1 a.2) (fun d a => d.hbmServe_sameMig h 5 a.1 a.2) l d

theorem Dev.progressTo_full (d : Dev) (h f n : Nat) : ((d.progressTo h f n).hbm h).full = (d.hbm h).full := by
  rw [Dev.progressTo, Dev.hbm_setHbm]
  rfl

theorem Dev.copyWrite_clean {d : Dev} {h : Nat} {x : Hbm} (grain : (d.hbm h).full = x.full) (lr pg : Nat) :
    d.copyWrite h lr pg [] = d.askPieces h (x.pagePieces lr pg) := by
  rw [Dev.askPieces, ← Hbm.pagePieces_congr grain]
  rfl

/-- What follows the read of a page. -/
def Dev.copyRest (d : Dev) (h f t lr pg : Nat) : Dev :=
  if (d.hbm h).mig ≠ some (f, t) then d
  else
    let u := (d.progressTo h f (pg + 1)).copyWrite h lr pg []
    if pg + 1 = rankPages then u.endMig h f t else u.askCopy h

theorem Dev.copyRest_clean {d : Dev} {h f t : Nat} {x : Hbm} (mig : (d.hbm h).mig = some (f, t)) (grain : (d.hbm h).full = x.full) (lr pg : Nat) :
    d.copyRest h f t lr pg =
      if pg + 1 = rankPages then ((d.progressTo h f (pg + 1)).askPieces h (x.pagePieces lr pg)).endMig h f t
      else ((d.progressTo h f (pg + 1)).askPieces h (x.pagePieces lr pg)).askCopy h := by
  rw [Dev.copyRest, if_neg (not_not_intro mig), Dev.copyWrite_clean ((d.progressTo_full h f (pg + 1)).trans grain)]

theorem Dev.wordsRead_clean {at_ : Nat → Nat} (clean : ∀ w, w < 1024 → Map.rd false d.hbmBad (hbmKey h (at_ w)) = false) :
    d.wordsRead h at_ [] [] = ([], []) := by
  have none : ((List.range 1024).filter fun w => false || Map.rd false d.hbmBad (hbmKey h (at_ w))) = [] :=
    List.filter_eq_nil_iff.mpr fun w hw => by simp [clean w (List.mem_range.mp hw)]
  simp only [Dev.wordsRead, List.any_nil, none, Bool.false_and, List.filter_false]

section
variable {f t : Nat} (mig : (d.hbm h).mig = some (f, t)) (running : d.running (hbmPage h) = true)
  (clean : ∀ w, w < 1024 →
    Map.rd false d.hbmBad (hbmKey h ((d.hbm h).join ((d.hbm h).rank f).lrank (((d.hbm h).rank f).progress * 4096 + 4 * w))) = false)
include mig running clean

theorem Dev.pageCopyDone_clean : d.pageCopyDone h [] [] =
    (d.servePieces h ((d.hbm h).pagePieces ((d.hbm h).rank f).lrank ((d.hbm h).rank f).progress)).copyRest h f t
      ((d.hbm h).rank f).lrank ((d.hbm h).rank f).progress := by
  rw [Dev.pageCopyDone, mig]
  refine (if_neg (by rw [running]; decide)).trans ?_
  dsimp only
  rw [Dev.wordsRead_clean clean]
  rfl

/-- The pieces of the page in hand have been copied. -/
def Dev.copied (d : Dev) (h f : Nat) : Dev :=
  let pieces := (d.hbm h).pagePieces ((d.hbm h).rank f).lrank ((d.hbm h).rank f).progress
  ((d.servePieces h pieces).progressTo h f (((d.hbm h).rank f).progress + 1)).askPieces h pieces

theorem Dev.pageCopyDone_moves : d.pageCopyDone h [] [] =
    if ((d.hbm h).rank f).progress + 1 = rankPages then (d.copied h f).endMig h f t else (d.copied h f).askCopy h := by
  have same := d.servePieces_sameMig h ((d.hbm h).pagePieces ((d.hbm h).rank f).lrank ((d.hbm h).rank f).progress)
  rw [Dev.pageCopyDone_clean mig running clean, Dev.copyRest_clean (same.2.trans mig) same.1]
  rfl

end

theorem Dev.askPieces_progress (d : Dev) (h : Nat) (l : List (Nat × Nat)) (p : Nat) : ((d.askPieces h l).hbm h).rank p = (d.hbm h).rank p :=
  Dev.foldl_keeps (fun d => (d.hbm h).rank p) (fun (d : Dev) (a : Nat × Nat) => d.hbmAsk h 5 true a.1 a.2) l
    (fun d a _ => by rw [Dev.hbmAsk, Dev.hbm_setHbm]; rfl) d

theorem Dev.copied_progress (d : Dev) (h f : Nat) : (((d.copied h f).hbm h).rank f).progress = ((d.hbm h).rank f).progress + 1 := by
  rw [Dev.copied, Dev.askPieces_progress, Dev.progressTo, Dev.hbm_setHbm, Hbm.rank_setRank]

/-- A rank that serves. -/
def Rank.serving (r : Rank) : Rank := { r with state := 1 }

/-- Rank `f` is retired, all its pages copied. -/
def Hbm.copiedFrom (x : Hbm) (f : Nat) : Hbm := x.setRank f { x.rank f with state := 3, progress := 196608 }

/-- The stack without its migration, and the next one begun. -/
def Dev.migrated (d : Dev) (h : Nat) (x : Hbm) : Dev :=
  (((d.setHbm h { x with mig := none, failed := none }).cnt (hbmPage h) F.HBM_CNT_COUNT 10).int (hbmPage h) 3).nextMig h

theorem Dev.endMig_eq {d : Dev} {h f : Nat} (copied : ((d.hbm h).rank f).progress = 196608) (t : Nat) : d.endMig h f t =
    d.migrated h (((d.hbm h).copiedFrom f).setRank t (((d.hbm h).copiedFrom f).rank t).serving) := by
  have target : (((d.hbm h).copiedFrom f).rank t).serving = ((d.hbm h).rank t).serving := by
    by_cases same : t = f
    · subst same
      rw [Hbm.copiedFrom, Hbm.rank_setRank, ← copied]
      rfl
    · rw [Hbm.copiedFrom, Hbm.rank_setRank_ne _ _ same]
  rw [target]
  rfl

theorem Dev.pageCopyDone_none (none : (d.hbm h).mig = none) (bad corrected : List (Fin 1024)) : d.pageCopyDone h bad corrected = d := by
  rw [Dev.pageCopyDone, none]

theorem Dev.pageCopyDone_stopped (off : d.running (hbmPage h) = false) (bad corrected : List (Fin 1024)) : d.pageCopyDone h bad corrected = d := by
  rw [Dev.pageCopyDone]
  split
  · rfl
  · exact if_pos (by rw [off]; rfl)

/-! The window of corrected words (R307) -/

theorem Dev.ceWindowEnd_eq (d : Dev) (h : Nat) : d.ceWindowEnd h = d.setHbm h ((d.hbm h).mapRanks (fun _ r => { r with ce := 0 }) 32) := by
  unfold Dev.ceWindowEnd Hbm.mapRanks
  rfl

theorem Dev.ceWindowEnd_rank {r : Nat} (hr : r < 32) : ((d.ceWindowEnd h).hbm h).rank r = { (d.hbm h).rank r with ce := 0 } := by
  rw [Dev.ceWindowEnd_eq, Dev.hbm_setHbm, Hbm.mapRanks_rank, if_pos hr]

/-! Counter pairs (R305, R306) -/

/-- The oldest posted update has been taken. -/
def Dev.takePosted (d : Dev) (h : Nat) (r : List (Nat × Nat × Nat)) : Dev := d.setHbm h { d.hbm h with posted := r }

theorem Dev.takePosted_def (d : Dev) (h : Nat) (r : List (Nat × Nat × Nat)) : d.setHbm h { d.hbm h with posted := r } = d.takePosted h r := rfl

theorem Dev.takePosted_hbm (d : Dev) (h : Nat) (r : List (Nat × Nat × Nat)) : (d.takePosted h r).hbm h = { d.hbm h with posted := r } := d.hbm_setHbm h _

theorem Dev.takePosted_counting (d : Dev) (h : Nat) (r : List (Nat × Nat × Nat)) : (d.takePosted h r).counting h = d.counting h := by
  have region : ((d.takePosted h r).hbm h).region = (d.hbm h).region := by rw [Dev.takePosted_hbm]
  rw [Dev.counting, region, Dev.live_congr (a := d.takePosted h r) (b := d) rfl, Dev.counting]

theorem Hbm.pair_congr {x y : Hbm} (lines : y.lines = x.lines) (c : Nat) : y.pair c = x.pair c := by rw [Hbm.pair, lines, Hbm.pair]

/-- One line is held, and it is the pair's. -/
def Hbm.holds (x : Hbm) (c : Nat) : Prop := ∃ l, x.lines = [l] ∧ l.idx = c / 8

theorem Hbm.holds.any {x : Hbm} {c : Nat} (held : x.holds c) : x.lines.any (·.idx = c / 8) = true := by
  obtain ⟨l, lines, idx⟩ := held
  simp [lines, idx]

theorem Hbm.pair_setPair {x : Hbm} {c : Nat} (held : x.holds c) (p b : Nat) : (x.setPair c p b).pair c = (p % 2 ^ 64, b % 2 ^ 64) := by
  obtain ⟨l, lines, idx⟩ := held
  rw [Hbm.pair, Hbm.setPair]
  by_cases even : c / 4 % 2 = 0 <;> simp [lines, idx, even]

theorem Dev.holdLine_held {c : Nat} (held : (d.hbm h).holds c) : d.holdLine h (c / 8) = d := if_pos held.any

theorem Dev.counterUpdate_none (none : (d.hbm h).posted = []) (ecc : Ecc) : d.counterUpdate h ecc = d := by rw [Dev.counterUpdate, none]

section
variable {c pk n : Nat} {r : List (Nat × Nat × Nat)} (posted : (d.hbm h).posted = (c, pk, n) :: r)
include posted

theorem Dev.counterUpdate_dropped (off : d.counting h = false ∨ d.trained h = false ∨ (d.fn (hbmPage h) ≠ 2 ∧ d.fn (hbmPage h) ≠ 3)) (ecc : Ecc) :
    d.counterUpdate h ecc = (d.takePosted h r).tally (hbmPage h) (F.HBM_CNT_COUNT.at 24) := by
  have lost : (!(d.takePosted h r).counting h) = true ∨ ¬ (d.fn (hbmPage h) = 2 ∨ d.fn (hbmPage h) = 3) ∨ (!d.trained h) = true := by
    rw [Dev.takePosted_counting]
    rcases off with counting | trained | stopped
    · exact Or.inl (by rw [counting]; rfl)
    · exact Or.inr (Or.inr (by rw [trained]; rfl))
    · exact Or.inr (Or.inl (by omega))
  rw [Dev.counterUpdate, posted]
  exact if_pos lost

theorem Dev.counterUpdate_added (counting : d.counting h = true) (running : d.running (hbmPage h) = true) (trained : d.trained h = true)
    (held : (d.hbm h).holds c) (ecc : Ecc) : d.counterUpdate h ecc =
      (d.takePosted h r).setHbm h (((d.takePosted h r).hbm h).setPair c (((d.hbm h).pair c).1 + pk) (((d.hbm h).pair c).2 + n)) := by
  have on : d.fn (hbmPage h) = 2 := by
    rw [Dev.running, Bool.and_eq_true, beq_iff_eq] at running
    exact running.1
  have goes : ¬ ((!(d.takePosted h r).counting h) = true ∨ ¬ (d.fn (hbmPage h) = 2 ∨ d.fn (hbmPage h) = 3) ∨ (!d.trained h) = true) := by
    rw [Dev.takePosted_counting, counting, trained]
    simp [on]
  have still : ((d.takePosted h r).hbm h).holds c := by
    rw [Dev.takePosted_hbm]
    exact held
  have pair : ((d.takePosted h r).hbm h).pair c = (d.hbm h).pair c := Hbm.pair_congr (by rw [Dev.takePosted_hbm]) c
  rw [Dev.counterUpdate, posted]
  refine (if_neg goes).trans ?_
  simp only [Dev.takePosted_def, still.any, Dev.holdLine_held still, Bool.not_true, Bool.false_eq_true, false_and, if_false, pair]

end

section
variable {c : Nat} (index : d.get (hbmPage h) F.HBM_CNTR_IDX_INDEX = c)
include index

/-- A read that is refused with this code. -/
def Dev.counterFail (d : Dev) (h code : Nat) : Dev := d.setWord (hbmPage h) F.HBM_CNTR_STAT_BUSY.off (BitVec.ofNat 32 (4 + code * 8))

theorem Dev.counterRead_foreign (foreign : c % 4 ≠ h) (clear : Bool) : d.counterRead h clear = d.counterFail h 1 := by
  subst index
  exact if_pos foreign

variable (own : c % 4 = h)
include own

theorem Dev.counterRead_off (off : d.counting h = false) (clear : Bool) : d.counterRead h clear = d.counterFail h 2 := by
  subst index
  exact (if_neg (not_not_intro own)).trans (if_pos (Or.inl (by rw [off]; rfl)))

theorem Dev.counterRead_held (counting : d.counting h = true) (trained : d.trained h = true) (held : (d.hbm h).holds c) (clear : Bool) :
    d.counterRead h clear =
      (d.setHbm h { (if clear then (d.hbm h).setPair c 0 0 else d.hbm h) with read := some (c, ((d.hbm h).pair c).1, ((d.hbm h).pair c).2, clear, false) }).setWord
        (hbmPage h) F.HBM_CNTR_STAT_BUSY.off 1 := by
  have goes : ¬ ((!d.counting h) = true ∨ (!d.trained h) = true) := by
    rw [counting, trained]
    decide
  rw [Dev.counterRead, index]
  refine (if_neg (not_not_intro own)).trans ((if_neg goes).trans ?_)
  simp only [held.any, Dev.holdLine_held held, Bool.not_true]

end

theorem Dev.counterReadDone_none (none : (d.hbm h).read = none) (ecc : Ecc) : d.counterReadDone h ecc = d := by rw [Dev.counterReadDone, none]

/-- A pair that was held is shown as it was read. -/
theorem Dev.counterReadDone_shows {c pk n : Nat} {clear : Bool} (waits : (d.hbm h).read = some (c, pk, n, clear, false)) (ecc : Ecc) :
    d.counterReadDone h ecc =
      ((((d.setHbm h { d.hbm h with read := none }).showRec (hbmPage h) F.HBM_CNTR_PKTS_PKTS.off 4
        [BitVec.ofNat 32 pk, BitVec.ofNat 32 (pk / 2 ^ 32), BitVec.ofNat 32 n, BitVec.ofNat 32 (n / 2 ^ 32)]).setWord (hbmPage h)
          F.HBM_CNTR_STAT_BUSY.off 2).int (hbmPage h) 0) := by
  rw [Dev.counterReadDone, waits]
  dsimp only
  rw [if_neg (by simp), if_neg (by simp), if_neg (by simp)]

end

/-- Settles O50: the scrub's outcomes by the check bits, the copy of a page read clean, the window's end and the counter pairs. -/
theorem scrubbingFindsAndCountersCount : Obligations.ScrubbingFindsAndCountersCount := by
  unfold Obligations.ScrubbingFindsAndCountersCount
  refine ⟨fun s h a f t ecc words => ?scrub, fun s h c pk n r l req ecc => ?counters⟩
  case scrub =>
    have scrub (ecc : Ecc) : exec (.patrolScrub h a ecc) s = .next { s with dev := s.dev.patrolScrub h.val a ecc } := rfl
    have copy (words : Reads 1024) :
        exec (.pageCopyDone h words) s = .next { s with dev := s.dev.pageCopyDone h.val (badReads words) (correctedReads words) } := rfl
    refine ⟨fun trained on within good => ⟨?clean, ?corrected, ?bad⟩, fun trained on within known => ?known, fun off => ?off, fun none => ?noMig,
      fun off => ?stopped, fun mig running => fun clean => ⟨fun more => ?more, fun last => ?last⟩, ?window⟩
    case clean => exact (scrub .clean).trans (next_dev (Dev.patrolScrub_good trained on within good .clean))
    case corrected => exact (scrub .corrected).trans (next_dev (Dev.patrolScrub_good trained on within good .corrected))
    case bad => exact (scrub .bad).trans (next_dev (Dev.patrolScrub_good trained on within good .bad))
    case known => exact (scrub ecc).trans (next_dev (Dev.patrolScrub_known trained on within known ecc))
    case off => exact (scrub ecc).trans (next_dev (if_pos (Or.inr (Or.inl off))))
    case noMig => exact (copy words).trans (next_dev (Dev.pageCopyDone_none none _ _))
    case stopped => exact (copy words).trans (next_dev (Dev.pageCopyDone_stopped off _ _))
    case more => exact (copy []).trans (next_dev ((Dev.pageCopyDone_moves mig running clean).trans (if_neg more)))
    case last =>
      have moved : s.dev.pageCopyDone h.val [] [] = (s.dev.copied h.val f).endMig h.val f t :=
        (Dev.pageCopyDone_moves mig running clean).trans (if_pos (show _ = rankPages from last))
      exact (copy []).trans (next_dev (moved.trans (Dev.endMig_eq ((s.dev.copied_progress h.val f).trans last) t)))
    case window =>
      refine ⟨{ s with dev := s.dev.ceWindowEnd h.val }, rfl, rfl, rfl, fun r hr => Dev.ceWindowEnd_rank hr, fun k other => ?_, ?_⟩
      · exact (congrArg (Dev.hbm · k) (s.dev.ceWindowEnd_eq h.val)).trans (Dev.hbm_setHbm_ne _ _ other)
      · exact (congrArg Dev.hbmMem (s.dev.ceWindowEnd_eq h.val)).trans (Dev.hbmMem_setHbm _ _ _)
  case counters =>
    have update : exec (.counterUpdate h ecc) s = .next { s with dev := s.dev.counterUpdate h.val ecc } := rfl
    have done : exec (.counterReadDone h ecc) s = .next { s with dev := s.dev.counterReadDone h.val ecc } := rfl
    have read (hr : s.dev.reachable (hbmPage h.val)) (busy : s.dev.get (hbmPage h.val) F.HBM_CNTR_STAT_BUSY ≠ 1) :
        exec (.counterRead h req) s = .next { s with dev := s.dev.counterRead h.val false } := runHost_eq _ s _ (Reach.act_cntrRead _ h _ hr busy)
    have clear (hr : s.dev.reachable (hbmPage h.val)) (busy : s.dev.get (hbmPage h.val) F.HBM_CNTR_STAT_BUSY ≠ 1) :
        exec (.counterReadClear h req) s = .next { s with dev := s.dev.counterRead h.val true } := runHost_eq _ s _ (Reach.act_cntrClear _ h _ hr busy)
    refine ⟨fun none => ?none, fun posted off => ?dropped, fun posted counting running trained lines idx => ?added,
      fun hr busy index => ⟨fun foreign => ?foreign, fun own off => ?off, fun own counting trained lines idx => ?held⟩, fun clear waits => ?shows,
      fun none => ?idle⟩
    case none => exact update.trans (next_dev (Dev.counterUpdate_none none ecc))
    case dropped => exact update.trans (next_dev (Dev.counterUpdate_dropped posted off ecc))
    case added =>
      have held : (s.dev.hbm h.val).holds c := ⟨l, lines, idx⟩
      have kept := s.dev.takePosted_hbm h.val r
      have still : ((s.dev.takePosted h.val r).hbm h.val).holds c := by rw [kept]; exact held
      refine ⟨_, update.trans (next_dev (Dev.counterUpdate_added posted counting running trained held ecc)), rfl, rfl, ?_, fun k other => ?_, ?_, ?_⟩
      · exact (congrArg (Hbm.pair · c) (Dev.hbm_setHbm _ h.val _)).trans (Hbm.pair_setPair still _ _)
      · exact (Dev.hbm_setHbm_ne _ _ other).trans (Dev.hbm_setHbm_ne _ _ other)
      · exact (congrArg Hbm.posted (Dev.hbm_setHbm _ h.val _)).trans (congrArg Hbm.posted kept)
      · exact (Dev.hbmMem_setHbm _ h.val _).trans (Dev.hbmMem_setHbm _ h.val _)
    case foreign =>
      exact ⟨(read hr busy).trans (next_dev (Dev.counterRead_foreign index foreign false)),
        (clear hr busy).trans (next_dev (Dev.counterRead_foreign index foreign true))⟩
    case off =>
      exact ⟨(read hr busy).trans (next_dev (Dev.counterRead_off index own off false)),
        (clear hr busy).trans (next_dev (Dev.counterRead_off index own off true))⟩
    case held =>
      have held : (s.dev.hbm h.val).holds c := ⟨l, lines, idx⟩
      exact ⟨(read hr busy).trans (next_dev (Dev.counterRead_held index own counting trained held false)),
        (clear hr busy).trans (next_dev (Dev.counterRead_held index own counting trained held true))⟩
    case shows => exact done.trans (next_dev (Dev.counterReadDone_shows waits ecc))
    case idle => exact done.trans (next_dev (Dev.counterReadDone_none none ecc))

end Sys2Proof.Machine
end

section
/-! Cages (R333, R336, R337): presence, reset, the poll of a module's state and a visit of the scanner, each by the cage's state. -/

namespace Sys2Proof.Machine

section
variable (d : Dev) (p : Nat)

/-! Registers and presence of a cage -/

/-- A field of MOD_CAGE_STAT is no domain's state and no function's. -/
theorem Dev.modActive_setStat {f : Fld} (v : Nat) (stat : f.off = 0x1200) : (d.cageSet p f v).modActive = d.modActive := by
  have domain : csrKey 0x02 (F.PWR_DOM_STATE_STATE.at (4 * 28)).off ≠ csrKey modPage (f.at (4 * p)).off := by
    simp only [Fld.at, csrKey, modPage, stat]; omega
  have function : csrKey modPage H.STATE.off ≠ csrKey modPage (f.at (4 * p)).off := by
    simp only [Fld.at, csrKey, H.STATE, modPage, stat]; omega
  unfold Dev.modActive Dev.domOn Dev.domState Dev.fn Dev.cageSet
  rw [Dev.get_set_ne _ _ _ _ _ _ domain, Dev.get_set_ne _ _ _ _ _ _ function]

/-- Presence is a field of its own beside the cage's state. -/
theorem Dev.cageState_setPrs (v : Nat) : (d.cageSet p F.MOD_CAGE_STAT_PRS v).cageState p = d.cageState p :=
  Dev.get_set_apart _ _ _ _ _ rfl (by simp only [Fld.at]; decide) (by simp only [Fld.at]; decide)

/-- The device with a cage's presence noted and not yet shown. -/
def Dev.notePresent (b : Bool) : Dev := { d with mods := { d.mods with present := d.mods.present.wr false p b } }

theorem Dev.setPresent_eq (b : Bool) :
    d.setPresent p b = if d.domOn 28 then (d.notePresent p b).cageSet p F.MOD_CAGE_STAT_PRS (b2n b) else d.notePresent p b := rfl

theorem Dev.modActive_setPresent (b : Bool) : (d.setPresent p b).modActive = d.modActive := by
  rw [Dev.setPresent_eq]
  split
  · exact Dev.modActive_setStat _ p _ rfl
  · rfl

theorem Dev.cageState_setPresent (b : Bool) : (d.setPresent p b).cageState p = d.cageState p := by
  rw [Dev.setPresent_eq]
  split
  · exact Dev.cageState_setPrs _ p _
  · rfl

theorem Dev.cageState_setState {n : Nat} (fits : n < 8) : (d.cageSet p F.MOD_CAGE_STAT_STATE n).cageState p = n :=
  (Dev.get_set_same _ _ _ _ (by simp only [Fld.at]; decide)).trans (Nat.mod_eq_of_lt fits)

theorem Dev.cageState_setState_ne {q : Nat} (n : Nat) (other : q ≠ p) : (d.cageSet p F.MOD_CAGE_STAT_STATE n).cageState q = d.cageState q :=
  Dev.get_set_ne _ _ _ _ _ _ (by simp only [Fld.at, csrKey]; omega)

end

/-! Insertion, removal and reset (R336) -/

section
variable {d : Dev} {p : Nat}

theorem Dev.moduleInsert_present (present : Map.rd false d.mods.present p = true) : d.moduleInsert p = d := if_pos present

theorem Dev.moduleInsert_empty (absent : Map.rd false d.mods.present p = false) (active : d.modActive = true) (empty : d.cageState p = 0) :
    d.moduleInsert p = ((d.setPresent p true).cageSet p F.MOD_CAGE_STAT_STATE 1).cnt modPage F.MOD_CNT_COUNT 4 :=
  (if_neg (by rw [absent]; decide)).trans
    (if_pos ⟨(d.modActive_setPresent p true).trans active, (d.cageState_setPresent p true).trans empty⟩)

theorem Dev.moduleRemove_absent (absent : Map.rd false d.mods.present p = false) : d.moduleRemove p = d := if_pos (by rw [absent]; rfl)

theorem Dev.moduleRemove_present (present : Map.rd false d.mods.present p = true) (active : d.modActive = true) :
    d.moduleRemove p = (((d.setPresent p false).cageEmpty p).modEvent 2 p 0 0 0 0 0).cnt modPage F.MOD_CNT_COUNT 5 :=
  (if_neg (by rw [present]; decide)).trans (if_pos ((d.modActive_setPresent p false).trans active))

theorem Dev.cageReset_occupied (active : d.modActive = true) (occupied : d.cageState p ≠ 0) :
    d.cageReset p = (d.cageSet p F.MOD_CAGE_STAT_STATE 1).failTimed p := if_pos ⟨active, occupied⟩

theorem Dev.cageReset_empty (empty : d.cageState p = 0) : d.cageReset p = d := if_neg fun h => h.2 empty

theorem Dev.resetRelease_reset (active : d.modActive = true) (reset : d.cageState p = 1) :
    d.resetRelease p = d.cageSet p F.MOD_CAGE_STAT_STATE 2 := if_pos ⟨active, reset⟩

theorem Dev.resetRelease_other (other : d.cageState p ≠ 1) : d.resetRelease p = d := if_neg fun h => other h.2

end

/-! Bus reads (R334) -/

theorem Dev.cnt_out (d : Dev) (p : Nat) (f : Fld) (k : Nat) : (d.cnt p f k).out = d.out := by
  unfold Dev.cnt Dev.bump
  split
  · rfl
  · exact Dev.set_out ..

theorem Dev.busEnd_out (d : Dev) (cage : Nat) (write : Bool) (page bank addr len : Nat) (bytes : List Byte) :
    (d.busEnd cage write page bank addr len bytes).out = Out.modBus (cage / 8) cage write page bank addr len bytes :: d.out := by
  rw [Dev.busEnd, Dev.emit_out, Dev.setBusTries_out, Dev.cnt_out]

/-- Reads go out on the bus one after the other. -/
theorem Dev.busReads_out (c : Nat) (l : List (Nat × Nat × Nat × Nat)) : ∀ d : Dev,
    (d.busReads c l).out = (l.map fun x => Out.modBus (c / 8) c false x.1 x.2.1 x.2.2.1 x.2.2.2 []).reverse ++ d.out := by
  induction l with
  | nil => exact fun d => rfl
  | cons x l ih =>
    intro d
    have rest := ih (d.busEnd c false x.1 x.2.1 x.2.2.1 x.2.2.2 [])
    rw [Dev.busEnd_out] at rest
    rw [List.map_cons, List.reverse_cons, List.append_assoc]
    exact rest

theorem Dev.busEnd_cages (d : Dev) (cage : Nat) (write : Bool) (page bank addr len : Nat) (bytes : List Byte) :
    (d.busEnd cage write page bank addr len bytes).mods.cages = d.mods.cages := by
  rw [Dev.busEnd, Dev.emit_mods, ← (d.cnt_records modPage F.MOD_CNT_COUNT 0).mods]
  rfl

theorem Dev.busReads_cages (c : Nat) (l : List (Nat × Nat × Nat × Nat)) : ∀ d : Dev, (d.busReads c l).mods.cages = d.mods.cages := by
  induction l with
  | nil => exact fun d => rfl
  | cons x l ih => exact fun d => (ih _).trans (d.busEnd_cages c false _ _ _ _ [])

/-! The poll of a module's state (R336) -/

section
variable (d : Dev) (p mstate : Nat) (ident : List Byte)

/-- The device once a poll has read a module's state and shown it. -/
def Dev.polled : Dev := (d.cageSet p F.MOD_CAGE_STAT_MSTATE mstate).busReads p [(0, 0, 0, 4)]

/-- The device once a poll has also read the module's identity. -/
def Dev.identified : Dev := (d.polled p mstate).busReads p [(0, 0, 129, 61)]

theorem Dev.cage_identified : (d.identified p mstate).cage p = d.cage p := by
  unfold Dev.cage Dev.identified Dev.polled
  rw [Dev.busReads_cages, Dev.busReads_cages]
  rfl

variable {d p} {mstate ident}

theorem Dev.initPoll_other (other : d.cageState p ≠ 2) : d.initPoll p mstate ident = d := if_pos (.inr other)

theorem Dev.initTimeout_init (active : d.modActive = true) (init : d.cageState p = 2) : d.initTimeout p = d.cageFault p 2 := if_pos ⟨active, init⟩

theorem Dev.initTimeout_other (other : d.cageState p ≠ 2) : d.initTimeout p = d := if_neg fun h => other h.2

variable (active : d.modActive = true) (init : d.cageState p = 2)
include active init

/-- A poll of a cage in INIT goes by the state that the module reports. -/
theorem Dev.initPoll_init : d.initPoll p mstate ident =
    if mstate = 5 then (d.polled p mstate).cageFault p 3
    else if ¬ (mstate = 1 ∨ mstate = 3) then d.polled p mstate
    else if ident.length ≠ 65 then (d.identified p mstate).cageFault p 4
    else
      let lim := revLimited (ledNat ident 1 1)
      let v := ((d.identified p mstate).ledgerInsert p ident).setCage p { Cage.init with limited := lim, known := ((d.identified p mstate).cage p).known }
      (v.cageSet p F.MOD_CAGE_STAT_STATE 3).modEvent 1 p 0 0 0 (b2n lim) 0 :=
  if_neg (by simp [active, init])

theorem Dev.initPoll_fault (fault : mstate = 5) : d.initPoll p mstate ident = (d.polled p mstate).cageFault p 3 :=
  (Dev.initPoll_init active init).trans (if_pos fault)

theorem Dev.initPoll_waits (fault : mstate ≠ 5) (waits : ¬ (mstate = 1 ∨ mstate = 3)) : d.initPoll p mstate ident = d.polled p mstate :=
  (Dev.initPoll_init active init).trans ((if_neg fault).trans (if_pos waits))

variable (ready : mstate = 1 ∨ mstate = 3)
include ready

theorem Dev.initPoll_unread (unread : ident.length ≠ 65) : d.initPoll p mstate ident = (d.identified p mstate).cageFault p 4 :=
  (Dev.initPoll_init active init).trans ((if_neg (by omega)).trans ((if_neg (not_not.2 ready)).trans (if_pos unread)))

theorem Dev.initPoll_ready (read : ident.length = 65) :
    d.initPoll p mstate ident =
      let lim := revLimited (ledNat ident 1 1)
      let v := ((d.identified p mstate).ledgerInsert p ident).setCage p { Cage.init with limited := lim, known := (d.cage p).known }
      (v.cageSet p F.MOD_CAGE_STAT_STATE 3).modEvent 1 p 0 0 0 (b2n lim) 0 := by
  rw [Dev.initPoll_init active init, if_neg (by omega), if_neg (not_not.2 ready), if_neg (not_not.2 read), Dev.cage_identified]

end

/-! Visits of the scanner (R337) -/

section
variable {d : Dev} {p : Nat} {lower lanes : List Byte} {off : Byte} {w : Word} {irq : Bool}

theorem Dev.scanVisit_other (unready : d.cageState p ≠ 3) (sound : d.cageState p ≠ 4) : d.scanVisit p lower lanes off w irq = d :=
  if_pos (.inr (.inl (not_or.2 ⟨unready, sound⟩)))

theorem Dev.scanVisit_held (held : d.busHeld (p / 8) = true) : d.scanVisit p lower lanes off w irq = d := if_pos (.inr (.inr held))

end

section
variable (d : Dev) (p : Nat) (lower : List Byte) (irq : Bool)

/-- The device once a visit of the whole of a cage has read it and shown its state and its interrupt. -/
def Dev.readByScan : Dev :=
  let e := d.setUnseen (d.mods.unseen.erase p)
  ((e.busReads p (e.scanReads p false)).cageSet p F.MOD_CAGE_STAT_MSTATE (ledNat lower 0 1 / 2 % 8)).cageSet p F.MOD_CAGE_STAT_INT (b2n irq)

variable {d p lower} {lanes : List Byte} {off : Byte} {w : Word} {irq}

/-- A visit of a READY cage with no flag set and the module not in fault ends in its ledger and its watched field. -/
theorem Dev.scanVisit_ready (runs : d.running modPage = true) (ready : d.cageState p = 3) (free : d.busHeld (p / 8) = false)
    (full : (d.cage p).limited = false) (sound : ledNat lower 0 1 / 2 % 8 ≠ 5) (quiet : visitFlags lower lanes false = []) :
    d.scanVisit p lower lanes off w irq =
      let u := d.readByScan p lower irq
      let v := u.setCage p { u.cage p with flags := slice lower 0 11 ++ lanes }
      (v.visitLedger p (ledNat lower 0 1 / 2 % 8 == 3 && off.toNat != 255)).watch p w := by
  have visits : ¬ (!d.running modPage ∨ ¬ (d.cageState p = 3 ∨ d.cageState p = 4) ∨ d.busHeld (p / 8)) := by simp [runs, ready, free]
  have whole : (((d.setUnseen (d.mods.unseen.erase p)).cage p).limited || d.cageState p == 4) = false := by
    rw [ready]; exact (Bool.or_false _).trans full
  rw [Dev.scanVisit, if_neg visits]
  simp only [whole, quiet, List.filter_nil, List.foldl_nil, Bool.not_false, Bool.true_and]
  rw [if_neg fun fault => sound fault.2, if_neg (by decide)]
  rfl

end

/-! Flags (R337, R338) -/

theorem Dev.showRec_mods (p : Nat) (n : Nat) : ∀ (off : Nat) (l : List Word) (d : Dev), (d.showRec p off n l).mods = d.mods := by
  induction n with
  | zero => exact fun off l d => rfl
  | succ n ih => exact fun off l d => (ih _ _ _).trans (Dev.setWord_mods ..)

theorem Dev.showModEvts_mods (d : Dev) : d.showModEvts.mods = d.mods := (Dev.showRec_mods ..).trans (Dev.set_mods ..)

/-- An event adds to the record of events and nothing else of the modules. -/
theorem Dev.modEvent_ledger (d : Dev) (ty cage qty flag lane cause value : Nat) :
    (d.modEvent ty cage qty flag lane cause value).mods.ledger = d.mods.ledger := by
  unfold Dev.modEvent
  split
  case isTrue =>
    rw [(Dev.int_records ..).mods, (Dev.cnt_records ..).mods, (Dev.bump_records ..).mods]
  case isFalse =>
    dsimp only
    split
    · rw [(Dev.int_records ..).mods, Dev.showModEvts_mods]
    · rw [Dev.showModEvts_mods]

theorem Dev.ledgerOf_setLedger (d : Dev) (i : Nat) (l : List Byte) : (d.setLedger i l).ledgerOf i = l := Map.rd_wr_same ..

/-- A raised flag counts in the ledger, up to 255. -/
theorem Dev.ledgerOf_raiseFlag (d : Dev) (p q f l v : Nat) :
    (d.raiseFlag p (q, f, l, v)).ledgerOf (2 * p) =
      ledPut (d.ledgerOf (2 * p)) (84 + 4 * q + f) 1 (min 255 (ledNat (d.ledgerOf (2 * p)) (84 + 4 * q + f) 1 + 1)) := by
  have kept : (d.raiseFlag p (q, f, l, v)).ledgerOf (2 * p) = _ := congrArg (Map.rd (List.replicate 128 0) · (2 * p)) (Dev.modEvent_ledger ..)
  rw [kept]
  refine (Dev.ledgerOf_setLedger _ _ _).trans ?_
  rw [satAdd, Nat.min_comm]
  rfl

/-! The commands -/

section
variable (s : State) (p : Fin 128) (req : BitVec 16) (mstate : BitVec 3) (ident : List Byte)

theorem exec_moduleInsert : exec (.moduleInsert p) s = .next { s with dev := s.dev.moduleInsert p.val } := rfl

theorem exec_moduleRemove : exec (.moduleRemove p) s = .next { s with dev := s.dev.moduleRemove p.val } := rfl

theorem exec_rstReq (reach : s.dev.reachable modPage) : exec (.rstReq p req) s = .next { s with dev := s.dev.cageReset p.val } :=
  runHost_eq _ s _ (Reach.act_cageReset _ p _ reach)

theorem exec_resetRelease : exec (.resetRelease p) s = .next { s with dev := s.dev.resetRelease p.val } := rfl

theorem exec_initPoll : exec (.initPoll p mstate ident) s = .next { s with dev := s.dev.initPoll p.val mstate.toNat ident } := rfl

theorem exec_initTimeout : exec (.initTimeout p) s = .next { s with dev := s.dev.initTimeout p.val } := rfl

theorem exec_scanVisit (lower lanes : List Byte) (off : Byte) (w : Word) (irq : Bool) :
    exec (.scanVisit p lower lanes off w irq) s = .next { s with dev := s.dev.scanVisit p.val lower lanes off w irq } := rfl

end

/-- Settles O51: the events of a cage by its presence and its state, a poll by the state that the module reports, a visit of the scanner,
the bus reads, and the flag that a visit counts. -/
theorem cagesAreScanned : Obligations.CagesAreScanned := by
  unfold Obligations.CagesAreScanned
  refine ⟨fun s p mstate ident req => ⟨fun present => ?inserted, fun absent => ?removed, fun absent active empty => ?insert,
      fun present active => ?remove, fun reach active occupied => ?reset, fun reach empty => ?noReset, fun active reset => ?release,
      fun other => ?noRelease, fun active init => ⟨fun fault => ?fault, fun low high sound => ?waits, fun ready unread => ?unread,
        fun ready read => ?ready, ?timeout⟩, fun other => ⟨?noPoll, ?noTimeout⟩, fun n fits => ⟨?same, fun q other => ?other⟩⟩,
    fun s p lower lanes off w irq runs => ⟨fun unready sound => ?unvisited, fun held => ?held, fun ready free full sound quiet => ?visit,
      fun c l => Dev.busReads_out c l _, fun q f l v _ _ => Dev.ledgerOf_raiseFlag ..⟩⟩
  case inserted => exact (exec_moduleInsert s p).trans (next_dev (Dev.moduleInsert_present present))
  case removed => exact (exec_moduleRemove s p).trans (next_dev (Dev.moduleRemove_absent absent))
  case insert => exact (exec_moduleInsert s p).trans (next_dev (Dev.moduleInsert_empty absent active empty))
  case remove => exact (exec_moduleRemove s p).trans (next_dev (Dev.moduleRemove_present present active))
  case reset => exact (exec_rstReq s p req reach).trans (next_dev (Dev.cageReset_occupied active occupied))
  case noReset => exact (exec_rstReq s p req reach).trans (next_dev (Dev.cageReset_empty empty))
  case release => exact (exec_resetRelease s p).trans (next_dev (Dev.resetRelease_reset active reset))
  case noRelease => exact (exec_resetRelease s p).trans (next_dev (Dev.resetRelease_other other))
  case fault => exact (exec_initPoll s p mstate ident).trans (next_dev (Dev.initPoll_fault active init (by bv_omega)))
  case waits =>
    exact (exec_initPoll s p mstate ident).trans
      (next_dev (Dev.initPoll_waits active init (by bv_omega) (by bv_omega)))
  case unread => exact (exec_initPoll s p mstate ident).trans (next_dev (Dev.initPoll_unread active init (by bv_omega) unread))
  case ready => exact (exec_initPoll s p mstate ident).trans (next_dev (Dev.initPoll_ready active init (by bv_omega) read))
  case timeout => exact (exec_initTimeout s p).trans (next_dev (Dev.initTimeout_init active init))
  case noPoll => exact (exec_initPoll s p mstate ident).trans (next_dev (Dev.initPoll_other other))
  case noTimeout => exact (exec_initTimeout s p).trans (next_dev (Dev.initTimeout_other other))
  case same => exact Dev.cageState_setState _ _ fits
  case other => exact Dev.cageState_setState_ne _ _ n fun same => other (Fin.ext same)
  case unvisited => exact (exec_scanVisit ..).trans (next_dev (Dev.scanVisit_other unready sound))
  case held => exact (exec_scanVisit ..).trans (next_dev (Dev.scanVisit_held held))
  case visit => exact (exec_scanVisit ..).trans (next_dev (Dev.scanVisit_ready runs ready free full sound quiet))

end Sys2Proof.Machine
end

section
/-! Commands of the module masters and timed writes (R334, R335, R342), and the records that are popped and the ledger (R338–R340). -/

namespace Sys2Proof.Machine

/-! The command of a master (R335) -/

section
variable {d : Dev} {m : Nat}

/-- The fields of a master's command that refuse it, but for its OP. -/
def Dev.cmdBad (d : Dev) (m : Nat) : Prop :=
  d.get modPage (F.MOD_CMD_CTL_LEN.at (cmdOff m)) = 0 ∨ d.get modPage (F.MOD_CMD_CTL_LEN.at (cmdOff m)) > 32 ∨
    d.get modPage (F.MOD_CMD_ADDR_ADDR.at (cmdOff m)) + d.get modPage (F.MOD_CMD_CTL_LEN.at (cmdOff m)) > 256 ∨ d.running modPage = false

/-- The cage that a master's command names. -/
def Dev.cmdCage (d : Dev) (m : Nat) : Nat := 8 * m + d.get modPage (F.MOD_CMD_CTL_CAGE.at (cmdOff m))

section
variable (op : d.get modPage (F.MOD_CMD_CTL_OP.at (cmdOff m)) = 1 ∨ d.get modPage (F.MOD_CMD_CTL_OP.at (cmdOff m)) = 2)
include op

theorem Dev.modGo_eq : d.modGo m =
    if d.get modPage (F.MOD_CMD_CTL_LEN.at (cmdOff m)) = 0 ∨ d.get modPage (F.MOD_CMD_CTL_LEN.at (cmdOff m)) > 32 ∨
      d.get modPage (F.MOD_CMD_ADDR_ADDR.at (cmdOff m)) + d.get modPage (F.MOD_CMD_CTL_LEN.at (cmdOff m)) > 256 ∨ d.running modPage = false then d.cmdStat m 4
    else if d.cageState (d.cmdCage m) = 0 then (d.cmdStat m 3).int modPage 5
    else d.setWord modPage (0x0408 + cmdOff m) 1 := by
  have none : d.get modPage (F.MOD_CMD_CTL_OP.at (cmdOff m)) ≠ 0 := by omega
  have last : d.get modPage (F.MOD_CMD_CTL_OP.at (cmdOff m)) ≠ 3 := by omega
  simp only [Dev.modGo, none, last, false_or, Bool.not_eq_eq_eq_not, Bool.not_true]
  rfl

theorem Dev.modGo_bad (bad : d.cmdBad m) : d.modGo m = d.cmdStat m 4 := (Dev.modGo_eq op).trans (if_pos bad)

variable (good : ¬ d.cmdBad m)
include good

theorem Dev.modGo_empty (empty : d.cageState (d.cmdCage m) = 0) : d.modGo m = (d.cmdStat m 3).int modPage 5 :=
  (Dev.modGo_eq op).trans ((if_neg good).trans (if_pos empty))

theorem Dev.modGo_begins (occupied : d.cageState (d.cmdCage m) ≠ 0) : d.modGo m = d.setWord modPage (0x0408 + cmdOff m) 1 :=
  (Dev.modGo_eq op).trans ((if_neg good).trans (if_neg occupied))

end

theorem Dev.modCmdTimeout_busy (busy : d.cmdBusy m = true) :
    d.modCmdTimeout m =
      ((((if d.busHeld m then d else (d.setBusTries m 0).emit (.modRecover m)).cmdStat m 2).cnt modPage F.MOD_CNT_COUNT 2).int modPage 5) :=
  if_neg (by rw [busy]; decide)

theorem Dev.modCmdTimeout_idle (idle : d.cmdBusy m = false) : d.modCmdTimeout m = d := if_pos (by rw [idle]; rfl)

variable {nack : Bool} {bytes : List Byte}

theorem Dev.modCmdDone_idle (idle : d.cmdBusy m = false) : d.modCmdDone m nack bytes = d := if_pos (.inl (by rw [idle]; rfl))

/-- A command that is refused has an attempt left (R334). -/
def Dev.cmdAgain (d : Dev) (m : Nat) (nack : Bool) : Prop :=
  nack = true ∧ d.modActive = true ∧ d.busTries m < d.get modPage (F.MOD_BUS_RETRIES.at (16 * m))

/-- The data registers of a master's command, as bytes. -/
def Dev.cmdRegs (d : Dev) (m : Nat) : List Byte := (List.range 8).flatMap fun i => leBytes 4 (d.word modPage (0x0420 + cmdOff m + 4 * i)).toNat

/-- The bus has carried a master's command. -/
def Dev.cmdCarried (d : Dev) (m : Nat) (write : Bool) (data : List Byte) : Dev :=
  d.busEnd (d.cmdCage m) write (d.get modPage (F.MOD_CMD_CTL_PAGE.at (cmdOff m))) (d.get modPage (F.MOD_CMD_CTL_BANK.at (cmdOff m)))
    (d.get modPage (F.MOD_CMD_ADDR_ADDR.at (cmdOff m))) (d.get modPage (F.MOD_CMD_CTL_LEN.at (cmdOff m))) data

variable (busy : d.cmdBusy m = true) (free : d.busHeld m = false)
include busy free

theorem Dev.modCmdDone_again (again : d.cmdAgain m nack) : d.modCmdDone m nack bytes = d.busRetry m := by
  obtain ⟨refused, active, left⟩ := again
  exact (if_neg (by simp [busy, free])).trans (if_pos ⟨refused, active, decide_eq_true left⟩)

variable (last : ¬ d.cmdAgain m nack)
include last

/-- A command that is at its end goes out on the bus and shows its outcome. -/
theorem Dev.modCmdDone_ends : d.modCmdDone m nack bytes =
    let wr := d.get modPage (F.MOD_CMD_CTL_OP.at (cmdOff m)) = 2
    let len := d.get modPage (F.MOD_CMD_CTL_LEN.at (cmdOff m))
    let u := d.cmdCarried m (decide wr) (if wr then (d.cmdRegs m).take len else [])
    let v := if nack ∨ wr then u
      else
        let data := slice bytes 0 len ++ (d.cmdRegs m).drop len
        u.showRec modPage (0x0420 + cmdOff m) 8 ((List.range 8).map fun i => BitVec.ofNat 32 (leNat (slice data (4 * i) 4)))
    (v.cmdStat m (if nack then 1 else 0)).int modPage 5 :=
  (if_neg (by simp [busy, free])).trans (if_neg fun again => last ⟨again.1, again.2.1, of_decide_eq_true again.2.2⟩)

theorem Dev.modCmdDone_write (write : d.get modPage (F.MOD_CMD_CTL_OP.at (cmdOff m)) = 2) :
    d.modCmdDone m nack bytes =
      ((d.cmdCarried m true ((d.cmdRegs m).take (d.get modPage (F.MOD_CMD_CTL_LEN.at (cmdOff m))))).cmdStat m (if nack then 1 else 0)).int modPage 5 := by
  rw [Dev.modCmdDone_ends busy free last]
  simp only [write, decide_true, or_true, if_true]

variable (read : d.get modPage (F.MOD_CMD_CTL_OP.at (cmdOff m)) = 1)
include read

theorem Dev.modCmdDone_refused (refused : nack = true) :
    d.modCmdDone m nack bytes = ((d.cmdCarried m false []).cmdStat m 1).int modPage 5 := by
  rw [Dev.modCmdDone_ends busy free last]
  simp only [read, refused, show (1 = 2) = False from eq_false (by decide), decide_false, if_false, true_or, if_true]

theorem Dev.modCmdDone_read (taken : nack = false) :
    d.modCmdDone m nack bytes =
      let len := d.get modPage (F.MOD_CMD_CTL_LEN.at (cmdOff m))
      let data := slice bytes 0 len ++ (d.cmdRegs m).drop len
      (((d.cmdCarried m false []).showRec modPage (0x0420 + cmdOff m) 8
        ((List.range 8).map fun i => BitVec.ofNat 32 (leNat (slice data (4 * i) 4)))).cmdStat m 0).int modPage 5 := by
  rw [Dev.modCmdDone_ends busy free last]
  simp only [read, taken, show (1 = 2) = False from eq_false (by decide), decide_false, if_false, or_false, Bool.false_eq_true]

end

/-! Retries (R334) -/

section
variable {d : Dev} {m : Nat}

/-- A retry of one master's bus marks the timed write that holds it. -/
def Dev.markAgain (d : Dev) (m k : Nat) : Dev := match d.timedW k with
  | some t => if d.twState k = 2 ∧ t.cage / 8 = m then d.setTimed k (some { t with again := true }) else d
  | none => d

theorem Dev.markAgain_none {k : Nat} (untimed : d.timedW k = none) : d.markAgain m k = d := by rw [Dev.markAgain, untimed]

/-- Where no write is timed, a retry marks none. -/
theorem Dev.markAgain_fold (l : List Nat) (untimed : ∀ k ∈ l, d.timedW k = none) : l.foldl (fun (d : Dev) k => d.markAgain m k) d = d := by
  induction l with
  | nil => rfl
  | cons k l ih =>
    rw [List.foldl_cons, Dev.markAgain_none (untimed k List.mem_cons_self)]
    exact ih fun j hj => untimed j (List.mem_cons_of_mem k hj)

theorem Dev.busRetry_last (last : d.get modPage (F.MOD_BUS_RETRIES.at (16 * m)) ≤ d.busTries m) : d.busRetry m = d :=
  if_pos (.inr (by simp [Dev.mayRetry, last]))

/-- A retry that is left is counted, and marks the timed write that it repeats. -/
theorem Dev.busRetry_left (active : d.modActive = true) (left : d.busTries m < d.get modPage (F.MOD_BUS_RETRIES.at (16 * m))) :
    d.busRetry m = (List.range 16).foldl (fun (d : Dev) k => d.markAgain m k)
      ((d.cnt modPage F.MOD_CNT_COUNT 1).setBusTries m (d.busTries m + 1)) := by
  have may : d.mayRetry m = true := decide_eq_true left
  rw [Dev.busRetry, if_neg (by rw [active, may]; decide)]
  rfl

theorem Dev.timedW_cnt (i j : Nat) : (d.cnt modPage F.MOD_CNT_COUNT i).timedW j = d.timedW j := by
  unfold Dev.timedW
  rw [(d.cnt_records ..).mods]

theorem Dev.busRetry_untimed (active : d.modActive = true) (left : d.busTries m < d.get modPage (F.MOD_BUS_RETRIES.at (16 * m)))
    (untimed : ∀ k, k < 16 → d.timedW k = none) : d.busRetry m = (d.cnt modPage F.MOD_CNT_COUNT 1).setBusTries m (d.busTries m + 1) := by
  rw [Dev.busRetry_left active left]
  exact Dev.markAgain_fold _ fun k hk => (Dev.timedW_cnt 1 k).trans (untimed k (List.mem_range.mp hk))

end

/-! Timed writes (R342) -/

section
variable {d : Dev} {k : Nat}

theorem Dev.twState_setTwState (d : Dev) (k : Nat) {st : Nat} (fits : st < 8) : (d.setTwState k st).twState k = st :=
  (Dev.get_set_same _ _ _ _ (by simp only [Fld.at]; decide)).trans (Nat.mod_eq_of_lt fits)

theorem Dev.timedW_setTwState (d : Dev) (k j st : Nat) : (d.setTwState k st).timedW j = d.timedW j :=
  congrArg (fun x : Modules => Map.rd none x.timed j) (Dev.set_mods ..)

theorem Dev.timedW_setTimed (d : Dev) (k : Nat) (x : Option Timed) : (d.setTimed k x).timedW k = x := Map.rd_wr_same ..

/-- The bytes that an armed timed write carries. -/
def Dev.twBytes (d : Dev) (k : Nat) : List Byte :=
  (leBytes 4 (d.get modPage (F.MOD_TW_DATA.at (32 * k))) ++ leBytes 4 (d.get modPage (F.MOD_TW_DATA.at (32 * k + 4)))).take
    (d.get modPage (F.MOD_TW_LEN.at (32 * k)))

/-- The write that an entry commits to. -/
def Dev.twWrite (d : Dev) (k : Nat) : Timed :=
  ⟨d.get modPage (F.MOD_TW_CAGE.at (32 * k)), d.get modPage (F.MOD_TW_PAGE.at (32 * k)), d.get modPage (F.MOD_TW_BANK.at (32 * k)),
    d.get modPage (F.MOD_TW_ADDR.at (32 * k)), d.twBytes k,
    d.commitTime (d.get modPage (F.MOD_TW_T_S.at (32 * k))) (d.get modPage (F.MOD_TW_T_NS.at (32 * k))), false⟩

section
variable (good : d.twBad k = false)
include good

theorem Dev.twLen_le : d.get modPage (F.MOD_TW_LEN.at (32 * k)) ≤ 8 := by
  by_contra long
  exact of_decide_eq_false good (.inr (.inl (Nat.not_le.mp long)))

theorem Dev.twBytes_length : (d.twBytes k).length = d.get modPage (F.MOD_TW_LEN.at (32 * k)) := by
  rw [Dev.twBytes, List.length_take, List.length_append, leBytes_length, leBytes_length]
  exact Nat.min_eq_left (Dev.twLen_le good)

theorem Dev.twArm_good : d.twArm k = (d.setTimed k (some (d.twWrite k))).setTwState k 1 := if_neg (by rw [good]; decide)

end

theorem Dev.twCancel_armed (armed : d.twState k = 1) : d.twCancel k = (d.setTimed k none).setTwState k 0 := if_pos armed

theorem Dev.twCancel_other (other : d.twState k ≠ 1) : d.twCancel k = d := if_neg other

theorem Dev.twPassed_runs (runs : d.fn modPage ≠ 0) : d.twPassed k = d := by
  unfold Dev.twPassed
  split
  · rfl
  · exact if_neg fun passed => runs passed.2.2.1

variable {t : Timed} (timed : d.timedW k = some t)
include timed

theorem Dev.twReserve_eq : d.twReserve k =
    if d.twState k ≠ 1 ∨ !d.running modPage ∨ !d.due (t.time - 1000000) then d
    else if d.cageState t.cage ≠ 3 then d.twBadEnd k 5 else (d.setTwState k 2).setBusTries (t.cage / 8) 0 := by
  rw [Dev.twReserve, timed]

theorem Dev.twReserve_early (early : d.due (t.time - 1000000) = false) : d.twReserve k = d :=
  (Dev.twReserve_eq timed).trans (if_pos (.inr (.inr (by rw [early]; rfl))))

section
variable (armed : d.twState k = 1) (runs : d.running modPage = true) (due : d.due (t.time - 1000000) = true)
include armed runs due

theorem Dev.twReserve_ready (ready : d.cageState t.cage = 3) : d.twReserve k = (d.setTwState k 2).setBusTries (t.cage / 8) 0 :=
  (Dev.twReserve_eq timed).trans ((if_neg (by simp [armed, runs, due])).trans (if_neg (not_not.2 ready)))

theorem Dev.twReserve_unready (unready : d.cageState t.cage ≠ 3) : d.twReserve k = d.twBadEnd k 5 :=
  (Dev.twReserve_eq timed).trans ((if_neg (by simp [armed, runs, due])).trans (if_pos unready))

end

theorem Dev.twPassed_stopped (held : d.twState k = 1 ∨ d.twState k = 2) (on : d.domOn 28 = true) (stopped : d.fn modPage = 0)
    (due : d.due t.time = true) : d.twPassed k = d.twBadEnd k 5 := by
  rw [Dev.twPassed, timed]
  exact if_pos ⟨held, on, stopped, due⟩

/-! The acknowledge of a timed write (R342) -/

end

section
variable (d : Dev) (k : Nat) (t : Timed)

/-- The bus has carried a timed write. -/
def Dev.twCarried : Dev := d.busEnd t.cage true t.page t.bank t.addr t.data.length t.data

/-- How far from its time a write is acknowledged now. -/
def Dev.twErr : Int := toSigned 64 (((d.now : Int) - t.time) % (2 ^ 64 : Nat)).toNat

/-- The greatest distance at which a timed write is in time. -/
def Dev.twLimit : Int := 2 * bitPeriod (d.get modPage (F.MOD_BUS_SPEED.at (16 * (t.cage / 8))))

/-- The device with the time of an acknowledge and its distance shown. -/
def Dev.twShow (ns : Nat) (err : Int) : Dev :=
  (d.set modPage (F.MOD_TW_ACT_NS.at (32 * k)) ns).set modPage (F.MOD_TW_ERR_NS.at (32 * k)) (ofSigned 32 err)

theorem Dev.twCarried_time : (d.twCarried t).time = d.time := by
  unfold Dev.twCarried Dev.busEnd
  rw [Dev.emit_time, Dev.setBusTries_time, (d.cnt_records ..).time]

theorem Dev.twCarried_err : (d.twCarried t).twErr t = d.twErr t := by
  unfold Dev.twErr Dev.now
  rw [Dev.twCarried_time]

/-- A transaction and the time that it shows are no speed of a bus. -/
theorem Dev.twShow_limit (ns : Nat) (err : Int) : ((d.twCarried t).twShow k ns err).twLimit t = d.twLimit t := by
  unfold Dev.twLimit Dev.twShow Dev.twCarried Dev.busEnd
  rw [Dev.get_set_ne _ _ _ _ _ _ (by simp only [Fld.at, csrKey]; omega), Dev.get_set_ne _ _ _ _ _ _ (by simp only [Fld.at, csrKey]; omega),
    Dev.emit_get, Dev.setBusTries_get, Dev.get_cnt_ne _ _ (by simp only [Fld.at]; omega)]

variable {d k t} (timed : d.timedW k = some t) (reserved : d.twState k = 2)
include timed reserved

/-- The acknowledge of a reserved write repeats it, fails it, or ends it by how far it is from its time. -/
theorem Dev.twAck_eq (ack : Bool) : d.twAck k ack =
    if !ack ∧ d.modActive ∧ d.mayRetry (t.cage / 8) then d.busRetry (t.cage / 8)
    else if !ack then (d.twCarried t).twBadEnd k 5
    else if t.again ∨ d.twErr t > d.twLimit t ∨ -d.twErr t > d.twLimit t then ((d.twCarried t).twShow k d.time.ns (d.twErr t)).twBadEnd k 4
    else (((d.twCarried t).twShow k d.time.ns (d.twErr t)).setTimed k none).setTwState k 3 := by
  rw [Dev.twAck, timed]
  refine (if_neg (not_not.2 reserved)).trans ?_
  rw [← d.twShow_limit k t d.time.ns (d.twErr t), ← d.twCarried_err t, ← d.twCarried_time t]
  rfl

theorem Dev.twAck_again (active : d.modActive = true) (left : d.busTries (t.cage / 8) < d.get modPage (F.MOD_BUS_RETRIES.at (16 * (t.cage / 8)))) :
    d.twAck k false = d.busRetry (t.cage / 8) :=
  (Dev.twAck_eq timed reserved false).trans (if_pos ⟨rfl, active, decide_eq_true left⟩)

theorem Dev.twAck_refused
    (last : ¬ (d.modActive = true ∧ d.busTries (t.cage / 8) < d.get modPage (F.MOD_BUS_RETRIES.at (16 * (t.cage / 8))))) :
    d.twAck k false = (d.twCarried t).twBadEnd k 5 :=
  (Dev.twAck_eq timed reserved false).trans ((if_neg fun again => last ⟨again.2.1, of_decide_eq_true again.2.2⟩).trans (if_pos rfl))

theorem Dev.twAck_inTime (first : t.again = false) (early : -d.twLimit t ≤ d.twErr t) (late : d.twErr t ≤ d.twLimit t) :
    d.twAck k true = (((d.twCarried t).twShow k d.time.ns (d.twErr t)).setTimed k none).setTwState k 3 :=
  (Dev.twAck_eq timed reserved true).trans ((if_neg fun again => absurd again.1 (by decide)).trans ((if_neg (by decide)).trans
    (if_neg (by rw [first]; rintro (h | h | h) <;> [exact absurd h (by decide); omega; omega]))))

theorem Dev.twAck_late (late : t.again = true ∨ d.twErr t < -d.twLimit t ∨ d.twLimit t < d.twErr t) :
    d.twAck k true = ((d.twCarried t).twShow k d.time.ns (d.twErr t)).twBadEnd k 4 :=
  (Dev.twAck_eq timed reserved true).trans ((if_neg fun again => absurd again.1 (by decide)).trans ((if_neg (by decide)).trans
    (if_pos (late.imp_right fun far => by omega))))

end

/-! Records and the ledger (R338–R340) -/

theorem Dev.ledgerCmd_read (d : Dev) : d.ledgerCmd 1 =
    d.showRec modPage F.MOD_LED_DATA_DATA.off 32 ((List.range 32).map fun i => BitVec.ofNat 32
      (ledNat (d.ledgerOf (2 * d.get modPage F.MOD_LED_IDX_CAGE + (if d.get modPage F.MOD_LED_IDX_PREV = 1 then 1 else 0))) (4 * i) 4)) := by
  rw [Dev.ledgerCmd, if_neg (by decide), if_pos (by decide)]
  simp only [b2n, decide_eq_true_eq]

theorem Dev.ledgerCmd_write {d : Dev} (current : d.get modPage F.MOD_LED_IDX_PREV ≠ 1) : d.ledgerCmd 2 =
    let c := d.get modPage F.MOD_LED_IDX_CAGE
    let data := (List.range 32).flatMap fun i => leBytes 4 (d.word modPage (0x0800 + 4 * i)).toNat
    d.setLedger (2 * c) (splice (d.ledgerOf (2 * c)) 64 (slice data 64 12)) := by
  rw [Dev.ledgerCmd, if_neg (by decide), if_neg (by decide), if_pos (by decide)]
  exact if_neg current

/-! The commands -/

section
variable (s : State) (m k : Fin 16) (req : BitVec 16)

/-- GO of a command with another OP is another command's. -/
theorem exec_modCmdRead_other (other : s.dev.get modPage (F.MOD_CMD_CTL_OP.at (cmdOff m.val)) ≠ 1) : exec (.modCmdRead m req) s = .next s :=
  runHost_eq _ s _ (if_neg other)

theorem exec_modCmdWrite_other (other : s.dev.get modPage (F.MOD_CMD_CTL_OP.at (cmdOff m.val)) ≠ 2) : exec (.modCmdWrite m req) s = .next s :=
  runHost_eq _ s _ (if_neg other)

section
variable (reach : s.dev.reachable modPage) (idle : s.dev.cmdBusy m.val = false)
include reach idle

theorem exec_modCmdRead (op : s.dev.get modPage (F.MOD_CMD_CTL_OP.at (cmdOff m.val)) = 1) :
    exec (.modCmdRead m req) s = .next { s with dev := s.dev.modGo m.val } :=
  runHost_eq _ s _ ((if_pos op).trans (Reach.act_modGo _ m _ reach idle))

theorem exec_modCmdWrite (op : s.dev.get modPage (F.MOD_CMD_CTL_OP.at (cmdOff m.val)) = 2) :
    exec (.modCmdWrite m req) s = .next { s with dev := s.dev.modGo m.val } :=
  runHost_eq _ s _ ((if_pos op).trans (Reach.act_modGo _ m _ reach idle))

/-- A command with the OP of its name gives GO to its master. -/
theorem exec_modCmd {c : Instr}
    (named : (c = .modCmdRead m req ∧ s.dev.get modPage (F.MOD_CMD_CTL_OP.at (cmdOff m.val)) = 1) ∨
      (c = .modCmdWrite m req ∧ s.dev.get modPage (F.MOD_CMD_CTL_OP.at (cmdOff m.val)) = 2)) :
    exec c s = .next { s with dev := s.dev.modGo m.val } := by
  obtain ⟨rfl, read⟩ | ⟨rfl, write⟩ := named
  · exact exec_modCmdRead s m req reach idle read
  · exact exec_modCmdWrite s m req reach idle write

end

theorem exec_modCmdTimeout : exec (.modCmdTimeout m) s = .next { s with dev := s.dev.modCmdTimeout m.val } := rfl

theorem exec_modCmdDone (nack : Bool) (bytes : List Byte) :
    exec (.modCmdDone m nack bytes) s = .next { s with dev := s.dev.modCmdDone m.val nack bytes } := rfl

theorem exec_busAttemptRetry : exec (.busAttemptRetry m) s = .next { s with dev := s.dev.busRetry m.val } := rfl

theorem exec_twArm (reach : s.dev.reachable modPage) (good : s.dev.twBad k.val = false) :
    exec (.twArm k req) s = .next { s with dev := s.dev.twArm k.val } := runHost_eq _ s _ (Reach.act_twArm _ k _ reach good)

theorem exec_twCancel (reach : s.dev.reachable modPage) : exec (.twCancel k req) s = .next { s with dev := s.dev.twCancel k.val } :=
  runHost_eq _ s _ (Reach.act_twCancel _ k _ reach)

theorem exec_twReserve : exec (.twReserve k) s = .next { s with dev := s.dev.twReserve k.val } := rfl

theorem exec_twAck (ack : Bool) : exec (.twAck k ack) s = .next { s with dev := s.dev.twAck k.val ack } := rfl

theorem exec_timedWriteTPassed : exec (.timedWriteTPassed k) s = .next { s with dev := s.dev.twPassed k.val } := rfl

section
variable (reach : s.dev.reachable modPage)
include reach

theorem exec_modEvtPop : exec (.modEvtPop req) s = .next { s with dev := s.dev.popModEvt } := runHost_eq _ s _ (Reach.act_modEvt _ _ reach)

theorem exec_modAdvPop : exec (.modAdvPop req) s = .next { s with dev := s.dev.popAdv } := runHost_eq _ s _ (Reach.act_modAdv _ _ reach)

theorem exec_ledgerRead : exec (.ledgerRead req) s = .next { s with dev := s.dev.ledgerCmd 1 } := runHost_eq _ s _ (Reach.act_ledgerRead _ _ reach)

theorem exec_ledgerWrite (current : s.dev.get modPage F.MOD_LED_IDX_PREV ≠ 1) :
    exec (.ledgerWrite req) s = .next { s with dev := s.dev.ledgerCmd 2 } := runHost_eq _ s _ (Reach.act_ledgerWrite _ _ reach current)

end

end

/-- Settles O52: a master's command by its OP, its fields and its cage, its end by the bus and the attempts left, a timed write by its
state and its time, and the records and the ledger page as they are shown. -/
theorem moduleCommandsRunToTheirEnd : Obligations.ModuleCommandsRunToTheirEnd := by
  unfold Obligations.ModuleCommandsRunToTheirEnd
  refine ⟨fun s m nack bytes req => ⟨fun reach idle => ⟨fun other => exec_modCmdRead_other s m req other,
        fun other => exec_modCmdWrite_other s m req other,
        fun c named => ⟨fun bad => ?bad, fun good empty => ?empty, fun good occupied => ?begins⟩⟩, fun busy => ?timeout,
      fun idle => ⟨?noTimeout, ?noDone⟩, fun busy free => ⟨fun again => ?again, fun last write => ?write,
        fun last read => ⟨fun refused => ?refused, fun taken => ?read⟩⟩,
      fun active untimed => ⟨fun left => ?retry, fun last => ?noRetry⟩⟩,
    fun s k t req => ⟨fun reach => ⟨fun good => ?arm, fun armed => ?cancel, fun other => ?noCancel⟩,
      fun timed => ⟨fun armed runs due => ⟨fun ready => ?reserve, fun unready => ?unready⟩, fun early => ?early,
        fun reserved => ⟨fun again => ?repeated, fun last => ?unacked, fun first early late => ?inTime, fun late => ?late⟩,
        fun held on stopped due => ?passed⟩, fun runs => ?runs⟩,
    fun s req reach => ⟨exec_modEvtPop s req reach, exec_modAdvPop s req reach, ?ledgerRead, fun current => ?ledgerWrite⟩⟩
  case bad => exact (exec_modCmd s m req reach idle named).trans (next_dev (Dev.modGo_bad (named.imp And.right And.right) bad))
  case empty => exact (exec_modCmd s m req reach idle named).trans (next_dev (Dev.modGo_empty (named.imp And.right And.right) good empty))
  case begins => exact (exec_modCmd s m req reach idle named).trans (next_dev (Dev.modGo_begins (named.imp And.right And.right) good occupied))
  case timeout => exact (exec_modCmdTimeout s m).trans (next_dev (Dev.modCmdTimeout_busy busy))
  case noTimeout => exact (exec_modCmdTimeout s m).trans (next_dev (Dev.modCmdTimeout_idle idle))
  case noDone => exact (exec_modCmdDone s m nack bytes).trans (next_dev (Dev.modCmdDone_idle idle))
  case again => exact (exec_modCmdDone s m nack bytes).trans (next_dev (Dev.modCmdDone_again busy free again))
  case write => exact (exec_modCmdDone s m nack bytes).trans (next_dev (Dev.modCmdDone_write busy free last write))
  case refused => exact (exec_modCmdDone s m nack bytes).trans (next_dev (Dev.modCmdDone_refused busy free last read refused))
  case read => exact (exec_modCmdDone s m nack bytes).trans (next_dev (Dev.modCmdDone_read busy free last read taken))
  case retry => exact (exec_busAttemptRetry s m).trans (next_dev (Dev.busRetry_untimed active left untimed))
  case noRetry => exact (exec_busAttemptRetry s m).trans (next_dev (Dev.busRetry_last last))
  case arm =>
    refine ⟨_, (exec_twArm s k req reach good).trans (next_dev (Dev.twArm_good good)), rfl, rfl, Dev.twState_setTwState _ _ (by decide),
      s.dev.twBytes k.val, ?_, Dev.twBytes_length good⟩
    exact (Dev.timedW_setTwState ..).trans (Dev.timedW_setTimed ..)
  case cancel => exact (exec_twCancel s k req reach).trans (next_dev (Dev.twCancel_armed armed))
  case noCancel => exact (exec_twCancel s k req reach).trans (next_dev (Dev.twCancel_other other))
  case reserve => exact (exec_twReserve s k).trans (next_dev (Dev.twReserve_ready timed armed runs due ready))
  case unready => exact (exec_twReserve s k).trans (next_dev (Dev.twReserve_unready timed armed runs due unready))
  case early => exact (exec_twReserve s k).trans (next_dev (Dev.twReserve_early timed early))
  case repeated => exact (exec_twAck s k false).trans (next_dev (Dev.twAck_again timed reserved again.1 again.2))
  case unacked => exact (exec_twAck s k false).trans (next_dev (Dev.twAck_refused timed reserved last))
  case inTime => exact (exec_twAck s k true).trans (next_dev (Dev.twAck_inTime timed reserved first early late))
  case late => exact (exec_twAck s k true).trans (next_dev (Dev.twAck_late timed reserved late))
  case passed => exact (exec_timedWriteTPassed s k).trans (next_dev (Dev.twPassed_stopped timed held on stopped due))
  case runs => exact (exec_timedWriteTPassed s k).trans (next_dev (Dev.twPassed_runs runs))
  case ledgerRead => exact (exec_ledgerRead s req reach).trans (next_dev (Dev.ledgerCmd_read _))
  case ledgerWrite => exact (exec_ledgerWrite s req reach current).trans (next_dev (Dev.ledgerCmd_write current))

end Sys2Proof.Machine
end

section
/-! The host link (R345–R349, R352) and the resets of the host function (R353). -/

namespace Sys2Proof.Machine

/-! The link's events -/

section
variable (d : Dev)

/-- Where no read waits, none is issued. -/
theorem Dev.pumpReads_none (none : d.hif.waiting = []) : d.pumpReads = d := by
  rw [Dev.pumpReads, none]; rfl

theorem Dev.quarantine_waiting (t : Nat) (b : Bool) : (d.quarantine t b).hif.waiting = d.hif.waiting := by
  unfold Dev.quarantine Dev.showTags
  rw [Dev.set_hif, Dev.set_hif]
  rfl

variable {d}

theorem Dev.perstRelease_held (held : d.hif.perst = true) :
    d.perstRelease = d.setHif { d.hif with perst := false, training := d.domOn 29 } := if_pos held

theorem Dev.perstRelease_released (released : d.hif.perst = false) : d.perstRelease = d := if_neg (by rw [released]; decide)

/-- What HIF_LINK_STAT shows of a link that has come up. -/
def Dev.linkShown (d : Dev) (speed width : Nat) (flit : Bool) : Nat :=
  speed + width * 16 + b2n flit * 256 + b2n (decide (speed < 4 ∨ width < 8)) * 512 + d.get hifPage F.HIF_LINK_STAT_DSTATE * 2 ^ 13

theorem Dev.linkUpPcie_trains {speed width : Nat} (flit : Bool) (none : d.hif.waiting = []) (released : d.hif.perst = false)
    (on : d.domOn 29 = true) (trains : d.hif.training = true ∨ d.lstate = 5) (fast : speed < 16) (wide : width < 16) :
    d.linkUpPcie speed width flit =
      ((d.setWord hifPage 0x0100 (BitVec.ofNat 32 (d.linkShown speed width flit))).setHif { d.hif with training := false, lanes := width }).sendPending := by
  have shut : (d.hif.perst || !d.domOn 29 || !(d.hif.training || d.lstate == 5)) = false := by
    obtain training | down := trains
    · simp [released, on, training]
    · simp [released, on, down]
  rw [Dev.linkUpPcie, if_neg (by rw [shut]; decide)]
  rw [Nat.mod_eq_of_lt fast, Nat.mod_eq_of_lt wide, ← Bool.decide_or]
  exact congrArg Dev.sendPending (Dev.pumpReads_none ((Dev.setWord ..).setHif _) none)

theorem Dev.powerState_on (d3 : Bool) (none : d.hif.waiting = []) (on : d.domOn 29 = true) :
    d.powerState d3 = (d.set hifPage F.HIF_LINK_STAT_DSTATE (if d3 then 3 else 0)).sendPending.settleInval := by
  have still : (d.set hifPage F.HIF_LINK_STAT_DSTATE (if d3 then 3 else 0)).hif.waiting = [] := by rw [Dev.set_hif]; exact none
  rw [Dev.powerState, if_neg (by rw [on]; decide), Dev.pumpReads_none _ still]

theorem Dev.quarantineEnd_held {t : Nat} (none : d.hif.waiting = []) (held : Map.rd false d.hif.quarantined t = true) :
    d.quarantineEnd t = d.quarantine t false :=
  (if_pos held).trans (Dev.pumpReads_none _ ((d.quarantine_waiting t false).trans none))

theorem Dev.quarantineEnd_free {t : Nat} (free : Map.rd false d.hif.quarantined t = false) : d.quarantineEnd t = d :=
  if_neg (by rw [free]; decide)

theorem Dev.l1Entry_down (down : d.lstate = 5) : d.l1Entry = d := if_pos (by simp [down])

theorem Dev.l1Entry_waiting (waits : d.hif.waiting ≠ []) : d.l1Entry = d := if_pos (by simp [List.isEmpty_eq_false_iff.2 waits])

theorem Dev.l1Entry_idle (none : d.hif.waiting = []) (untagged : d.hif.tags = []) (idle : ∀ x ∈ d.hif.chans, x.2.job = Option.none)
    (up : d.lstate ≠ 5) (on : d.domOn 29 = true) :
    d.l1Entry =
      let u := ({ d with fresh := d.fresh + 1 } : Dev).set hifPage F.HIF_LINK_STAT_LSTATE (2 + (Config.freeWord d.fresh).toNat % 3)
      if d.lstate < 2 then u.cnt hifPage F.HIF_CNT_COUNT 6 else u := by
  have jobless : (List.any d.hif.chans fun (x : Nat × Chan) => x.2.job.isSome) = false :=
    List.any_eq_false.2 fun x hx => by rw [idle x hx]; decide
  rw [Dev.l1Entry]
  simp only [none, untagged, jobless, on, beq_eq_false_iff_ne.2 up]
  rfl

theorem Dev.l0pChange_flit {up : Bool} (flit : d.get hifPage F.HIF_LINK_STAT_FLIT = 1) (active : d.lstate < 2) (on : d.domOn 29 = true) :
    d.l0pChange up =
      let w := d.get hifPage F.HIF_LINK_STAT_WIDTH
      let n := if up then (if w < d.hif.lanes then 2 * w else w) else if w > 2 then w / 2 else w
      (d.set hifPage F.HIF_LINK_STAT_WIDTH n).set hifPage F.HIF_LINK_STAT_LSTATE (if n < d.hif.lanes then 1 else 0) :=
  if_neg (by rw [flit, on]; rintro (h | h | h) <;> [exact absurd h (by decide); omega; exact absurd h (by decide)])

theorem Dev.l0pChange_plain {up : Bool} (plain : d.get hifPage F.HIF_LINK_STAT_FLIT = 0) : d.l0pChange up = d := if_pos (.inl plain)

/-- The timeout that a Completion Timeout Value asks for, in milliseconds (R348). -/
def ctoMs (code : Nat) : Option Nat :=
  if code = 0 then some 50 else if code = 5 then some 55 else if code = 6 then some 210 else if code = 9 then some 900
  else if code = 10 then some 3500 else none

theorem Dev.ctoWrite_defined (on : d.domOn 29 = true) {code ms : Nat} (defined : ctoMs code = some ms) :
    d.ctoWrite code = (d.set hifPage F.HIF_CPL_TMO_MS ms).recovCheck := by
  rw [Dev.ctoWrite, if_neg (by rw [on]; decide)]
  change (match ctoMs code with | some v => (d.set hifPage F.HIF_CPL_TMO_MS v).recovCheck | none => d.err hifPage 0x20) = _
  rw [defined]

theorem Dev.ctoWrite_undefined (on : d.domOn 29 = true) {code : Nat} (undefined : ctoMs code = none) : d.ctoWrite code = d.err hifPage 0x20 := by
  rw [Dev.ctoWrite, if_neg (by rw [on]; decide)]
  change (match ctoMs code with | some v => (d.set hifPage F.HIF_CPL_TMO_MS v).recovCheck | none => d.err hifPage 0x20) = _
  rw [undefined]

theorem ctoMs_undefined {code : Nat} (h0 : code ≠ 0) (h5 : code ≠ 5) (h6 : code ≠ 6) (h9 : code ≠ 9) (h10 : code ≠ 10) : ctoMs code = none := by
  rw [ctoMs, if_neg h0, if_neg h5, if_neg h6, if_neg h9, if_neg h10]

end

/-! The resets of the host function (R353) -/

section
variable (d : Dev)

/-- The cells, buffers, HBM, queues, tables and trunks. -/
def Dev.packetStores := (d.cells, d.buf, d.hbmMem, d.tm, d.lkp, d.car)

/-- What no reset of the host function reaches, with the input and the domain that they go by. -/
def Dev.beyondHost := (d.packetStores, d.hif.perst, d.domState 29)

/-- No channel waits for a cell of a die any more. -/
def Dev.injectLetGo (die : Nat) : Dev :=
  d.setBpm die { d.bpm die with waits := (d.bpm die).waits.filter fun w => match w.2 with | .inject _ => false | _ => true }


/-- The work of the host function dropped, its reads ended. -/
def Dev.hostDropped : Dev :=
  let d := ((List.range 2).foldl Dev.injectLetGo d).endReads.2
  d.setHif { d.hif with chans := [], cached := [], waiting := [], tenBit := false, maxRead := 512, roEn := true, idoEn := false }

/-- The registers of the host function at reset, HIF_LINK_STAT apart. -/
def Dev.hostRegistersReset (link : Word) : Dev :=
  let d := ((d.resetBody hifPage).resetBody dmaPage).setWord hifPage 0x0100 link
  let d := { (d.set hifPage F.HIF_LINK_STAT_DSTATE 0).showTags with msix := ⟨[], []⟩ }
  (d.setFn dmaPage 0 0).setFn hifPage 2 0

theorem Dev.flr_off (off : d.domOn 29 = false) : d.flr = d := if_pos (by rw [off]; rfl)

theorem Dev.flr_on (on : d.domOn 29 = true) : d.flr = d.hostDropped.hostRegistersReset (d.word hifPage 0x0100) := by
  rw [Dev.flr, if_neg (by rw [on]; decide)]
  rfl

/-! What the dropped work leaves -/

theorem Dev.beyondHost_setWord {p o : Nat} (w : Word) (other : csrKey 0x02 (F.PWR_DOM_STATE_STATE.at (4 * 29)).off ≠ csrKey p o) :
    (d.setWord p o w).beyondHost = d.beyondHost := by
  unfold Dev.beyondHost Dev.packetStores Dev.domState Dev.get
  rw [Dev.word_setWord_ne _ _ _ _ _ _ other]
  simp only [Dev.setWord_cells, Dev.setWord_buf, Dev.setWord_hbmMem, Dev.setWord_tm, Dev.setWord_lkp, Dev.setWord_car, Dev.setWord_hif]

theorem Dev.beyondHost_set {p : Nat} {f : Fld} (v : Nat) (other : csrKey 0x02 (F.PWR_DOM_STATE_STATE.at (4 * 29)).off ≠ csrKey p f.off) :
    (d.set p f v).beyondHost = d.beyondHost := d.beyondHost_setWord _ other

theorem Dev.beyondHost_showTags : d.showTags.beyondHost = d.beyondHost :=
  (Dev.beyondHost_set _ _ (by decide)).trans (Dev.beyondHost_set _ _ (by decide))

theorem Dev.beyondHost_setReadTag (t : Nat) (x : Option ReadTag) : (d.setReadTag t x).beyondHost = d.beyondHost :=
  Dev.beyondHost_showTags _

theorem Dev.beyondHost_quarantine (t : Nat) (b : Bool) : (d.quarantine t b).beyondHost = d.beyondHost := Dev.beyondHost_showTags _

theorem Dev.beyondHost_endReads : d.endReads.2.beyondHost = d.beyondHost :=
  Dev.foldl_keeps Dev.beyondHost _ _ (fun d t _ => (Dev.beyondHost_quarantine _ t true).trans (d.beyondHost_setReadTag t none)) d

theorem Dev.beyondHost_hostDropped : d.hostDropped.beyondHost = d.beyondHost := by
  have dropped : d.hostDropped.beyondHost = ((List.range 2).foldl Dev.injectLetGo d).endReads.2.beyondHost := rfl
  exact dropped.trans ((Dev.beyondHost_endReads _).trans (Dev.foldl_keeps Dev.beyondHost Dev.injectLetGo _ (fun _ _ _ => rfl) d))

/-! The registers after a reset -/

theorem Dev.word_resetBody_in {p o : Nat} (specific : 0x100 ≤ o) (low : o < 65536) : (d.resetBody p).word p o = resetWord p o :=
  Map.rd_dropRange_in _ _ (by unfold csrKey; omega) (by unfold csrKey; omega)

theorem Dev.word_resetBody_ne {p q o : Nat} (other : q ≠ p) (low : o < 65536) : (d.resetBody p).word q o = d.word q o :=
  Map.rd_dropRange_out _ _ _ _ (by unfold csrKey; omega)

theorem Dev.word_withMsix (m : Msix) (q o : Nat) : ({ d with msix := m } : Dev).word q o = d.word q o := rfl

theorem Dev.get_withMsix (m : Msix) (q : Nat) (f : Fld) : ({ d with msix := m } : Dev).get q f = d.get q f := rfl

theorem Dev.hif_withMsix (m : Msix) : ({ d with msix := m } : Dev).hif = d.hif := rfl

theorem Dev.beyondHost_withMsix (m : Msix) : ({ d with msix := m } : Dev).beyondHost = d.beyondHost := rfl

theorem Dev.hif_resetBody (p : Nat) : (d.resetBody p).hif = d.hif := rfl

theorem Dev.beyondHost_resetBody {p : Nat} (other : 0x02 ≠ p) : (d.resetBody p).beyondHost = d.beyondHost := by
  have kept : (d.resetBody p).domState 29 = d.domState 29 := by
    unfold Dev.domState Dev.get
    rw [Dev.word_resetBody_ne _ other (by decide)]
  unfold Dev.beyondHost
  rw [kept]
  rfl

variable (link : Word)

/-- Outside HIF_LINK_STAT, HIF_TAGS and the two functions' states, a reset leaves what the reset of the two pages leaves. -/
theorem Dev.word_hostRegistersReset {q o : Nat} (stat : csrKey q o ≠ csrKey hifPage 0x100) (tags : csrKey q o ≠ csrKey hifPage 0x118)
    (dma : csrKey q o ≠ csrKey dmaPage 0x0C) (hif : csrKey q o ≠ csrKey hifPage 0x0C) :
    (d.hostRegistersReset link).word q o = ((d.resetBody hifPage).resetBody dmaPage).word q o := by
  unfold Dev.hostRegistersReset Dev.setFn
  rw [Dev.word_set_ne _ _ _ _ _ _ hif, Dev.word_set_ne _ _ _ _ _ _ hif, Dev.word_set_ne _ _ _ _ _ _ dma, Dev.word_set_ne _ _ _ _ _ _ dma]
  rw [Dev.word_withMsix]
  unfold Dev.showTags
  rw [Dev.word_set_ne _ _ _ _ _ _ tags, Dev.word_set_ne _ _ _ _ _ _ tags, Dev.word_set_ne _ _ _ _ _ _ stat, Dev.word_setWord_ne _ _ _ _ _ _ stat]

theorem Dev.hif_hostRegistersReset : (d.hostRegistersReset link).hif = d.hif := by
  unfold Dev.hostRegistersReset Dev.setFn
  rw [Dev.set_hif, Dev.set_hif, Dev.set_hif, Dev.set_hif, Dev.hif_withMsix]
  unfold Dev.showTags
  rw [Dev.set_hif, Dev.set_hif, Dev.set_hif, Dev.setWord_hif, Dev.hif_resetBody, Dev.hif_resetBody]

theorem Dev.beyondHost_setFn {p : Nat} (st pend : Nat) (other : csrKey 0x02 (F.PWR_DOM_STATE_STATE.at (4 * 29)).off ≠ csrKey p 0x0C) :
    (d.setFn p st pend).beyondHost = d.beyondHost := (Dev.beyondHost_set _ _ other).trans (Dev.beyondHost_set _ _ other)

theorem Dev.beyondHost_hostRegistersReset : (d.hostRegistersReset link).beyondHost = d.beyondHost := by
  unfold Dev.hostRegistersReset
  rw [Dev.beyondHost_setFn _ _ _ (by decide), Dev.beyondHost_setFn _ _ _ (by decide), Dev.beyondHost_withMsix, Dev.beyondHost_showTags,
    Dev.beyondHost_set _ _ (by decide), Dev.beyondHost_setWord _ _ (by decide), Dev.beyondHost_resetBody _ (by decide),
    Dev.beyondHost_resetBody _ (by decide)]

theorem Dev.fn_setFn (p st : Nat) (small : st < 4) (pend : Nat) : (d.setFn p st pend).fn p = st := by
  have kept : (d.setFn p st pend).fn p = (d.set p H.STATE st).get p H.STATE := Dev.get_set_apart _ p H.PENDING H.STATE pend rfl (by decide) (by decide)
  exact kept.trans ((Dev.get_set_same _ _ _ _ (by decide)).trans (Nat.mod_eq_of_lt small))

theorem Dev.get_setFn_ne {p q : Nat} {f : Fld} (st pend : Nat) (other : csrKey q f.off ≠ csrKey p 0x0C) : (d.setFn p st pend).get q f = d.get q f := by
  unfold Dev.setFn
  rw [Dev.get_set_ne _ _ _ _ _ _ other, Dev.get_set_ne _ _ _ _ _ _ other]

theorem Dev.fn_hif_hostRegistersReset : (d.hostRegistersReset link).fn hifPage = 2 := Dev.fn_setFn _ _ _ (by decide) _

theorem Dev.fn_dma_hostRegistersReset : (d.hostRegistersReset link).fn dmaPage = 0 :=
  (Dev.get_setFn_ne _ _ _ (by decide)).trans (Dev.fn_setFn _ _ _ (by decide) _)

/-- The fields of HIF_LINK_STAT after a reset are those that were kept, in D0. -/
theorem Dev.stat_hostRegistersReset {f : Fld} (stat : f.off = 0x100) :
    (d.hostRegistersReset link).get hifPage f =
      ((((d.resetBody hifPage).resetBody dmaPage).setWord hifPage 0x0100 link).set hifPage F.HIF_LINK_STAT_DSTATE 0).get hifPage f := by
  unfold Dev.hostRegistersReset
  rw [Dev.get_setFn_ne _ _ _ (by rw [stat]; decide), Dev.get_setFn_ne _ _ _ (by rw [stat]; decide)]
  rw [Dev.get_withMsix]
  unfold Dev.showTags
  rw [Dev.get_set_ne _ _ _ _ _ _ (by rw [stat]; decide), Dev.get_set_ne _ _ _ _ _ _ (by rw [stat]; decide)]

theorem Dev.dstate_hostRegistersReset : (d.hostRegistersReset link).get hifPage F.HIF_LINK_STAT_DSTATE = 0 :=
  (Dev.stat_hostRegistersReset _ _ rfl).trans (Dev.get_set_same _ _ _ _ (by decide))

theorem Dev.lstate_hostRegistersReset : (d.hostRegistersReset link).lstate = bits link.toNat 10 3 := by
  refine (Dev.stat_hostRegistersReset _ _ rfl).trans ((Dev.get_set_apart _ _ F.HIF_LINK_STAT_DSTATE F.HIF_LINK_STAT_LSTATE _ rfl (by decide) (by decide)).trans ?_)
  exact congrArg (fun w : Word => bits w.toNat 10 3) (Dev.word_setWord_same ..)

theorem resetWord_chCtl {n : Nat} (channel : n < 1024) : resetWord dmaPage (0x4000 + 16 * n) = 0 := by
  have all : ∀ n : Fin 1024, resetWord dmaPage (0x4000 + 16 * n.val) = 0 := by decide +kernel
  exact all ⟨n, channel⟩

theorem Dev.chState_hostRegistersReset {n : Nat} (channel : n < 1024) : (d.hostRegistersReset link).chState n = 0 := by
  have word : (d.hostRegistersReset link).word dmaPage (0x4000 + 16 * n) = 0 := by
    rw [Dev.word_hostRegistersReset _ _ (by simp only [csrKey, dmaPage, hifPage]; omega) (by simp only [csrKey, dmaPage, hifPage]; omega)
      (by simp only [csrKey]; omega) (by simp only [csrKey, dmaPage, hifPage]; omega), Dev.word_resetBody_in _ (by omega) (by omega),
      resetWord_chCtl channel]
  unfold Dev.chState Dev.get
  exact congrArg (fun w : Word => bits w.toNat 2 3) word

/-- What a reset of the host function clears (R353). -/
structure Dev.HostCleared (d e : Dev) : Prop where
  chans : e.hif.chans = []
  cached : e.hif.cached = []
  waiting : e.hif.waiting = []
  msix : e.msix = ⟨[], []⟩
  dma : e.fn dmaPage = 0
  hif : e.fn hifPage = 2
  dstate : e.get hifPage F.HIF_LINK_STAT_DSTATE = 0
  channels : ∀ n, n < 1024 → e.chState n = 0
  beyond : e.packetStores = d.packetStores

theorem Dev.msix_hostRegistersReset : (d.hostRegistersReset link).msix = ⟨[], []⟩ := by
  unfold Dev.hostRegistersReset Dev.setFn
  rw [Dev.set_msix, Dev.set_msix, Dev.set_msix, Dev.set_msix]

variable {d} (on : d.domOn 29 = true)
include on

theorem Dev.flr_beyondHost : d.flr.beyondHost = d.beyondHost := by
  rw [Dev.flr_on d on, Dev.beyondHost_hostRegistersReset, Dev.beyondHost_hostDropped]

theorem Dev.flr_clears : d.HostCleared d.flr := by
  have beyond := congrArg Prod.fst (Dev.flr_beyondHost on)
  rw [Dev.flr_on d on] at beyond ⊢
  have hif := d.hostDropped.hif_hostRegistersReset (d.word hifPage 0x0100)
  exact ⟨by rw [hif]; rfl, by rw [hif]; rfl, by rw [hif]; rfl, Dev.msix_hostRegistersReset _ _, Dev.fn_dma_hostRegistersReset _ _,
    Dev.fn_hif_hostRegistersReset _ _, Dev.dstate_hostRegistersReset _ _, fun _ channel => Dev.chState_hostRegistersReset _ _ channel, beyond⟩

theorem Dev.flr_lstate : d.flr.lstate = d.lstate := by
  rw [Dev.flr_on d on]
  exact Dev.lstate_hostRegistersReset _ _

theorem Dev.flr_perst : d.flr.hif.perst = d.hif.perst := congrArg (·.2.1) (Dev.flr_beyondHost on)

theorem Dev.flr_domOn : d.flr.domOn 29 = true := by
  have kept : d.flr.domState 29 = d.domState 29 := congrArg (·.2.2) (Dev.flr_beyondHost on)
  rw [Dev.domOn, kept]
  exact on

end

/-! The hot reset -/

section
variable (d : Dev) (perst : Bool)

/-- The link goes down, and trains anew unless the input holds it. -/
def Dev.linkReset : Dev :=
  (d.set hifPage F.HIF_LINK_STAT_LSTATE 5).setHif { d.hif with perst := d.hif.perst || perst, training := !(d.hif.perst || perst) }

theorem Dev.hotReset_off (off : d.domOn 29 = false) : d.hotReset perst = d.setHif { d.hif with perst := d.hif.perst || perst } := by
  rw [Dev.hotReset, Dev.flr_off d off]
  exact if_pos (by rw [off]; rfl)

theorem Dev.hotReset_on (on : d.domOn 29 = true) : d.hotReset perst = d.flr.linkReset perst := by
  rw [Dev.hotReset]
  exact if_neg (by rw [Dev.flr_domOn on]; decide)

theorem Dev.lstate_linkReset : (d.linkReset perst).lstate = 5 := Dev.get_set_same _ _ _ _ (by decide)

theorem Dev.get_linkReset {q : Nat} {f : Fld} (other : csrKey q f.off ≠ csrKey hifPage 0x100) : (d.linkReset perst).get q f = d.get q f :=
  Dev.get_set_ne _ _ _ _ _ _ other

theorem Dev.dstate_linkReset : (d.linkReset perst).get hifPage F.HIF_LINK_STAT_DSTATE = d.get hifPage F.HIF_LINK_STAT_DSTATE :=
  Dev.get_set_apart _ _ F.HIF_LINK_STAT_LSTATE F.HIF_LINK_STAT_DSTATE _ rfl (by decide) (by decide)

theorem Dev.packetStores_linkReset : (d.linkReset perst).packetStores = d.packetStores := by
  unfold Dev.packetStores Dev.linkReset
  simp only [Dev.setHif_cells, Dev.setHif_buf, Dev.setHif_hbmMem, Dev.setHif_tm, Dev.setHif_lkp, Dev.setHif_car,
    Dev.set_cells, Dev.set_buf, Dev.set_hbmMem, Dev.set_tm, Dev.set_lkp, Dev.set_car]

variable {d}

theorem Dev.HostCleared.linkReset {e : Dev} (cleared : d.HostCleared e) : d.HostCleared (e.linkReset perst) where
  chans := cleared.chans
  cached := cleared.cached
  waiting := cleared.waiting
  msix := cleared.msix
  dma := (Dev.get_linkReset _ _ (by decide)).trans cleared.dma
  hif := (Dev.get_linkReset _ _ (by decide)).trans cleared.hif
  dstate := (Dev.dstate_linkReset _ _).trans cleared.dstate
  channels := fun n channel => (Dev.get_linkReset _ _ (by simp only [Fld.at, csrKey, dmaPage, hifPage]; omega)).trans (cleared.channels n channel)
  beyond := (Dev.packetStores_linkReset _ _).trans cleared.beyond

end

/-! The commands -/

section
variable (s : State)

theorem exec_perstRelease : exec .perstRelease s = .next { s with dev := s.dev.perstRelease } := rfl

theorem exec_pcieLinkUp (speed width : Fin 16) (flit : Bool) :
    exec (.pcieLinkUp speed width flit) s = .next { s with dev := s.dev.linkUpPcie speed.val width.val flit } := rfl

theorem exec_powerStateChange (d3 : Bool) : exec (.powerStateChange d3) s = .next { s with dev := s.dev.powerState d3 } := rfl

theorem exec_quarantineEnd (tag : Fin 1024) : exec (.quarantineEnd tag) s = .next { s with dev := s.dev.quarantineEnd tag.val } := rfl

theorem exec_l1Entry : exec .l1Entry s = .next { s with dev := s.dev.l1Entry } := rfl

theorem exec_l0pChange (up : Bool) : exec (.l0pChange up) s = .next { s with dev := s.dev.l0pChange up } := rfl

theorem exec_ctoValueWrite (code : BitVec 4) : exec (.ctoValueWrite code) s = .next { s with dev := s.dev.ctoWrite code.toNat } := rfl

/-- A defined code sets its timeout. -/
theorem exec_ctoValueWrite_defined (on : s.dev.domOn 29 = true) {code : BitVec 4} {ms : Nat} (defined : ctoMs code.toNat = some ms) :
    exec (.ctoValueWrite code) s = .next { s with dev := (s.dev.set hifPage F.HIF_CPL_TMO_MS ms).recovCheck } :=
  (exec_ctoValueWrite s code).trans (next_dev (Dev.ctoWrite_defined on defined))

theorem exec_functionLevelReset : exec .functionLevelReset s = .next { s with dev := s.dev.flr } := rfl

theorem exec_hotReset (perst : Bool) : exec (.hotReset perst) s = .next { s with dev := s.dev.hotReset perst } := rfl

end

/-- Settles O53: each event of the link by the state it finds, the codes of the timeout, and what the two resets clear and leave. -/
theorem theHostLinkFollowsItsEvents : Obligations.TheHostLinkFollowsItsEvents := by
  unfold Obligations.TheHostLinkFollowsItsEvents
  refine ⟨fun s speed width flit up d3 code tag => ⟨fun held => ?perst, fun released => ?noPerst, fun none => ⟨fun released on trains => ?linkUp,
      fun on => ?power, fun held => ?quarantine, fun untagged idle notDown on => ?l1⟩, fun down => ?l1Down, fun waits => ?l1Waits,
      fun free => ?noQuarantine, fun flit active on => ?l0p, fun plain => ?noL0p,
      fun on => ⟨exec_ctoValueWrite_defined s on rfl, exec_ctoValueWrite_defined s on rfl, exec_ctoValueWrite_defined s on rfl,
        exec_ctoValueWrite_defined s on rfl, exec_ctoValueWrite_defined s on rfl, fun h0 h5 h6 h9 h10 => ?undefined⟩⟩,
    fun s perst => ⟨fun off => ⟨?noFlr, ?noHot⟩, fun on => ⟨?flr, ?hot⟩⟩⟩
  case perst => exact (exec_perstRelease s).trans (next_dev (Dev.perstRelease_held held))
  case noPerst => exact (exec_perstRelease s).trans (next_dev (Dev.perstRelease_released released))
  case linkUp =>
    exact (exec_pcieLinkUp s speed width flit).trans (next_dev (Dev.linkUpPcie_trains flit none released on trains speed.isLt width.isLt))
  case power => exact (exec_powerStateChange s d3).trans (next_dev (Dev.powerState_on d3 none on))
  case quarantine => exact (exec_quarantineEnd s tag).trans (next_dev (Dev.quarantineEnd_held none held))
  case noQuarantine => exact (exec_quarantineEnd s tag).trans (next_dev (Dev.quarantineEnd_free free))
  case l1 => exact (exec_l1Entry s).trans (next_dev (Dev.l1Entry_idle none untagged idle notDown on))
  case l1Down => exact (exec_l1Entry s).trans (next_dev (Dev.l1Entry_down down))
  case l1Waits => exact (exec_l1Entry s).trans (next_dev (Dev.l1Entry_waiting waits))
  case l0p => exact (exec_l0pChange s up).trans (next_dev (Dev.l0pChange_flit flit active on))
  case noL0p => exact (exec_l0pChange s up).trans (next_dev (Dev.l0pChange_plain plain))
  case undefined =>
    exact (exec_ctoValueWrite s code).trans (next_dev (Dev.ctoWrite_undefined on
      (ctoMs_undefined (by bv_omega) (by bv_omega) (by bv_omega) (by bv_omega) (by bv_omega))))
  case noFlr => exact (exec_functionLevelReset s).trans (next_dev (Dev.flr_off _ off))
  case noHot => exact (exec_hotReset s perst).trans (next_dev (Dev.hotReset_off _ perst off))
  case flr =>
    obtain ⟨chans, cached, waiting, msix, dma, hif, dstate, channels, beyond⟩ := Dev.flr_clears on
    simp only [Dev.packetStores, Prod.mk.injEq] at beyond
    exact ⟨_, exec_functionLevelReset s, ⟨rfl, rfl, chans, cached, waiting, msix, dma, hif, dstate, channels, beyond⟩, Dev.flr_lstate on⟩
  case hot =>
    obtain ⟨chans, cached, waiting, msix, dma, hif, dstate, channels, beyond⟩ := (Dev.flr_clears on).linkReset perst
    simp only [Dev.packetStores, Prod.mk.injEq] at beyond
    refine ⟨_, (exec_hotReset s perst).trans (next_dev (Dev.hotReset_on _ perst on)),
      ⟨rfl, rfl, chans, cached, waiting, msix, dma, hif, dstate, channels, beyond⟩, Dev.lstate_linkReset _ _, ?_, ?_⟩
    · exact congrArg (· || perst) (Dev.flr_perst on)
    · exact congrArg (fun b : Bool => !(b || perst)) (Dev.flr_perst on)

end Sys2Proof.Machine
end

section
/-! Completions, timeouts and the loss of the link (R348–R350). -/

namespace Sys2Proof.Machine

/-! What the end of a read leaves of the host interface -/

section
variable (d : Dev) (t : Nat) (x : Option ReadTag)

theorem Dev.setReadTag_hif : (d.setReadTag t x).hif = { d.hif with tags := d.hif.tags.wr none t x } := by
  unfold Dev.setReadTag Dev.showTags
  rw [Dev.set_hif, Dev.set_hif]
  rfl

theorem Dev.setReadTag_waiting : (d.setReadTag t x).hif.waiting = d.hif.waiting := by rw [Dev.setReadTag_hif]

theorem Dev.setChan_waiting (ch : Nat) (c : Chan) : (d.setChan ch c).hif.waiting = d.hif.waiting := rfl

theorem Dev.chan_setChan (ch : Nat) (c : Chan) : (d.setChan ch c).chan ch = c := Map.rd_wr_same ..

theorem Dev.setReadTag_chan (ch : Nat) : (d.setReadTag t x).chan ch = d.chan ch := by rw [Dev.chan, Dev.setReadTag_hif]; rfl

end

section
variable {d : Dev} {t : Nat} {data : List Byte}

theorem Dev.jobDone_unfinished {ch : Nat} {j : Job} (job : (d.chan ch).job = some j) (unfinished : j.whole = false ∨ j.kind = 0 ∨ j.kind = 3) :
    d.jobDone ch = d := by
  rw [Dev.jobDone, job]
  obtain partly | start | packet := unfinished
  · exact if_pos (by rw [partly]; rfl)
  · simp only [start]
    split <;> rfl
  · simp only [packet]
    split <;> rfl

theorem Dev.readFails_abandoned {r : ReadTag} {code : Nat} (abandoned : r.piece = 65535) : d.readFails r code = d := if_pos abandoned

theorem Dev.readFails_served {r : ReadTag} {code : Nat} (served : r.piece ≠ 65535) : d.readFails r code = d.chError r.ch code := if_neg served

/-! Completions (R349) -/

section
variable (on : d.domOn 29 = true)
include on

section
variable {ok : Bool} (unknown : Map.rd none d.hif.tags t = none)
include unknown

theorem Dev.completion_unknown : d.completion t ok data =
    if Map.rd false d.hif.quarantined t then (d.cnt hifPage F.HIF_CNT_COUNT 2).int hifPage 1 else d.cnt hifPage F.HIF_CNT_COUNT 3 := by
  rw [Dev.completion, if_neg (by rw [on]; decide), unknown]

theorem Dev.completion_late (quarantined : Map.rd false d.hif.quarantined t = true) :
    d.completion t ok data = (d.cnt hifPage F.HIF_CNT_COUNT 2).int hifPage 1 := (Dev.completion_unknown on unknown).trans (if_pos quarantined)

theorem Dev.completion_stray (free : Map.rd false d.hif.quarantined t = false) : d.completion t ok data = d.cnt hifPage F.HIF_CNT_COUNT 3 :=
  (Dev.completion_unknown on unknown).trans (if_neg (by rw [free]; decide))

end

section
variable {r : ReadTag} (known : Map.rd none d.hif.tags t = some r)
include known

theorem Dev.completion_partial (more : r.got.length + data.length < r.len) :
    d.completion t true data = d.setReadTag t (some { r with got := r.got ++ data }) := by
  rw [Dev.completion, if_neg (by rw [on]; decide), known]
  exact (if_neg (by decide)).trans (if_pos more)

variable (still : d.hif.waiting = [])
include still

/-- An error for a read that serves nobody ends it with a count. -/
theorem Dev.completion_error (abandoned : r.piece = 65535) :
    d.completion t false data = (d.setReadTag t none).cnt hifPage F.HIF_CNT_COUNT 4 := by
  rw [Dev.completion, if_neg (by rw [on]; decide), known]
  refine (if_pos (by decide)).trans ?_
  rw [Dev.readFails_abandoned abandoned]
  exact Dev.pumpReads_none _ (by rw [(Dev.cnt_records ..).hif, Dev.setReadTag_waiting, still])

/-- The last data of a piece goes to its job. -/
theorem Dev.completion_whole (whole : r.len ≤ r.got.length + data.length) (served : r.piece ≠ 65535) {j : Job} {p : Piece}
    (job : (d.chan r.ch).job = some j) (piece : j.pieces[r.piece]? = some p) {j1 : Job}
    (filled : j1 = { j with pieces := j.pieces.set r.piece { p with data := some ((r.got ++ data).take r.len) } })
    (unfinished : j1.whole = false ∨ j.kind = 0 ∨ j.kind = 3) :
    d.completion t true data = (d.setReadTag t none).setChan r.ch { d.chan r.ch with job := some j1 } := by
  have kind : j1.kind = j.kind := by rw [filled]
  have waits : j1.whole = false ∨ j1.kind = 0 ∨ j1.kind = 3 := by rw [kind]; exact unfinished
  rw [Dev.completion, if_neg (by rw [on]; decide), known]
  refine (if_neg (by decide)).trans ((if_neg (Nat.not_lt.2 whole)).trans ((if_neg served).trans ?_))
  simp only [Dev.setReadTag_chan, job, piece, ← filled]
  have given : (((d.setReadTag t none).setChan r.ch { d.chan r.ch with job := some j1 }).chan r.ch).job = some j1 := by rw [Dev.chan_setChan]
  rw [Dev.jobDone_unfinished given waits]
  exact Dev.pumpReads_none _ (by rw [Dev.setChan_waiting, Dev.setReadTag_waiting, still])

end

end

/-! Timeouts (R348) -/

theorem Dev.completionTimeout_unknown (unknown : Map.rd none d.hif.tags t = none) : d.completionTimeout t = d := by
  rw [Dev.completionTimeout, unknown]

/-- A read has timed out: its tag quarantined, counted and reported. -/
def Dev.timedOut (d : Dev) (t ch : Nat) : Dev :=
  (((((d.setReadTag t none).quarantine t true).cnt hifPage F.HIF_CNT_COUNT 1).int hifPage 0).emit (.aer 0x4000)).event hifPage 7 5 t ch 0

theorem Dev.timedOut_waiting (d : Dev) (t ch : Nat) : (d.timedOut t ch).hif.waiting = d.hif.waiting := by
  unfold Dev.timedOut
  rw [(Dev.event_records ..).hif, Dev.emit_hif, (Dev.int_records ..).hif, (Dev.cnt_records ..).hif, Dev.quarantine_waiting,
    Dev.setReadTag_waiting]

section
variable {r : ReadTag} (known : Map.rd none d.hif.tags t = some r)
include known

theorem Dev.completionTimeout_known : d.completionTimeout t = ((d.timedOut t r.ch).readFails r 2).pumpReads := by
  rw [Dev.completionTimeout, known]
  rfl

theorem Dev.completionTimeout_abandoned (abandoned : r.piece = 65535) (still : d.hif.waiting = []) :
    d.completionTimeout t = d.timedOut t r.ch := by
  rw [Dev.completionTimeout_known known, Dev.readFails_abandoned abandoned,
    Dev.pumpReads_none _ ((d.timedOut_waiting t r.ch).trans still)]

theorem Dev.completionTimeout_served (served : r.piece ≠ 65535) :
    d.completionTimeout t = ((d.timedOut t r.ch).chError r.ch 2).pumpReads := by
  rw [Dev.completionTimeout_known known, Dev.readFails_served served]

end

/-! The link down (R350) -/

theorem Dev.pcieDown_down (down : d.lstate = 5) : d.pcieDown = d := if_pos (.inr down)

/-- The device with a link down shown, counted and signalled. -/
def Dev.downShown (d : Dev) : Dev :=
  ((((d.set hifPage F.HIF_LINK_STAT_LSTATE 5).cnt hifPage F.HIF_CNT_COUNT 7).cnt hifPage F.HIF_CNT_COUNT 5).int hifPage 2)

theorem Dev.downShown_hif (d : Dev) : d.downShown.hif = d.hif := by
  unfold Dev.downShown
  rw [(Dev.int_records ..).hif, (Dev.cnt_records ..).hif, (Dev.cnt_records ..).hif, Dev.set_hif]

theorem Dev.endReads_none (untagged : d.hif.tags = []) : d.endReads = (0, d) := by
  rw [Dev.endReads, untagged]
  rfl

/-- The reads of a link that went down end, and so does the work of its channels. -/
def Dev.endWork (d : Dev) : Dev :=
  let (n, d) := d.endReads
  let d := d.event hifPage 8 5 n 0 0
  ((List.filter (fun (x : Nat × Chan) => x.2.job.isSome) d.hif.chans).map (·.1)).foldl (fun d ch => d.chError ch 4) d

theorem Dev.pcieDown_up (on : d.domOn 29 = true) (up : d.lstate ≠ 5) : d.pcieDown = d.downShown.endWork := by
  have falls : ¬ (!d.domOn 29 ∨ d.lstate = 5) := by simp [on, up]
  rw [Dev.pcieDown, if_neg falls]
  rfl

theorem Dev.endWork_idle (untagged : d.hif.tags = []) (idle : ∀ x ∈ d.hif.chans, x.2.job = none) : d.endWork = d.event hifPage 8 5 0 0 0 := by
  have jobless : List.filter (fun (x : Nat × Chan) => x.2.job.isSome) (d.event hifPage 8 5 0 0 0).hif.chans = [] := by
    rw [(Dev.event_records ..).hif]
    exact List.filter_eq_nil_iff.2 fun x hx => by rw [idle x hx]; decide
  rw [Dev.endWork, Dev.endReads_none untagged]
  dsimp only
  rw [jobless, List.map_nil, List.foldl_nil]

theorem Dev.pcieDown_idle (on : d.domOn 29 = true) (up : d.lstate ≠ 5) (untagged : d.hif.tags = []) (idle : ∀ x ∈ d.hif.chans, x.2.job = none) :
    d.pcieDown = d.downShown.event hifPage 8 5 0 0 0 :=
  (Dev.pcieDown_up on up).trans (Dev.endWork_idle (by rw [Dev.downShown_hif]; exact untagged) (by rw [Dev.downShown_hif]; exact idle))

end

/-! The commands -/

section
variable (s : State) (tag : Fin 1024)

theorem exec_completion (ok : Bool) (data : List Byte) :
    exec (.completion tag ok data) s = .next { s with dev := s.dev.completion tag.val ok data } := rfl

theorem exec_completionTimeout : exec (.completionTimeout tag) s = .next { s with dev := s.dev.completionTimeout tag.val } := rfl

theorem exec_pcieDown : exec .pcieDown s = .next { s with dev := s.dev.pcieDown } := rfl

end

/-- Settles O54: a completion and a timeout by what their tag is and by what its read has and serves, and a link down by its state. -/
theorem readsCompleteOrTimeOut : Obligations.ReadsCompleteOrTimeOut := by
  unfold Obligations.ReadsCompleteOrTimeOut
  intro s tag data ok r on
  refine ⟨fun unknown => ⟨fun quarantined => ?late, fun free => ?stray, ?noTimeout⟩,
    fun known => ⟨fun more => ?more, fun still abandoned => ?error, fun still whole served j p job piece unfinished => ?whole,
      fun abandoned still => ?abandoned, fun served => ?served⟩,
    fun down => ?noDown, fun up untagged idle => ?down⟩
  case late => exact (exec_completion s tag ok data).trans (next_dev (Dev.completion_late on unknown quarantined))
  case stray => exact (exec_completion s tag ok data).trans (next_dev (Dev.completion_stray on unknown free))
  case noTimeout => exact (exec_completionTimeout s tag).trans (next_dev (Dev.completionTimeout_unknown unknown))
  case more => exact (exec_completion s tag true data).trans (next_dev (Dev.completion_partial on known more))
  case error => exact (exec_completion s tag false data).trans (next_dev (Dev.completion_error on known still abandoned))
  case whole => exact (exec_completion s tag true data).trans (next_dev (Dev.completion_whole on known still whole served job piece rfl unfinished))
  case abandoned => exact (exec_completionTimeout s tag).trans (next_dev (Dev.completionTimeout_abandoned known abandoned still))
  case served => exact (exec_completionTimeout s tag).trans (next_dev (Dev.completionTimeout_served known served))
  case noDown => exact (exec_pcieDown s).trans (next_dev (Dev.pcieDown_down down))
  case down => exact (exec_pcieDown s).trans (next_dev (Dev.pcieDown_idle on up untagged idle))

end Sys2Proof.Machine
end

section
/-! Channels, doorbells and descriptor fetches (R354, R356–R358, R364). -/

namespace Sys2Proof.Machine

/-! The state of a channel (R354) -/

section
variable (d : Dev) (ch : Nat)

theorem Dev.chState_setChState {n : Nat} (fits : n < 8) : (d.setChState ch n).chState ch = n := by
  unfold Dev.setChState Dev.chState
  refine (Dev.get_set_ne _ _ _ _ _ _ (by simp only [Fld.at, csrKey]; omega)).trans ?_
  exact (Dev.get_set_same _ _ _ _ (by simp only [Fld.at]; decide)).trans (Nat.mod_eq_of_lt fits)

theorem Dev.chState_setChState_ne {k : Nat} (n : Nat) (other : k ≠ ch) : (d.setChState ch n).chState k = d.chState k := by
  unfold Dev.setChState Dev.chState
  refine (Dev.get_set_ne _ _ _ _ _ _ (by simp only [Fld.at, csrKey]; omega)).trans ?_
  exact Dev.get_set_ne _ _ _ _ _ _ (by simp only [Fld.at, csrKey]; omega)

end

section
variable {d : Dev} {ch : Nat}

/-! CHANNEL_START and CHANNEL_STOP by the state they find -/

theorem Dev.chStart_stopped (stopped : d.chState ch = 0) (runs : d.running dmaPage = true) :
    d.chStart ch =
      let u := (d.set dmaPage (F.DMA_CH_ERR_CODE.at (16 * ch)) 0).setChState ch 1
      (u.setChan ch { u.chan ch with ctx := none, descs := [], unsig := 0, armed := false }).readCtx ch 0 := by
  rw [Dev.chStart, stopped]
  exact if_neg (by rw [runs]; decide)

theorem Dev.chStart_starting (starting : d.chState ch = 1) : d.chStart ch = d.setChPending ch false := by simp only [Dev.chStart, starting]

theorem Dev.chStart_running (running : d.chState ch = 2) : d.chStart ch = d := by simp only [Dev.chStart, running]

theorem Dev.chStart_stopping (stopping : d.chState ch = 3) : d.chStart ch = d.setChPending ch true := by simp only [Dev.chStart, stopping]

theorem Dev.chStartBad_stopped (stopped : d.chState ch = 0) (runs : d.running dmaPage = true) : d.chStartBad ch = false := by
  simp [Dev.chStartBad, stopped, runs]

theorem Dev.chStartBad_live (started : d.chState ch ≠ 0) (sound : d.chState ch ≠ 4) : d.chStartBad ch = false := by
  simp [Dev.chStartBad, started, sound]

theorem Dev.chStop_stopped (stopped : d.chState ch = 0) : d.chStop ch = d := by simp only [Dev.chStop, stopped]

theorem Dev.chStop_starting (starting : d.chState ch = 1) : d.chStop ch = d.setChPending ch true := by simp only [Dev.chStop, starting]

theorem Dev.chStop_running (running : d.chState ch = 2) : d.chStop ch = d.setChState ch 3 := by simp only [Dev.chStop, running]

theorem Dev.chStop_stopping (stopping : d.chState ch = 3) : d.chStop ch = d.setChPending ch false := by simp only [Dev.chStop, stopping]

theorem Dev.chStop_error (error : d.chState ch = 4) : d.chStop ch = d.setChState ch 3 := by simp only [Dev.chStop, error]

/-! CHANNEL_START_DONE -/

/-- A channel takes a context that has been read; its pending request is dropped. -/
def Dev.takeCtx (d : Dev) (ch : Nat) (cx : Ctx) : Dev :=
  (d.setChan ch { d.chan ch with ctx := some cx, job := none, armed := cx.intEn, unsig := 0, descs := [] }).setChPending ch false

theorem Dev.chStartDone_started (started : 2 ≤ d.chState ch) : d.chStartDone ch = d := by
  unfold Dev.chStartDone
  split
  case h_1 starting _ => omega
  case h_2 starting _ => omega
  case h_3 => rfl

section
variable {j : Job} (starting : d.chState ch = 1) (job : (d.chan ch).job = some j) (start : j.kind = 0) (whole : j.whole = true)
include starting job start whole

theorem Dev.chStartDone_read : d.chStartDone ch =
    let code := d.ctxCheck ch (ctxOf j.bytes)
    let u := d.takeCtx ch (ctxOf j.bytes)
    if code ≠ 0 then
      ((((u.set dmaPage (F.DMA_CH_ERR_CODE.at (16 * ch)) 3).set dmaPage (F.DMA_CH_ERR_IDX.at (16 * ch)) code).setChState ch 0).err dmaPage 0x21).int
        dmaPage 2
    else
      let v := (u.setWord dmaPage (0x4004 + 16 * ch) 0).setChState ch 2
      if d.chPending ch then v.setChState ch 3 else v := by
  rw [Dev.chStartDone, starting, job]
  exact if_neg (by simp [start, whole])

theorem Dev.chStartDone_runs (good : d.ctxCheck ch (ctxOf j.bytes) = 0) (unasked : d.chPending ch = false) :
    d.chStartDone ch = ((d.takeCtx ch (ctxOf j.bytes)).setWord dmaPage (0x4004 + 16 * ch) 0).setChState ch 2 :=
  (Dev.chStartDone_read starting job start whole).trans ((if_neg (not_not.2 good)).trans (if_neg (by rw [unasked]; decide)))

theorem Dev.chStartDone_stops (good : d.ctxCheck ch (ctxOf j.bytes) = 0) (asked : d.chPending ch = true) :
    d.chStartDone ch = (((d.takeCtx ch (ctxOf j.bytes)).setWord dmaPage (0x4004 + 16 * ch) 0).setChState ch 2).setChState ch 3 :=
  (Dev.chStartDone_read starting job start whole).trans ((if_neg (not_not.2 good)).trans (if_pos asked))

theorem Dev.chStartDone_refused (bad : d.ctxCheck ch (ctxOf j.bytes) ≠ 0) :
    d.chStartDone ch =
      (((((d.takeCtx ch (ctxOf j.bytes)).set dmaPage (F.DMA_CH_ERR_CODE.at (16 * ch)) 3).set dmaPage (F.DMA_CH_ERR_IDX.at (16 * ch))
        (d.ctxCheck ch (ctxOf j.bytes))).setChState ch 0).err dmaPage 0x21).int dmaPage 2 :=
  (Dev.chStartDone_read starting job start whole).trans (if_pos bad)

end

/-! CHANNEL_STOP_DONE -/

/-- A channel that has nothing in hand comes to rest, its context written back. -/
def Dev.chRest (d : Dev) (ch : Nat) : Dev :=
  let u := (d.dropJob ch).unwaitInject ch
  ((u.setChan ch { u.chan ch with descs := [] }).ctxBack ch).setChState ch 0

theorem Dev.chStopDone_waits (waits : d.chState ch ≠ 3 ∨ d.d3hot = true) : d.chStopDone ch = d := if_pos waits

theorem Dev.settleInval_idle (idle : d.get dmaPage F.DMA_CTX_INVAL_BUSY = 0) : d.settleInval = d := if_pos (.inl idle)

theorem Dev.chStopDone_rests (stopping : d.chState ch = 3) (jobless : (d.chan ch).job = none) (awake : d.d3hot = false)
    (idle : (d.chRest ch).get dmaPage F.DMA_CTX_INVAL_BUSY = 0) (unasked : (d.chRest ch).chPending ch = false) :
    d.chStopDone ch = d.chRest ch := by
  have rests : d.chStopDone ch =
      let e := (d.chRest ch).settleInval
      if e.chPending ch then (if e.chStartBad ch then (e.setChPending ch false).err dmaPage 0x23 else (e.setChPending ch false).chStart ch) else e := by
    rw [Dev.chStopDone, if_neg (by simp [stopping, awake])]
    simp only [jobless]
    rfl
  rw [rests, Dev.settleInval_idle idle]
  exact if_neg (by rw [unasked]; decide)

/-! Invalidation of contexts (R356) -/

theorem Dev.d3hot_set {f : Fld} (v : Nat) (dma : f.off < 0x1000) : (d.set dmaPage f v).d3hot = d.d3hot := by
  unfold Dev.d3hot
  rw [Dev.get_set_ne _ _ _ _ _ _ (by simp only [csrKey, dmaPage, hifPage]; omega)]

/-- Where no channel waits for its invalidation, it has ended. -/
theorem Dev.settleInval_none (busy : d.get dmaPage F.DMA_CTX_INVAL_BUSY = 1) (awake : d.d3hot = false)
    (still : ∀ y ∈ d.hif.chans, y.2.inval = false) : d.settleInval = (d.set dmaPage F.DMA_CTX_INVAL_BUSY 0).int dmaPage 0 := by
  have due : (d.hif.chans.filter fun (x : Nat × Chan) => x.2.inval) = [] :=
    List.filter_eq_nil_iff.2 fun y hy => by rw [still y hy]; decide
  have goes : ¬ (d.get dmaPage F.DMA_CTX_INVAL_BUSY = 0 ∨ d.d3hot = true) := by simp [busy, awake]
  rw [Dev.settleInval, if_neg goes]
  simp only [due, List.map_nil, List.foldl_nil, List.any_nil, Bool.false_eq_true, if_false]

/-- With nothing cached, an invalidation ends at once. -/
theorem Dev.ctxInval_none (uncached : d.hif.cached = []) (still : ∀ y ∈ d.hif.chans, y.2.inval = false) (awake : d.d3hot = false) :
    d.ctxInval = ((d.set dmaPage F.DMA_CTX_INVAL_BUSY 1).set dmaPage F.DMA_CTX_INVAL_BUSY 0).int dmaPage 0 := by
  unfold Dev.ctxInval
  simp only [Dev.set_hif, uncached, List.filter_nil, List.foldl_nil]
  exact Dev.settleInval_none (Dev.get_set_same _ _ _ _ (by decide)) ((Dev.d3hot_set 1 (by decide)).trans awake) (by rw [Dev.set_hif]; exact still)

/-- DMA_CTX_INVAL with its fields. -/
def ctxInvalReg : RegDesc :=
  ⟨0x0108, 1, 65536, 1, 4, .single, [⟨0, 10, .rw, 0, false⟩, ⟨14, 1, .rw, 0, false⟩, ⟨15, 1, .wo, 0, false⟩, ⟨16, 1, .ro, 0, false⟩]⟩

theorem regAt_ctxInval : regAt dmaPage 0x0108 = some ctxInvalReg := by decide

/-- A GO for one channel, while none is in hand, shows no kind. -/
theorem judgeWrite_ctxInval (mode : Nat) {cur : Nat} (idle : bits cur 16 1 = 0) (e : Fin 1024) :
    judgeWrite (some ctxInvalReg) mode cur (0x8000 + e.val) = [] := by
  have reserved : ∀ e : Fin 1024, Nat.land (0x8000 + e.val) (2 ^ 32 - 1 - ctxInvalReg.mask fun _ => true) = 0 := by decide +kernel
  have busy : ∀ e : Fin 1024, bits (0x8000 + e.val) 16 1 = 0 := by decide +kernel
  rw [judgeWrite, if_pos (reserved e)]
  simp [ctxInvalReg, busy e, idle]

/-- The word that DMA_CTX_INVAL holds after a write. -/
def Dev.invalStored (d : Dev) (v : Nat) : Dev := (d.storeWord dmaPage 0x0108 ctxInvalReg v).1

theorem Dev.storeWord_ctxInval (v : Nat) : d.storeWord dmaPage 0x0108 ctxInvalReg v = (d.invalStored v, []) := by
  have kept (old w : Nat) : d.keepFields dmaPage 0x0108 old w = (w, []) := rfl
  have unclamped (w : Nat) : clampWord (pageKind dmaPage) 0x0108 w = w := rfl
  refine Prod.ext rfl ?_
  simp only [Dev.storeWord, kept, unclamped, if_true]

/-- The fields that the host writes take the value; no shadow holds it. -/
theorem Dev.invalStored_eq (v : Nat) : d.invalStored v =
    let w := ctxInvalReg.newWord d.mode (d.word dmaPage 0x0108).toNat v
    if w = (d.word dmaPage 0x0108).toNat then d else d.setWord dmaPage 0x0108 (BitVec.ofNat 32 w) := by
  have kept (old w : Nat) : d.keepFields dmaPage 0x0108 old w = (w, []) := rfl
  have unclamped (w : Nat) : clampWord (pageKind dmaPage) 0x0108 w = w := rfl
  have unshadowed (f : FieldDesc → Bool) : (ctxInvalReg.mask fun x => x.shadow && f x) = 0 := rfl
  have waitless : (ctxInvalReg.mask (·.shadow)) = 0 := rfl
  simp only [Dev.invalStored, Dev.storeWord, kept, unclamped, unshadowed, waitless, ne_eq, not_true_eq_false, false_and, or_self, if_false]

theorem bits_newWord_inval (mode old v : Nat) : bits (ctxInvalReg.newWord mode old v) 16 1 = bits old 16 1 := by
  show bits (putBits (putBits old 0 10 (bits v 0 10)) 14 1 (bits v 14 1)) 16 1 = _
  rw [bits_putBits_ne _ _ _ _ _ _ (by omega), bits_putBits_ne _ _ _ _ _ _ (by omega)]

/-- A write does not set BUSY. -/
theorem Dev.invalStored_busy (v : Nat) : (d.invalStored v).get dmaPage F.DMA_CTX_INVAL_BUSY = d.get dmaPage F.DMA_CTX_INVAL_BUSY := by
  rw [Dev.invalStored_eq]
  dsimp only
  split
  · rfl
  · unfold Dev.get
    rw [Dev.word_setWord_same, BitVec.toNat_ofNat, bits_mod_two_pow (by decide)]
    exact bits_newWord_inval _ _ _

theorem Dev.invalStored_hif (v : Nat) : (d.invalStored v).hif = d.hif := by
  rw [Dev.invalStored_eq]
  dsimp only
  split
  · rfl
  · exact Dev.setWord_hif ..

theorem Dev.invalStored_d3hot (v : Nat) : (d.invalStored v).d3hot = d.d3hot := by
  rw [Dev.invalStored_eq]
  dsimp only
  split
  · rfl
  · unfold Dev.d3hot Dev.get
    rw [Dev.word_setWord_ne _ _ _ _ _ _ (by decide)]

/-- A GO for one channel, while none is in hand, acts on the fields it stores. -/
theorem Dev.regWrite_ctxInval (idle : d.get dmaPage F.DMA_CTX_INVAL_BUSY = 0) (e : Fin 1024) (req : Nat) :
    d.regWrite dmaPage 0x0108 (BitVec.ofNat 32 (0x8000 + e.val)) req = (d.invalStored (0x8000 + e.val)).ctxInval := by
  have number : (BitVec.ofNat 32 (0x8000 + e.val)).toNat = 0x8000 + e.val := by
    rw [BitVec.toNat_ofNat]; omega
  have go : bit (0x8000 + e.val) 15 = true := by
    have all : ∀ e : Fin 1024, bit (0x8000 + e.val) 15 = true := by decide +kernel
    exact all e
  have judged := judgeWrite_ctxInval d.mode idle e
  have shown : d.shown dmaPage 0x0108 = d.word dmaPage 0x0108 := rfl
  have heard : d.ignores dmaPage 0x0108 (0x8000 + e.val) = [] := rfl
  have bounds (u : Dev) : u.boundCheck dmaPage 0x0108 = (u, []) := rfl
  have stored := Dev.storeWord_ctxInval (d := d) (0x8000 + e.val)
  have accepted : (d.invalStored (0x8000 + e.val)).actRefused dmaPage 0x0108 (0x8000 + e.val) = none := by
    refine if_neg fun refused => ?_
    have busy := refused.2.2
    rw [Dev.invalStored_busy, idle] at busy
    exact absurd busy (by decide)
  have acts (old : Nat) : (d.invalStored (0x8000 + e.val)).act dmaPage 0x0108 (0x8000 + e.val) old = (d.invalStored (0x8000 + e.val)).ctxInval :=
    if_pos go
  have kind : pageKind dmaPage = .dma := rfl
  have single : ctxInvalReg.half = .single := rfl
  have page1 : dmaPage ≠ 0x01 := by decide
  have page2 : dmaPage ≠ 0x02 := by decide
  simp [Dev.regWrite, regAt_ctxInval, number, shown, judged, heard, stored, bounds, accepted, acts, kind, single, page1, page2]

theorem Dev.regWrite_ctxInval_none (idle : d.get dmaPage F.DMA_CTX_INVAL_BUSY = 0) (uncached : d.hif.cached = [])
    (still : ∀ y ∈ d.hif.chans, y.2.inval = false) (awake : d.d3hot = false) (e : Fin 1024) (req : Nat) :
    d.regWrite dmaPage 0x0108 (BitVec.ofNat 32 (0x8000 + e.val)) req =
      (((d.invalStored (0x8000 + e.val)).set dmaPage F.DMA_CTX_INVAL_BUSY 1).set dmaPage F.DMA_CTX_INVAL_BUSY 0).int dmaPage 0 := by
  rw [Dev.regWrite_ctxInval idle e req]
  exact Dev.ctxInval_none (by rw [Dev.invalStored_hif]; exact uncached) (by rw [Dev.invalStored_hif]; exact still)
    ((Dev.invalStored_d3hot _).trans awake)

end

/-! Doorbells (R357, R364) -/

section
variable {d : Dev} {ch : Nat} {cx : Ctx}

theorem Dev.bellBad_arm (running : d.chState ch = 2) (v : Nat) : d.bellBad ch v false = none := by
  simp [Dev.bellBad, running]

theorem Dev.bellBad_within (running : d.chState ch = 2) (ctx : (d.chan ch).ctx = some cx) {v : Nat}
    (within : (v + 65536 - d.chHead ch) % 65536 ≤ 2 ^ cx.ringLog) : d.bellBad ch v true = none := by
  simp only [Dev.bellBad, running, ctx, ne_eq, not_true_eq_false, if_false, true_and, if_neg (Nat.not_lt.2 within)]

theorem Dev.bellBad_beyond (running : d.chState ch = 2) (ctx : (d.chan ch).ctx = some cx) {v : Nat}
    (beyond : 2 ^ cx.ringLog < (v + 65536 - d.chHead ch) % 65536) : d.bellBad ch v true = some 0x22 := by
  simp only [Dev.bellBad, running, ctx, ne_eq, not_true_eq_false, if_false, true_and, gt_iff_lt, if_pos beyond]

theorem Dev.winErr_nil (a data req : Nat) (write : Bool) : d.winErr a [] data req write = d := rfl

/-- A write of a channel's TAIL or ARM by a 16-bit value is judged as a doorbell. -/
theorem Dev.write4_bell (channel : ch < 1024) {o : Nat} (bell : o = 0 ∨ o = 4) (v : BitVec 16) (req : Nat) :
    d.write4 (512 * ch + o) (v.setWidth 32) 15 req =
      match d.bellBad ch v.toNat (o = 0) with
      | some k => d.capture { page := dmaPage, kinds := [k], off := (512 * ch + o) % 65536, data := v.toNat, write := true, req := req, d5 := 512 * ch + o }
      | none => if o = 0 then d.dbTail ch v.toNat else d.dbArm ch v.toNat := by
  have number : (v.setWidth 32).toNat = v.toNat := by
    rw [BitVec.toNat_setWidth]; omega
  have small := v.isLt
  have parts : (512 * ch + o) / 512 = ch ∧ (512 * ch + o) % 512 = o := by omega
  rw [Dev.write4, if_neg (by omega), if_neg (by omega), if_neg (by decide), if_pos (by omega), Dev.doorbell, parts.1, parts.2, number, if_pos bell,
    if_pos (by omega), Dev.winErr_nil, Nat.mod_eq_of_lt small] <;> rfl

section
variable (channel : ch < 1024) (v : BitVec 16) (req : Nat)
include channel

theorem Dev.write4_tail_good (good : d.bellBad ch v.toNat true = none) :
    d.write4 (512 * ch) (v.setWidth 32) 15 req = d.dbTail ch v.toNat := by
  have judged := Dev.write4_bell (d := d) channel (.inl rfl) v req
  simpa only [Nat.add_zero, decide_true, good, if_true] using judged

theorem Dev.write4_tail_bad {k : Nat} (bad : d.bellBad ch v.toNat true = some k) :
    d.write4 (512 * ch) (v.setWidth 32) 15 req =
      d.capture { page := dmaPage, kinds := [k], off := 512 * ch % 65536, data := v.toNat, write := true, req := req, d5 := 512 * ch } := by
  have judged := Dev.write4_bell (d := d) channel (.inl rfl) v req
  simpa only [Nat.add_zero, decide_true, bad] using judged

theorem Dev.write4_arm (running : d.chState ch = 2) : d.write4 (512 * ch + 4) (v.setWidth 32) 15 req = d.dbArm ch v.toNat := by
  have judged := Dev.write4_bell (d := d) channel (.inr rfl) v req
  have arm : (4 = 0) = False := eq_false (by decide)
  simpa only [arm, decide_false, Dev.bellBad_arm running, if_false] using judged

end

theorem Dev.dbTail_good {v : Nat} (good : d.bellBad ch v true = none) : d.dbTail ch v = d.set dmaPage (F.DMA_CH_IDX_TAIL.at (16 * ch)) v :=
  if_neg (by rw [good]; decide)

theorem Dev.dbArm_running (running : d.chState ch = 2) (v : Nat) :
    d.dbArm ch v =
      let u := d.setChan ch { d.chan ch with armed := true }
      if u.chHead ch ≠ v then u.chSend ch else u := if_neg (by rw [Dev.bellBad_arm running]; decide)

theorem Dev.dbArm_seen (running : d.chState ch = 2) {v : Nat} (seen : d.chHead ch = v) : d.dbArm ch v = d.setChan ch { d.chan ch with armed := true } :=
  (Dev.dbArm_running running v).trans (if_neg (not_not.2 seen))

theorem Dev.chSend_armed (ctx : (d.chan ch).ctx = some cx) (enabled : cx.intEn = true) (armed : (d.chan ch).armed = true) :
    d.chSend ch = (d.setChan ch { d.chan ch with armed := false, unsig := 0 }).sendMsix cx.vector := by
  rw [Dev.chSend]
  simp only [ctx]
  exact if_pos ⟨enabled, armed⟩

theorem Dev.dbArm_unseen (running : d.chState ch = 2) (ctx : (d.chan ch).ctx = some cx) (enabled : cx.intEn = true) {v : Nat}
    (unseen : d.chHead ch ≠ v) :
    d.dbArm ch v =
      ((d.setChan ch { d.chan ch with armed := true }).setChan ch { d.chan ch with armed := false, unsig := 0 }).sendMsix cx.vector := by
  refine (Dev.dbArm_running running v).trans ((if_pos unseen).trans ?_)
  have given : (d.setChan ch { d.chan ch with armed := true }).chan ch = { d.chan ch with armed := true } := d.chan_setChan ch _
  rw [Dev.chSend_armed (cx := cx) (by rw [given]; exact ctx) enabled (by rw [given]), given]

/-! Descriptor fetches (R358) and coalescing (R364) -/

theorem Dev.descFetch_idle (other : d.chState ch ≠ 2) : d.descFetch ch = d := if_pos (.inl other)

theorem Dev.needCtx_cached (jobless : (d.chan ch).job = none) (cached : d.hif.cached.contains ch = true) :
    d.needCtx ch = (true, d.setHif { d.hif with cached := d.hif.cached.filter (· ≠ ch) ++ [ch] }) := by
  rw [Dev.needCtx, jobless]
  exact (if_neg (by decide)).trans (if_pos cached)

/-- The place in its ring, and the number, of the descriptors that a fetch reads. -/
def Dev.fetchCount (d : Dev) (ch : Nat) (cx : Ctx) : Nat :=
  min 8 (min (d.chFree ch - (d.chan ch).descs.length)
    (2 ^ cx.ringLog - (d.chHead ch + (d.chan ch).descs.length) % 65536 % 2 ^ cx.ringLog))

theorem Dev.descFetch_reads (running : d.chState ch = 2) (jobless : (d.chan ch).job = none) (isOpen : d.hostShut = false)
    (cached : d.hif.cached.contains ch = true) (ctx : (d.chan ch).ctx = some cx) (plain : cx.typ ≠ 2) (some_ : d.fetchCount ch cx ≠ 0) :
    d.descFetch ch =
      (d.setHif { d.hif with cached := d.hif.cached.filter (· ≠ ch) ++ [ch] }).startJob ch 2
        [(cx.ring + 16 * ((d.chHead ch + (d.chan ch).descs.length) % 65536 % 2 ^ cx.ringLog), 16 * d.fetchCount ch cx)] := by
  have goes : ¬ (d.chState ch ≠ 2 ∨ (d.chan ch).job.isSome = true ∨ d.hostShut = true) := by simp [running, jobless, isOpen]
  rw [Dev.descFetch, if_neg goes, Dev.needCtx_cached jobless cached, ctx]
  exact if_neg fun waits => waits.elim some_ fun typ => plain typ.1

theorem Dev.coalTimeout_due (ctx : (d.chan ch).ctx = some cx) (counted : 0 < (d.chan ch).unsig) (timed : cx.coalUs ≠ 0) (enabled : cx.intEn = true)
    (armed : (d.chan ch).armed = true) :
    d.coalTimeout ch = (d.setChan ch { d.chan ch with armed := false, unsig := 0 }).sendMsix cx.vector := by
  have due : d.coalTimeout ch = d.chSend ch := by
    rw [Dev.coalTimeout]
    simp only [ctx]
    exact if_pos ⟨counted, timed⟩
  exact due.trans (Dev.chSend_armed ctx enabled armed)

theorem Dev.coalTimeout_idle (ctx : (d.chan ch).ctx = some cx) (idle : (d.chan ch).unsig = 0 ∨ cx.coalUs = 0) : d.coalTimeout ch = d := by
  rw [Dev.coalTimeout]
  simp only [ctx]
  exact if_neg fun due => idle.elim (by omega) due.2

end

/-! The commands -/

section
variable (s : State) (ch : Fin 1024) (req : BitVec 16)

theorem exec_channelStart (reach : s.dev.reachable dmaPage) (good : s.dev.chStartBad ch.val = false) :
    exec (.channelStart ch req) s = .next { s with dev := s.dev.chStart ch.val } := runHost_eq _ s _ (Reach.act_chStart _ ch _ reach good)

theorem exec_channelStop (reach : s.dev.reachable dmaPage) : exec (.channelStop ch req) s = .next { s with dev := s.dev.chStop ch.val } :=
  runHost_eq _ s _ (Reach.act_chStop _ ch _ reach)

theorem exec_channelStartDone : exec (.channelStartDone ch) s = .next { s with dev := s.dev.chStartDone ch.val } := rfl

theorem exec_channelStopDone : exec (.channelStopDone ch) s = .next { s with dev := s.dev.chStopDone ch.val } := rfl

theorem exec_dmaCtxInval (reach : s.dev.reachable dmaPage) (v : Word) :
    exec (.dmaCtxInval v 15 req) s = .next { s with dev := s.dev.regWrite dmaPage 0x0108 v req.toNat } :=
  runHost_eq _ s _ (Reach.hostWrite_reg ⟨s.trust, s.dev⟩ dmaPage 0x0108 v req.toNat reach (by decide) (by decide) rfl)

theorem exec_descriptorFetch : exec (.descriptorFetch ch) s = .next { s with dev := s.dev.descFetch ch.val } := rfl

theorem exec_coalTimeout : exec (.coalTimeout ch) s = .next { s with dev := s.dev.coalTimeout ch.val } := rfl

section
variable (isOpen : s.dev.hostOpen = true) (active : s.dev.lstate < 2) (v : Word)
include isOpen active

theorem exec_dbTail : exec (.dbTail ch v 15 req) s = .next { s with dev := s.dev.write4 (512 * ch.val) v 15 req.toNat } :=
  runHost_eq _ s _ (Reach.hostWrite_bar4 _ _ _ v 15 isOpen active (by omega))

theorem exec_dbArm : exec (.dbArm ch v 15 req) s = .next { s with dev := s.dev.write4 (512 * ch.val + 4) v 15 req.toNat } :=
  runHost_eq _ s _ (Reach.hostWrite_bar4 _ _ _ v 15 isOpen active (by omega))

end

end

/-- A page is reached while the function is in D0. -/
theorem Dev.d3hot_of_reachable {d : Dev} {p : Nat} (reach : d.reachable p) : d.d3hot = false := by
  have isOpen : d.hostOpen = true := reach.1
  simp only [Dev.hostOpen, Dev.hostShut, Bool.and_eq_true, Bool.not_eq_true', Bool.or_eq_false_iff] at isOpen
  exact isOpen.2.2

/-- Settles O55: the commands of a channel by its state, the check of its context, its rest, an invalidation of nothing, doorbells by the
ring, and a fetch and a coalesced message by what the channel has. -/
theorem channelsAndDoorbells : Obligations.ChannelsAndDoorbells := by
  unfold Obligations.ChannelsAndDoorbells
  refine ⟨fun s ch req => ⟨fun reach => ⟨fun stopped runs => ?start, fun starting => ⟨?startStarting, ?stopStarting⟩,
        fun running => ⟨?startRunning, ?stopRunning⟩, fun stopping => ⟨?startStopping, ?stopStopping⟩, fun error => ?stopError,
        fun stopped => ?stopStopped⟩,
      fun j starting job start whole => ⟨fun good unasked => ?runs, fun good asked => ?stops, fun bad => ?refused⟩, fun started => ?noStart,
      fun stopping jobless awake idle unasked => ?rests, fun waits => ?noRest, fun n fits => ⟨?same, fun k other => ?other⟩,
      fun e reach idle uncached still => ?inval⟩,
    fun s ch v req cx => ⟨fun isOpen active running ctx => ⟨fun within => ?tail, fun beyond => ?beyond, fun seen => ?arm,
        fun unseen enabled => ?armSends⟩,
      fun running jobless isOpen cached ctx plain some_ => ?fetch, fun other => ?noFetch, fun ctx counted timed enabled armed => ?coal,
      fun ctx idle => ?noCoal⟩⟩
  case start =>
    exact (exec_channelStart s ch req reach (Dev.chStartBad_stopped stopped runs)).trans (next_dev (Dev.chStart_stopped stopped runs))
  case startStarting =>
    exact (exec_channelStart s ch req reach (Dev.chStartBad_live (by omega) (by omega))).trans (next_dev (Dev.chStart_starting starting))
  case startRunning =>
    exact (exec_channelStart s ch req reach (Dev.chStartBad_live (by omega) (by omega))).trans (next_dev (Dev.chStart_running running))
  case startStopping =>
    exact (exec_channelStart s ch req reach (Dev.chStartBad_live (by omega) (by omega))).trans (next_dev (Dev.chStart_stopping stopping))
  case stopStarting => exact (exec_channelStop s ch req reach).trans (next_dev (Dev.chStop_starting starting))
  case stopRunning => exact (exec_channelStop s ch req reach).trans (next_dev (Dev.chStop_running running))
  case stopStopping => exact (exec_channelStop s ch req reach).trans (next_dev (Dev.chStop_stopping stopping))
  case stopError => exact (exec_channelStop s ch req reach).trans (next_dev (Dev.chStop_error error))
  case stopStopped => exact (exec_channelStop s ch req reach).trans (next_dev (Dev.chStop_stopped stopped))
  case runs => exact (exec_channelStartDone s ch).trans (next_dev (Dev.chStartDone_runs starting job start whole good unasked))
  case stops => exact (exec_channelStartDone s ch).trans (next_dev (Dev.chStartDone_stops starting job start whole good asked))
  case refused => exact (exec_channelStartDone s ch).trans (next_dev (Dev.chStartDone_refused starting job start whole bad))
  case noStart => exact (exec_channelStartDone s ch).trans (next_dev (Dev.chStartDone_started started))
  case rests => exact (exec_channelStopDone s ch).trans (next_dev (Dev.chStopDone_rests stopping jobless awake idle unasked))
  case noRest => exact (exec_channelStopDone s ch).trans (next_dev (Dev.chStopDone_waits waits))
  case same => exact Dev.chState_setChState _ _ (by omega)
  case other => exact Dev.chState_setChState_ne _ _ n fun same => other (Fin.ext same)
  case inval =>
    refine ⟨_, (exec_dmaCtxInval s req reach _).trans (next_dev (Dev.regWrite_ctxInval_none idle uncached still (Dev.d3hot_of_reachable reach) e _)),
      rfl, rfl, ?_, ?_⟩
    · exact (Dev.get_int _ _ _ _ (by decide) (by decide)).trans (Dev.get_set_same _ _ _ _ (by decide))
    · exact (Dev.int_records ..).hif.trans ((Dev.set_hif ..).trans ((Dev.set_hif ..).trans (Dev.invalStored_hif _)))
  case tail =>
    have good := Dev.bellBad_within running ctx within
    exact (exec_dbTail s ch req isOpen active _).trans (next_dev ((Dev.write4_tail_good ch.isLt v _ good).trans (Dev.dbTail_good good)))
  case beyond =>
    exact (exec_dbTail s ch req isOpen active _).trans (next_dev (Dev.write4_tail_bad ch.isLt v _ (Dev.bellBad_beyond running ctx beyond)))
  case arm =>
    exact (exec_dbArm s ch req isOpen active _).trans (next_dev ((Dev.write4_arm ch.isLt v _ running).trans (Dev.dbArm_seen running seen)))
  case armSends =>
    exact (exec_dbArm s ch req isOpen active _).trans
      (next_dev ((Dev.write4_arm ch.isLt v _ running).trans (Dev.dbArm_unseen running ctx enabled unseen)))
  case fetch => exact (exec_descriptorFetch s ch).trans (next_dev (Dev.descFetch_reads running jobless isOpen cached ctx plain some_))
  case noFetch => exact (exec_descriptorFetch s ch).trans (next_dev (Dev.descFetch_idle other))
  case coal => exact (exec_coalTimeout s ch).trans (next_dev (Dev.coalTimeout_due ctx counted timed enabled armed))
  case noCoal => exact (exec_coalTimeout s ch).trans (next_dev (Dev.coalTimeout_idle ctx idle))

end Sys2Proof.Machine
end

section
/-! Packets to and from the host and write lists (R360–R362). -/

namespace Sys2Proof.Machine

/-! PUNT_DELIVERY (R360) -/

theorem cdiv_eq_one {a b : Nat} (some_ : 0 < a) (fits : a ≤ b) : cdiv a b = 1 :=
  Nat.div_eq_of_lt_le (by omega) (by omega)

/-- The bytes of a packet as a host buffer takes them. -/
def Dev.puntBytes (d : Dev) (p : Punt) : List Byte := p.record ++ (d.chainBytes p.pkt.first).take p.pkt.len

/-- The last words of the descriptor that a packet completes. -/
def Punt.word (p : Punt) : Nat := p.src + p.reason % 64 * 8 + p.pkt.inport % 256 * 512 + p.hport * 2 ^ 17

/-- A channel has one packet more to its counts. -/
def Dev.countUnits (d : Dev) (ch n : Nat) : Dev :=
  d.setChan ch { d.chan ch with units := (d.chan ch).units + 1, bytes := (d.chan ch).bytes + n }

/-- A packet fills the buffers of `n` descriptors, which complete, and is counted and freed. -/
def Dev.puntFill (g : Dev) (ch : Nat) (p : Punt) (descs : List Desc) (size n : Nat) (all : List Byte) : Dev :=
  let g := g.setHif { g.hif with cached := g.hif.cached.filter (· ≠ ch) ++ [ch] }
  let bufs := (descs.take n).zip (chunks size n all)
  let g := bufs.foldl (fun g y => g.postHost y.1.addr y.2 true) g
  let g := (List.range n).foldl (fun g i =>
    g.descDone ch ((bufs.getD i (⟨0, 0, 0⟩, [])).2.length) 0 p.word (i = 0) (i + 1 = n) false) g
  ((g.countUnits ch all.length).cnt dmaPage F.DMA_CNT_COUNT 0).puntLetGo p

/-- A packet that fits one buffer fills that of the descriptor at the front. -/
theorem Dev.puntFill_one (g : Dev) (ch : Nat) (p : Punt) (e : Desc) (r : List Desc) {size : Nat} {all : List Byte} (fits : all.length ≤ size) :
    g.puntFill ch p (e :: r) size 1 all =
      ((((((g.setHif { g.hif with cached := g.hif.cached.filter (· ≠ ch) ++ [ch] }).postHost e.addr all true).descDone ch all.length 0 p.word
        true true false).countUnits ch all.length).cnt dmaPage F.DMA_CNT_COUNT 0).puntLetGo p) := by
  have chunk : chunks size 1 all = [all] := if_pos fits
  unfold Dev.puntFill
  rw [chunk]
  rfl

section
variable {d : Dev} {ch : Nat} {h : HostPkt} {l : List HostPkt}

theorem Dev.puntDelivery_empty (empty : d.hif.staged = []) : d.puntDelivery ch = d := by simp only [Dev.puntDelivery, empty]

section
variable (front : d.hif.staged = h :: l)
include front

/-- The front packet waits while its frame arrives. -/
theorem Dev.puntDelivery_arriving (arrives : d.arriving h.punt.pkt.owner = true) : d.puntDelivery ch = d := by
  simp only [Dev.puntDelivery, front, arrives, if_true, ite_self]

variable (mine : h.punt.ch = ch) (on : d.domOn 29 = true) (whole : d.arriving h.punt.pkt.owner = false)
include mine on whole

theorem Dev.puntDelivery_bad (held : h.punt.held = none) (bad : d.isBad h.punt.pkt.owner = true) :
    d.puntDelivery ch = ((d.setHif { d.hif with staged := l }).badDrop h.punt.pkt.owner).freePkt h.punt.pkt := by
  simp only [Dev.puntDelivery, front, mine, on, whole, bad, Dev.puntLetGo, held, ne_eq, not_true_eq_false, Bool.not_true, Bool.false_eq_true,
    or_self, if_false, if_true]

variable (good : d.isBad h.punt.pkt.owner = false)
include good

theorem Dev.puntDelivery_dropped (closed : d.chState ch ≠ 2 ∨ d.get hifPage F.HIF_LINK_STAT_DSTATE ≠ 0) :
    d.puntDelivery ch = (d.setHif { d.hif with staged := l }).puntDrop h.punt := by
  have drops : d.chState ch ≠ 2 ∨ d.d3hot = true := closed.imp_right bne_iff_ne.2
  simp only [Dev.puntDelivery, front, mine, on, whole, good, ne_eq, not_true_eq_false, Bool.not_true, Bool.false_eq_true, or_self, if_false]
  exact if_pos drops

/-- A packet for a channel that takes it fills as many buffers as it needs, where the channel has as many. -/
theorem Dev.puntDelivery_fills (held : h.punt.held = none) {cx : Ctx} (running : d.chState ch = 2) (awake : d.d3hot = false) (up : d.lstate ≠ 5)
    (jobless : (d.chan ch).job = none) (cached : d.hif.cached.contains ch = true) (ctx : (d.chan ch).ctx = some cx) (toHost : cx.typ = 1)
    {gone : Dev} (leaves : gone = d.setHif { d.hif with staged := l }) :
    d.puntDelivery ch =
      let n := cdiv (gone.puntBytes h.punt).length (2 ^ (cx.bufLog + 8))
      if d.chFree ch < n then gone.puntDrop h.punt
      else if (d.chan ch).descs.length < n then d
      else gone.puntFill ch h.punt (d.chan ch).descs (2 ^ (cx.bufLog + 8)) n (gone.puntBytes h.punt) := by
  simp only [Dev.puntDelivery, front, mine, on, whole, good, running, awake, up, Dev.needCtx_cached jobless cached, ctx, toHost, held,
    ← leaves, ne_eq, not_true_eq_false, Bool.not_true, Bool.false_eq_true, or_self, if_false]
  rfl

/-- A packet that fits one buffer completes the descriptor at the front. -/
theorem Dev.puntDelivery_delivers (held : h.punt.held = none) {cx : Ctx} {e : Desc} {r : List Desc} (running : d.chState ch = 2)
    (awake : d.get hifPage F.HIF_LINK_STAT_DSTATE = 0) (up : d.lstate ≠ 5) (jobless : (d.chan ch).job = none)
    (cached : d.hif.cached.contains ch = true) (ctx : (d.chan ch).ctx = some cx) (toHost : cx.typ = 1) (descs : (d.chan ch).descs = e :: r)
    (free : 1 ≤ d.chFree ch) {gone : Dev} (leaves : gone = d.setHif { d.hif with staged := l }) (some_ : 0 < (gone.puntBytes h.punt).length)
    (fits : (gone.puntBytes h.punt).length ≤ 2 ^ (cx.bufLog + 8)) :
    d.puntDelivery ch =
      let all := gone.puntBytes h.punt
      let g := (gone.setHif { gone.hif with cached := gone.hif.cached.filter (· ≠ ch) ++ [ch] }).postHost e.addr all true
      (((g.descDone ch all.length 0 h.punt.word true true false).countUnits ch all.length).cnt dmaPage F.DMA_CNT_COUNT 0).freePkt h.punt.pkt := by
  have fills := Dev.puntDelivery_fills front mine on whole good held running (bne_eq_false_iff_eq.2 awake) up jobless cached ctx toHost leaves
  rw [cdiv_eq_one some_ fits, descs] at fills
  refine fills.trans ((if_neg (by omega)).trans ((if_neg (by rw [List.length_cons]; omega)).trans ?_))
  rw [Dev.puntFill_one _ _ _ _ _ fits]
  unfold Dev.puntLetGo
  rw [held]

end

end

/-! INJECT (R361) -/

section
variable {d : Dev} {ch : Nat}

theorem Dev.inject_idle (idle : (d.chan ch).job = none ∨ d.hostShut = true) : d.inject ch = d := by
  unfold Dev.inject
  dsimp only
  split
  case h_1 c j n ctx job span =>
    obtain jobless | shut := idle
    · rw [jobless] at job
      exact absurd job (by simp)
    · exact if_pos (.inr (.inl shut))
  case h_2 => rfl

/-- The head of a packet from the host, its cells linked from `f` on. -/
def injected (cx : Ctx) (f : Nat) (b : List Byte) : Pkt := ⟨f, f, b.length, b.length + 4, 144 + cx.inport, cx.pg, cx.lane, 0, false⟩

/-- What follows the intake of a packet from the host: its descriptors complete, and it is counted. -/
def Dev.injectEnds (d : Dev) (ch : Nat) (l : List Desc) (b : List Byte) : Dev :=
  let d := d.setChan ch { d.chan ch with job := none }
  let d := l.foldl (fun d e => d.descDone ch e.len 0 0 (bit e.flags 0) (bit e.flags 1) false) d
  (((d.countUnits ch b.length).cnt dmaPage F.DMA_CNT_COUNT 1).goOn ch).settleInval

/-- A packet of one descriptor completes that. -/
theorem Dev.injectEnds_one (d : Dev) (ch : Nat) (e : Desc) (b : List Byte) :
    d.injectEnds ch [e] b =
      ((((((d.setChan ch { d.chan ch with job := none }).descDone ch e.len 0 0 (bit e.flags 0) (bit e.flags 1) false).countUnits ch b.length).cnt
        dmaPage F.DMA_CNT_COUNT 1).goOn ch).settleInval) := rfl

theorem Dev.inject_enters {cx : Ctx} {j : Job} {e : Desc} {r : List Desc} (ctx : (d.chan ch).ctx = some cx) (job : (d.chan ch).job = some j)
    (packet : j.kind = 3) (whole : j.whole = true) (running : d.chState ch = 2) (isOpen : d.hostShut = false) (fromHost : cx.typ = 2)
    (span : packetSpan (d.chan ch).descs = some (1, true)) (descs : (d.chan ch).descs = e :: r) (injects : d.injectOpen cx = true)
    (room : (d.pg cx.pg).depth < 1024) (unwaiting : ∀ die, die < 2 → ∀ w ∈ (d.bpm die).waits, w.2 ≠ .inject ch) {f : Nat}
    (cells : (d.newChain (cx.pg / 8) 12 j.bytes).1 = some f) :
    d.inject ch =
      let u := (d.newChain (cx.pg / 8) 12 j.bytes).2
      (u.takeIntake cx.lane ⟨injected cx f j.bytes, slice j.bytes 0 256, u.time.sec, u.time.ns, none⟩).injectEnds ch [e] j.bytes := by
  have calm : ((List.range 2).any fun die => (d.bpm die).waits.any fun w => w.2 = .inject ch) = false :=
    List.any_eq_false.2 fun die hd => by
      rw [Bool.not_eq_true]
      exact List.any_eq_false.2 fun w hw => by simpa using unwaiting die (List.mem_range.1 hd) w hw
  have chain : d.newChain (cx.pg / 8) 12 j.bytes = (some f, (d.newChain (cx.pg / 8) 12 j.bytes).2) := Prod.ext cells rfl
  have goes : ¬ ((d.chState ch ≠ 2 ∧ d.chState ch ≠ 3) ∨ d.hostShut = true ∨ cx.typ ≠ 2 ∨ j.kind ≠ 3 ∨ (!j.whole) = true ∨
      (!d.injectOpen cx) = true ∨ ((List.range 2).any fun die => (d.bpm die).waits.any fun w => w.2 = .inject ch) = true ∨
      (d.pg cx.pg).depth ≥ 1024) := by
    rw [calm]
    simp [running, isOpen, fromHost, packet, whole, injects, room]
  have first : (d.chan ch).descs.take 1 = [e] := by rw [descs]; rfl
  simp only [Dev.inject, ctx, job, span]
  rw [if_neg goes, chain, first]
  rfl

end

/-! WRITE_LIST (R362) -/

section
variable {x : Reach} {ch : Nat}

theorem Reach.writeList_idle (idle : (x.dev.chan ch).job = none ∨ x.dev.hostShut = true) : x.writeList ch = x := by
  unfold Reach.writeList
  dsimp only
  split
  case h_1 cx j ctx job =>
    obtain jobless | shut := idle
    · rw [jobless] at job
      exact absurd job (by simp)
    · exact if_pos (.inr (.inl shut))
  case h_2 => rfl

/-- What follows the records of a write list: its descriptor completes, and they are counted. -/
def Dev.listEnds (d : Dev) (ch n : Nat) (ok : Bool) : Dev :=
  let d := d.setChan ch { d.chan ch with job := none }
  let d := d.descDone ch (8 * n) (if ok then 0 else 4) n false false (!ok)
  let d := d.setChan ch { d.chan ch with units := (d.chan ch).units + n, bytes := (d.chan ch).bytes + 8 * n }
  ((d.bump dmaPage (F.DMA_CNT_COUNT.at 8) n).goOn ch).settleInval

theorem Reach.writeList_runs {cx : Ctx} {j : Job} (ctx : (x.dev.chan ch).ctx = some cx) (job : (x.dev.chan ch).job = some j)
    (list : j.kind = 3) (whole : j.whole = true) (running : x.dev.chState ch = 2) (isOpen : x.dev.hostShut = false) (typ : cx.typ = 3) :
    x.writeList ch =
      let r := x.runRecords (j.bytes.length / 8) j.bytes 0
      ⟨r.2.2.trust, r.2.2.dev.listEnds ch r.1 r.2.1⟩ := by
  have goes : ¬ ((x.dev.chState ch ≠ 2 ∧ x.dev.chState ch ≠ 3) ∨ x.dev.hostShut = true ∨ cx.typ ≠ 3 ∨ j.kind ≠ 3 ∨ (!j.whole) = true) := by
    simp [running, isOpen, typ, list, whole]
  simp only [Reach.writeList, ctx, job]
  rw [if_neg goes]
  rfl

/-- A single good record is one write. -/
theorem Reach.runRecords_one {b : List Byte} (one : b.length = 8) (space : bits (leNat (b.take 4)) 29 3 ≤ 1)
    (aligned : bits (leNat (b.take 4)) 0 29 % 4 = 0) :
    x.runRecords (b.length / 8) b 0 =
      (1, true, x.write (bits (leNat (b.take 4)) 29 3) (bits (leNat (b.take 4)) 0 29) (BitVec.ofNat 32 (leNat (slice b 4 4))) 15 0xFFFF) := by
  have good : ¬ (bits (leNat (b.take 4)) 29 3 > 1 ∨ bits (leNat (b.take 4)) 0 29 % 4 ≠ 0) := by omega
  rw [one, show 8 / 8 = 1 from rfl, Reach.runRecords, if_neg (by omega)]
  dsimp only
  rw [if_neg good, Reach.runRecords]

end

/-! The commands -/

section
variable (s : State) (ch : Fin 1024)

theorem exec_puntDelivery : exec (.puntDelivery ch) s = .next { s with dev := s.dev.puntDelivery ch.val } := rfl

theorem exec_inject : exec (.inject ch) s = .next { s with dev := s.dev.inject ch.val } := rfl

theorem exec_writeList {y : Reach} (runs : (⟨s.trust, s.dev⟩ : Reach).writeList ch.val = y) :
    exec (.writeList ch) s = .next { s with trust := y.trust, dev := y.dev } := by
  subst runs
  rfl

end

/-- Settles O56: the packet at the front of the staging by its frame, its channel and its buffer, a packet from the host, and a record of a
write list. -/
theorem packetsCrossTheHost : Obligations.PacketsCrossTheHost := by
  unfold Obligations.PacketsCrossTheHost
  intro s ch h p l cx e r j
  refine ⟨fun empty => ?empty, fun front arrives => ?arriving, fun front punt mine on held whole bad => ?bad,
    fun front punt mine on held whole good => ⟨fun closed => ?dropped,
      fun running awake up jobless cached ctx toHost descs free some_ fits => ?delivered⟩,
    fun ctx job packet whole running isOpen => ⟨fun fromHost span descs injects room unwaiting f cells => ?injected,
      fun typ one space aligned => ?listed⟩, fun idle => ⟨?noInject, ?noList⟩⟩
  case empty => exact (exec_puntDelivery s ch).trans (next_dev (Dev.puntDelivery_empty empty))
  case arriving => exact (exec_puntDelivery s ch).trans (next_dev (Dev.puntDelivery_arriving front arrives))
  case bad =>
    subst punt
    exact (exec_puntDelivery s ch).trans (next_dev (Dev.puntDelivery_bad front mine on whole held bad))
  case dropped =>
    subst punt
    exact (exec_puntDelivery s ch).trans (next_dev (Dev.puntDelivery_dropped front mine on whole good closed))
  case delivered =>
    subst punt
    exact (exec_puntDelivery s ch).trans (next_dev (Dev.puntDelivery_delivers front mine on whole good held running awake up jobless cached ctx
      toHost descs free rfl some_ fits))
  case injected =>
    have enters := Dev.inject_enters ctx job packet whole running isOpen fromHost span descs injects room unwaiting cells
    rw [Dev.injectEnds_one] at enters
    exact (exec_inject s ch).trans (next_dev enters)
  case listed =>
    have runs := Reach.writeList_runs (x := ⟨s.trust, s.dev⟩) ctx job packet whole running isOpen typ
    rw [Reach.runRecords_one one space aligned] at runs
    exact exec_writeList s ch runs
  case noInject => exact (exec_inject s ch).trans (next_dev (Dev.inject_idle idle))
  case noList => exact exec_writeList s ch (Reach.writeList_idle idle)

end Sys2Proof.Machine
end

section
/-! Ulux ports and the cells that arrive on them (R370–R372, R379). -/

namespace Sys2Proof.Machine

section
variable {d : Dev} {p : Nat}

/-! The state of a port (R371) -/

theorem Dev.pageOn_of_uUp (up : d.uUp p = true) : d.pageOn (uPage p) = true := (Bool.and_eq_true_iff.1 up).1

theorem Dev.uState_of_uUp (up : d.uUp p = true) : d.uState p = 3 := beq_iff_eq.1 (Bool.and_eq_true_iff.1 up).2

theorem Dev.setUState_moves {st : Nat} (moves : d.uState p ≠ st) (untrained : st ≠ 1) :
    d.setUState p st = (d.set (uPage p) (F.ULX_PORT_STAT_STATE.at (4 * (p % 8))) st).int (uPage p) 0 :=
  (if_neg moves).trans (if_neg untrained)

theorem Dev.ulxAligned_trains (on : d.pageOn (uPage p) = true) (trains : d.uState p = 1) :
    d.ulxAligned p = (d.set (uPage p) (F.ULX_PORT_STAT_STATE.at (4 * (p % 8))) 2).int (uPage p) 0 :=
  (if_pos ⟨on, trains⟩).trans (Dev.setUState_moves (by rw [trains]; decide) (by decide))

theorem Dev.ulxAligned_other (other : d.uState p ≠ 1) : d.ulxAligned p = d := if_neg fun trains => other trains.2

/-- The fields of the HELLO that a port sends (R371). -/
def Dev.helloFields (d : Dev) (p : Nat) : List Nat :=
  [d.power.uxId, p, b2n (d.uport p).restart, d.initCred (p / 8) 0, d.initCred (p / 8) 1, d.initCred (p / 8) 2, d.initCred (p / 8) 3,
    d.live (ulxPage (p / 8)) F.ULX_CFG_MEMBERS]

theorem Dev.helloSend_init (on : d.pageOn (uPage p) = true) (init : d.uState p = 2) :
    d.helloSend p = d.ulxSend p 3 ((d.helloFields p).map (BitVec.ofNat 8)) := if_neg (by simp [on, init])

theorem Dev.helloSend_other (other : d.uState p ≠ 2) : d.helloSend p = d := if_pos (by simp [other])

theorem Dev.ulxLoss_up (up : d.uUp p = true) : d.ulxLoss p = d.leaveUp p (if d.running (uPage p) then 1 else 0) := if_pos up

theorem Dev.ulxLoss_down (down : d.uUp p = false) : d.ulxLoss p = d := if_neg (by rw [down]; decide)

/-! Arriving cells (R370, R372) -/

variable {cell : List Byte}

theorem Dev.ulxArrive_down {kind : Nat} (down : d.pageOn (uPage p) = false ∨ d.uState p < 2) : d.ulxArrive p cell kind = (false, d) :=
  if_pos (by
    obtain off | early := down
    · simp [off]
    · simp [early])

/-- A port whose page answers, past TRAIN, hears cells. -/
theorem Dev.hears (on : d.pageOn (uPage p) = true) (trained : 2 ≤ d.uState p) : ¬ (!d.pageOn (uPage p) || decide (d.uState p < 2)) = true := by
  rw [on, decide_eq_false (Nat.not_lt.2 trained)]
  decide

theorem Dev.hears_up (up : d.uUp p = true) : ¬ (!d.pageOn (uPage p) || decide (d.uState p < 2)) = true :=
  Dev.hears (Dev.pageOn_of_uUp up) (by rw [Dev.uState_of_uUp up]; decide)

/-- A HELLO is judged by its kind alone. -/
theorem Dev.ulxArrive_hello (on : d.pageOn (uPage p) = true) (trained : 2 ≤ d.uState p) (good : ucellOk cell = true)
    (hello : (cellHdr cell).kind = 3) : d.ulxArrive p cell 3 = (true, d) := by
  rw [Dev.ulxArrive, if_neg (Dev.hears on trained), if_neg (by rw [good]; decide)]
  dsimp only
  rw [hello, if_neg (by decide), if_neg (by decide), if_pos rfl]

/-- The domains that the page of a die's links goes by. -/
theorem Dev.pageOn_ulx (d : Dev) {die : Nat} (side : die < 2) : d.pageOn (ulxPage die) = (d.domOn (22 + die) && (die == 0 || d.domOn 27)) := by
  obtain rfl | rfl : die = 0 ∨ die = 1 := by omega
  · rfl
  · rfl

/-- A count of the links' page is no domain's state and no port's. -/
theorem Dev.uUp_set (d : Dev) (port : p < 16) {f : Fld} (v : Nat) (high : 0x0900 ≤ f.off) (low : f.off < 65536) :
    (d.set (uPage p) f v).uUp p = d.uUp p := by
  have domain (n : Nat) (known : n < 30) : (d.set (uPage p) f v).domOn n = d.domOn n := by
    unfold Dev.domOn Dev.domState
    rw [Dev.get_set_ne _ _ _ _ _ _ (by simp only [Fld.at, csrKey, uPage, ulxPage]; omega)]
  unfold Dev.uUp Dev.uState
  rw [uPage, Dev.pageOn_ulx _ (by omega), Dev.pageOn_ulx _ (by omega), ← uPage, domain _ (by omega), domain _ (by omega),
    Dev.get_set_ne _ _ _ _ _ _ (by simp only [Fld.at, csrKey]; omega)]

theorem Dev.uUp_bump (d : Dev) (port : p < 16) {f : Fld} (high : 0x0900 ≤ f.off) (low : f.off < 65536) : (d.bump (uPage p) f).uUp p = d.uUp p := by
  unfold Dev.bump Dev.tally
  split
  · rfl
  · exact d.uUp_set port _ high low

theorem Dev.ulxArrive_bad {kind : Nat} (port : p < 16) (up : d.uUp p = true) (bad : ucellOk cell = false) :
    d.ulxArrive p cell kind = (false, (d.bump (uPage p) (F.ULX_PORT_CNT_COUNT.at (16 * (p % 8) + 4))).ulxNak p) := by
  have still : (d.bump (uPage p) (F.ULX_PORT_CNT_COUNT.at (16 * (p % 8) + 4))).uUp p = true := (d.uUp_bump port (by simp only [Fld.at]; omega) (by simp only [Fld.at]; omega)).trans up
  rw [Dev.ulxArrive, if_neg (Dev.hears_up up), if_pos (by rw [bad]; rfl)]
  dsimp only
  rw [if_pos still]

/-- A port with the ACK, CRED and REACH of a cell taken (R370). -/
def Dev.acked (d : Dev) (p : Nat) (cell : List Byte) : UlxPort :=
  let x := d.uport p
  let h := cellHdr cell
  let left := match x.replay.findIdx? (·.lseq = h.ack) with | some i => x.replay.drop (i + 1) | none => x.replay
  { x with replay := left, cred := (List.range 4).map fun v => x.cred.getD v 0 + h.cred.getD v 0, reach := h.reach }

theorem Dev.ulxArrive_good {kind : Nat} (up : d.uUp p = true) (good : ucellOk cell = true) (same : (cellHdr cell).kind = kind) (known : kind ≤ 4)
    (plain : kind ≠ 3) (reach : (cellHdr cell).reach = (d.uport p).reach) : d.ulxArrive p cell kind = (true, d.setUport p (d.acked p cell)) := by
  subst same
  rw [Dev.ulxArrive, if_neg (Dev.hears_up up), if_neg (by rw [good]; decide)]
  dsimp only
  rw [if_neg (Nat.not_lt.2 known), if_neg (not_not.2 rfl), if_neg plain, if_neg (by rw [up]; decide), if_pos reach]
  rfl

theorem Dev.uport_setUport (d : Dev) (p : Nat) (x : UlxPort) : (d.setUport p x).uport p = x := Map.rd_wr_same ..

theorem Dev.setUport_setUport (d : Dev) (p : Nat) (x y : UlxPort) : (d.setUport p x).setUport p y = d.setUport p y := by
  unfold Dev.setUport Dev.setUlx
  rw [Map.wr_wr]

/-! Received cells by their kind -/

theorem Dev.nullReceive_down (down : d.pageOn (uPage p) = false ∨ d.uState p < 2) : d.nullReceive p cell = d := by
  rw [Dev.nullReceive, Dev.ulxArrive_down down]

theorem Dev.nakReceive_down (down : d.pageOn (uPage p) = false ∨ d.uState p < 2) : d.nakReceive p cell = d := by
  rw [Dev.nakReceive, Dev.ulxArrive_down down]

theorem Dev.ulxData_down (down : d.pageOn (uPage p) = false ∨ d.uState p < 2) : d.ulxData p cell = d := by
  rw [Dev.ulxData, Dev.ulxArrive_down down]

section
variable (port : p < 16) (up : d.uUp p = true) (bad : ucellOk cell = false)
include port up bad

theorem Dev.nullReceive_bad : d.nullReceive p cell = (d.bump (uPage p) (F.ULX_PORT_CNT_COUNT.at (16 * (p % 8) + 4))).ulxNak p := by
  rw [Dev.nullReceive, Dev.ulxArrive_bad port up bad]

theorem Dev.nakReceive_bad : d.nakReceive p cell = (d.bump (uPage p) (F.ULX_PORT_CNT_COUNT.at (16 * (p % 8) + 4))).ulxNak p := by
  rw [Dev.nakReceive, Dev.ulxArrive_bad port up bad]

theorem Dev.ulxData_bad : d.ulxData p cell = (d.bump (uPage p) (F.ULX_PORT_CNT_COUNT.at (16 * (p % 8) + 4))).ulxNak p := by
  rw [Dev.ulxData, Dev.ulxArrive_bad port up bad]

end

/-- A DATA cell in sequence is acknowledged from then on (R372). -/
theorem Dev.ulxInOrder_next (next : (cellHdr cell).lseq = ((d.uport p).ack + 1) % 4096) :
    (d.setUport p (d.acked p cell)).ulxInOrder p cell =
      (true, d.setUport p { d.acked p cell with ack := (cellHdr cell).lseq, nak := false }) := by
  rw [Dev.ulxInOrder]
  simp only [Dev.uport_setUport, Dev.setUport_setUport]
  exact if_pos next

theorem Dev.ulxInOrder_broken (broken : (cellHdr cell).lseq ≠ ((d.uport p).ack + 1) % 4096) :
    (d.setUport p (d.acked p cell)).ulxInOrder p cell = (false, (d.setUport p (d.acked p cell)).ulxNak p) := by
  rw [Dev.ulxInOrder]
  simp only [Dev.uport_setUport]
  exact if_neg broken

section
variable (up : d.uUp p = true) (good : ucellOk cell = true) (reach : (cellHdr cell).reach = (d.uport p).reach)
include up good reach

theorem Dev.nullReceive_good (kind : (cellHdr cell).kind = 0) : d.nullReceive p cell = d.setUport p (d.acked p cell) := by
  rw [Dev.nullReceive, Dev.ulxArrive_good up good kind (by decide) (by decide) reach]

theorem Dev.nakReceive_good (kind : (cellHdr cell).kind = 2) : d.nakReceive p cell = (d.setUport p (d.acked p cell)).replay p := by
  rw [Dev.nakReceive, Dev.ulxArrive_good up good kind (by decide) (by decide) reach]

variable (kind : (cellHdr cell).kind = 1) (packet : (cellHdr cell).vc < 2)
include kind packet

theorem Dev.ulxData_next (next : (cellHdr cell).lseq = ((d.uport p).ack + 1) % 4096) :
    d.ulxData p cell =
      (d.setUport p { d.acked p cell with
        ack := (cellHdr cell).lseq, nak := false, rx := (d.acked p cell).rx ++ [⟨(cellHdr cell).vc, slice cell 8 244⟩] }).pumpRx := by
  rw [Dev.ulxData, Dev.ulxArrive_good up good kind (by decide) (by decide) reach]
  dsimp only
  rw [if_neg (Nat.not_le.2 packet), Dev.ulxInOrder_next next]
  simp only [Dev.uport_setUport, Dev.setUport_setUport]

theorem Dev.ulxData_broken (broken : (cellHdr cell).lseq ≠ ((d.uport p).ack + 1) % 4096) :
    d.ulxData p cell = (d.setUport p (d.acked p cell)).ulxNak p := by
  rw [Dev.ulxData, Dev.ulxArrive_good up good kind (by decide) (by decide) reach]
  dsimp only
  rw [if_neg (Nat.not_le.2 packet), Dev.ulxInOrder_broken broken]

end

/-! HELLO (R371) -/

/-- A byte of a HELLO. -/
def helloByte (cell : List Byte) (i : Nat) : Nat := beAt cell (8 + i) 1

/-- A port of the set to a device is wired to that device's port, the spare port of a device in DIAGNOSTIC to itself (R368). -/
def Dev.helloWired (d : Dev) (p : Nat) (cell : List Byte) : Bool := match d.uPeer p with
  | some e => helloByte cell 0 == e && helloByte cell 1 == 10 - 5 * (p / 5) + p % 5
  | none => d.mode == 5 && helloByte cell 0 == d.power.uxId && helloByte cell 1 == 15

/-- The device with the peer of a port shown. -/
def Dev.peerShown (d : Dev) (p : Nat) (cell : List Byte) : Dev :=
  (d.set (uPage p) (F.ULX_PORT_STAT_PEER_DEV.at (4 * (p % 8))) (helloByte cell 0)).set (uPage p)
    (F.ULX_PORT_STAT_PEER_PORT.at (4 * (p % 8))) (helloByte cell 1)

/-- The peer that a HELLO names is the one wired, with the same members. -/
def Dev.helloGood (d : Dev) (p : Nat) (cell : List Byte) : Bool :=
  d.helloWired p cell && helloByte cell 7 == (d.peerShown p cell).live (ulxPage (p / 8)) F.ULX_CFG_MEMBERS

section
variable (on : d.pageOn (uPage p) = true) (good : ucellOk cell = true) (hello : (cellHdr cell).kind = 3)
include on good hello

theorem Dev.helloReceive_other (trained : 2 ≤ d.uState p) (other : d.uState p ≠ 2) : d.helloReceive p cell = d := by
  rw [Dev.helloReceive, Dev.ulxArrive_hello on trained good hello]
  exact if_pos other

variable (init : d.uState p = 2) (plain : bit (beAt cell 10 1) 0 = false)
include init plain

theorem Dev.helloReceive_init : d.helloReceive p cell =
    if d.helloGood p cell then
      let x := (d.peerShown p cell).uport p
      (((d.peerShown p cell).setUport p { x with
        lseq := 4095, ack := 4095, nak := false, replay := [], restart := false, owed := [0, 0, 0, 0],
        cred := [helloByte cell 3, helloByte cell 4, helloByte cell 5, helloByte cell 6] }).setUState p 3).updReach
    else ((d.peerShown p cell).setUState p 4).err (uPage p) 0x22 p (helloByte cell 0 + helloByte cell 1 * 256 + helloByte cell 7 * 65536) := by
  have noRestart : (if bit (beAt cell (8 + 2) 1) 0 = true then d.restartStreams (beAt cell (8 + 0) 1 % 4) else d) = d :=
    if_neg (by rw [show beAt cell (8 + 2) 1 = beAt cell 10 1 from rfl, plain]; decide)
  rw [Dev.helloReceive, Dev.ulxArrive_hello on (by omega) good hello]
  dsimp only
  rw [if_neg (not_not.2 init), noRestart]
  rfl

theorem Dev.helloReceive_good (agrees : d.helloGood p cell = true) : d.helloReceive p cell =
    (((d.peerShown p cell).setUport p { (d.peerShown p cell).uport p with
      lseq := 4095, ack := 4095, nak := false, replay := [], restart := false, owed := [0, 0, 0, 0],
      cred := [helloByte cell 3, helloByte cell 4, helloByte cell 5, helloByte cell 6] }).setUState p 3).updReach :=
  (Dev.helloReceive_init on good hello init plain).trans (if_pos agrees)

theorem Dev.helloReceive_miswired (differs : d.helloGood p cell = false) : d.helloReceive p cell =
    ((d.peerShown p cell).setUState p 4).err (uPage p) 0x22 p (helloByte cell 0 + helloByte cell 1 * 256 + helloByte cell 7 * 65536) :=
  (Dev.helloReceive_init on good hello init plain).trans (if_neg (by rw [differs]; decide))

end

end

/-! PORT_RETRAIN (R371) -/

/-- The register PORT_RETRAIN. -/
def retrainReg : RegDesc := ⟨0x0124, 1, 65536, 1, 4, .single, [⟨0, 8, .wo, 0, false⟩]⟩

theorem regAt_retrain (die : Fin 2) : regAt (ulxPage die.val) 0x0124 = some retrainReg := by revert die; decide

/-- Every byte is a choice of ports. -/
theorem retrain_actionOnly (v : BitVec 8) : retrainReg.actionOnly v.toNat = true := by
  have all : ∀ b : Fin 256, retrainReg.actionOnly b.val = true := by decide +kernel
  exact all ⟨v.toNat, v.isLt⟩

theorem isTrust_retrain (die : Fin 2) : isTrust (ulxPage die.val) 0x0124 = false := by revert die; decide

theorem ActsAt.retrain (d : Dev) (die : Fin 2) (v : BitVec 8) : ActsAt d (ulxPage die.val) 0x0124 v.toNat retrainReg where
  at_ := regAt_retrain die
  only := retrain_actionOnly v
  low := by decide
  mode := by rintro ⟨-, elsewhere⟩; exact absurd elsewhere (by decide)
  pwr := by unfold ulxPage; omega
  desc := by simp [pageKind_ulx]
  shown := by simp [Dev.shown, pageKind_ulx]
  keep := by simp [Dev.keepFields, pageKind_ulx]
  clamp := by simp [clampWord, pageKind_ulx]
  bound := by simp [Dev.boundCheck, pageKind_ulx]
  swc := by simp [pageKind_ulx]

theorem Dev.regWrite_retrain (d : Dev) (die : Fin 2) (v : BitVec 8) (req : Nat) :
    d.regWrite (ulxPage die.val) 0x0124 (v.setWidth 32) req = d.retrain die.val v.toNat := by
  have number : d.actNum (ulxPage die.val) 0x0124 v.toNat retrainReg = v.toNat := Dev.actNum_wo _ _ _ _ _ (by decide)
  have carried : v.setWidth 32 = BitVec.ofNat 32 (d.actNum (ulxPage die.val) 0x0124 v.toNat retrainReg) := by
    rw [number]
    exact BitVec.eq_of_toNat_eq (by simp)
  rw [carried, Dev.regWrite_action d _ _ _ req _ (ActsAt.retrain d die v) (by simp [Dev.ignores, pageKind_ulx])
    (by simp [Dev.actRefused, pageKind_ulx]), number]
  simp [Dev.act, pageKind_ulx, pageInst_ulx]

/-! The commands -/

section
variable (s : State) (port : Fin 16) (cell : List Byte)

theorem exec_ulxAligned : exec (.ulxAligned port) s = .next { s with dev := s.dev.ulxAligned port.val } := rfl

theorem exec_helloSend : exec (.helloSend port) s = .next { s with dev := s.dev.helloSend port.val } := rfl

theorem exec_hello : exec (.hello port cell) s = .next { s with dev := s.dev.helloReceive port.val cell } := rfl

theorem exec_ulxPortLeaveUp : exec (.ulxPortLeaveUp port) s = .next { s with dev := s.dev.ulxLoss port.val } := rfl

theorem exec_data : exec (.data port cell) s = .next { s with dev := s.dev.ulxData port.val cell } := rfl

theorem exec_null : exec (.null port cell) s = .next { s with dev := s.dev.nullReceive port.val cell } := rfl

theorem exec_nak : exec (.nak port cell) s = .next { s with dev := s.dev.nakReceive port.val cell } := rfl

theorem exec_portRetrain (die : Fin 2) (v : BitVec 8) (req : BitVec 16) (reach : s.dev.reachable (ulxPage die.val)) :
    exec (.portRetrain die (v.setWidth 32) 15 req) s = .next { s with dev := s.dev.retrain die.val v.toNat } :=
  runHost_eq _ s _ ((Reach.hostWrite_reg ⟨s.trust, s.dev⟩ _ 0x0124 _ req.toNat reach (by decide) (by decide)
    (isTrust_retrain die)).trans (by rw [Dev.regWrite_retrain]))

end

/-- Settles O57: a port's state by its commands and the HELLO it hears, and on an UP port each cell by its kind and its place in the
sequence. -/
theorem uluxLinksComeUpAndAcceptInOrder : Obligations.UluxLinksComeUpAndAcceptInOrder := by
  unfold Obligations.UluxLinksComeUpAndAcceptInOrder
  refine ⟨fun s port cell die v req => ⟨fun on trains => ?aligned, fun other => ?notTraining, fun on init => ?sends,
      fun other => ⟨?notInit, fun on good hello trained => ?unheard⟩,
      fun on init good hello plain => ⟨fun agrees => ?comesUp, fun differs => ?miswired⟩, fun up => ?leaves, fun down => ?isDown,
      fun reach => ?retrain⟩,
    fun s port cell => ⟨fun down => ⟨?dataDown, ?nullDown, ?nakDown⟩, fun up bad => ⟨?dataBad, ?nullBad, ?nakBad⟩,
      fun up good reach => ⟨fun kind => ?null, fun kind => ?nak, fun kind packet next => ?data, fun kind packet broken => ?gap⟩⟩⟩
  case aligned => exact (exec_ulxAligned s port).trans (next_dev (Dev.ulxAligned_trains on trains))
  case notTraining => exact (exec_ulxAligned s port).trans (next_dev (Dev.ulxAligned_other other))
  case sends => exact (exec_helloSend s port).trans (next_dev (Dev.helloSend_init on init))
  case notInit => exact (exec_helloSend s port).trans (next_dev (Dev.helloSend_other other))
  case unheard => exact (exec_hello s port cell).trans (next_dev (Dev.helloReceive_other on good hello trained other))
  case comesUp => exact (exec_hello s port cell).trans (next_dev (Dev.helloReceive_good on good hello init plain agrees))
  case miswired => exact (exec_hello s port cell).trans (next_dev (Dev.helloReceive_miswired on good hello init plain differs))
  case leaves => exact (exec_ulxPortLeaveUp s port).trans (next_dev (Dev.ulxLoss_up up))
  case isDown => exact (exec_ulxPortLeaveUp s port).trans (next_dev (Dev.ulxLoss_down down))
  case retrain => exact exec_portRetrain s die v req reach
  case dataDown => exact (exec_data s port cell).trans (next_dev (Dev.ulxData_down down))
  case nullDown => exact (exec_null s port cell).trans (next_dev (Dev.nullReceive_down down))
  case nakDown => exact (exec_nak s port cell).trans (next_dev (Dev.nakReceive_down down))
  case dataBad => exact (exec_data s port cell).trans (next_dev (Dev.ulxData_bad port.isLt up bad))
  case nullBad => exact (exec_null s port cell).trans (next_dev (Dev.nullReceive_bad port.isLt up bad))
  case nakBad => exact (exec_nak s port cell).trans (next_dev (Dev.nakReceive_bad port.isLt up bad))
  case null => exact (exec_null s port cell).trans (next_dev (Dev.nullReceive_good up good reach kind))
  case nak => exact (exec_nak s port cell).trans (next_dev (Dev.nakReceive_good up good reach kind))
  case data => exact (exec_data s port cell).trans (next_dev (Dev.ulxData_next up good reach kind packet next))
  case gap => exact (exec_data s port cell).trans (next_dev (Dev.ulxData_broken up good reach kind packet broken))

end Sys2Proof.Machine
end

section
/-! Mesh transactions and streams (R378–R381): a GO whose register store is not in canonical form. -/

namespace Sys2Proof.Machine

/-- Registers listed against the order of their keys: slot 0 of the west die's transactions with OP = 1, then domain 22 ON. -/
def unsortedWords : Map Word := [(csrKey (ulxPage 0) 0x0400, 2), (csrKey 0x02 ((F.PWR_DOM_STATE_STATE.at (4 * 22)).off), 3)]

/-- The device after reset, its registers listed so. -/
def unsortedState : State := { State.reset with dev := { Dev.reset with csr := ⟨unsortedWords, [], [], []⟩ } }

theorem unsortedState_reachable : unsortedState.dev.reachable (ulxPage 0) := by decide

theorem unsortedState_free : unsortedState.dev.txnHeld 0 0 = false := by decide

/-- The stored registers that a command leaves. -/
def wordsAfter : Host.Outcome State Fault Refusal → Map Word
  | .next t => t.dev.csr.words
  | _ => []

/-- OP is 1 already, so the host's write stores nothing and the listing stays; only the slot's status joins it, ULX not RUNNING. -/
theorem wordsAfter_txnRead : wordsAfter (exec (.txnRead 0 0 0) unsortedState) = unsortedWords ++ [(csrKey (ulxPage 0) 0x040C, 84)] := by decide

/-- Writing OP whatever it holds lists its register anew, in the place of its key. -/
theorem words_set_txnGo : ((unsortedState.dev.set (ulxPage 0) (F.ULX_TXN_OP.at (txnOff 0)) 1).txnGo 0 0).csr.words =
    unsortedWords.reverse ++ [(csrKey (ulxPage 0) 0x040C, 84)] := by decide

/-- Refutes O59: TXN_READ writes the slot's register only where its word changes, while the statement has OP written whatever it holds.
Where OP holds that value already and the store is not in canonical form (the statement speaks of every state), the registers read alike
after both, but that write moves an entry of the list. -/
theorem not_meshTransactionsAndStreams : ¬ Obligations.MeshTransactionsAndStreams := by
  unfold Obligations.MeshTransactionsAndStreams
  rintro ⟨-, transactions⟩
  obtain ⟨starts, -⟩ := transactions unsortedState 0 0 0 0 []
  obtain ⟨reads, -⟩ := starts unsortedState_reachable unsortedState_free
  have listings := (wordsAfter_txnRead.symm.trans (congrArg wordsAfter reads)).trans words_set_txnGo
  exact absurd listings (by decide)

end Sys2Proof.Machine
end
